-- ==== Sys2Proof/Syntax.lean ====
section
/-! DEFINITION. The commands of the block: one constructor per row of the opcode table, with the row's operands.
What the outside world supplies with a row (host data read, a measurement, a packet received) is an operand. -/

namespace Sys2Proof

/-- What a fetch of an SQ entry reads: the 64 bytes of a command packet, or a failed read (R88). -/
inductive Fetched where
  | packet (bytes : List Byte)
  | failed
deriving DecidableEq, Repr

/-- The outcome of a command's writes to host memory: all done, or failed after some bytes (R102). -/
inductive HostIo where
  | ok
  | fail (done : Nat)
deriving DecidableEq, Repr

/-- Host data that a command reads: the next bytes, or a failed access (R102). -/
inductive HostRead where
  | data (bytes : List Byte)
  | fail
deriving DecidableEq, Repr

/-- A BAR0 or BAR4 access: a read or a write of `size` bytes. -/
inductive RegAccess where
  | read (size : Nat)
  | write (size : Nat) (value : W64)
deriving DecidableEq, Repr

/-- A BAR2 access. -/
inductive Bar2 where
  | read (size : Nat)
  | write (bytes : List Byte)
deriving DecidableEq, Repr

/-- The BAR of a register access. -/
inductive HostBar where
  | bar0
  | bar4
deriving DecidableEq, Repr

/-- A defect queue or a stream ring: the rings with tail mirrors. -/
inductive MirrorRing where
  | defect (n : Fin 262144)
  | stream (n : Fin 256)
deriving DecidableEq, Repr

/-- What the boot flash on SP0 returns during start-up: whether one answers, its boot header and the two slots. -/
structure FlashContent where
  answers : Bool
  header : List Byte
  slotA : List Byte
  slotB : List Byte
deriving DecidableEq, Repr, Inhabited

/-- A Brynlink link: that of a headbox or of a felt port. -/
inductive LinkRef where
  | port (p : Fin 32)
  | felt (k : Fin 4)
deriving DecidableEq, Repr

/-- The framing of a received Brynlink packet (Table 7.4): the type, stream, SEQ and LEN of its SOP, and the CRC of its
EOP. -/
structure BrynPacket where
  ptype : BitVec 8
  stream : BitVec 8
  seq : BitVec 16
  len : BitVec 16
  crc : W32
deriving DecidableEq, Repr

/-- What a lane receives in state 5 (R129): a 66-bit block as it stands on the lane, its sync header, its 64 scrambled
bits and the 58 scrambled bits before them, the first on the lane in bit 0; or the four octets of an 8b/10b idle word. -/
inductive LaneWord where
  | block (before : BitVec 58) (header : BitVec 2) (word : W64)
  | idle (octets : List Byte)
deriving DecidableEq, Repr

/-- A CoaXPress packet on the stream channel: of the supported kind or not, its stream ID, the format code and row
bounds of its image, the samples it carries, and whether it arrived whole. -/
structure CxpPacket where
  supported : Bool
  stream : BitVec 8
  format : BitVec 8
  first : Bool
  last : Bool
  good : Bool
  samples : List Nat
deriving DecidableEq, Repr

/-- What a camera answers on its control and I/O channels: the discovery reads (connection IDs in lane order, connections
offered), the set-up to WIDTH connections at a speed (accepted or refused), a tagged write, or a trigger (its I/O
acknowledgement, Table 7.3). -/
inductive CxpAck where
  | discovery (ids : List Nat) (offered : Nat)
  | setup (speedOk : Bool)
  | write (tag status : BitVec 16)
  | io
deriving DecidableEq, Repr

/-- A cell of a knotter fragment from a neighbour (R257): row, global column, detection value in 1/4 count, background,
samples, levels, thermal tests and thermal difference, and whether its component is one of a REPROCESS (R270). -/
structure FragCell where
  row : W64
  col : W32
  x4 : W32
  mu : W32
  samples : List (BitVec 16)
  bright : Fin 5
  dark : Fin 5
  hot : Bool
  cold : Bool
  therm : Option W32
  reproc : Bool := false
deriving DecidableEq, Repr

/-- An output of a channel's decimation chain (R203, R204): the ADC codes within its FIR span, and what the filters make of
them, in counts of 1/4 LSB. The manual gives no filter coefficients: `filtered` is the outside's, and a steady input's
output follows from the DC gain (log entry 44). -/
structure TapOut where
  codes : List (BitVec 14)
  filtered : BitVec 16
deriving DecidableEq, Repr

/-- The outputs of one tap of a dryer row: blind and active. -/
structure TapRow where
  blind : List TapOut
  active : List TapOut
deriving DecidableEq, Repr

/-- An instruction of the test access port (Table 20.5), other than DBG_CHAL and DBG_RESP, which have rows of their own; for BYPASS
the bits shifted in. -/
inductive TapInstr where
  | bypass (tdi : List Bool)
  | idcode
  | samplePreload
  | extest
  | clamp
  | highz
deriving DecidableEq, Repr

/-- What a housekeeping conversion meets (R309, R310, R319): the signal at the input, before any divider, in µV (µA for input
30), and the departure in LSB of a path that the test DAC drives from the DAC's ideal code, at most 4 either way; none for a path
with leakage, an open switch or a damaged input, whose code is the low 12 bits of `signal`. -/
structure HkSignal where
  signal : W32
  err : Option (Fin 9)
deriving DecidableEq, Repr

/-- A calibration element of classes 1 to 3 (Table 18.1): an ADC channel, a housekeeping unit or a channel's current sense. -/
inductive CalTarget where
  | adc (i : Fin 64)
  | unit (u : Fin 4)
  | valve (n : Fin 16)
deriving DecidableEq, Repr

/-- A store word of the wires' tables: port, bank, item of Table 9.10 and byte offset in its image. -/
structure StoreWord where
  port : Fin 32
  bank : Fin 4
  item : Fin 9
  offset : Nat
deriving DecidableEq, Repr

/-- The route header of a felt packet (R412). -/
structure RouteHdr where
  dst : BitVec 8
  src : BitVec 8
  ttl : BitVec 8
deriving DecidableEq, Repr

/-- A felt ENUM packet, probe or reply (Table 21.3); a reply carries where its probe came from, and the answerer's
TB_NOW. A probe carries the TB_NOW at which its head sent it, and in mode 1 the map that it follows (R409). -/
structure EnumMsg where
  reply : Bool
  serial : List Byte
  id : BitVec 8
  port : Fin 4
  headSerial : List Byte
  via : List Byte
  viaPort : Fin 4
  tb : W64
  path : List Byte
deriving DecidableEq, Repr

/-- A forwarded BAR0 or BAR2 access, or its reply (Table 21.3). -/
inductive RegMsg where
  | reg (off : BitVec 20) (acc : RegAccess)
  | bar2 (addr : BitVec 37) (acc : Bar2)
  | reply (size : Nat) (value : Nat)
deriving DecidableEq, Repr

/-- A CTRL notice (Table 21.3): a join, an entry of the chain map, a route change, a loss, and a parent's CHAIN_SYNC with
the ASYM of its port. -/
inductive CtrlMsg where
  | join (id hops parent parentPort : BitVec 8) (serial headSerial : List Byte) (step : W64)
  | entry (dev : Fin 64) (nbIds nbPorts : List Nat)
  | link (dev : Fin 64) (port : Fin 4) (nb nbPort : BitVec 8)
  | loss (dev : Fin 64)
  | syncState (ok : Bool) (asym : Int)
deriving DecidableEq, Repr

/-- A felt HRD packet: a request for host memory with what the host returns at the head, or its data. -/
inductive HrdMsg where
  | request (addr : W64) (n : BitVec 13) (data : HostRead)
  | data (bytes : List Byte)
deriving DecidableEq, Repr

/-- The commands: one constructor per row of the opcode table. An opcode row names the command that it starts or carries
on by its SQ and tag. -/
inductive Instr where
  /-- IDENTIFY (R115). -/
  | identify (sq : Fin 1024) (tag : W32) (io : HostIo)
  /-- PROGRESS (R118). -/
  | progress (sq : Fin 1024) (tag : W32)
  /-- ABORT (R120). -/
  | abort (sq : Fin 1024) (tag : W32)
  /-- ECHO (R104). -/
  | echo (sq : Fin 1024) (tag : W32)
  /-- CFG_STAGE (R38). -/
  | cfgStage (sq : Fin 1024) (tag : W32) (data : HostRead)
  /-- CFG_COMMIT (R41). -/
  | cfgCommit (sq : Fin 1024) (tag : W32)
  /-- CFG_COMMIT_DISCARD (R41). -/
  | cfgCommitDiscard (sq : Fin 1024) (tag : W32)
  /-- CFG_READ (R46). -/
  | cfgRead (sq : Fin 1024) (tag : W32) (io : HostIo)
  /-- LANE_TRAIN (R134). -/
  | laneTrain (sq : Fin 1024) (tag : W32)
  /-- LANE_TEST (R137). -/
  | laneTest (sq : Fin 1024) (tag : W32)
  /-- PORT_START (R142). -/
  | portStart (sq : Fin 1024) (tag : W32)
  /-- PORT_STOP (R142). -/
  | portStop (sq : Fin 1024) (tag : W32)
  /-- TABLE_LOAD (R109). -/
  | tableLoad (sq : Fin 1024) (tag : W32) (data : HostRead)
  /-- REPROCESS (R179). -/
  | reprocess (sq : Fin 1024) (tag : W32)
  /-- SHUTTER (R223). -/
  | shutter (sq : Fin 1024) (tag : W32)
  /-- RULES_LOAD (R260). -/
  | rulesLoad (sq : Fin 1024) (tag : W32) (data : HostRead)
  /-- QUEUE_CREATE (R80). -/
  | queueCreate (sq : Fin 1024) (tag : W32)
  /-- QUEUE_DELETE (R83). -/
  | queueDelete (sq : Fin 1024) (tag : W32)
  /-- MARK_FIRE (R110). -/
  | markFire (sq : Fin 1024) (tag : W32)
  /-- ADC_SELFCAL (R318). -/
  | adcSelfcal (sq : Fin 1024) (tag : W32)
  /-- CALIBRATE (R361). -/
  | calibrate (sq : Fin 1024) (tag : W32) (tests : List Bool)
  /-- NVM_READ (R378). -/
  | nvmRead (sq : Fin 1024) (tag : W32) (io : HostIo)
  /-- NVM_WRITE (R377). -/
  | nvmWrite (sq : Fin 1024) (tag : W32) (data : HostRead)
  /-- ATTEST (R401). -/
  | attest (sq : Fin 1024) (tag : W32) (io : HostIo)
  /-- FW_STAGE (R395). -/
  | fwStage (sq : Fin 1024) (tag : W32) (data : HostRead) (n : Nat) (back : List Byte)
  /-- FW_ACTIVATE (R398). -/
  | fwActivate (sq : Fin 1024) (tag : W32) (image : List Byte)
  /-- CERT_READ (R392). -/
  | certRead (sq : Fin 1024) (tag : W32) (io : HostIo)
  /-- BIST_RUN (R427). -/
  | bistRun (sq : Fin 1024) (tag : W32)
  /-- WIRE_SWAP (R176). -/
  | wireSwap (sq : Fin 1024) (tag : W32)
  /-- CHAIN_ENUM (R408). -/
  | chainEnum (sq : Fin 1024) (tag : W32) (io : HostIo)
  /-- COMMAND_FETCH (R91). -/
  | commandFetch (sq : Fin 1024) (entry : Fetched)
  /-- INTERIM_COMPLETION (R117). -/
  | interimCompletion (sq : Fin 1024) (tag : W32)
  /-- PAIR0_CREATE (R82). -/
  | pair0Create (value : W32)
  /-- PAIR0_DELETE (R82). -/
  | pair0Delete (value : W32)
  /-- DB_SQ_TAIL (R88). -/
  | dbSqTail (q : Fin 1024) (v : W32)
  /-- DB_CQ_HEAD (R88). -/
  | dbCqHead (q : Fin 1024) (v : W32)
  /-- DB_SR_HEAD (R88). -/
  | dbSrHead (r : Fin 256) (v : W32)
  /-- DB_EVT_HEAD (R88). -/
  | dbEvtHead (e : Fin 64) (v : W32)
  /-- DB_DQ_HEAD (R88). -/
  | dbDqHead (v : W32)
  /-- DOORBELL_PAGE_WRITE (R99). -/
  | doorbellPageWrite (dev : Fin 64) (off : BitVec 16) (v : W32)
  /-- GLB_BAR2_BASE (R77). -/
  | glbBar2Base (v : W64)
  /-- BAR2_ACCESS (R78). -/
  | bar2Access (off : BitVec 36) (acc : Bar2)
  /-- FORWARDED_ACCESS (R100). -/
  | forwardedAccess (off : BitVec 20) (acc : RegAccess)
  /-- EVT_GRP (R95). -/
  | evtGrp (g : Fin 160) (v : W32)
  /-- EVT_PEND (R94). -/
  | evtPend (w : Fin 16) (v : W32) (met : Option (Fin 32 × BitVec 8 × W32))
  /-- MRK_ARM (R292). -/
  | mrkArm (v : W32)
  /-- WIRE_HIST_LOOKUP (R288). -/
  | wireHistLookup (v : W64)
  /-- HK_SWTRIG (R314). -/
  | hkSwtrig (u : Fin 4) (v : W32)
  /-- MASTER_GO (R328). -/
  | masterGo (port : Fin 4) (v : W32)
  /-- REGISTER_WRITE (R4). -/
  | registerWrite (bar : HostBar) (off : BitVec 24) (size : Nat) (v : W64)
  /-- REGISTER_READ_CLEAR (R4). -/
  | registerReadClear (bar : HostBar) (off : BitVec 24) (size : Nat)
  /-- SPLIT_READ_LOW (R33). -/
  | splitReadLow (off : BitVec 24)
  /-- SPLIT_READ_HIGH (R33). -/
  | splitReadHigh (off : BitVec 24)
  /-- POWER_VALID (R59). -/
  | powerValid (flash : FlashContent) (temps : List Int)
  /-- DEVICE_READY (R59). -/
  | deviceReady
  /-- PROFILE_IMAGE_LOADED (R64). -/
  | profileImageLoaded (crc : W32) (image : List Byte)
  /-- THERMAL_HOLD_CHECK (R66). -/
  | thermalHoldCheck (temps : List Int)
  /-- BROWN_OUT (R53). -/
  | brownOut (rail : Fin 12)
  /-- RAIL_DIP (R52). -/
  | railDip (rail : Fin 13) (back : Bool)
  /-- SYS_RST_N (R67). -/
  | sysRstN (lowNs : Nat) (taken : Bool)
  /-- PERST_N (R68). -/
  | perstN
  /-- FUNCTION_LEVEL_RESET (R74). -/
  | functionLevelReset
  /-- D3HOT_ENTRY (R74). -/
  | d3hotEntry
  /-- DL_DOWN (R74). -/
  | dlDown
  /-- BUS_MASTER_ENABLE (R75). -/
  | busMasterEnable (on : Bool)
  /-- VVALVE_OUT (R307). -/
  | vvalveOut (mv : W32)
  /-- VVALVE_OK (R307). -/
  | vvalveOk (mv : W32)
  /-- XTAL_FAIL (R28). -/
  | xtalFail
  /-- XTAL_OK (R28). -/
  | xtalOk
  /-- AFE_KEEPALIVE (R8). -/
  | afeKeepalive
  /-- AFE_LINK (R8). -/
  | afeLink
  /-- AFE_LINK_RESTORED (R8). -/
  | afeLinkRestored
  /-- TENDER_WATCHDOG (R19). -/
  | tenderWatchdog (t : Fin 4)
  /-- TENDER_RESTART_END (R20). -/
  | tenderRestartEnd (t : Fin 4)
  /-- RATE_WINDOW_END (R23). -/
  | rateWindowEnd (caps : List Nat)
  /-- COMMIT_BOUNDARY (R43). -/
  | commitBoundary (blk : BitVec 8) (inst : BitVec 8)
  /-- GROUP_TIMER (R95). -/
  | groupTimer (g : Fin 160)
  /-- TAIL_MIRROR_WRITE (R87). -/
  | tailMirrorWrite (r : MirrorRing)
  /-- RECORD_DELIVERY (R264). -/
  | recordDelivery
  /-- LANE_SIGNAL_DETECT (R131). -/
  | laneSignalDetect (n : Fin 80)
  /-- LANE_CDR_LOCK (R123). -/
  | laneCdrLock (n : Fin 80)
  /-- LANE_EQ_DONE (R126). -/
  | laneEqDone (n : Fin 80) (ctle : Fin 16)
  /-- DFE_ADAPT_STEP (R126). -/
  | dfeAdaptStep (n : Fin 80) (up down : BitVec 5)
  /-- LANE_ALIGNED (R128). -/
  | laneAligned (n : Fin 80)
  /-- LANE_RELOCK (R129). -/
  | laneRelock (n : Fin 80) (rx : LaneWord)
  /-- LANE_UNLOCK (R131). -/
  | laneUnlock (n : Fin 80) (reason : Fin 4) (bad : List Bool)
  /-- LANE_RETRAIN_TIMEOUT (R132). -/
  | laneRetrainTimeout (n : Fin 80)
  /-- LOCK_FAIL (R132). -/
  | lockFail (n : Fin 80)
  /-- PRBS_SYNC (R138). -/
  | prbsSync (n : Fin 80) (rx : List Bool)
  /-- PRBS_SYNC_LOSS (R138). -/
  | prbsSyncLoss (n : Fin 80) (rx : List Bool)
  /-- TRAIN (R151). -/
  | train (r : LinkRef) (blocks : List (List Byte))
  /-- AM (R150). -/
  | am (r : LinkRef) (blocks : List (List Byte)) (skew : Nat)
  /-- AM_SEND (R150). -/
  | amSend (r : LinkRef)
  /-- LINE_DATA (R148). -/
  | lineData (p : Fin 32) (pkt : BrynPacket) (payload : List Byte)
  /-- REG_ACK (R160). -/
  | regAck (p : Fin 32) (pkt : BrynPacket) (payload : List Byte)
  /-- WIDTH_ACK (R152). -/
  | widthAck (r : LinkRef) (pkt : BrynPacket) (payload : List Byte)
  /-- LINK_FAULT (R152). -/
  | linkFault (r : LinkRef) (unlock : Bool)
  /-- LINK_STATE_TIMEOUT (R151). -/
  | linkStateTimeout (r : LinkRef)
  /-- RECOVERY_END (R151). -/
  | recoveryEnd (r : LinkRef)
  /-- FULL_WIDTH_REQUEST (R152). -/
  | fullWidthRequest (r : LinkRef)
  /-- CREDIT (R149). -/
  | credit (r : LinkRef)
  /-- CXP_STREAM_PACKET (R144). -/
  | cxpStreamPacket (p : Fin 32) (conn : Fin 4) (pkt : CxpPacket)
  /-- CXP_CONTROL_ACK (R160). -/
  | cxpControlAck (p : Fin 32) (ack : CxpAck)
  /-- CXP_HEARTBEAT (R146). -/
  | cxpHeartbeat (p : Fin 32)
  /-- HEARTBEAT_LOST (R146). -/
  | heartbeatLost (p : Fin 32)
  /-- DISCOVERY_FAIL (R145). -/
  | discoveryFail (p : Fin 32)
  /-- TRIGGER_ENCODER (R153). -/
  | triggerEncoder (p : Fin 32)
  /-- TRIGGER_TIMER (R153). -/
  | triggerTimer (p : Fin 32)
  /-- TRIG_LOST (R154). -/
  | trigLost (p : Fin 32)
  /-- LINE_TIMEOUT (R156). -/
  | lineTimeout (p : Fin 32)
  /-- DROPPED_LINE_PERIOD (R158). -/
  | droppedLinePeriod (p : Fin 32)
  /-- SET_ACK_TIMEOUT (R160, R227): headbox 0 to 31, or 32 + p for dryer port p. -/
  | setAckTimeout (p : Fin 36)
  /-- WIRE_SERVE (R171). -/
  | wireServe (w : Fin 9)
  /-- WIRE_LINE_EXIT (R171). -/
  | wireLineExit (w : Fin 9)
  /-- DEADLINE (R173). -/
  | deadline (w : Fin 9) (p : Fin 32)
  /-- SWAP_HANDOVER (R177). -/
  | swapHandover
  /-- SWAP_DONE (R177). -/
  | swapDone
  /-- COUCH_LINE (R230). -/
  | couchLine (p : Fin 32)
  /-- ROW_EMIT (R236). -/
  | rowEmit
  /-- ROW_TIMEOUT (R236). -/
  | rowTimeout
  /-- THERMAL_ROW_MAP (R238). -/
  | thermalRowMap (p : Fin 4)
  /-- THERMAL_ROW_EMIT (R240). -/
  | thermalRowEmit
  /-- THERM_TIMEOUT (R240). -/
  | thermTimeout
  /-- EDGE (R242). -/
  | edge (k : Fin 4) (row : W64) (desc : W32) (cols : List (Nat × List Nat × Nat))
  /-- KNOTTER_ROW (R250). -/
  | knotterRow (k : Fin 8)
  /-- MERGER_COMPONENT (R258). -/
  | mergerComponent
  /-- FRAG (R257). -/
  | frag (k : Fin 4) (cells : List FragCell) (part split : Bool)
  /-- MERGE_TIMEOUT (R257). -/
  | mergeTimeout
  /-- TILE_WRITE (R285). -/
  | tileWrite
  /-- REEL_ROW (R277). -/
  | reelRow (r : Fin 64)
  /-- REEL_UNIT_TIMEOUT (R279). -/
  | reelUnitTimeout (r : Fin 64)
  /-- FRAME_SYNC (R217). -/
  | frameSync (p : Fin 4)
  /-- DRYER_ROW (R206). -/
  | dryerRow (p : Fin 4) (tl : W64) (taps : List TapRow)
  /-- THERMAL_PIPE_ROW (R209). -/
  | thermalPipeRow (p : Fin 4)
  /-- FRAME_TIMEOUT (R225). -/
  | frameTimeout (p : Fin 4)
  /-- DRIFT_REFINE (R220). -/
  | driftRefine (p : Fin 4)
  /-- MARKER_JOB (R301). -/
  | markerJob (n : Fin 16)
  /-- DRIVE_START (R299). -/
  | driveStart (n : Fin 16)
  /-- PEAK_PHASE_END (R294). -/
  | peakPhaseEnd (n : Fin 16) (ma : BitVec 16)
  /-- DRIVE_END (R299). -/
  | driveEnd (n : Fin 16)
  /-- DECAY_END (R294). -/
  | decayEnd (n : Fin 16)
  /-- HEADROOM_RETRY (R305). -/
  | headroomRetry (n : Fin 16)
  /-- COIL_UPDATE (R297). -/
  | coilUpdate
  /-- SENSE_INSTANT (R297). -/
  | senseInstant (n : Fin 16)
  /-- OVERCURRENT (R296). -/
  | overcurrent (n : Fin 16)
  /-- HS_OVERCURRENT (R296). -/
  | hsOvercurrent (m : Fin 4)
  /-- HK_CONVERSION_END (R313). -/
  | hkConversionEnd (u : Fin 4) (sig : HkSignal)
  /-- INJECTED_START (R315). -/
  | injectedStart (u : Fin 4)
  /-- SELFCAL_DONE (R317). -/
  | selfcalDone (u : Fin 4) (ofs gain : BitVec 16)
  /-- MASTER_DONE (R328). -/
  | masterDone (port : Fin 4) (data : List Byte)
  /-- SLAVE_READ_FRAME (R330). -/
  | slaveReadFrame (port : Fin 4) (reg : BitVec 7) (edges : Nat) (late : Bool)
  /-- SLAVE_WRITE_FRAME (R332). -/
  | slaveWriteFrame (port : Fin 4) (reg : BitVec 7) (edges : Nat) (data : List Byte)
  /-- VIEW_REFRESH (R330). -/
  | viewRefresh
  /-- GPIO_EDGE (R334). -/
  | gpioEdge (n : Fin 48) (level : Bool)
  /-- ENCODER_EDGE (R336). -/
  | encoderEdge (e : Fin 4) (a b : Bool)
  /-- ENCODER_Z (R339). -/
  | encoderZ (e : Fin 4)
  /-- ENCODER_SAMPLE (R337). -/
  | encoderSample (e : Fin 4)
  /-- THERMAL_EVALUATION (R347). -/
  | thermalEvaluation (temps : List Int)
  /-- REF_CHECK (R358). -/
  | refCheck (n2 : Option (Fin 440000))
  /-- CALIBRATION_START (R362). -/
  | calibrationStart (t : CalTarget)
  /-- FORCED (R363). -/
  | forced (p : Fin 4)
  /-- CALIBRATION_END (R367). -/
  | calibrationEnd (t : CalTarget) (ofs gain : BitVec 16) (parts : List (BitVec 16))
  /-- SRAM_ECC_ERROR (R366). -/
  | sramEccError (row : W32) (uncorr : Bool) (word : Option StoreWord) (tests : List Bool)
  /-- HBM_ECC_UNCORR (R9). -/
  | hbmEccUncorr (addr : BitVec 37)
  /-- PAGE_WRITE_END (R373). -/
  | pageWriteEnd (sound : Bool)
  /-- COUNTER_BATCH (R384). -/
  | counterBatch
  /-- CAL_STORE (R381). -/
  | calStore
  /-- FUSE_STEP (R400). -/
  | fuseStep
  /-- TEST_INSTRUCTION (R403). -/
  | testInstruction (tap : TapInstr) (flash : FlashContent) (temps : List Int)
  /-- DBG_CHAL (R404). -/
  | dbgChal
  /-- DBG_RESP (R404). -/
  | dbgResp (scope : Byte) (sig : List Byte)
  /-- ENUM (R408). -/
  | enum (k : Fin 4) (msg : EnumMsg)
  /-- SYNC (R416). -/
  | sync (k : Fin 4) (kind : Fin 2) (t1 t2 t3 : W64)
  /-- SYNC_EXCHANGE (R416). -/
  | syncExchange
  /-- SYNC_AVERAGE (R416). -/
  | syncAverage
  /-- ENC (R419). -/
  | enc (k : Fin 4) (e t : W64) (number : W32)
  /-- ENC_SEND (R419). -/
  | encSend
  /-- SHARE_LOST (R421). -/
  | shareLost
  /-- CMD (R96). -/
  | cmd (k : Fin 4) (hdr : RouteHdr) (sq : Fin 1024) (packet : List Byte)
  /-- CPL (R96). -/
  | cpl (k : Fin 4) (hdr : RouteHdr) (cq : Fin 1024) (completion : List Byte)
  /-- REG (R100). -/
  | reg (k : Fin 4) (hdr : RouteHdr) (msg : RegMsg)
  /-- DB (R99). -/
  | db (k : Fin 4) (hdr : RouteHdr) (off v : W32)
  /-- MSI (R98). -/
  | msi (k : Fin 4) (hdr : RouteHdr) (vector : Fin 512)
  /-- CTRL (R423). -/
  | ctrl (k : Fin 4) (hdr : RouteHdr) (msg : CtrlMsg)
  /-- HWR (R412). -/
  | hwr (k : Fin 4) (hdr : RouteHdr) (addr : W64) (bytes : List Byte)
  /-- HRD (R412). -/
  | hrd (k : Fin 4) (hdr : RouteHdr) (msg : HrdMsg)
  /-- FELT_LINK_DOWN (R423). -/
  | feltLinkDown (k : Fin 4)
  /-- ROUTE_TIMEOUT (R423). -/
  | routeTimeout (sq : Fin 1024) (tag : W32)
  /-- DEVICE_JOINED (R424). -/
  | deviceJoined (d : Fin 64) (reset : Bool)
  /-- PARENT_LOST (R418). -/
  | parentLost
  /-- BIST_BLOCK_END (R428). -/
  | bistBlockEnd (sig : List Byte) (rows : List W32) (tests : List Bool)
  /-- SPARE_PERIOD (R432). -/
  | sparePeriod
  /-- DEBUG_LOCKOUT_END (R404). -/
  | debugLockoutEnd
  /-- SYS_RST_N_RELEASE (R59). -/
  | sysRstNRelease (flash : FlashContent) (temps : List Int)
  /-- PERST_N_RELEASE (R60). -/
  | perstNRelease
  /-- LINK_CHANGE (R72). -/
  | linkChange (gen : Fin 6) (width : Fin 9)
  /-- AER_UNCORR (R72). -/
  | aerUncorr (status : W32)
  /-- LANE_TRAIN_TIMEOUT (R134). -/
  | laneTrainTimeout (n : Fin 80)
  /-- WIDTH_REQ (R406). -/
  | widthReq (k : Fin 4) (pkt : BrynPacket) (payload : List Byte)
  /-- CREDIT_GRANT_RECEIVED (R412). -/
  | creditGrantReceived (k : Fin 4) (pkt : BrynPacket) (payload : List Byte)
  /-- REEL_UNIT_HOLD_EXPIRY (R415). -/
  | reelUnitHoldExpiry (r : Fin 64)
  /-- EVENT_LOG_WRITE_INTERVAL (R435). -/
  | eventLogWriteInterval
  /-- STROBE_PULSE_END (R334). -/
  | strobePulseEnd (n : Fin 48)
  /-- BIAS_RAMP_END (R202). -/
  | biasRampEnd (p : Fin 4)
deriving DecidableEq, Repr

end Sys2Proof
end

