-- ==== Sys2Proof/Config.lean ====
section
/-! DEFINITION. What one device fixes, and the free values: constants without a body, so that no proof can
see what they are. -/

namespace Sys2Proof.Config

/-- Byte `i` of the 16-byte serial number of this device (IDENTIFY, Table 5.7). -/
opaque serialByte : Nat → Byte

/-- A free value: what the spec leaves undefined; applied to the state's counter of free values. -/
opaque freeValue : Nat → Nat

/-- What the boot flash and the temperature sensors return at a start whose row does not bring it (DBG_CHAL and DBG_RESP as the
instructions on which the test access port leaves a hold, R403). -/
opaque startFlash : Nat → FlashContent
opaque startTemps : Nat → List Int

/-- The bytes of the fresh random challenge number `n`, byte `i` (R404). -/
opaque challengeByte : Nat → Nat → Byte

/-- Does the signature verify under the public key over the message (ECDSA over brainpoolP384r1 with SHA-384,
R394, R404)? -/
opaque ecdsaVerify : List Byte → List Byte → List Byte → Bool

/-- The public key that a certificate carries (R390, R397). -/
opaque certKey : List Byte → List Byte

/-- The 96-byte signature of the device key over a message (R389, R401). -/
opaque deviceSign : List Byte → List Byte

/-- The fuse hash of the Aedilam product CA public key, 48 bytes (R390). -/
opaque pcaFuseHash : List Byte

/-- The SHA-384 of the on-die recovery image (Table 20.4). -/
opaque recoveryHash : List Byte

/-- The version of the on-die recovery image (Table 5.7). -/
opaque recoveryVersion : Nat

/-- The bytes of the body of a calibration bank that holds the values, whose layout belongs to the device (R381). -/
opaque calBody : List (Nat × Int) → Nat → Byte

/-- The length of that body; the device uses 16,368 bytes of it at most. -/
opaque calLength : Nat

/-- The signature that ROM holds for a block of a self-test: target kind, part of Table 22.1 and block (R429). -/
opaque bistSignature : Nat → Nat → Nat → List Byte

end Sys2Proof.Config
end

