-- ==== Sys2Proof/Machine/Bits.lean ====
section
/-! DEFINITION. Bit fields, little-endian byte order (R3), sign extension and saturation. -/

namespace Sys2Proof.Machine

/-- The number that a little-endian byte string spells (R3). -/
def leNat : List Byte → Nat
  | [] => 0
  | b :: bs => b.toNat + 256 * leNat bs

/-- The `n` little-endian bytes of `v` (R3). -/
def leBytes : Nat → Nat → List Byte
  | 0, _ => []
  | n + 1, v => BitVec.ofNat 8 v :: leBytes n (v / 256)

/-- The `n` big-endian bytes of `v` (signatures, R394). -/
def beBytes (n v : Nat) : List Byte := (leBytes n v).reverse

/-- Bits [lo + w − 1 : lo] of `v`. -/
def bits (v lo w : Nat) : Nat := (v / 2 ^ lo) % 2 ^ w

/-- Bit `i` of `v`. -/
def bitOf (v i : Nat) : Bool := v.testBit i

/-- 1 for true, 0 for false. -/
def b2n (b : Bool) : Nat := if b then 1 else 0

/-- `v` placed at bit `lo`. -/
def at' (lo v : Nat) : Nat := v * 2 ^ lo

/-- The signed reading of the low `w` bits of `v`. -/
def toS (w v : Nat) : Int :=
  if v % 2 ^ w < 2 ^ (w - 1) then ((v % 2 ^ w : Nat) : Int) else ((v % 2 ^ w : Nat) : Int) - ((2 ^ w : Nat) : Int)

/-- The `w`-bit two's complement of `i`. -/
def ofS (w : Nat) (i : Int) : Nat := (i % ((2 ^ w : Nat) : Int)).toNat

/-- `n` bytes of `bs` from offset `off`. -/
def slice (bs : List Byte) (off n : Nat) : List Byte := (bs.drop off).take n

/-- One byte of a structure; bytes beyond its end read 0. -/
def u8At (bs : List Byte) (off : Nat) : Nat := leNat (slice bs off 1)
/-- A u16 of a structure. -/
def u16At (bs : List Byte) (off : Nat) : Nat := leNat (slice bs off 2)
/-- A u32 of a structure. -/
def u32At (bs : List Byte) (off : Nat) : Nat := leNat (slice bs off 4)
/-- A u64 of a structure. -/
def u64At (bs : List Byte) (off : Nat) : Nat := leNat (slice bs off 8)

/-- `n` zero bytes. -/
def zeros (n : Nat) : List Byte := List.replicate n 0

/-- `bs` cut or filled with zero bytes to `n` bytes. -/
def padTo (n : Nat) (bs : List Byte) : List Byte := bs.take n ++ zeros (n - bs.length)

/-- `bs` with the bytes `v` laid over it at `off`, keeping its length. -/
def overlay (bs : List Byte) (off : Nat) (v : List Byte) : List Byte :=
  (bs.take off ++ v ++ bs.drop (off + v.length)).take bs.length

/-- Sum saturating at `2 ^ w − 1`. -/
def satAdd (w n k : Nat) : Nat := min (n + k) (2 ^ w - 1)

/-- The value limited to `w` unsigned bits by saturation. -/
def satU (w n : Nat) : Nat := min n (2 ^ w - 1)

/-- An integer limited to the range `lo … hi`. -/
def clampI (lo hi i : Int) : Int := if i < lo then lo else if hi < i then hi else i

/-- Clamp to 0 … 65,535. -/
def clampU16 (i : Int) : Nat := (clampI 0 65535 i).toNat

/-- Insert in rising order. -/
def insertI (x : Int) : List Int → List Int
  | [] => [x]
  | y :: ys => if x ≤ y then x :: y :: ys else y :: insertI x ys

/-- Twice the median: with an even count, the sum of the two middle values. -/
def median2 (xs : List Int) : Int :=
  let o := xs.foldl (fun a x => insertI x a) []
  let n := o.length
  if n % 2 = 1 then 2 * o.getD (n / 2) 0 else o.getD (n / 2 - 1) 0 + o.getD (n / 2) 0

/-- Round half away from zero, the quotient of two integers (the divisor positive). -/
def divRound (a : Int) (b : Nat) : Int :=
  if 0 ≤ a then (2 * a + b) / (2 * b) else -((2 * (-a) + b) / (2 * b))

/-- The word with bit `i` set to `b`. -/
def setBitN (v i : Nat) (b : Bool) : Nat :=
  if v.testBit i = b then v else if b then v + 2 ^ i else v - 2 ^ i

/-- ASCII text as bytes. -/
def ascii (t : String) : List Byte := t.toList.map fun c => BitVec.ofNat 8 c.toNat

end Sys2Proof.Machine
end

