-- ==== Sys2Proof/Machine/Crc.lean ====
section
/-! DEFINITION. The checks the device computes: CRC-32 (IEEE 802.3), CRC-16 (R263), the CRC-8 of
Brynlink control packets and the SHA-384 of image, configuration and key hashes. -/

namespace Sys2Proof.Machine

/-- One bit of the reflected CRC-32. -/
def crc32Bit (c : W32) : W32 :=
  if c.getLsbD 0 then (c >>> 1) ^^^ 0xEDB88320#32 else c >>> 1

/-- `n` bits of a CRC step. -/
def iter {α : Type} (f : α → α) : Nat → α → α
  | 0, a => a
  | n + 1, a => iter f n (f a)

/-- One byte of the CRC-32. -/
def crc32Byte (c : W32) (b : Byte) : W32 := iter crc32Bit 8 (c ^^^ b.setWidth 32)

/-- CRC-32 (IEEE 802.3) of a byte string. -/
def crc32 (bs : List Byte) : Nat := (~~~ (bs.foldl crc32Byte 0xFFFFFFFF#32)).toNat

/-- One bit of the CRC-16 of polynomial 0x1021. -/
def crc16Bit (c : BitVec 16) : BitVec 16 :=
  if c.getLsbD 15 then (c <<< 1) ^^^ 0x1021#16 else c <<< 1

/-- CRC-16 (polynomial 0x1021, initial value 0xFFFF, no reflection): R263. -/
def crc16 (bs : List Byte) : Nat :=
  (bs.foldl (fun c b => iter crc16Bit 8 (c ^^^ BitVec.ofNat 16 (b.toNat * 256))) 0xFFFF#16).toNat

/-- One bit of the CRC-8 of polynomial 0x07. -/
def crc8Bit (c : BitVec 8) : BitVec 8 :=
  if c.getLsbD 7 then (c <<< 1) ^^^ 0x07#8 else c <<< 1

/-- CRC-8 of polynomial 0x07 with initial value 0 (R148). -/
def crc8 (bs : List Byte) : Nat := (bs.foldl (fun c b => iter crc8Bit 8 (c ^^^ b)) 0#8).toNat

/-! ### SHA-384

Every constant is computed from what it stands for: the first 64 bits of the fractional part of a root of a prime. -/

/-- Has `n`, at least 2, no divisor from 2 to `d + 1`? -/
def noDivisor (n : Nat) : Nat → Bool
  | 0 => true
  | d + 1 => (decide (n = d + 2) || decide (n % (d + 2) ≠ 0)) && noDivisor n d

/-- The primes below 410, which are eighty. -/
def primes80 : List Nat := (List.range 410).filter fun n => decide (2 ≤ n) && noDivisor n 20

/-- The largest `r` with `pow r ≤ v`, built from its bit `k` − 1 downward onto `r`. -/
def rootBits (pow : Nat → Nat) (v : Nat) : Nat → Nat → Nat
  | 0, r => r
  | k + 1, r => rootBits pow v k (if pow (r + 2 ^ k) ≤ v then r + 2 ^ k else r)

/-- 64 fractional bits of the cube root of a prime. -/
def cubeFrac (p : Nat) : W64 := BitVec.ofNat 64 (rootBits (fun r => r ^ 3) (p * 2 ^ 192) 68 0)

/-- 64 fractional bits of the square root of a prime. -/
def squareFrac (p : Nat) : W64 := BitVec.ofNat 64 (rootBits (fun r => r ^ 2) (p * 2 ^ 128) 70 0)

/-- The round constants: the first eighty primes. -/
def roundKeys : List W64 := primes80.map cubeFrac

/-- The two histories that a digest works on, newest first: of the first and of the fifth working variable, four values
each. -/
structure Digest where
  as : List W64
  es : List W64
deriving DecidableEq, Repr

/-- The start of SHA-384: the ninth to sixteenth prime. -/
def digest0 : Digest :=
  let h := ((primes80.drop 8).take 8).map squareFrac
  ⟨h.take 4, h.drop 4⟩

/-- XOR of three rotations of a word. -/
def rot3 (x : W64) (i j k : Nat) : W64 := x.rotateRight i ^^^ x.rotateRight j ^^^ x.rotateRight k

/-- One round with a key and a word of the schedule: the fifth variable takes the old value of four rounds before. -/
def digestRound (d : Digest) (key word : W64) : Digest :=
  let (a0, a1, a2, a3) := (d.as.getD 0 0, d.as.getD 1 0, d.as.getD 2 0, d.as.getD 3 0)
  let (e0, e1, e2, e3) := (d.es.getD 0 0, d.es.getD 1 0, d.es.getD 2 0, d.es.getD 3 0)
  let mix := word + key + e3 + (e2 ^^^ (e0 &&& (e1 ^^^ e2))) + rot3 e0 14 18 41
  let most := (a0 &&& (a1 ||| a2)) ||| (a1 &&& a2)
  ⟨[mix + most + rot3 a0 28 34 39, a0, a1, a2], [a3 + mix, e0, e1, e2]⟩

/-- The rounds of one block. `win` holds the next sixteen words of the schedule, oldest first; each round takes the first
and appends the word that follows the window. -/
def digestRun : List W64 → List W64 → Digest → Digest
  | [], _, d => d
  | key :: keys, win, d =>
    let x (i : Nat) : W64 := win.getD i 0
    let low := x 1
    let high := x 14
    let next := (low.rotateRight 1 ^^^ low.rotateRight 8 ^^^ low >>> 7) + x 9 + x 0
      + (high.rotateRight 19 ^^^ high.rotateRight 61 ^^^ high >>> 6)
    digestRun keys (win.drop 1 ++ [next]) (digestRound d key (x 0))

/-- Byte `i` of a padded message of `n` bytes, after its end: one set bit, then zeros, and the length in bits at the end of
the last block. -/
def padByte (n total i : Nat) : Byte :=
  BitVec.ofNat 8 (if i = n then 0x80 else if i + 16 < total then 0 else 8 * n / 256 ^ (total - 1 - i))

/-- The first `k` words of a byte string, most significant byte first. -/
def wordsOf : Nat → List Byte → List W64
  | 0, _ => []
  | k + 1, bs => BitVec.ofNat 64 ((bs.take 8).foldl (fun v b => 256 * v + b.toNat) 0) :: wordsOf k (bs.drop 8)

/-- The digest after a block, and what follows the block. -/
def digestBlock (x : Digest × List Byte) : Digest × List Byte :=
  let r := digestRun roundKeys (wordsOf 16 x.2) x.1
  (⟨List.zipWith (· + ·) x.1.as r.as, List.zipWith (· + ·) x.1.es r.es⟩, x.2.drop 128)

/-- SHA-384 of a byte string, 48 bytes. -/
def sha384 (bs : List Byte) : List Byte :=
  let n := bs.length
  let blocks := (n + 16) / 128 + 1
  let rest := (List.range (128 * blocks - n)).map fun i => padByte n (128 * blocks) (n + i)
  let d := (iter digestBlock blocks (digest0, bs ++ rest)).1
  ((d.as ++ d.es).take 6).flatMap fun w => beBytes 8 w.toNat

end Sys2Proof.Machine
end

