-- ==== Sys2Proof/Machine/Fields.lean ====
section
/-! DEFINITION. The configuration field space (R36, R37, R437): the fields of every block and instance of
Table 2.5 with their widths, the part of each stated range that depends on the field's own value, and their
reset values, from the field tables that Table 23.2 names. -/

namespace Sys2Proof.Machine

/-- One configuration field, or a run of reserved configuration bytes (R37). -/
structure Field where
  /-- Byte offset within the instance. -/
  off : Nat
  /-- Width in bytes. -/
  width : Nat
  /-- Reset value, as the bytes hold it. -/
  reset : Nat
  /-- The part of the stated range that depends on the field's own value only. -/
  ok : Nat → Bool
  /-- True for reserved configuration bytes, which are no field. -/
  resv : Bool

/-- A field with an unsigned range. -/
def fr (off width lo hi reset : Nat) : Field := ⟨off, width, reset, fun v => decide (lo ≤ v ∧ v ≤ hi), false⟩
/-- A field with a signed range. -/
def fsg (off width : Nat) (lo hi : Int) (reset : Int) : Field :=
  ⟨off, width, ofS (8 * width) reset,
    fun v => decide (lo ≤ toS (8 * width) v ∧ toS (8 * width) v ≤ hi), false⟩
/-- A field whose every value is in range. -/
def fa (off width reset : Nat) : Field := ⟨off, width, reset, fun _ => true, false⟩
/-- A field with the listed values. -/
def fe (off width : Nat) (vs : List Nat) (reset : Nat) : Field := ⟨off, width, reset, fun v => vs.contains v, false⟩
/-- A field with a range and one further value. -/
def fx (off width lo hi x reset : Nat) : Field :=
  ⟨off, width, reset, fun v => decide (lo ≤ v ∧ v ≤ hi) || decide (v = x), false⟩
/-- A field with a range and a required multiple. -/
def fm (off width lo hi m reset : Nat) : Field :=
  ⟨off, width, reset, fun v => decide (lo ≤ v ∧ v ≤ hi) && decide (v % m = 0), false⟩
/-- An HBM base: 0, or 4 KiB aligned above the reserved range. -/
def fbase (off : Nat) : Field :=
  ⟨off, 8, 0, fun v => decide (v = 0) || (decide (0x10000000 ≤ v ∧ v ≤ 0x1FFFFFF000) && decide (v % 4096 = 0)), false⟩
/-- An HBM size: a multiple of 4 KiB. -/
def fsize (off : Nat) : Field := ⟨off, 8, 0, fun v => decide (v % 4096 = 0), false⟩
/-- Reserved configuration bytes. -/
def fresv (off len : Nat) : Field := ⟨off, len, 0, fun v => decide (v = 0), true⟩

/-- An array of `n` fields, `step` bytes apart. -/
def farr (n step : Nat) (f : Nat → Nat → Field) (off : Nat) : List Field :=
  (List.range n).map fun k => f k (off + step * k)

/-- Table 6.2, block 0x01. -/
def laneFields (i : Nat) : List Field :=
  [fr 0 1 0 1 (if i < 64 then 0 else 1), fr 1 1 0 8 (if i < 64 then 0 else 8), fr 2 1 0 1 1]

/-- The format codes of Table 7.2. -/
def formatCodes : List Nat := [0x01, 0x02, 0x03, 0x04, 0x05, 0x10, 0x11, 0x12, 0x20, 0x21, 0x22]

/-- Table 7.1, block 0x02. -/
def portFields (n : Nat) : List Field :=
  [fr 0x00 1 0 2 0, fe 0x01 1 [1, 2, 4, 8] 1, fr 0x02 1 0 63 (2 * n), fe 0x03 1 formatCodes 0x03,
   fm 0x04 2 16 32768 16 4096, fr 0x06 1 6 12 8, fr 0x07 1 0 3 0, fa 0x08 8 0,
   fr 0x10 1 0 3 0, fr 0x11 1 0 47 0, fr 0x12 1 0 1 0, fr 0x13 1 0 3 0,
   fr 0x14 4 1 0xFFFFFFFF 1600, fa 0x18 4 0, fr 0x1C 4 0 1000000 0, fr 0x20 4 100 1000000 10000,
   fr 0x24 2 0 4095 0, fr 0x26 1 0 1 0, fr 0x27 1 1 4 4, fa 0x28 4 0, fa 0x2C 4 0, fa 0x30 2 0,
   fr 0x32 2 10 65535 10000, fr 0x34 2 1667 65535 1667, fa 0x36 1 0, fr 0x37 1 0 15 0,
   fa 0x38 2 0, fr 0x3A 2 10 65535 1000, fr 0x3C 4 10 1000000 10000]

/-- Table 8.1, block 0x03. -/
def wireFields (n : Nat) : List Field :=
  [fr 0x00 1 0 1 (if n = 8 then 1 else 0), fx 0x01 1 0 31 0xFF 0xFF, fr 0x02 1 0 1 0, fr 0x03 1 2 16 2,
   fa 0x04 4 0, fa 0x08 4 0, fbase 0x10, fm 0x18 8 0 0x2000000000 4096 0]
  ++ farr 32 4 (fun _ o => fr o 4 0 600000 0) 0x40

/-- Table 9.4, block 0x04. -/
def corrFields : List Field := [fm 0x00 2 16 32768 16 16384, fr 0x02 1 0 3 0]

/-- Table 10.1, block 0x05. -/
def dryerFields (p : Nat) : List Field :=
  [fr 0x00 1 0 2 0, fe 0x01 1 [1, 2, 4, 8, 16] 16, fr 0x02 1 0 1 0, fr 0x03 1 0 3 2, fr 0x04 2 1 4096 640,
   fr 0x06 2 1 1536 480, fr 0x08 2 1 64 8, fr 0x0A 2 0 4095 16, fr 0x0C 2 0 65535 20, fr 0x0E 1 0 1 0,
   fr 0x0F 1 0 255 0, fr 0x10 4 10000 65000 40000, fsg 0x14 4 (-100000000) 100000000 0, fa 0x18 8 0]
  ++ farr 8 2 (fun _ o => fa o 2 0) 0x20 ++
  [fr 0x30 2 1 5000 1000, fr 0x32 1 0 3 0, fr 0x33 1 0 8 4, fr 0x34 1 0 1 0, fr 0x35 1 0 1 0, fr 0x36 1 0 1 1,
   fr 0x37 1 0 15 (12 + p), fx 0x38 1 0 47 0xFF 0xFF, fr 0x39 1 0 1 1, fr 0x3A 1 0 15 0, fr 0x3B 1 0 8 2,
   fr 0x3C 2 1 1000 15, fr 0x3E 2 1 1000 50, fr 0x40 2 10 3600 600, fr 0x42 2 0 3600 30,
   fr 0x44 2 16 65535 1280, fr 0x46 2 0 65535 100, fr 0x48 4 1 1000000 16000, fr 0x4C 4 0 1000000 0,
   fr 0x50 4 1 1000000 16000, fa 0x54 4 273150, fa 0x58 4 65536, fr 0x5C 1 0 3 0, fr 0x5D 1 0 15 0,
   fr 0x5E 1 1 3 1, fx 0x5F 1 0 47 0xFF 0xFF, fr 0x60 2 0 255 0, fr 0x62 1 1 4 4, fr 0x63 1 0 1 0,
   fa 0x64 4 0, fa 0x68 4 0, fa 0x6C 2 0, fr 0x6E 2 10 65535 10000, fr 0x70 4 1000 1000000 100000,
   fr 0x74 1 0 32 0, fbase 0x78, fsize 0x80]
  ++ (List.range 32).flatMap fun k => [fa (0x100 + 8 * k) 4 0, fa (0x104 + 8 * k) 4 0]

/-- Table 11.2, the couch fields of camera port p. -/
def couchPortFields (p : Nat) : List Field :=
  let b := 0x100 + 0x40 * p
  [fr b 1 0 1 0, fr (b + 1) 1 0 1 0, fa (b + 2) 1 16, fa (b + 3) 1 16, fr (b + 4) 4 0 16777215 0,
   fr (b + 8) 4 0 16777215 0, fa (b + 0xC) 4 0, fa (b + 0x10) 4 52428800, fa (b + 0x14) 4 0, fa (b + 0x18) 4 0,
   fr (b + 0x1C) 4 0 1048576 0, fr (b + 0x20) 2 0 32767 0, fr (b + 0x22) 2 0 32767 4095, fresv (b + 0x24) 0x1C]

/-- A finite IEEE 754 binary64: its exponent is not all ones. -/
def f64Finite (v : Nat) : Bool := decide (bits v 52 11 ≠ 2047)

/-- Table 11.3, the couch fields of dryer port p; the identity homography at reset. -/
def couchDryerFields (p : Nat) : List Field :=
  let b := 0x900 + 0x80 * p
  [fr b 1 0 1 0, fresv (b + 1) 7]
  ++ farr 9 8 (fun k o => ⟨o, 8, if k % 4 = 0 then 0x3FF0000000000000 else 0, f64Finite, false⟩) (b + 8)
  ++ [fresv (b + 0x50) 0x30]

/-- Tables 11.1 to 11.3, block 0x06. -/
def couchFields : List Field :=
  [fr 0x00 4 1280 128000 12800, fr 0x04 4 0 262144 0, fr 0x08 4 0 16777215 0, fa 0x0C 4 0, fr 0x10 4 16 160000 800,
   fx 0x14 1 0 3 0xFF 0, fr 0x15 1 0 1 0, fe 0x16 1 [1, 3] 1, fr 0x17 1 1 64 4, fa 0x18 8 0, fa 0x20 2 0,
   fr 0x22 2 0 4096 0, fr 0x24 4 100 1000000 5000, fbase 0x28, fsize 0x30, fbase 0x38, fr 0x40 4 16 65536 256,
   fr 0x44 4 1000 1000000 100000, fx 0x48 1 0 3 0xFF 0xFF, fx 0x49 1 0 3 0xFF 0xFF]
  ++ (List.range 32).flatMap couchPortFields ++ (List.range 4).flatMap couchDryerFields

/-- Tables 12.1 and 12.2, block 0x07. -/
def knotFields (k : Nat) : List Field :=
  if k < 8 then
    [fr 0x00 1 0 1 0, fr 0x01 1 0 3 0, fr 0x02 1 1 16 8, fr 0x04 4 0 262143 0, fr 0x08 4 0 262143 0,
     fr 0x0C 2 1 65535 256, fa 0x0E 2 16]
    ++ farr 16 2 (fun _ o => fa o 2 0) 0x10
    ++ [fa 0x30 2 0, fa 0x32 2 0, fa 0x34 2 0, fa 0x36 2 0]
  else
    [fr 0x00 1 0 1 0, fr 0x01 1 0 1 0, fr 0x02 1 0 14 0, fr 0x03 1 0 1 1, fr 0x04 1 0 64 8, fr 0x06 2 1 65535 4,
     fr 0x08 4 1 1048576 65536, fr 0x0C 4 10 1000000 1000, fbase 0x10, fr 0x18 4 512 65536 4096]

/-- Table 13.1, block 0x08. -/
def reelFields : List Field :=
  [fr 0x00 1 0 5 0, fr 0x01 1 1 5 1, fr 0x02 1 0 31 0, fr 0x03 1 0 1 0, fr 0x04 4 0 262143 0, fr 0x08 4 1 262144 1024,
   fr 0x0C 2 1 256 1, fr 0x0E 2 1 256 1, fr 0x10 1 1 8 1, fr 0x11 1 1 8 1, fr 0x12 2 1 4096 64, fr 0x14 2 0 255 0,
   fr 0x16 2 0 256 128, fr 0x18 2 1 65535 29315, fr 0x1A 2 1 65535 37315, fr 0x1C 4 1 25000000 10000]

/-- Table 14.1, block 0x09; instances 16 to 19 are the high-side switches. -/
def markFields (n : Nat) : List Field :=
  if n < 16 then
    [fr 0x00 1 0 2 (if 12 ≤ n then 2 else 0), fr 0x01 1 0 1 0, fx 0x02 1 0 3 0xFF 0, fr 0x03 1 0 1 1,
     fr 0x04 2 100 6000 1000, fr 0x06 2 50 3000 300, fr 0x08 4 50 20000 400, fr 0x0C 4 100 1000000 5000,
     fa 0x10 8 0, fa 0x18 4 0, fa 0x1C 4 0, fr 0x20 4 0 16000000 16000, fr 0x24 4 0 16000000 80000,
     fr 0x28 2 0 0x7FFF 0, fx 0x2A 1 0 47 0xFF 0xFF, fr 0x2B 1 1 50 15, fr 0x2C 4 1000 200000 12000,
     fr 0x30 4 100 1000000 5000, fr 0x34 2 1 65535 1000, fr 0x36 2 1 65535 120, fsg 0x38 2 (-40) 85 40,
     fsg 0x3A 2 60 200 155, fr 0x3C 2 300 2000 800, fr 0x3E 2 1 1500 100, fr 0x40 2 0 50000 600,
     fr 0x42 2 0 50000 200]
  else [fr 0x00 2 500 6000 4000]

/-- Table 15.2, block 0x0A. -/
def hkFields : List Field :=
  [fr 0x00 1 0 2 1, fr 0x01 1 0 16 0, fr 0x02 1 0 4 2, fr 0x03 1 0 7 0, fr 0x04 1 0 47 0, fx 0x05 1 0 3 0xFF 0xFF,
   ⟨0x06, 1, 0xFF, fun v => decide (v ≤ 23 ∨ (25 ≤ v ∧ v ≤ 31) ∨ v = 0xFF), false⟩, fresv 0x07 1,
   fr 0x08 2 0 1023 0]
  ++ farr 16 1 (fun _ o => fr o 1 0 31 0) 0x10
  ++ farr 4 1 (fun j o => fr o 1 0 31 (if j = 0 then 30 else if j = 1 then 31 else 0)) 0x20
  ++ (List.range 32).flatMap fun i => [fsg (0x40 + 4 * i) 2 (-2048) 2047 0, fa (0x42 + 4 * i) 2 32768]

/-- Table 16.1, block 0x0B. -/
def serialFields : List Field :=
  [fr 0x00 1 0 1 0, fr 0x01 1 0 3 0, fr 0x02 2 12 4096 64, fr 0x04 1 0 7 0, fr 0x05 1 1 255 2, fr 0x06 1 0 1 0,
   fresv 0x07 1, fa 0x08 2 2, fa 0x0A 2 3, fe 0x0C 1 [0, 8, 16] 8, fe 0x0D 1 [0, 8, 16, 24, 32] 16, fr 0x0E 1 0 31 0]

/-- Tables 16.4 (instances 0 to 3) and 16.3 (instance 4), block 0x0C. -/
def gpioEncFields (i : Nat) : List Field :=
  if i < 4 then
    [fr 0x00 1 0 1 0, fr 0x01 1 0 3 0, fr 0x02 1 0 47 0, fresv 0x03 1, fr 0x04 4 1 0xFFFFFFFF 1048576, fa 0x08 8 0,
     fa 0x10 4 0, fa 0x14 2 0]
  else
    (List.range 48).flatMap fun n =>
      let b := 0x100 + 8 * n
      [fr b 1 0 4 0, fr (b + 1) 1 0 7 0, fa (b + 2) 1 0, fr (b + 3) 1 0 31 0, fr (b + 4) 2 0 511 278, fr (b + 6) 2 1 65535 10]

/-- Table 17.3, block 0x0D. -/
def tempFields : List Field := [fr 0x00 1 85 105 100, fr 0x01 1 86 114 110, fr 0x02 1 0 15 0, fresv 0x03 1]

/-- Table 18.2, block 0x0E. -/
def calFields : List Field := [fr 0x00 1 2 20 8, fr 0x01 1 0 15 15, fr 0x02 2 0 3600 600]

/-- Table 21.1, block 0x11. -/
def chainFields (i : Nat) : List Field :=
  if i < 4 then [fr 0x00 1 0 1 1, fe 0x01 1 [1, 2, 4] 1, fsg 0x02 2 (-2000) 2000 0]
  else [fx 0x00 1 0 63 0xFF 0xFF, fr 0x01 1 0 3 0, fx 0x02 1 0 3 0xFF 0xFF, fr 0x04 4 1000 1000000 10000]

/-- Table 22.3, block 0x12. -/
def bistFields : List Field := [fr 0x00 2 0 8760 0, fr 0x02 1 1 7 7]

/-- Table 13.5, block 0x13. -/
def histFields : List Field :=
  [fbase 0x00, fsize 0x08, fsize 0x10, fsize 0x18, fr 0x20 2 1 256 1, fr 0x22 2 1 256 1, fr 0x24 1 0 1 0, fa 0x28 4 0]

/-- The number of instances of a block, Table 2.5; 0 for an unlisted block. -/
def blockInstances : Nat → Nat
  | 0x01 => 80 | 0x02 => 32 | 0x03 => 9 | 0x04 => 32 | 0x05 => 4 | 0x06 => 1 | 0x07 => 9 | 0x08 => 64
  | 0x09 => 20 | 0x0A => 4 | 0x0B => 4 | 0x0C => 5 | 0x0D => 1 | 0x0E => 1 | 0x0F => 1 | 0x10 => 1
  | 0x11 => 5 | 0x12 => 1 | 0x13 => 1 | _ => 0

/-- The fields of an instance, by rising offset. Blocks 0x0F and 0x10 hold none (R437). -/
def fieldsOf (blk inst : Nat) : List Field :=
  match blk with
  | 0x01 => laneFields inst | 0x02 => portFields inst | 0x03 => wireFields inst | 0x04 => corrFields
  | 0x05 => dryerFields inst | 0x06 => couchFields | 0x07 => knotFields inst | 0x08 => reelFields
  | 0x09 => markFields inst | 0x0A => hkFields | 0x0B => serialFields | 0x0C => gpioEncFields inst
  | 0x0D => tempFields | 0x0E => calFields | 0x11 => chainFields inst | 0x12 => bistFields | 0x13 => histFields
  | _ => []

/-- A configuration address from its parts (R36). -/
def cfgAddr (blk inst off : Nat) : Nat := blk * 2 ^ 24 + inst * 2 ^ 16 + off
/-- The block ID of a configuration address. -/
def addrBlk (a : Nat) : Nat := bits a 24 8
/-- The instance of a configuration address. -/
def addrInst (a : Nat) : Nat := bits a 16 8
/-- The byte offset of a configuration address. -/
def addrOff (a : Nat) : Nat := bits a 0 16

/-- Does the address name a listed block and instance (Table 2.5)? -/
def instListed (blk inst : Nat) : Bool := decide (inst < blockInstances blk)

/-- The field or reserved run that covers an offset. -/
def fieldCovering (blk inst off : Nat) : Option Field :=
  (fieldsOf blk inst).find? fun f => decide (f.off ≤ off ∧ off < f.off + f.width)

/-- The field that starts at a configuration address. -/
def fieldAt (a : Nat) : Option Field :=
  (fieldsOf (addrBlk a) (addrInst a)).find? fun f => decide (f.off = addrOff a) && !f.resv

/-- The reset value of a field; 0 where no field starts. -/
def fieldReset (a : Nat) : Nat := ((fieldAt a).map Field.reset).getD 0

/-- Every field of every instance with its address, in ascending address (R402). -/
def allFields : List (Nat × Field) :=
  (List.range 20).flatMap fun blk => (List.range (blockInstances blk)).flatMap fun inst =>
    ((fieldsOf blk inst).filter fun f => !f.resv).map fun f => (cfgAddr blk inst f.off, f)

end Sys2Proof.Machine
end

