-- ==== Sys2Proof/Machine/Severity.lean ====
section
/-! DEFINITION. The severities of Table 23.3 (R438). -/

namespace Sys2Proof.Machine

/-- The severity of a cause of a source: 1 information, 2 warning, 3 error, 4 fatal (R438, Table 23.3).
`detail` decides BIST_DONE, which is an error when its PASS bit is 0. -/
def severity (src cause detail : Nat) : Nat :=
  if cause = 0xF0 then 3
  else if src < 80 then (match cause with | 1 => 2 | 4 => 3 | 5 => 3 | 6 => 2 | _ => 1)
  else if src < 112 then (match cause with | 1 => 2 | 5 => 3 | 6 => 2 | 7 => 2 | 8 => 2 | 9 => 3 | _ => 1)
  else if src < 121 then (match cause with | 1 => 2 | 5 => 3 | _ => 1)
  else if src < 125 then (match cause with | 1 => 2 | 2 => 2 | 6 => 3 | 8 => 3 | 9 => 2 | _ => 1)
  else if src < 133 then (match cause with | 1 => 2 | _ => 1)
  else if src = 133 then (match cause with | 1 => 2 | 3 => 2 | _ => 1)
  else if src < 198 then 1
  else if src < 214 then (match cause with | 2 => 2 | 3 => 2 | 5 => 3 | 6 => 3 | 7 => 2 | _ => 1)
  else if src < 218 then (match cause with | 1 => 3 | 3 => 3 | _ => 1)
  else if src < 222 then (match cause with | 1 => 2 | _ => 1)
  else if src < 226 then (match cause with | 1 => 2 | 3 => 2 | 5 => 2 | _ => 1)
  else if src < 230 then (match cause with | 3 => 3 | 5 => 2 | _ => 1)
  else if src < 278 then 1
  else if src = 278 then (match cause with | 1 => 2 | _ => 1)
  else if src = 279 then (match cause with | 1 => 3 | 3 => 4 | 4 => 2 | _ => 1)
  else if src < 320 then (match cause with | 1 => 3 | _ => 1)
  else if src < 324 then (match cause with | 1 => 3 | _ => 1)
  else if src = 324 then (match cause with | 2 => 3 | _ => 1)
  else if src = 325 then (match cause with | 1 => 2 | 2 => 2 | 3 => 3 | 4 => 3 | 5 => 2 | 6 => 2 | 7 => 3 | _ => 1)
  else if src = 326 then (match cause with | 1 => 2 | 2 => 3 | 4 => 2 | 5 => 2 | 6 => 2 | 7 => 4 | _ => 1)
  else if src = 327 then (match cause with | 1 => 2 | 2 => 3 | 3 => 2 | 4 => 2 | 5 => 3 | 8 => 3 | _ => 1)
  else if src = 328 then (match cause with | 1 => if detail % 2 = 0 then 3 else 1 | 2 => 2 | _ => 1)
  else if src = 329 then (match cause with | 1 => 3 | 3 => 2 | 5 => 2 | 6 => 3 | 8 => 3 | _ => 1)
  else if src < 334 then (match cause with | 1 => 2 | 2 => 2 | 3 => 2 | 4 => 2 | _ => 1)
  else if src = 334 then (match cause with | 1 => 2 | 2 => 2 | 3 => 2 | 5 => 3 | 6 => 3 | _ => 1)
  else if src < 339 then (match cause with | 2 => 3 | _ => 1)
  else if src = 339 then (match cause with | 1 => 2 | 2 => 3 | 3 => 2 | _ => 1)
  else if src < 343 then (match cause with | 1 => 2 | 2 => 2 | 3 => 2 | _ => 1)
  else 1

end Sys2Proof.Machine
end

