-- ==== Sys2Proof/Machine/Mem.lean ====
section
/-! DEFINITION. The HBM3 stacks as one byte-addressed space (chapter 1): a list of cells in one canonical
form, addresses strictly rising and no byte listed that equals what an unlisted address reads as. -/

namespace Sys2Proof.Machine

/-- The content of a byte memory: the bytes that differ from what an unlisted address reads as. -/
abbrev Mem := List Host.Cell

/-- What an HBM address that nothing has written reads as. DESIGN CHOICE 3 (unsafe): the spec gives the HBM no
content after power-on. -/
def hbmUnlisted : Byte := 0

/-- What an NVM byte that nothing has written reads as: the 0xFF of "never written" (Table 19.6).
DEDUCED 4 (unsafe): the spec states it for COMPLETE only. -/
def nvmUnlisted : Byte := 0xFF

/-- HBM is one space of 128 GiB, 0x0000_0000_0000 to 0x001F_FFFF_FFFF (chapter 1). -/
def hbmSize : Nat := 0x2000000000

/-- The canonical form: every address at least `lo`, rising, no entry equal to the unlisted byte `u`. -/
def memWfFrom (u : Byte) : Nat → Mem → Bool
  | _, [] => true
  | lo, (a, b) :: t => decide (lo ≤ a) && decide (b ≠ u) && memWfFrom u (a + 1) t

/-- The canonical form of a memory whose unlisted bytes read `u`. -/
def memWf (u : Byte) (m : Mem) : Bool := memWfFrom u 0 m

/-- Read one byte. -/
def memRead (u : Byte) : Mem → Nat → Byte
  | [], _ => u
  | (k, b) :: t, a => if a = k then b else if a < k then u else memRead u t a

/-- Write one byte, keeping the canonical form. -/
def memWrite (u : Byte) : Mem → Nat → Byte → Mem
  | [], a, v => if v = u then [] else [(a, v)]
  | (k, b) :: t, a, v =>
    if a = k then (if v = u then t else (a, v) :: t)
    else if a < k then (if v = u then (k, b) :: t else (a, v) :: (k, b) :: t)
    else (k, b) :: memWrite u t a v

/-- Read `n` bytes from `a`. -/
def memReadN (u : Byte) (m : Mem) : Nat → Nat → List Byte
  | _, 0 => []
  | a, n + 1 => memRead u m a :: memReadN u m (a + 1) n

/-- Write bytes from `a`. -/
def memWriteN (u : Byte) : Mem → Nat → List Byte → Mem
  | m, _, [] => m
  | m, a, b :: bs => memWriteN u (memWrite u m a b) (a + 1) bs

end Sys2Proof.Machine
end

