-- ==== Sys2Proof/Machine/Tbl.lean ====
section
/-! DEFINITION. Sparse tables: plain lists of (number, value) pairs, for the per-instance state of the
device. An instance that the table does not list holds the instance's reset record. -/

namespace Sys2Proof.Machine

/-- A sparse table from instance numbers to values. -/
abbrev Tbl (α : Type) := List (Nat × α)

/-- The value listed for `i`, if any. -/
def tblFind {α : Type} : Tbl α → Nat → Option α
  | [], _ => none
  | (k, v) :: t, i => if i = k then some v else tblFind t i

/-- The value of `i`, or the default of the table. -/
def tblGet {α : Type} (d : α) (t : Tbl α) (i : Nat) : α := (tblFind t i).getD d

/-- Set the value of `i`, keeping the numbers in rising order. -/
def tblSet {α : Type} : Tbl α → Nat → α → Tbl α
  | [], i, v => [(i, v)]
  | (k, w) :: t, i, v =>
    if i = k then (i, v) :: t
    else if i < k then (i, v) :: (k, w) :: t
    else (k, w) :: tblSet t i v

/-- Remove every entry of `i`. -/
def tblErase {α : Type} : Tbl α → Nat → Tbl α
  | [], _ => []
  | (k, w) :: t, i => if i = k then tblErase t i else (k, w) :: tblErase t i

/-- Change the value of `i`. -/
def tblUpd {α : Type} (d : α) (t : Tbl α) (i : Nat) (f : α → α) : Tbl α :=
  tblSet t i (f (tblGet d t i))

end Sys2Proof.Machine
end

