-- ==== Sys2Proof/Machine/StHost.lean ====
section
/-! DEFINITION. The parts of the state of chapters 2 to 5: clock, start-up, endpoint, queues and rings,
events, configuration groups, commands in flight and the progress mirror; and what the device sends. -/

namespace Sys2Proof.Machine

/-- A felt packet after its framing: the route header of R412, the type of Table 21.3 and the payload. -/
structure FeltPacket where
  dst : Nat
  src : Nat
  ttl : Nat
  ptype : Nat
  payload : List Byte
deriving DecidableEq, Repr

/-- A Brynlink block (R147): a control block, sync header 0b10, or a data block, 0b01; and its eight bytes, before the
scrambler, or on the line after it. -/
structure Block where
  ctrl : Bool
  bytes : List Byte
deriving DecidableEq, Repr

/-- What a serial port does with one of its data pins (R323). -/
inductive SpPin where
  | output | input | highZ
deriving DecidableEq, Repr

/-- A phase of a master frame (R325): its lanes, the pins that take part, from IO0 up, its SCLK cycles, and the bytes sent. -/
structure SpPhase where
  lanes : Nat
  pins : List SpPin
  cycles : Nat
  bytes : List Byte
deriving DecidableEq, Repr

/-- The form of a master frame (R325, Table 16.1): whether the dedicated select goes low, the SPI mode, SCLK as 1,600 MHz ÷ `div`,
the half periods that sampling is delayed by, and the SCLK periods with select high before the next frame. -/
structure SpForm where
  select : Bool
  mode : Nat
  div : Nat
  rxDelay : Nat
  gap : Nat
deriving DecidableEq, Repr

/-- What the device sends out of its balls. The log of these is the model's own field, not the spec's. -/
inductive Emit where
  /-- A memory write to host memory (R73, R90). -/
  | hostWrite (addr : Nat) (bytes : List Byte)
  /-- An MSI-X message: vector, message address and data. -/
  | msix (vector addr data : Nat)
  /-- The data returned for a host read, of `size` bytes. -/
  | readData (size value : Nat)
  /-- A felt packet sent on a felt port (R412). -/
  | felt (port : Nat) (pkt : FeltPacket)
  /-- What a CoaXPress uplink sends to the camera: discovery, set-up, a trigger or a tagged write (R144, R145). -/
  | camera (port kind : Nat) (args : List Nat)
  /-- Blocks sent on the transmit lanes of a Brynlink link, headbox 0 to 31 or felt port 64 to 67, as the line carries them,
  scrambled: by lane, from the lane at position `off` on (R147 to R150). -/
  | blocks (link off : Nat) (lanes : List (List Block))
  /-- What a lane's transmitter sends in test (R136, R139): kind 1, a PRBS pattern from a register on; kind 2, the word
  with an injection, by its number since then. -/
  | lane (n kind : Nat) (args : List Nat)
  /-- A pulse of one pixel clock on DPp_FSYNC (row 0's LSYNC beside it) or on DPp_LSYNC (R200). -/
  | dryerFsync (p : Nat)
  | dryerLsync (p row : Nat)
  /-- A master frame of a serial port (R325): its form and its phases in order. -/
  | serial (port : Nat) (form : SpForm) (phases : List SpPhase)
  /-- Bytes shifted out of a slave port (R330), and what it does with IO0 to IO3 meanwhile (R323). -/
  | slaveOut (port : Nat) (pins : List SpPin) (bytes : List Byte)
  /-- The keep-alive word of the AFE link (R8). -/
  | keepAlive
  /-- Bytes and bits shifted out of TDO (R403). -/
  | jtag (bytes : List Byte)
  | tdo (bits : List Bool)
deriving DecidableEq, Repr

/-- The crystal clock, TB_NOW and TB_STATUS (R26 to R28). -/
structure Clk where
  /-- Crystal time since State.reset, ns: what every interval of the manual is measured in. -/
  ns : Nat := 0
  /-- TB_NOW (R27). -/
  tb : Nat := 0
  /-- Fraction of a ns gathered by the slewed TB_NOW, 1e-8 ns. -/
  acc : Nat := 0
  traceable : Bool := true
  xtalFail : Bool := false
deriving DecidableEq, Repr

/-- Where the device stands between power-up and service (chapter 3). -/
inductive Phase where
  | ready | starting | thermalHold | unpowered | resetHeld | testHeld
deriving DecidableEq, Repr

/-- GLB_BOOT, GLB_SUPPLY and the system balls (chapter 3). -/
structure Boot where
  phase : Phase := .ready
  source : Nat := 0
  profApplied : Bool := false
  profRejected : Bool := false
  cause : Nat := 0
  thermHold : Bool := false
  readyTime : Nat := 600
  /-- Crystal time of the moment named in R59. -/
  startNs : Nat := 0
  /-- Rails within their operating range, bit k of Table 3.3. -/
  inRange : Nat := 0x1FFF
  dipped : Nat := 0
  sysRstLow : Bool := false
  /-- THERM_TRIP_N asserted (R69). -/
  tripN : Bool := false
  /-- DEV_READY high (R69). -/
  devReady : Bool := true
  /-- THERM_TRIP of GLB_STATUS: the device has tripped (R352). -/
  tripped : Bool := false
  /-- Crystal time of device ready. -/
  readyNs : Nat := 0
  /-- Extra start-up time of slower flash reads, ns (R61). -/
  flashDelay : Nat := 0
  /-- Crystal time of the latest check of a start-up hold, and of the end of the hold (R66). -/
  holdNs : Nat := 0
  resumeNs : Nat := 0
  /-- Security events of this start, raised at ready: cause and detail (Table 20.6). -/
  notes : List (Nat × Nat) := []
  /-- The payload of the power-on profile in force, as read at ready (R376). -/
  profile : List Byte := []
  /-- Table entries of the profile still to load, in the order of R64. -/
  images : List Nat := []
  /-- Entries of the profile whose image failed. -/
  imagesFailed : List Nat := []
deriving DecidableEq, Repr

/-- Endpoint state outside BAR0. -/
structure Pcie where
  bme : Bool := false
  perstLow : Bool := false
  linkUp : Bool := false
  gen : Nat := 0
  width : Nat := 0
  /-- Uncorrectable error status of AER. -/
  aer : Nat := 0
  /-- Subsystem Vendor ID and Subsystem ID, from the board record (Table 4.1, R379). -/
  subVendor : Nat := 0
  subId : Nat := 0
deriving DecidableEq, Repr

/-- One MSI-X table entry in BAR4. -/
structure MsixEntry where
  addr : Nat := 0
  data : Nat := 0
  masked : Bool := true
deriving DecidableEq, Repr

/-- A command pair (Table 4.5, R85 to R91). -/
structure Pair where
  sqBase : Nat
  sqLog2 : Nat
  cqBase : Nat
  cqLog2 : Nat
  group : Option Nat
  target : Nat
  sqTail : W32 := 0
  /-- F: the index of the next SQ entry the device reads (R88). -/
  fetch : W32 := 0
  cqHead : W32 := 0
  cqTail : W32 := 0
  /-- Stopped by a failed fetch (R88). -/
  stopped : Bool := false
  /-- A QUEUE_DELETE, or a write of ENABLE 0 for pair 0, waits for the fetched commands (R82, R83). -/
  draining : Bool := false
deriving DecidableEq, Repr

/-- A defect queue or stream ring (Table 4.5, R87, R92). -/
structure Ring where
  base : Nat
  log2 : Nat
  slotLog2 : Nat := 6
  mirror : Nat
  group : Option Nat
  head : W32 := 0
  tail : W32 := 0
  /-- DROPPED, saturating (R87). -/
  dropped : Nat := 0
  /-- Queue sequence number of a defect queue's next record (R92). -/
  qseq : W32 := 0
  /-- A drop has been raised since an entry was last written (R92). -/
  dropNoted : Bool := false
  /-- Entries written that no mirror write covers yet. -/
  uncovered : Nat := 0
  /-- A drop that no mirror write shows yet. -/
  mirrorStale : Bool := false
deriving DecidableEq, Repr

/-- An event ring (Table 4.5). -/
structure EvtRing where
  base : Nat
  log2 : Nat
  head : W32 := 0
  tail : W32 := 0
  /-- lost_flag of R93. -/
  lost : Bool := false
deriving DecidableEq, Repr

/-- The running count and timer of a queue group (R95). -/
structure GrpRun where
  count : Nat := 0
  /-- Crystal time of the first entry counted after the previous notification. -/
  since : Nat := 0
deriving DecidableEq, Repr

/-- A shadow of the high half of a 64-bit register (R33). -/
structure Shadow where
  high : Nat
  at_ : Nat
deriving DecidableEq, Repr

/-- The MSI-X table, BAR0 registers of chapter 4, queues, rings and events. -/
structure HostIf where
  msix : Tbl MsixEntry := []
  /-- Messages held while masked or while Bus Master Enable is 0, one bit per vector (R75, R93). -/
  pba : BitVec 512 := 0
  bar2Base : Nat := 0
  bar2Dev : Nat := 0
  /-- Devices to which a BAR2 write has gone that has not yet been confirmed, one entry a write (R79). -/
  bar2Out : List Nat := []
  /-- BAR0 reads that wait until those writes have reached HBM: offset, size and the GLB_FWD_SEL with which they came, oldest
  first (R79, R100). -/
  heldReads : List (Nat × Nat × Nat) := []
  fwdSel : Nat := 0
  q0SqBase : Nat := 0
  q0CqBase : Nat := 0
  q0SqLog2 : Nat := 4
  q0CqLog2 : Nat := 4
  q0Enable : Bool := false
  q0Fault : Bool := false
  q0Draining : Bool := false
  q0Group : Nat := 0
  pairs : Tbl Pair := []
  dqs : Tbl Ring := []
  srs : Tbl Ring := []
  evts : Tbl EvtRing := []
  /-- EVT_ROUTE[n], reset 0. -/
  route : Tbl Nat := []
  /-- EVT_PEND: bit n is source n. -/
  pend : BitVec 512 := 0
  /-- EVT_RING_LOST[e], reset 0. -/
  ringLost : Tbl Nat := []
  /-- EVT_GRP[g], reset COUNT 1, TIME 0. -/
  grp : Tbl Nat := []
  grpRun : Tbl GrpRun := []
  /-- Armed shadows by register offset (R33). -/
  shadows : Tbl Shadow := []
  hiUnpaired : Bool := false
  wrSplit : Bool := false
deriving DecidableEq, Repr

/-- Open and accepted configuration groups (R38 to R46). -/
structure Accepted where
  seq : W32
  tv : Nat
  /-- The parts not yet in force: (block, instance). -/
  parts : List (Nat × Nat)
  /-- The staged values by configuration address. -/
  vals : Tbl Nat
  /-- It changed a column map (item 12 of R244). -/
  map : Bool := false
  /-- The residual images behind the column maps that its validation built, by camera port, where it touches the grid part of
  the couch (R231). -/
  maps : Option (Tbl (List Byte)) := none
deriving DecidableEq, Repr

/-- Configuration: values in force, open groups and accepted groups. -/
structure Cfg where
  /-- Values in force by configuration address; an address not listed holds its reset value. -/
  vals : Tbl Nat := []
  /-- Open groups: staged values by address. -/
  groups : Tbl (Tbl Nat) := []
  accepted : List Accepted := []
  /-- The last commit sequence number assigned; 0 before the first. -/
  seq : W32 := 0
deriving DecidableEq, Repr

/-- Where a command came from: a pair of this device, a CMD packet of the head (R96), or at the head that of a chained device,
for an ABORT or PROGRESS that names a command elsewhere (R114). -/
inductive Origin where
  | here | head | device (d : Nat)
deriving DecidableEq, Repr

/-- A command fetched and not completed. -/
structure Cmd where
  /-- The model's own number of the fetch, which tells commands apart. -/
  cid : Nat
  sq : Nat
  tag : W32
  /-- The 64 bytes of Table 5.1. -/
  packet : List Byte
  origin : Origin := .here
  /-- The device a command of another target was forwarded to, and when (R96, R423). -/
  sentTo : Option Nat := none
  sentNs : Nat := 0
  started : Bool := false
  startNs : Nat := 0
  position : Nat := 0
  total : Nat := 0
  /-- Crystal time of the last interim completion (R117). -/
  interimNs : Option Nat := none
  /-- POSITION has changed since the last interim or skip. -/
  moved : Bool := false
  slot : Option Nat := none
  /-- Host data read so far. -/
  buf : List Byte := []
  /-- Progress private to the opcode. -/
  aux : Nat := 0
deriving DecidableEq, Repr

/-- A final completion that waits for Bus Master Enable (R75) or for the end of a tender restart (R19). -/
structure Waiting where
  origin : Origin
  sq : Nat
  tag : W32
  status : Nat
  percent : Nat
  result : Nat
  position : Nat
deriving DecidableEq, Repr

/-- A slot of the progress mirror (R119). -/
structure Slot where
  state : Nat := 0
  percent : Nat := 0
  sq : Nat := 0
  op : Nat := 0
  tag : W32 := 0
  pos : Nat := 0
  total : Nat := 0
  status : Nat := 0
  doneNs : Nat := 0
deriving DecidableEq, Repr

/-- Commands in flight, the waiting completions, the progress mirror and the tenders. -/
structure Cmds where
  /-- The number of the next fetch. -/
  nextId : Nat := 0
  /-- Commands fetched and not completed, in the order of their fetch. -/
  flight : List Cmd := []
  waiting : List Waiting := []
  slots : Tbl Slot := []
  /-- SQ and tag of every command that has completed since PERST_N: what ABORT answers 1 for (R120). -/
  finished : List (Nat × W32) := []
  /-- Tenders restarting now (R19). -/
  paused : List Nat := []
  /-- Commands that a restart aborted: they complete when processing resumes (R20). -/
  abortedHeld : List Cmd := []
deriving DecidableEq, Repr

end Sys2Proof.Machine
end

