-- ==== Sys2Proof/Machine/StSys.lean ====
section
/-! DEFINITION. The parts of the state of chapters 19 to 22: non-volatile storage, security, the chain and
self-test. -/

namespace Sys2Proof.Machine

/-- An event-log entry that waits in the RAM queue (R386). -/
structure LogEntry where
  source : Nat
  cause : Nat
  severity : Nat
  detail : Nat
  boot : Nat
  time : Nat
  opsec : Nat
  suppressed : Nat
deriving DecidableEq, Repr

/-- The last logged entry of a source and the raises suppressed since (R386). -/
structure LogLast where
  ns : Nat
  suppressed : Nat := 0
deriving DecidableEq, Repr

/-- Whose page write it is (R374). -/
inductive PageJob where
  | batch (step : Nat)
  | log (count : Nat)
  | store (page : Nat)
  | selector
  /-- The NVM_WRITE with a fetch number. -/
  | command (cid page : Nat)
  /-- A record the device writes itself: boot selector, owner record, chain map. -/
  | record (id : Nat) (page : Nat)
  /-- The page in progress of a record write that was aborted. -/
  | withdrawn (id : Nat)
deriving DecidableEq, Repr

/-- A page write in progress (R373). -/
structure PageWrite where
  job : PageJob
  addr : Nat
  bytes : List Byte
  startNs : Nat
deriving DecidableEq, Repr

/-- A record the device itself writes (R391, R410). -/
structure RecWrite where
  id : Nat
  payload : List Byte
  /-- The copy and its new image, once its first page has begun. -/
  dest : Option (Nat × List Byte) := none
  page : Nat := 0
deriving DecidableEq, Repr

/-- The running calibration store (R381). -/
structure CalStoreJob where
  bank : Nat
  seq : Nat
  image : List Byte
  vals : Tbl Int
  page : Nat := 0
  verified : Bool := false
deriving DecidableEq, Repr

/-- Non-volatile storage (chapter 19). -/
structure Nvm where
  /-- The EEPROM; unlisted bytes read 0xFF. -/
  mem : Mem := []
  /-- The write window of R353 is open. -/
  window : Bool := true
  page : Option PageWrite := none
  calBank : Nat := 0
  calUnstored : Bool := false
  batchDue : Bool := false
  /-- The next of the four page writes of a batch that has begun, its slot and its image (R384). -/
  batchNext : Option Nat := none
  batchSlot : Nat := 0
  batchImage : List Byte := []
  store : Option CalStoreJob := none
  /-- Crystal time at which the last store began, if one has begun since ready (R381). -/
  lastStoreNs : Option Nat := none
  /-- A CALIBRATE command has completed since the last store began (R381). -/
  calCmdDone : Bool := false
  /-- The calibration values that each bank holds, as the device reads them. -/
  bankVals : Tbl (Tbl Int) := []
  records : List RecWrite := []
  /-- NVM_WRITE commands in order of acceptance, by fetch number (R374). -/
  writers : List Nat := []
  logQueue : List LogEntry := []
  logLast : Tbl LogLast := []
  nextSeq : Nat := 0
  nextSlot : Nat := 0
  lastLogPageNs : Option Nat := none
  lost : Nat := 0
  lostNoted : Bool := false
  counters : Tbl Nat := []
  newestSlot : Nat := 63
  slotSeq : Nat := 0
  lastBatchNs : Nat := 0
deriving DecidableEq, Repr

/-- The read mode of the boot flash and its write commands, in force from the boot header on (Table 20.2, R393). -/
structure FlashMode where
  addrBytes : Nat := 3
  readCmd : Nat := 3
  /-- Dummy cycles of a read. -/
  dummy : Nat := 0
  addrLanes : Nat := 1
  dataLanes : Nat := 1
  progCmd : Nat := 2
  eraseCmd : Nat := 0xD8
  /-- SCLK is 1,600 MHz ÷ `div`. -/
  div : Nat := 64
deriving DecidableEq, Repr

/-- The security state (chapter 20). -/
structure Sec where
  /-- How the boot flash is read and written, from its header. -/
  flash : FlashMode := {}
  fuseSteps : Nat := 0
  pcaOk : Bool := true
  debug : Nat := 0
  /-- The challenge that a response may answer (R404). -/
  challenge : Option (List Byte) := none
  challenges : Nat := 0
  /-- Crystal time of a failed response while the lockout of R404 lasts. -/
  lockoutNs : Option Nat := none
  /-- VERSION and BODY_HASH of the running image. -/
  fwVersion : Nat := 0
  fwHash : List Byte := []
  /-- Image hash of a slot as last verified at a start or by FW_STAGE; a slot not listed is empty (R401). -/
  slotHash : Tbl (List Byte) := []
  /-- Flash addresses of the slots, from the boot header (Table 20.2, R393). -/
  slotA : Nat := 0x10000
  slotB : Nat := 0x110000
  /-- Fuse steps an image start still has to reach (R400). -/
  fuseTarget : Nat := 0
  /-- The TAP instruction in force holds the device in reset (R403). -/
  tapHold : Bool := false
deriving DecidableEq, Repr

/-- A link of the Brynlink state machine (Table 7.6), of a headbox or a felt port. -/
structure Link where
  /-- 0 DOWN, 1 TRAIN, 2 DESKEW, 3 ACTIVE, 4 DEGRADE, 5 RECOVERY. -/
  st : Nat := 0
  /-- Crystal time at which the state was entered. -/
  ns : Nat := 0
  widthNow : Nat := 0
  /-- First lane in use, relative to the port's first lane. -/
  laneOff : Nat := 0
  /-- AM_COUNT of the last AM set received, if any, and consecutive aligned sets in DESKEW. -/
  amCount : Option Nat := none
  amAligned : Nat := 0
  amSent : Nat := 0
  /-- Crystal time of the next AM block, 1/100 ns (R150). -/
  amNext : Nat := 0
  /-- The width and mask of a width request that waits for its WIDTH_ACK (R152). -/
  reqWidth : Option Nat := none
  reqOff : Nat := 0
  /-- The width and offset to fall back to when a request for the full width fails (R152). -/
  prev : Option (Nat × Nat) := none
  /-- Crystal time since which every lane of the full width has been locked, and of the last failed request. -/
  fullSince : Option Nat := none
  fullFailNs : Option Nat := none
  /-- Credits freed and not granted, with the time of the first; credits held toward the far end. -/
  freed : Nat := 0
  freedNs : Nat := 0
  /-- GRANTED sent, and credits the far end has used. -/
  granted : Nat := 0
  usedIn : Nat := 0
  /-- Credits held, and the last GRANTED received. -/
  credit : Nat := 0
  grantIn : Nat := 0
  /-- SEQ of the next packet sent, and the number of the stream's next block since ACTIVE (R148, R150). -/
  txSeq : Nat := 0
  txAt : Nat := 0
  /-- The last 58 bits of the stream's last block, by position: the scrambler's register (R147). -/
  scr : Tbl Nat := []
deriving DecidableEq, Repr

/-- An entry of the chain map (Table 21.2). -/
structure MapEntry where
  present : Bool := false
  head : Bool := false
  replaced : Bool := false
  unreachable : Bool := false
  excess : Bool := false
  hops : Nat := 0
  parent : Nat := 0xFF
  parentPort : Nat := 0xFF
  nbId : List Nat := [0xFF, 0xFF, 0xFF, 0xFF]
  nbPort : List Nat := [0, 0, 0, 0]
  /-- Felt ports of it whose link is down, as far as notices have told (R423). -/
  down : List Nat := []
  serial : List Byte := []
deriving DecidableEq, Repr

/-- A felt port beyond its link (chapter 21). -/
structure FeltPort where
  link : Link := {}
  nbId : Nat := 0x3F
  nbPort : Nat := 0
  /-- Serial number of the neighbour and of the head that it said it belongs to, in its latest ENUM packet. -/
  nbSerial : List Byte := []
  nbHead : List Byte := []
  foreign_ : Bool := false
  loopback : Bool := false
  delay : Nat := 0
  /-- A TTL drop has been raised since a packet was last relayed (Table 21.5). -/
  ttlNoted : Bool := false
  /-- Packets that wait for credit or for the link, oldest first (R413). -/
  queue : List FeltPacket := []
deriving DecidableEq, Repr

/-- A received sample of the shared encoder (R419). -/
structure EncSample where
  e : Int
  /-- Local TB_NOW of the sample, 1/64 ns. -/
  t : Int
  number : Nat
deriving DecidableEq, Repr

/-- A felt link that a running search has found: the device that answered, with the head it belongs to, and the device
and port it was probed from. -/
structure EnumLink where
  serial : List Byte
  ownPort : Nat
  headSerial : List Byte
  via : List Byte
  viaPort : Nat
  /-- Its TB_NOW over this device's at the answer, ns. -/
  lead : Int
deriving DecidableEq, Repr

/-- A running search: its CHAIN_ENUM command, none for the search of R411; its mode; and when it began. -/
structure Search where
  cid : Option Nat
  mode : Nat
  ns : Nat
deriving DecidableEq, Repr

/-- The chain (chapter 21). -/
structure Chain where
  devId : Nat := 0
  head : Bool := true
  mapped : Bool := false
  map : Tbl MapEntry := []
  mapTime : Nat := 0
  ports : Tbl FeltPort := []
  /-- First felt port of a shortest route to each device, while one exists. -/
  routes : Tbl Nat := []
  /-- The felt port toward the sync parent. -/
  parentPort : Option Nat := none
  parentAsym : Int := 0
  hops : Nat := 0
  headSerial : List Byte := []
  /-- Latest values of 2θ, newest first, in 1/64 ns. -/
  thetas : List Int := []
  /-- The device has joined and is not yet within 1 µs of its parent (R417). -/
  joining : Bool := false
  theta : Int := 0
  /-- Rate correction in force, 1/100 ppm. -/
  slew : Int := 0
  goodUpdates : Nat := 0
  chainSync : Bool := true
  parentSync : Bool := true
  parentLostNs : Option Nat := none
  /-- T1 of the exchange in progress, and the crystal times from which the next exchange, average and sample are due. -/
  syncT1 : Option Nat := none
  syncNext : Nat := 0
  avgNext : Nat := 0
  encNext : Nat := 0
  samples : List EncSample := []
  shareOk : Bool := false
  lastSampleNs : Nat := 0
  encSent : Nat := 0
  /-- Host-bound packets that wait for a route (R415), oldest first, and their bytes. -/
  hold : List FeltPacket := []
  search : Option Search := none
  found : List EnumLink := []
  /-- The time stamp of the probe that was last passed on, and the port it came from. -/
  probeTb : Option W64 := none
  probePort : Nat := 0
  /-- The serial number of the head that sent it. -/
  probeHead : List Byte := []
deriving DecidableEq, Repr

/-- A running self-test of one instance (chapter 22). -/
structure BistRun where
  blk : Nat
  inst : Nat
  mask : Nat
  done : Nat := 0
  /-- The BIST_RUN command; none for a periodic test. -/
  cid : Option Nat := none
  failed : Nat := 0
  repaired : Nat := 0
  /-- Signature registers of the LOGIC and LOOPBACK blocks so far, in block order. -/
  sigs : List Byte := []
  startNs : Nat := 0
deriving DecidableEq, Repr

/-- Self-test (chapter 22). -/
structure Bist where
  run : Option BistRun := none
  /-- The target of the latest test, which GLB_BIST goes on to show. -/
  lastBlk : Nat := 0
  lastInst : Nat := 0
  failMask : Nat := 0
  /-- Reels that failed their latest test. -/
  reelFails : List Nat := []
  /-- Crystal time from which SPARE_PERIOD runs, and of the last skipped attempt. -/
  spareNs : Nat := 0
  spareRetryNs : Option Nat := none
deriving DecidableEq, Repr

end Sys2Proof.Machine
end

