-- ==== Sys2Proof/Machine/StAfe.lean ====
section
/-! DEFINITION. The parts of the state of chapters 10 and 14 to 18: watermark drive, dryer ports, housekeeping
converters, serial ports, GPIO, temperatures and calibration. -/

namespace Sys2Proof.Machine

/-! ### Watermark drive (chapter 14) -/

/-- A marker job (R301, R302). -/
structure MJob where
  fOpen : Int := 0
  fClose : Int := 0
  /-- Low 24 bits of the record's DEV_SEQ; 0xFFFFFF for MARK_FIRE. -/
  seq : Nat
  /-- The MARK_FIRE command that waits for it. -/
  cid : Option Nat := none
  /-- MARK_FIRE mode 1: a drive at once. -/
  now_ : Bool := false
  /-- Tolerance of MARK_FIRE; 0 takes the channel's. -/
  tol : Nat := 0
  /-- It has been evaluated: a comparator tick with the encoder moving forward has seen it (R303, R421). -/
  seen : Bool := false
deriving DecidableEq, Repr

/-- A job whose drive start has fallen and that waits for headroom: its planned start and V then (R305). -/
structure MReq where
  job : MJob
  tp : Nat
  v : Int
  /-- Its drive start fell at its first evaluation (R300). -/
  first : Bool := false
deriving DecidableEq, Repr

/-- A request that waits for headroom (R305): its planned start, the start found for it, and the jobs it serves; none
for a shutter request. -/
structure MWait where
  tp : Nat
  th : Option Nat := none
  reqs : List MReq := []
  shutter : Bool := false
deriving DecidableEq, Repr

/-- A drive in peak or hold (R294). -/
structure MDrive where
  startNs : Nat
  peakEndNs : Nat
  /-- Greatest F_close of the merged positional jobs, in 1/K of 1/16 µm (see `mkK`). -/
  closeK : Option Int := none
  /-- A comparator tick has found it reached (R299): what the encoder does after that changes nothing (R304). -/
  closeMet : Bool := false
  /-- Latest end of the merged mode 1 jobs, and of T_PEAK. -/
  minEndNs : Nat
  shutter : Bool := false
  /-- Sense instants of each 100 ms of the hold phase that have passed, and that of 20 µs before the end (R297). -/
  senses : Nat := 0
  endSensed : Bool := false
deriving DecidableEq, Repr

/-- A low-side channel. -/
structure Chan where
  /-- PHASE: 0 off, 1 peak, 2 hold, 3 decay. -/
  phase : Nat := 0
  drive : Option MDrive := none
  decayEndNs : Nat := 0
  holdNs : Nat := 0
  /-- Jobs on their way to the comparators, in the order of hand-over. -/
  incoming : List MJob := []
  /-- Pending jobs in order of F_open. -/
  jobs : List MJob := []
  wait : Option MWait := none
  inhibit : Bool := false
  fault : Bool := false
  /-- End of a current-sense calibration that runs (R365). -/
  calEndNs : Option Nat := none
  /-- Tc in 2^−40 °C; T_AMB of reset at ready. -/
  tc : Int := 40 * 2 ^ 40
  iMeas : Nat := 0
  rMeas : Nat := 0
  fires : Nat := 0
  late : Nat := 0
  skip : Nat := 0
  /-- The previous peak reached 90 % of I_PEAK (R296). -/
  peakFull : Bool := true
deriving DecidableEq, Repr

/-! ### Dryer ports (chapter 10) -/

/-- A channel's DC-blocking state (R205 to R207). -/
structure DcEst where
  /-- The estimate in 1/256 count; none from a restart to the first usable row. -/
  e : Option Int := none
  /-- The estimate shown while none is usable. -/
  last : Int := 0
  refSat : Bool := false
  /-- Every blind output of the latest row was unsettled (R207). -/
  unset : Bool := false
  /-- TB_NOW of the last restart of its chain. -/
  restart : Option Nat := none
deriving DecidableEq, Repr

/-- What a row's frame has in force for one pixel (R209, R210): G, O, Cd and its bad-pixel bit. -/
structure PixTab where
  gain : Nat
  ofs : Int
  drift : Int
  bad : Bool
deriving DecidableEq, Repr

/-- A thermal row between conversion and couch: outputs s (or temperatures after the pipe), with the pixels that are
unsettled or saturated. -/
structure DRow where
  frame : Nat
  row : Nat
  md : Int
  tb : Nat
  flags : Nat
  /-- Signed outputs before the pipe, temperatures after it. -/
  px : List Int
  bad : List Bool
  /-- FPA temperature of the frame, mK. -/
  t : Int
  /-- TB_NOW of the frame's sync. -/
  syncTb : Nat
  last : Bool := false
  /-- The moment of its stamp has come: `md` and MD_REVISIT are the row's (R208); until then the encoder and the MD_OFFSET
  that they come from. -/
  stamped : Bool := true
  enc : Nat := 0
  mdOfs : Int := 0
  /-- The tables, T_REF and LUT of its frame, by column; no LUT while that item is not VALID. -/
  tabs : List PixTab := []
  tref : Int := 0
  lut : Option (List Nat) := none
deriving DecidableEq, Repr

/-- A frame in progress. -/
structure DFrame where
  number : Nat
  syncTb : Nat
  syncNs : Nat
  t : Int
  stale : Bool
  /-- The frame is delivered: no closure blinds it. -/
  deliver : Bool
  setChange : Bool
  /-- Rows delivered, and rows read. -/
  rows : Nat := 0
  got : Nat := 0
  /-- With TIMING_MASTER 0: the next row whose LSYNC is to be driven, and TB_NOW of those that were, row 0 first (R11). -/
  lsync : Nat := 1
  lsyncTbs : List Nat := []
  long_ : Nat := 0
  /-- R226 has dropped the rest of the frame. -/
  cut : Bool := false
  refNoted : Bool := false
deriving DecidableEq, Repr

/-- A closure (R218). -/
structure Closure where
  reason : Nat
  /-- SHUT_STATE of its step: 1, 2, 3, 4, 5 or 7. -/
  step : Nat := 1
  /-- Frames left in the step, and of the steps to come. -/
  left : Nat
  settle : Nat
  reopen : Nat
  /-- SHUTTER action 1 holds it after settling, or its step 3; the commands that wait for the hold and for the end. -/
  hold : Bool := false
  holdCids : List Nat := []
  cids : List Nat := []
  failed : Bool := false
  /-- Sums of the averaged frames per pixel, pixels saturated in any, unsettled in any, not read in any, and the sum of T. -/
  sums : List Int := []
  sat : List Bool := []
  unset : List Bool := []
  miss : List Bool := []
  tSum : Int := 0
deriving DecidableEq, Repr

/-- What the stamp of a row decides (R222 to R226): a thermal-blind interval begins; it ends at the first viewed frame,
with the TB_NOW of its sync, whether the closure failed, and the commands that complete then; an overflow-blind interval
begins; a delivered frame begins. -/
inductive DryMark where
  | blind
  | over (tb : Nat) (failed : Bool) (cids : List Nat)
  | overflow
  | viewed
deriving DecidableEq, Repr

/-- A mark that waits for the stamp of its row: the stamped moment, the encoder and MD_OFFSET. -/
structure DryStamp where
  tb : Nat
  enc : Nat
  mdOfs : Int
  mark : DryMark
deriving DecidableEq, Repr

/-- Drift refinement that T2 computes (R220): the new coefficients, finished or not. -/
structure Refine where
  bank : Nat
  coeffs : List Int
  ready_ : Bool := false
deriving DecidableEq, Repr

/-- A pending FPA setting write (R227). -/
structure FpaWrite where
  seq : Nat
  sentNs : Nat
  /-- Target frame T. -/
  target : Nat
  acked : Bool := false
  failed : Bool := false
  loose : Bool := false
  vals : Tbl Nat
  grp : Nat
  /-- SET_ADDR, SET_VALUE, SET_WIDTH and ACK_TIMEOUT as it was sent. -/
  addr : Nat := 0
  value : Nat := 0
  width : Nat := 4
  ackUs : Nat := 10000
deriving DecidableEq, Repr

/-- A dryer port. -/
structure Dry where
  running : Bool := false
  /-- 0 stopped, 1 ramping its biases, 2 making the initial writes, 3 timing. -/
  st : Nat := 0
  /-- A PORT_STOP mode 0 waits for the end of the frame. -/
  stopping : Bool := false
  /-- Bias outputs at the start of the present move and its targets, in steps of 73.24 µV, and when it began. -/
  biasFrom : List Nat := [0, 0, 0, 0, 0, 0, 0, 0]
  biasTo : List Nat := [0, 0, 0, 0, 0, 0, 0, 0]
  rampNs : Option Nat := none
  /-- Initial writes made, and the number of the run that they belong to. -/
  initK : Nat := 0
  runNo : Nat := 0
  frames : Nat := 0
  frame : Option DFrame := none
  /-- T of the latest frame, and T_REF in force, mK. -/
  t : Int := 0
  tRef : Int := 0
  tStale : Bool := false
  est : Tbl DcEst := []
  /-- Rows in the FIFO between the AFE link and the pipe. -/
  fifo : List DRow := []
  /-- Corrected rows on their way to the couch. -/
  out : List DRow := []
  /-- Final y of the previous row of the frame in the pipe, over 16,384 × 64,000. -/
  prevY : List (Option Int) := []
  /-- Least stamp of the rows of the frame that the couch maps. -/
  leastMd : Option Int := none
  closure : Option Closure := none
  /-- A closure with reason START has yet to begin: no frame is delivered before it (R202). -/
  startDue : Bool := false
  /-- Marks of closures that began or ended at the latest syncs, for the next first row of a frame. -/
  due : List DryMark := []
  /-- Marks of rows whose stamped moment has not come (R208). -/
  marks : List DryStamp := []
  /-- MD of the first row of F_c while the thermal-blind interval is open. -/
  blindMd : Option Int := none
  req : Option Nat := none
  /-- Commands that wait with the request, and whether it is for a hold. -/
  reqCids : List Nat := []
  reqHoldCids : List Nat := []
  reqHold : Bool := false
  reqNoted : Bool := false
  /-- SHUT_STATE 6. -/
  waiting : Bool := false
  inhibit : Bool := false
  reason : Nat := 0
  /-- Reasons 1 to 3 are not evaluated before this time (R222). -/
  quietNs : Nat := 0
  tr : Nat := 0
  q : Nat := 0
  lastRms : Nat := 0xFFFF
  pred : Nat := 0
  /-- The banks whose offsets came from a closure in the present run (R219). -/
  closed : List Nat := []
  refine : Option Refine := none
  /-- Table item states by bank × 5 + (kind − 0x10). -/
  tabs : Tbl Nat := []
  /-- T_REF of the offset item of each bank. -/
  tabRef : Tbl Int := []
  writes : List FpaWrite := []
  ovf : Nat := 0
  short_ : Nat := 0
  long_ : Nat := 0
  refSat : Nat := 0
  closures : Nat := 0
  refineSkip : Nat := 0
  /-- An overflow-blind interval is open (R226). -/
  ovfBlind : Bool := false
  /-- Forced calibrations (R363), oldest first: TB_NOW at which one began, TB_NOW at which the unsettled outputs after it end,
  and its channel. -/
  forced : List (Nat × Nat × Nat) := []
  /-- DEC and SAMPLE_KHZ of groups whose boundary fell within a forced calibration: they wait for its end (R370). -/
  calWaits : List (Nat × Tbl Nat) := []
  /-- With TIMING_MASTER 1: TB_NOW of the end of the last active row, and the last two vertical blanks, ns. -/
  rowEnd : Option Nat := none
  blanks : List Nat := []
  /-- The profile's blind interval of R64 is open. -/
  profBlind : Bool := false
  imageWait : Bool := false
deriving DecidableEq, Repr

/-! ### Housekeeping converters (chapter 15) -/

/-- A conversion result. -/
structure HkRes where
  value : Nat := 0
  clamp : Bool := false
  test : Bool := false
  raw : Nat := 0
  trig : Nat := 0
  stamp : Nat := 0
  /-- Crystal time and value of the last result without TEST, for R216. -/
  goodNs : Option Nat := none
  goodVal : Nat := 0
deriving DecidableEq, Repr

/-- A converter unit. Its factors in force stand with its calibration element. -/
structure Hk where
  /-- STATE: 0 off, 1 regular, 2 injected, 3 self-calibrating, 4 idle. Units self-calibrate at ready (R317). -/
  st : Nat := 3
  entry : Nat := 0
  pending : List Nat := []
  /-- Start of the conversion in progress and its input. -/
  convNs : Nat := 0
  cin : Nat := 0
  /-- It is a regular conversion in low-power mode. -/
  slow : Bool := false
  /-- Offset, gain, TEST and the test DAC's code of the conversion in progress, where a commit came after its sampling ended
  (R311). -/
  fixed : Option (Int × Nat × Bool × Nat) := none
  /-- Source of the injected sequence, its inputs, its entry, and the valve channel selected last. -/
  src : Nat := 0
  injIn : List Nat := []
  inj : Nat := 0
  chan : Nat := 0
  res : Tbl HkRes := []
  injRes : Tbl HkRes := []
  lost : Nat := 0
  /-- No injected sequence has run to its end since a lost trigger was raised (R321). -/
  lostNoted : Bool := true
  /-- The sequence restarts at entry 0 when what runs has ended (R311, R318). -/
  restart : Bool := false
  /-- Start of the self-calibration, and the die temperature at the last accepted one, 1/4 °C. -/
  calNs : Nat := 0
  temp : Int := 160
  /-- A self-calibration waits, and the ADC_SELFCAL commands that one completes. -/
  calWait : Bool := false
  cids : List Nat := []
deriving DecidableEq, Repr

/-! ### Serial ports (chapter 16) -/

/-- A master frame queued or running (R325 to R328). -/
structure SpFrame where
  /-- 0 host frame, 1 initial write, 2 setting write, 3 read-back, 4 a frame to the boot flash. -/
  kind : Nat
  /-- Dryer port of a device frame, and its SET_SEQ. -/
  port : Nat := 0
  seq : Nat := 0
  /-- Command, address and data bytes sent; bytes to read in, and where they go in HBM. -/
  cmd : List Byte := []
  addr : List Byte := []
  out : List Byte := []
  inLen : Nat := 0
  buf : Nat := 0
  /-- Bytes of HBM to send after `out`. -/
  outLen : Nat := 0
  /-- The GPIO that selects the target, for a ROIC frame through one; else whether the dedicated select is driven. -/
  sel : Option Nat := none
  select : Bool := true
  /-- Dummy cycles and the lane codes of the three phases. -/
  dummy : Nat := 0
  lanes : Nat := 0
  /-- The clock divisor of a frame to the boot flash; others take CLK_DIV (R393). -/
  div : Option Nat := none
deriving DecidableEq, Repr

/-- A serial port. -/
structure Sp where
  run : Option SpFrame := none
  queue : List SpFrame := []
  /-- The earliest end of the frame that runs, and the end of the last frame (R325). -/
  endNs : Nat := 0
  lastNs : Nat := 0
  /-- HK_SPM_PHASE, HK_SPM_DATA, DIR and USE_SEL. -/
  phase : Nat := 0
  data : Nat := 0
  dir : Bool := false
  useSel : Bool := true
  doneBit : Bool := false
  err : Nat := 0
  /-- FLAGS, MARK_INHIBIT, SHUT_OVERRIDE and SCRATCH of the slave view. -/
  flags : Nat := 0
  inhibit : Nat := 0
  override : Nat := 0
  scratch : List Byte := [0, 0, 0, 0, 0, 0, 0, 0]
  /-- The last frame was aborted; the last one had an underrun (R340). -/
  aborted : Bool := false
  underran : Bool := false
deriving DecidableEq, Repr

/-! ### Temperatures (chapter 17) -/

/-- Temperature sensing and the governor, all temperatures in 1/4 °C. -/
structure Therm where
  /-- Readings of the last 60 s, newest first. -/
  hist : List (List Int) := []
  eff : List Int := List.replicate 40 160
  /-- Recorded cause of each suspect sensor; 0 for one that is not. -/
  cause : List Nat := List.replicate 40 0
  /-- Consecutive evaluations passed while suspect. -/
  passes : List Nat := List.replicate 40 0
  max_ : Int := 160
  sensor : Nat := 0
  zones : Nat := 0
  evalNs : Nat := 0
  /-- Evaluations at or below T_THROTTLE − 5 °C since the latest step change. -/
  low : Nat := 0
  holdNs : Nat := 0
  warn : Bool := false
  /-- Evaluations in range while the NVM window is closed. -/
  winGood : Nat := 0
  changes : Nat := 0
deriving DecidableEq, Repr

/-! ### Calibration (chapter 18) -/

/-- An element of classes 1 to 3. Every element is due at ready (R360). -/
structure CalEl where
  due : Bool := true
  /-- When it became due, for R363. -/
  dueNs : Nat := 0
  /-- Crystal time at which its running attempt began. -/
  run : Option Nat := none
  /-- The running attempt was forced under R363. -/
  forced : Bool := false
  attempted : Bool := false
  stale : Bool := false
  degraded : Bool := false
  rejects : Nat := 0
  /-- Effective value at the last attempt, 1/4 °C. -/
  tAtt : Option Int := none
  /-- Values in force: offset (1/16 LSB) and gain (unsigned 1.15). -/
  ofs : Int := 0
  gain : Nat := 32768
  /-- The set chosen among the spares (Table 18.1): the segments in use, bit by bit, for class 3; for class 1 the
  slices left out, 16 bits a stage. 0 where neither a bank nor a measurement gave one. -/
  chosen : Nat := 0
  /-- A measurement whose check waits for T2 (R369): offset, gain and what was found of slices or segments. -/
  held : Option (Int × Nat × List Nat) := none
  /-- Values that T2 accepted late, until the element is next idle (R369). -/
  passed : Option (Int × Nat × Nat) := none
deriving DecidableEq, Repr

/-- A CALIBRATE that runs: when it began, the elements whose attempts it still waits for, and the outcomes so far. -/
structure CalCmd where
  cid : Nat
  ns : Nat
  left : List Nat
  accepted : Nat := 0
  rejected : Nat := 0
deriving DecidableEq, Repr

/-- The calibration engine. -/
structure Cal where
  /-- Elements by class × 64 + number. -/
  els : Tbl CalEl := []
  cmds : List CalCmd := []
  /-- Result of the reference check, and crystal time of the last one since ready. -/
  refState : Nat := 0
  refRatio : Int := 0
  refNs : Option Nat := none
  /-- SRAM rows pending repair, correctable errors by row, spare rows in use and retired. -/
  sramPending : List Nat := []
  sramErrs : Tbl Nat := []
  sramUsed : Nat := 0
  sramRetired : Nat := 0
  exhausted : Bool := false
deriving DecidableEq, Repr

/-- The AFE die and the analogue parts. -/
structure Afe where
  chans : Tbl Chan := []
  /-- MRK_ARM. -/
  arm : Nat := 0
  /-- Channels that a host write arms once the link has carried valid traffic for 1 ms (R292). -/
  armWait : Nat := 0
  /-- Jobs skipped and MARK_LATE raises since ready, for the slave view. -/
  skips : Nat := 0
  lates : Nat := 0
  /-- VVALVE, mV, and the hold of R54, which also says before ready whether VVALVE has been in range for 10 ms (R307). -/
  vmv : Nat := 24000
  held : Bool := false
  coilNs : Nat := 0
  /-- The AFE link carries valid words; since when, after an outage (R8). -/
  linkOk : Bool := true
  linkLost : Bool := false
  dry : Tbl Dry := []
  hk : Tbl Hk := []
  /-- Strobe pulses running: pin and crystal time of the start (R334). -/
  strobes : Tbl Nat := []
  /-- Levels at the balls GPIO0 to GPIO47 after FILTER, and HK_GPIO_OUT. -/
  gpio : Nat := 0
  /-- Pins whose ball has another level than that after FILTER, and since when (R334). -/
  gpioNew : Tbl Nat := []
  gpioOut : Nat := 0
  sp : Tbl Sp := []
  /-- The slave view as last refreshed: its read-only bytes. -/
  view : List Byte := [1, 0, 1] ++ List.replicate 5 0 ++ [160, 0, 0, 0, 160, 0, 160, 0, 160] ++ List.replicate 111 0
  viewNs : Nat := 0
  therm : Therm := {}
  cal : Cal := {}
  /-- The governor step in force (chapter 17). -/
  step : Nat := 0
  /-- The effective marker inhibit and shutter override (R333). -/
  inhibit : Nat := 0
  shutOvr : Nat := 0
deriving DecidableEq, Repr

end Sys2Proof.Machine
end

