-- ==== Sys2Proof/Machine/StIngest.lean ====
section
/-! DEFINITION. The parts of the state of chapters 6 to 9 and of the encoders: lanes, headboxes, wires, the
correction table store and the quadrature counters. -/

namespace Sys2Proof.Machine

/-- A lane receiver (chapter 6). -/
structure Lane where
  /-- Bring-up state, Table 6.5: 0 off, 7 test. -/
  st : Nat := 0
  signal : Bool := false
  cdr : Bool := false
  aligned : Bool := false
  polInv : Bool := false
  hold : Bool := false
  /-- Waits at state 1 until LANE_TRAIN names it (AUTO_RETRAIN 0, R132). -/
  parked : Bool := false
  bound : Bool := false
  prbsSync : Bool := false
  prbsInv : Bool := false
  position : Nat := 0x3F
  ctle : Nat := 8
  ctleMin : Nat := 0
  ctleMax : Nat := 15
  taps : List Int := [0, 0, 0, 0, 0]
  limits : List Nat := [63, 31, 31, 31, 31]
  txPre : Nat := 4
  txPost : Nat := 8
  /-- The bring-up started from seeds; a resumed one skips the CTLE search. -/
  fromSeeds : Bool := true
  codeErr : Nat := 0
  /-- The sliding window of R131's reason 3: how many blocks or code groups rows have told of or passed over, and the numbers of
  the invalid ones among the last 64, rising. -/
  winAt : Nat := 0
  winBad : List Nat := []
  unlocks : Nat := 0
  prbsErr : Nat := 0
  /-- Bits compared in sync before the present sync began. -/
  prbsBits : Nat := 0
  prbsSyncNs : Nat := 0
  pattern : Nat := 0
  genOn : Bool := false
  chkOn : Bool := false
  /-- The generator's register when it last started, and the crystal time of that (R136). -/
  genReg : Nat := 0
  genNs : Nat := 0
  /-- The checker's register, the bits compared in sync up to it, and which of the last of them differed (R138). -/
  chkReg : Nat := 0
  chkPos : Nat := 0
  chkDiffs : List Nat := []
  /-- Crystal time of the last adaptation step of each tap (R126). -/
  tapNs : List (Option Nat) := []
  /-- Crystal time at which the bring-up began. -/
  bringNs : Nat := 0
  /-- Crystal time of the last unlock of reason 1 to 3 that the bring-up follows. -/
  unlockNs : Option Nat := none
  /-- Crystal time of the LANE_UNLOCK that the next relock counts from. -/
  leftNs : Option Nat := none
  reason : Nat := 0
  /-- Crystal time at which the lane left state 1 in a bring-up that follows no unlock. -/
  left1Ns : Option Nat := none
  /-- The 5 ms step of R132 has been taken. -/
  seeded5 : Bool := false
  failNoted : Bool := false
  /-- Crystal time of the last LOCK_FAIL period. -/
  failNs : Option Nat := none
  firstLock : Bool := true
deriving DecidableEq, Repr

/-- A quadrature counter (R336 to R339). -/
structure Enc where
  /-- N, the 64-bit count. -/
  n : Int := 0
  /-- N_p and the PRESET_VALUE taken at the last preset. -/
  np : Int := 0
  pv : Int := 0
  /-- Scaled reading that HK_ENC_POS shows, updated every 1 µs. -/
  pos : Int := 0
  /-- Highest E since the last preset or change of SCALE. -/
  high : Int := 0
  backward : Bool := false
  /-- An armed preset: its mode. -/
  armed : Option Nat := none
  err : Nat := 0
  errNs : Option Nat := none
  zLast : Option Int := none
  /-- Counts with their crystal time, newest first, back to 1,000 µs ago. -/
  counts : List (Nat × Int) := []
  /-- Readings with their TB_NOW at each change, newest first: what the AFE die latches (R154), with the backward
  state of R339 from then on. -/
  edges : List (Nat × Int × Bool) := []
  /-- Readings sent every 1 µs with their TB_NOW, newest first (R337). -/
  samples : List (Nat × Int) := []
  /-- The crystal tick of the last of them. -/
  sampleNs : Nat := 0
  aIn : Bool := false
  bIn : Bool := false
deriving DecidableEq, Repr

/-- Where a line of a port's pipe stands on its way to the couch. -/
inductive ItemSt where
  /-- In the port FIFO. -/
  | fifo
  /-- In a chest slot, its samples at an HBM address. -/
  | chest (addr : Nat)
  /-- Taken by the wire; stages 1 to 4 are done. -/
  | wire
  /-- Corrected; not yet out of the wire. -/
  | done
  /-- Out of the wire. -/
  | out
  /-- Dropped: a placeholder. -/
  | dropped
  /-- A dropped line whose capture moment is still to come (R155, R158). -/
  | unstamped
deriving DecidableEq, Repr

/-- An item of a table bank (R194): 0 EMPTY, 1 LOADING, 2 VALID, 3 INVALID, with its image. -/
structure TabItem where
  st : Nat := 0
  words : Nat := 0
  image : List Byte := []
  /-- Store words in uncorrectable error, by byte offset of the image (R198). -/
  errs : List Nat := []
deriving DecidableEq, Repr

/-- The items that correct a line, as they stand when it begins (R196): kind 0x01, 0x02, its gain set of 0x03, 0x04, 0x05 and
0x06. -/
structure Tables where
  xtalk : TabItem := {}
  dark : TabItem := {}
  gain : TabItem := {}
  dead : TabItem := {}
  matrix : TabItem := {}
  shade : TabItem := {}
deriving DecidableEq, Repr

/-- One line of a port, from its completion to the couch. -/
structure Item where
  num : Nat
  /-- The stripe it belongs to, counted over all stripes of the port. -/
  sid : Nat
  tb : Nat
  md : Int
  flags : Nat
  st : ItemSt
  wire : Option Nat
  samples : List Nat
  /-- Bank, gain set and table columns in force for the line (R196). -/
  bank : Nat
  ffSet : Nat
  tabs : Tables := {}
  format : Nat
  pixels : Nat
  pad : Nat
  /-- TB_NOW at which its stripe began. -/
  stripeTb : Nat
  lastOfStripe : Bool := false
deriving DecidableEq, Repr

/-- An issued trigger that no line has paired with (R153, R154). -/
structure Trig where
  seq : Nat
  ns : Nat
  tb : Nat
deriving DecidableEq, Repr

/-- A line in progress (R156). -/
structure Partial where
  /-- The trigger it pairs with (R154). -/
  trig : Option Trig
  /-- Pixel data so far: packed bytes under Brynlink, sample values under CoaXPress. -/
  bytes : List Byte := []
  samples : List Nat := []
  firstTb : Nat
  firstNs : Nat
  /-- Bytes received of the line, those beyond its length among them. -/
  total : Nat := 0
  bad : Bool := false
deriving DecidableEq, Repr

/-- A pending setting write (R159 to R161). -/
structure SetWrite where
  seq : Nat
  sentNs : Nat
  /-- Target line or frame T. -/
  target : Nat
  acked : Bool := false
  /-- Refused or timed out. -/
  failed : Bool := false
  /-- Sent by a headbox that was not running: nothing is deferred. -/
  loose : Bool := false
  /-- Deferred fields of the group, by configuration address. -/
  vals : Tbl Nat
  /-- The commit sequence number that comes wholly into force at T. -/
  grp : W32
deriving DecidableEq, Repr

/-- The stripe in progress and the closed ones that still hold lines. -/
structure Stripe where
  sid : Nat
  /-- STRIPE and STRIPE_EPOCH it closes with. -/
  number : Nat
  epoch : Nat
  height : Nat
  first : Nat
  counted : Nat := 0
  delivered : Nat := 0
  truncated : Bool := false
  flagsSeen : Nat := 0
  wire : Option Nat := none
  /-- Chest slot, when the port is buffered. -/
  slot : Option Nat := none
  /-- HBM address of that slot, and its bytes. -/
  slotAddr : Nat := 0
  slotLen : Nat := 0
  noSlot : Bool := false
  /-- TB_NOW at its start. -/
  beginTb : Nat := 0
  buffered : Bool := false
  closed : Bool := false
  closeTb : Nat := 0
  closeNs : Nat := 0
  trigLostNoted : Bool := false
  trigSkipNoted : Bool := false
  fmtNoted : Bool := false
  lateNoted : Bool := false
  /-- Raw-area address and blocks reserved (R287), and the lines written. -/
  rawAddr : Option Nat := none
  rawLines : List Nat := []
  /-- MD of the first line counted. -/
  mdFirst : Int := 0
  /-- DEADLINE in force when it began, µs (R44, R173). -/
  deadline : Nat := 10000
  /-- The last commit sequence number assigned when it began (R43). -/
  cfgSeq : W32 := 0
deriving DecidableEq, Repr

/-- A headbox (chapter 7). -/
structure Port where
  running : Bool := false
  /-- A PORT_STOP mode 0 waits for the stripe to close. -/
  stopping : Bool := false
  link : Link := {}
  /-- CoaXPress discovery is complete. -/
  discovered : Bool := false
  discNs : Nat := 0
  discRetry : Bool := false
  /-- The connection IDs are read, and the camera has been told to use WIDTH connections at their speed (R145). -/
  setup : Bool := false
  /-- CoaXPress triggers sent that no I/O acknowledgement has answered (Table 7.3). -/
  trigOut : Nat := 0
  /-- Connections that have relocked and not delivered a stream packet since (R158). -/
  quiet : List Nat := []
  hbNs : Nat := 0
  hbLost : Bool := false
  lines : Nat := 0
  stripeNo : Nat := 0
  epoch : Nat := 0
  nextSid : Nat := 0
  everClosed : Bool := false
  delivered : Nat := 0
  trunc : Bool := false
  mdLast : Int := 0
  cur : Option Stripe := none
  /-- Closed stripes that still hold lines in FIFO, chest or wire. -/
  old : List Stripe := []
  pipe : List Item := []
  /-- Stripes that have lost a line and whose blind interval is not closed (R163). -/
  blind : List Nat := []
  part : Option Partial := none
  rxSeq : Nat := 0
  trigs : List Trig := []
  trigSeq : Nat := 0
  /-- Mode 1: the position of the next trigger. -/
  trigNext : Option Int := none
  lastTrigNs : Option Nat := none
  trigTimerNs : Nat := 0
  /-- Capture moments of the last 256 lines delivered, newest first, and since PORT_START (R158). -/
  captures : List Int := []
  /-- Capture moment of the last line counted other than at an expected moment, and the lines counted at expected moments
  since (R158). -/
  capLast : Int := 0
  dropK : Nat := 0
  writes : List SetWrite := []
  bad : Nat := 0
  short_ : Nat := 0
  long_ : Nat := 0
  ovf : Nat := 0
  trigLost : Nat := 0
  trigSkip : Nat := 0
  creditOvr : Nat := 0
  discard : Nat := 0
  /-- The profile's blind interval of R64 is open. -/
  profBlind : Bool := false
  /-- A profile table image of this port failed or has not loaded (R64, R380). -/
  imageWait : Bool := false
  /-- PORT_START has been given and the first stripe has not begun. -/
  waitStart : Bool := false
deriving DecidableEq, Repr

/-- The stripe that a wire works on for one port: the last unit after stage 4, and the BiBayer unit that waits for its
successor with the unit before it (R184, R189). -/
structure WireCtx where
  sid : Nat
  last4 : Option (List (List Nat)) := none
  wait : Option (Nat × List (List Nat)) := none
  waitPrev : Option (List (List Nat)) := none
deriving DecidableEq, Repr

/-- A line of a raw stripe as REPROCESS reads it (R287). -/
structure RawLine where
  md : Int
  flags : Nat
  samples : List Nat
deriving DecidableEq, Repr

/-- A running REPROCESS on a wire (R179). -/
structure Reproc where
  cid : Nat
  port : Nat
  bank : Nat
  reel : Nat
  /-- Raw stripes still to read, by their first block. The first is in progress once it has been read. -/
  todo : List Nat
  reading : Bool := false
  /-- Samples per pixel of the stripe in progress, the number of the line that passes next, the lines left, and MD and flags
  of the line before. -/
  spp : Nat := 1
  line : Nat := 0
  left : List RawLine := []
  before : Int × Nat := (0, 0)
  ctx : WireCtx
  /-- The tables and the gain set in force when the stripe in progress began (R44, R196). -/
  tabs : Tables := {}
  ff : Nat := 0
  /-- The line flags seen in the stripe in progress, and whether a bad store word made one of its lines BAD (R198). -/
  seen : Nat := 0
  flagged : Bool := false
deriving DecidableEq, Repr

/-- A wire (chapter 8). -/
structure Wire where
  /-- STATE 2 under test or 3 failed; serving is computed. -/
  state : Nat := 0
  draining : Bool := false
  overload : Bool := false
  goodWindows : Nat := 0
  cap : Nat := 17000
  load : Nat := 0
  late : Nat := 0
  shed : Nat := 0
  /-- The buffered port whose context the further slot holds (R169). -/
  ctxPort : Option Nat := none
  /-- The buffered stripe in service: port and stripe. -/
  serving : Option (Nat × Nat) := none
  ctx : Tbl WireCtx := []
  reproc : Option Reproc := none
deriving DecidableEq, Repr

/-- A pending or draining WIRE_SWAP (R176, R177). -/
structure Swap where
  out : Nat
  into : Nat
  cid : Nat
  /-- The in-line port's first stripe that begins after acceptance. -/
  sid : Nat := 0
  handed : Bool := false
  tb : Nat := 0
  /-- The values that the wire put in had before hand-over, by offset of Table 8.1. -/
  kept : Tbl Nat := []
deriving DecidableEq, Repr

/-- What fixes the capture moment of a line (R154, R158): its trigger, at whose moment the AFE die latches E; its first byte; or
mode 0's expectation in an outage. -/
inductive LineStart where
  | trigger
  | byte
  | expected
deriving DecidableEq, Repr

/-- A line to be counted (R155, R158): TB_NOW of its trigger, of its first byte, or of its expected moment, and what was received
of it, none for a line that an outage drops. -/
structure LineDue where
  tb : Nat
  start : LineStart
  content : Option Partial := none
deriving DecidableEq, Repr

/-- A dropped line that waits for its capture moment (R155, R158): port, line number, TB_NOW of the moment; whether the AFE die
latches E there, and the encoder and MD_OFFSET of the line (R44). -/
structure LateStamp where
  port : Nat
  num : Nat
  tb : Nat
  latch : Bool
  enc : Nat
  mdOfs : Int
deriving DecidableEq, Repr

/-- Lanes, headboxes, wires, the table store and encoders. -/
structure Ingest where
  lanes : Tbl Lane := []
  ports : Tbl Port := []
  wires : Tbl Wire := []
  swap : Option Swap := none
  /-- Table items by port × 64 + bank × 16 + item number of Table 9.10. -/
  tabs : Tbl TabItem := []
  encs : Tbl Enc := []
  /-- Stripes truncated since ready, for the slave view. -/
  truncAll : Nat := 0
  /-- Dropped lines that wait for their capture moment (R155, R158). -/
  lateStamps : List LateStamp := []
  /-- Complete lines that wait for the encoder reading at their capture moment, by port, and lines behind them (R155,
  R419). -/
  awaiting : List (Nat × LineDue) := []
  /-- Tokens that each unit of Table 2.1 has passed in the rate window, by the numbers of `rates`; wires 0 to 8 (R23). -/
  tokens : Tbl Nat := []
  /-- CAP and LOAD of the units of Table 2.1 other than wires: the couch 9, slices 10 to 17, the merger 18, the thermal
  pipes 19 to 22. -/
  rates : Tbl (Nat × Nat) := []
  /-- Crystal time at which the rate window began (R23). -/
  rateNs : Nat := 0
deriving DecidableEq, Repr

end Sys2Proof.Machine
end

