-- ==== Sys2Proof/Machine/StWeb.lean ====
section
/-! DEFINITION. The parts of the state of chapters 11 to 13: couch, knotter, record buffer, reels and the
history ring. -/

namespace Sys2Proof.Machine

/-- A line or placeholder of a camera port that the couch holds for its row (R230, R237). -/
structure CouchLine where
  port : Nat
  num : Nat
  row : Int
  md : Int
  flags : Nat
  /-- It brought samples, which lie in its alignment slot. -/
  data : Bool
  /-- HBM address of that slot, and the bytes of the line in it. -/
  addr : Nat
  len : Nat
  /-- TB_NOW at which its stripe began. -/
  stripeTb : Nat
deriving DecidableEq, Repr

/-- One contributor of the couch: camera port p is p, FELT_LO 64, FELT_HI 65. -/
structure Contrib where
  /-- The highest window it has closed, since it joined the wait set. -/
  closed : Option Int := none
  /-- The first and last gap row of its open gap (R235). -/
  gap : Option (Int × Int) := none
  /-- A valid block came from this felt side, and since then no mismatch; no row forced for it (Table 11.7). -/
  seamOk : Bool := false
  seamLive : Bool := false
  /-- A mismatch or a forced row has been raised since the last valid block. -/
  seamBad : Bool := false
deriving DecidableEq, Repr

/-- What a port gives its neighbours of a row that was emitted before the port closed its window: global column, samples and
weight for FELT_LO and FELT_HI, as the fields in force for the row gave them. Its edge blocks are still to be sent (R242). -/
structure KeptRow where
  port : Nat
  row : Int
  lo : List (Int × List Nat × Nat)
  hi : List (Int × List Nat × Nat)
deriving DecidableEq, Repr

/-- A neighbour's contribution to one row (R242): per local column, its samples and weight. -/
structure EdgeBlock where
  side : Nat
  row : Int
  cols : List (Nat × List Nat × Nat)
deriving DecidableEq, Repr

/-- A thermal cell in the making (R239). -/
structure ThermCell where
  count : Nat := 0
  sum : Nat := 0
  flags : Nat := 0
deriving DecidableEq, Repr

/-- The tests of a thermal cell with a value (R251), and t − μ_t in 1/256 of 1/100 K. -/
structure ThermTest where
  hot : Bool
  cold : Bool
  delta : Int
deriving DecidableEq, Repr

/-- A grid row as the couch emits it. -/
structure GridRow where
  k : Int
  /-- Samples of each local column, or none for a cell with VALID 0. -/
  cells : List (Option (List Nat))
  forced : Bool
  /-- The thermal row carried: its index and the value and flags of each thermal column (R241). -/
  therm : Option (Int × List (Nat × Nat))
  /-- The REPROCESS command that the row comes from, by its number: a knotter context of its own (R270). -/
  reproc : Option Nat
  /-- Slices that have not taken it. -/
  todo : List Nat
  /-- The tests of its thermal cells, by thermal column, as far as their slices have taken the row. -/
  tres : Tbl ThermTest := []
  /-- Crystal time of its emission (R271). -/
  ns : Nat
  /-- The earliest TB_NOW at which a stripe behind it began: the commit boundaries it passes (Table 2.6). -/
  minTb : Nat
deriving DecidableEq, Repr

/-- The couch mapping of a running REPROCESS: the row in the making (R180). -/
structure RepCouch where
  /-- The command: its knotter context (R270). -/
  cid : Nat
  port : Nat
  reel : Nat
  row : Option Int := none
  /-- Sums of the data lines of that row, per sample, and their number. -/
  sums : List Nat := []
  count : Nat := 0
deriving DecidableEq, Repr

/-- The couch (chapter 11). -/
structure Couch where
  lines : List CouchLine := []
  contribs : Tbl Contrib := []
  edges : List EdgeBlock := []
  kept : List KeptRow := []
  /-- When each contributor closed its windows: contributor, highest window closed, crystal time, in the order of time. -/
  firstClose : List (Nat × Int × Nat) := []
  lastRow : Option Int := none
  /-- The latest TB_NOW that every stripe behind a row emitted so far began at or after. -/
  minTb : Nat := 0
  rowOut : Bool := false
  row : Int := 0
  mapBank : Nat := 0
  absent : Bool := false
  seamLo : Bool := false
  seamHi : Bool := false
  /-- The latest row was forced by ROW_TIMEOUT; by a full partition. -/
  wasForced : Bool := false
  wasFull : Bool := false
  forced : Nat := 0
  full : Nat := 0
  gaps : Nat := 0
  thLate : Nat := 0
  thOutside : Nat := 0
  thAbsent : Nat := 0
  seamDrop : Nat := 0
  lateLines : Nat := 0
  /-- Thermal rows open: index and cells by thermal column. -/
  therm : List (Int × Tbl ThermCell) := []
  /-- Thermal rows emitted: index and the value and flags of each column, newest first. -/
  thermRows : List (Int × List (Nat × Nat)) := []
  thermLast : Option Int := none
  trow : Int := 0
  /-- Highest thermal row that each dryer port has closed, with the time of the first closing of each. -/
  thermClosed : Tbl Int := []
  /-- The least frame sync among the frames that have touched each open thermal row, and the sync of the latest frame of each
  dryer port that has reached the couch (R245). -/
  thermTb : List (Int × Nat) := []
  thermSync : Tbl Nat := []
  thermFirst : List (Int × Nat) := []
  /-- Residual table items by port × 2 + bank: state and image (R231). -/
  resSt : Tbl Nat := []
  resImg : Tbl (List Byte) := []
  /-- The residual images behind the column maps in force, by camera port: none reads as 0 (R231). -/
  resMap : Tbl (List Byte) := []
  reps : Tbl RepCouch := []
deriving DecidableEq, Repr

/-- A foreground cell of a component (R253, R258). -/
structure KCell where
  row : Int
  /-- Local column. -/
  col : Nat
  /-- Detection value, 1/4 count. -/
  x4 : Nat
  /-- μ as the cell was tested, 1/256 count. -/
  mu : Nat
  samples : List Nat
  bright : Nat
  dark : Nat
  hot : Bool
  cold : Bool
  /-- t − μ_t of the thermal cell that covers it, 1/256 of 1/100 K. -/
  therm : Option Int
deriving DecidableEq, Repr

/-- A component, or a part of one in a slice. -/
structure Comp where
  slice : Nat
  cells : List KCell
  partial_ : Bool := false
  split : Bool := false
  seam : Bool := false
  /-- Closed: its closing row, when the couch emitted that row, and that row's `minTb`. -/
  closed : Option (Int × Nat × Nat) := none
  reproc : Option Nat := none
  /-- Sent to the neighbour, per side, and the crystal time it closed (R257). -/
  sentLo : Bool := false
  sentHi : Bool := false
  waitNs : Nat := 0
deriving DecidableEq, Repr

/-- A column's background (R249), in 1/256 count. -/
structure Back where
  n : Nat := 0
  mu : Nat := 0
  sg : Nat := 0
deriving DecidableEq, Repr

/-- A slice in one context: live, or a REPROCESS. -/
structure Slice where
  back : Tbl Back := []
  /-- Thermal backgrounds by thermal column, and the last thermal row that updated them. -/
  tback : Tbl Back := []
  tlast : Option Int := none
  prev : Option GridRow := none
  learning : Bool := false
  /-- MD at which the learning stretch and the full stretch began. -/
  learnMd : Int := 0
  full : Bool := false
  fullMd : Int := 0
  fullCells : Nat := 0
  unlabelled : Nat := 0
deriving DecidableEq, Repr

/-- A blind interval handed to the knotter and still open (R268, R269). -/
structure BlindIv where
  kind : Nat
  source : Nat
  cause : Nat
  /-- Tells intervals of one source apart: the truncated stripe. -/
  tag : Nat
  start : Int
deriving DecidableEq, Repr

/-- A record in the record buffer (R264). -/
structure Rec where
  dev : Nat
  queue : Nat
  bytes : List Byte
  /-- Logical block of its tile while the tile is not complete (R286). -/
  tile : Option Nat
deriving DecidableEq, Repr

/-- A fragment received from a neighbour (R257), its cells in global columns: of FELT_LO, side 0, or of FELT_HI, side 1. Side 2
is a part of this device that a lower one forms the record of, kept for what may still touch it (DESIGN CHOICE 25). -/
structure FragIn where
  side : Nat
  cells : List KCell
  partial_ : Bool
  split : Bool
  ns : Nat
  reproc : Bool := false
  /-- A fragment of the lower neighbour has been answered with all that touches it here. -/
  echoed : Bool := false
deriving DecidableEq, Repr

/-- A two-bank item: state of R194 and image. -/
structure BankItem where
  st : Nat := 0
  image : List Byte := []
deriving DecidableEq, Repr

/-- The knotter (chapter 12). -/
structure Knot where
  rows : List GridRow := []
  slices : Tbl Slice := []
  /-- Slice contexts of REPROCESS commands, by the command's number × 8 + slice. -/
  repSlices : Tbl Slice := []
  comps : List Comp := []
  frags : List FragIn := []
  fragOk : Bool := false
  blinds : List BlindIv := []
  devSeq : Nat := 0
  recs : List Rec := []
  rules : Tbl BankItem := []
  bands : Tbl BankItem := []
  small : Nat := 0
  ruleDrop : Nat := 0
  noQueue : Nat := 0
  tileMiss : Nat := 0
  splits : Nat := 0
  blind : Nat := 0
  latMax : Nat := 0
  /-- The last record was on time. -/
  onTime : Bool := false
  /-- The last record had a tile. -/
  tileHad : Bool := false
  /-- Crystal times of the records formed in the last 1 ms, newest first, 2,000 of them at most (R271). -/
  recTimes : List Nat := []
  /-- `minTb` of the last row that every slice has taken. -/
  lastMin : Nat := 0
  /-- The live rows from which values of MAX_ROWS are in force, newest first (R273). -/
  maxFrom : List (Int × Nat) := []
  /-- Blind records since ready, for the slave view. -/
  blindAll : Nat := 0
deriving DecidableEq, Repr

/-- An input row of a reel (R275). -/
structure ReelIn where
  idx : Int
  md : Int
  samples : List (Option (List Nat))
  /-- Samples per pixel of its source (Table 13.2). -/
  spp : Nat := 1
  absent : Bool := false
  forced : Bool := false
deriving DecidableEq, Repr

/-- A row after the down stage (R277): its columns, none for a group with no valid sample. -/
structure DownRow where
  n : Int
  md : Int
  spp : Nat
  px : List (Option (List Nat))
  gap : Bool
  absent : Bool
  forced : Bool
deriving DecidableEq, Repr

/-- The open unit of a reel (R279). -/
structure RUnit where
  first : Int
  md : Int
  lines : List (List Byte)
  openNs : Nat
  flags : Nat
deriving DecidableEq, Repr

/-- A reel (chapter 13). -/
structure Reel where
  inq : List ReelIn := []
  grp : List ReelIn := []
  /-- The last down-stage row, while bilinear up-scaling of rows waits for the next. -/
  down : Option DownRow := none
  unit : Option RUnit := none
  seq : Nat := 0
  /-- Bytes in the bucket × 10^6 (RATE × 1,000 bytes/s fill RATE per µs), and when that was so. -/
  bucket : Option Nat := none
  bucketNs : Nat := 0
  throttled : Bool := false
  small : Bool := false
  /-- SLOT_SMALL has been raised since the last unit written (Table 13.8). -/
  smallNoted : Bool := false
  skips : Nat := 0
  skipBefore : Bool := false
  /-- Units closed on a chained device that wait for the route (R415): bytes and time. -/
  held : List (List Byte × Nat) := []
deriving DecidableEq, Repr

/-- A raw stripe in the history ring (R287). -/
structure RawStripe where
  port : Nat
  number : Nat
  epoch : Nat
  /-- Logical 4 KiB block at which it starts, and its blocks. -/
  block : Nat
  blocks : Nat
  lines : Nat
  pixels : Nat
  format : Nat
  mdFirst : Int
  mdLast : Int
  /-- The MD span of its lines: motion may reverse within it (R16). -/
  mdMin : Int
  mdMax : Int
  /-- The widest step of MD from one of its lines to the next. -/
  step : Nat := 0
  closed : Bool := false
deriving DecidableEq, Repr

/-- A tile that waits to be written (R285): its logical block and bytes. -/
structure TileJob where
  block : Nat
  bytes : List Byte
deriving DecidableEq, Repr

/-- A view row that is being written (R284): its address, its index and MD, flags and data, and the steps taken: 0, 1 once
its ROW reads 0x8000_0000_0000_0000, 2 once its data is in. -/
structure ViewJob where
  addr : Nat
  row : Int
  md : Int
  flags : Nat
  data : List Byte
  step : Nat := 0
deriving DecidableEq, Repr

/-- The history ring (chapter 13). -/
structure Hist where
  /-- W (R285). -/
  w : Nat := 0
  tiles : List TileJob := []
  /-- Grid rows of the open view group. -/
  group : List GridRow := []
  viewJobs : List ViewJob := []
  view : Int := 0
  /-- Blocks reserved in the raw area since the last layout commit. -/
  rawPos : Nat := 0
  raw : List RawStripe := []
  /-- The MD spans of raw stripes lost to overwriting or to a layout commit, by port, joined where they meet. -/
  rawLost : List (Nat × Int × Int) := []
  handle : Nat := 0
  gen : Nat := 0
  status : Nat := 0
  addr : Nat := 0
  /-- The stretches of visible and of thermal rows emitted so far, newest first: what the tile source ring holds (R267). -/
  srcRuns : List (Int × Int) := []
  tsrcRuns : List (Int × Int) := []
  /-- Stretches of visible and thermal rows emitted that the ring as it is now laid out never held, newest first. -/
  srcOld : List (Int × Int) := []
  tsrcOld : List (Int × Int) := []
deriving DecidableEq, Repr

/-- Couch, knotter, reels and history ring. -/
structure Web where
  couch : Couch := {}
  knot : Knot := {}
  reels : Tbl Reel := []
  hist : Hist := {}
deriving DecidableEq, Repr

end Sys2Proof.Machine
end

