-- ==== Sys2Proof/Machine/State.lean ====
section
/-! DEFINITION. The state of the device. -/

namespace Sys2Proof.Machine

/-- Everything the spec gives the device, and what the model adds (`sent`, `free`, `pending`). Each part's structure
stands in its own file; its field defaults are the values right after reset. -/
structure State where
  /-- Crystal time, TB_NOW and the traceability of time (R24 to R28). -/
  clk : Clk := {}
  /-- Start-up, reset cause, supplies, thermal trip and the power-on profile's loading (chapter 3, R63, R64). -/
  boot : Boot := {}
  /-- The PCIe endpoint: Bus Master Enable, PERST_N, link and error status (chapter 4). -/
  pcie : Pcie := {}
  /-- Queue pairs, defect queues, stream rings, event rings, MSI-X, routing, pending bits, windows (chapter 4). -/
  host : HostIf := {}
  /-- Configuration in force, open groups and groups accepted but not wholly in force (R37 to R46). -/
  cfg : Cfg := {}
  /-- Commands in flight, completions that wait, the progress mirror and tender restarts (chapters 1 and 5). -/
  cmds : Cmds := {}
  /-- The NVM's content and its page writes, records, event log and lifetime counters (chapter 19). -/
  nvm : Nvm := {}
  /-- Fuses, debug access, firmware identity and flash slots (chapter 20). -/
  sec : Sec := {}
  /-- Felt ports, the chain's map and routes, chain time and the shared encoder (chapter 21). -/
  chain : Chain := {}
  /-- The running self-test and the failures it marked (chapter 22). -/
  bist : Bist := {}
  /-- Lanes, links, headboxes, wires and encoders: chapters 6 to 9 and 16. -/
  ing : Ingest := {}
  /-- Couch, knotter and reels: chapters 11 to 13. -/
  web : Web := {}
  /-- The AFE die: dryer ports, marker channels, converters, calibration, serial ports, pins and temperatures (chapters
  10 and 14 to 18). -/
  afe : Afe := {}
  /-- The content of HBM, in canonical form (chapter 1). -/
  hbm : Mem := []
  /-- What the device has sent to host, bus, lanes and pins, newest first. The model's own log (log entry 9). -/
  sent : List Emit := []
  /-- How many free values have been drawn (log entry 6); the model's own. DESIGN CHOICE 6: 0 at reset. -/
  free : Nat := 0
  /-- The commands that wait, first in first out; the model's own (log entry 10). -/
  pending : List Instr := []
deriving DecidableEq, Repr

/-- What stops the device. -/
inductive Fault where
  /-- Raised by BAR2_ACCESS alone, where the host reaches the device and its address range passes the end of the 128 GiB of
  HBM: the spec names no such memory (log entry 114). Safe: the model stops where the hardware may go on. -/
  | hbmAddress
deriving DecidableEq, Repr

/-- What the model does not answer. -/
inductive Refusal where
  /-- A command that has no meaning yet, by its mnemonic. No arm of `exec` answers it. Safe: the model stops. -/
  | notModelled (mnemonic : String)
deriving DecidableEq, Repr

/-- The device right after reset: device ready has been reached (R58, R59), every register holds the value of its Reset
column, memory lists nothing and no command waits. Values that the spec gives as measured, or not at all, are the ones
that log entries 2 to 6 name. -/
def State.reset : State := {}

end Sys2Proof.Machine
end

