-- ==== Sys2Proof/Machine/Ops.lean ====
section
/-! DEFINITION. The shared operations: configuration in force, HBM and NVM bytes, host-bound traffic,
events, queue groups and completions. -/

namespace Sys2Proof.Machine

/-- The outcome of a meaning. -/
abbrev Out := Host.Outcome State Fault Refusal

/-- A meaning that acts only while the device is ready: before device ready, and while it is held in reset,
the command interface and the pipeline do not run (R58, R59), and the command changes nothing. -/
def whenReady (f : State → State) (s : State) : Out :=
  .next (if s.boot.phase = .ready then f s else s)

/-- A meaning of a host access: the endpoint must be out of reset besides (R60, R68). -/
def whenHost (f : State → State) (s : State) : Out :=
  .next (if s.boot.phase = .ready ∧ s.pcie.perstLow = false then f s else s)

/-- A meaning of the streaming path: headboxes, wires, couch, knotter, reels and dryer ports halt at a thermal
trip (R352). -/
def whenLive (f : State → State) (s : State) : Out :=
  .next (if s.boot.phase = .ready ∧ s.boot.tripped = false then f s else s)

/-- A unit that a thermal trip halts takes nothing while the trip lasts (R352). -/
def unlessTripped (f : State → State) (s : State) : State := if s.boot.tripped then s else f s

/-- Microseconds in ns. -/
def us (n : Nat) : Nat := n * 1000
/-- Milliseconds in ns. -/
def ms (n : Nat) : Nat := n * 1000000
/-- Seconds in ns. -/
def sec (n : Nat) : Nat := n * 1000000000

/-! ### Configuration in force -/

/-- The value in force of the field at a configuration address (R46). -/
def cfAt (s : State) (a : Nat) : Nat := (tblFind s.cfg.vals a).getD (fieldReset a)
/-- The value in force of a field. -/
def cf (s : State) (blk inst off : Nat) : Nat := cfAt s (cfgAddr blk inst off)
/-- A signed field of `w` bytes. -/
def cfS (s : State) (blk inst off w : Nat) : Int := toS (8 * w) (cf s blk inst off)

/-- Does an accepted group hold a part of the instance that is not yet in force? -/
def partWaits (s : State) (blk inst : Nat) : Bool :=
  s.cfg.accepted.any fun g => g.parts.contains (blk, inst)

/-- Lay the selected values over those in force. -/
def laySel (sel : Nat → Bool) : Tbl Nat → Tbl Nat → Tbl Nat
  | [], t => t
  | (a, v) :: vs, t => laySel sel vs (if sel a then tblSet t a v else t)

/-- The selected values of a waiting part in the groups that have reached it, in sequence order (R43, R45). -/
def takeVals (sel : Nat → Bool) (part : Nat × Nat) (ok : Accepted → Bool) : List Accepted → Tbl Nat → Tbl Nat
  | [], t => t
  | g :: gs, t => takeVals sel part ok gs (if g.parts.contains part && ok g then laySel sel g.vals t else t)

/-- Is an instance under self-test (chapter 22)? -/
def underTest (s : State) (blk inst : Nat) : Bool := s.bist.run.any fun r => decide (r.blk = blk ∧ r.inst = inst)

/-- A part of the accepted groups that have reached it comes into force, in sequence order (R43, R45). A group with no
part left is wholly in force (R42). -/
def takeSel (sel : Nat → Bool) (part : Nat × Nat) (ok : Accepted → Bool) (s : State) : State :=
  let acc := s.cfg.accepted.map fun g => if ok g then { g with parts := g.parts.filter fun p => p ≠ part } else g
  { s with cfg := { s.cfg with vals := takeVals sel part ok s.cfg.accepted s.cfg.vals
                               accepted := acc.filter fun g => !g.parts.isEmpty } }

/-- Does a configuration address belong to an instance? -/
def ofInst (blk inst : Nat) (a : Nat) : Bool := decide (addrBlk a = blk) && decide (addrInst a = inst)

/-- An instance brings its waiting parts into force. -/
def takePart (blk inst : Nat) (s : State) : State := takeSel (ofInst blk inst) (blk, inst) (fun _ => true) s

/-- The greatest sequence number S such that every accepted group numbered S or below is wholly in force (R42). -/
def cfgApplied (s : State) : W32 :=
  match s.cfg.accepted with
  | [] => s.cfg.seq
  | g :: _ => g.seq - 1

/-- A unit of Table 2.1 passes tokens (R23): wires 0 to 8, the couch 9, slices 10 to 17, the merger 18, the thermal pipes 19
to 22. -/
def passTokens (k n : Nat) (s : State) : State :=
  { s with ing := { s.ing with tokens := tblUpd 0 s.ing.tokens k fun x => x + n } }

/-! ### HBM and NVM -/

/-- Read HBM bytes. -/
def hbmRead (s : State) (a n : Nat) : List Byte := memReadN hbmUnlisted s.hbm a n
/-- Read a little-endian number in HBM (R3). -/
def hbmLe (s : State) (a n : Nat) : Nat := leNat (hbmRead s a n)
/-- Write HBM bytes. -/
def hbmWrite (a : Nat) (bs : List Byte) (s : State) : State := { s with hbm := memWriteN hbmUnlisted s.hbm a bs }
/-- Write a little-endian number in HBM (R3). -/
def hbmPut (a n v : Nat) (s : State) : State := hbmWrite a (leBytes n v) s
/-- Read NVM bytes (R372). -/
def nvmRead (s : State) (a n : Nat) : List Byte := memReadN nvmUnlisted s.nvm.mem a n
/-- Write NVM bytes: the effect of a page write (R373). -/
def nvmStore (a : Nat) (bs : List Byte) (s : State) : State :=
  { s with nvm := { s.nvm with mem := memWriteN nvmUnlisted s.nvm.mem a bs } }

/-- Lifetime counter `i` (Table 19.5). -/
def counter (s : State) (i : Nat) : Nat := tblGet 0 s.nvm.counters i
/-- Count one occurrence in lifetime counter `i`. -/
def countLife (i : Nat) (s : State) : State :=
  { s with nvm := { s.nvm with counters := tblUpd 0 s.nvm.counters i fun n => (n + 1) % 2 ^ 64 } }

/-! ### Felt traffic and host-bound traffic -/

/-- Log something the device sends. -/
def emit (e : Emit) (s : State) : State := { s with sent := e :: s.sent }

/-- Priority of a felt packet type, Table 21.3. -/
def feltPriority (t : Nat) : Nat :=
  if t = 0x10 ∨ t = 0x11 ∨ t = 0x12 ∨ t = 0x1A then 0
  else if t = 0x13 ∨ t = 0x14 then 1
  else if t = 0x1B ∨ t = 0x1C then 3 else 2

/-- Credits of 256 bytes that a felt packet takes (R149): its payload with the route header. -/
def feltCredits (p : FeltPacket) : Nat := (p.payload.length + 4 + 16 + 255) / 256

/-- Felt port `k`. -/
def feltPort (s : State) (k : Nat) : FeltPort := tblGet {} s.chain.ports k
/-- Replace felt port `k`. -/
def setFeltPort (k : Nat) (p : FeltPort) (s : State) : State :=
  { s with chain := { s.chain with ports := tblSet s.chain.ports k p } }

/-- A felt port carries traffic: its link is ACTIVE, ENABLE is 1 and the neighbour is neither foreign nor this
device itself (R406, R408). -/
def feltUsable (s : State) (k : Nat) : Bool :=
  let p := feltPort s k
  decide (p.link.st = 3) && decide (cf s 0x11 k 0 = 1) && !p.foreign_ && !p.loopback

/-- A packet of priority 2 is ready for a port only after the host writes (HWR) of its device before it for the same
destination, on every device of the route: what a completion or a message announces is in host memory first (R84, R90, R97).
DEDUCED 56: R413 orders the packets that are ready. -/
def feltBehind (p q : FeltPacket) : Bool :=
  decide (feltPriority p.ptype = 2 ∧ q.ptype = 0x1B ∧ p.src = q.src ∧ q.dst = p.dst)

/-- Must a packet for which there is a route wait behind one in the hold: of its priority and pair of devices (R413), or a host
write that it announces? -/
def feltAfter (p q : FeltPacket) : Bool :=
  feltBehind p q || decide (feltPriority p.ptype = feltPriority q.ptype ∧ p.src = q.src ∧ p.dst = q.dst)

/-- Insert a packet behind those of its priority or a higher one (R413), and behind those that it must follow. -/
def feltInsert (p : FeltPacket) : List FeltPacket → List FeltPacket
  | [] => [p]
  | q :: qs =>
    if feltPriority p.ptype < feltPriority q.ptype ∧ (q :: qs).any (feltBehind p) = false then p :: q :: qs
    else q :: feltInsert p qs

/-- TB_NOW in 1/64 ns. -/
def tb64 (s : State) : Nat := 64 * s.clk.tb + 64 * s.clk.acc / 100000000

/-- A SYNC packet takes its time stamp as it leaves on the lane (R416): a request T1, which the device keeps, a reply T3. -/
def syncStamp (q : FeltPacket) (s : State) : FeltPacket × State :=
  let t := tb64 s % 2 ^ 64
  if q.ptype ≠ 0x11 then (q, s)
  else if u8At q.payload 0 = 0 then
    ({ q with payload := q.payload.take 8 ++ leBytes 8 t ++ q.payload.drop 16 }, { s with chain := { s.chain with syncT1 := some t } })
  else ({ q with payload := q.payload.take 24 ++ leBytes 8 t }, s)

/-- Send what the credits and the link allow, in priority order (R149, R413). -/
def feltPump (k : Nat) : Nat → State → State
  | 0, s => s
  | n + 1, s =>
    let p := feltPort s k
    match p.queue with
    | [] => s
    | q :: qs =>
      if p.link.st = 3 ∧ feltCredits q ≤ p.link.credit then
        let p' := { p with queue := qs, link := { p.link with credit := p.link.credit - feltCredits q, txSeq := (p.link.txSeq + 1) % 65536 } }
        let x := syncStamp q s
        feltPump k n (emit (.felt k x.1) (setFeltPort k p' x.2))
      else s

/-- Queue a packet on a felt port and send what may be sent. -/
def feltOn (k : Nat) (pkt : FeltPacket) (s : State) : State :=
  let p := feltPort s k
  let s1 := setFeltPort k { p with queue := feltInsert pkt p.queue } s
  feltPump k (p.queue.length + 1) s1

/-- Size of the hold of R415. -/
def holdBytes (s : State) : Nat := (s.chain.hold.map fun p => p.payload.length + 4).sum

/-- Do packets wait on a port: its credits are used up? -/
def feltFull (s : State) (k : Nat) : Bool := !(feltPort s k).queue.isEmpty

/-- Is a packet one of this chained device's own to host memory or the host: a completion, a message, a write (R415)? -/
def hostBound (s : State) (p : FeltPacket) : Bool :=
  !s.chain.head && decide (p.src = s.chain.devId ∧ p.dst = 0) && [0x16, 0x19, 0x1B].contains p.ptype

/-- Put a packet on the first hop of a shortest route (R412), or into the hold while no route exists, while host-bound traffic
cannot enter the route, and behind what it must follow there (R413, R415). -/
def feltRoute (p : FeltPacket) (s : State) : State :=
  match tblFind s.chain.routes p.dst with
  | some k => if feltUsable s k && !s.chain.hold.any (feltAfter p) && !(hostBound s p && feltFull s k) then feltOn k p s
    else { s with chain := { s.chain with hold := s.chain.hold ++ [p] } }
  | none => { s with chain := { s.chain with hold := s.chain.hold ++ [p] } }

/-- Send a packet toward a device. -/
def feltTo (dst ptype : Nat) (payload : List Byte) (s : State) : State := feltRoute ⟨dst, s.chain.devId, 32, ptype, payload⟩ s

/-- Cut a byte string into pieces of at most `n` bytes. -/
def chunks (n : Nat) : Nat → List Byte → List (List Byte)
  | 0, _ => []
  | k + 1, bs => if bs.isEmpty then [] else bs.take n :: chunks n k (bs.drop n)

/-- HWR packets of a write to host memory, 512 bytes at most each (Table 21.3). -/
def hwrSend : Nat → List (List Byte) → State → State
  | _, [], s => s
  | a, c :: cs, s => hwrSend (a + c.length) cs (feltTo 0 0x1B (leBytes 8 a ++ c) s)

/-- Write host memory: the head's own request, or HWR packets to the head (R97). -/
def hostWrite (a : Nat) (bs : List Byte) (s : State) : State :=
  if s.chain.head then emit (.hostWrite a bs) s
  else hwrSend a (chunks 512 (bs.length + 1) bs) s

/-- Bus Master Enable as the device may use it: a chained device sends over the chain. -/
def mayRequest (s : State) : Bool := !s.chain.head || (s.pcie.bme && !s.pcie.perstLow)

/-- Send the message of a vector of the head's table, or hold it while masked or while Bus Master Enable is 0
(R75, R93); a chained device sends an MSI packet (R98). -/
def msixSend (v : Nat) (s : State) : State :=
  if s.chain.head then
    let e := tblGet {} s.host.msix v
    if e.masked || !mayRequest s then
      { s with host := { s.host with pba := s.host.pba ||| BitVec.ofNat 512 (2 ^ (v % 512)) } }
    else emit (.msix v e.addr e.data) s
  else feltTo 0 0x19 (leBytes 2 v) s

/-! ### Events -/

/-- PEND(n). -/
def pendBit (s : State) (n : Nat) : Bool := s.host.pend.getLsbD n
/-- Set PEND(n). -/
def setPend (n : Nat) (s : State) : State :=
  { s with host := { s.host with pend := s.host.pend ||| BitVec.ofNat 512 (2 ^ n) } }

/-- EVT_ROUTE[n]. -/
def routeOf (s : State) (n : Nat) : Nat := tblGet 0 s.host.route n

/-- The phase bit of the entry with index `i` of a ring of 2^k entries (R86). -/
def phaseBit (i : W32) (k : Nat) : Nat := 1 - (i.toNat / 2 ^ k) % 2

/-- The host address of the entry with index `i` (R85). -/
def entryAddr (base : Nat) (i : W32) (k size : Nat) : Nat := base + (i.toNat % 2 ^ k) * size

/-- An event ring entry, Table 4.7. -/
def evtEntry (s : State) (n cause detail : Nat) (lost : Bool) (p : Nat) : List Byte :=
  leBytes 2 n ++ leBytes 1 cause ++ leBytes 1 (p + 2 * b2n lost + 4 * s.chain.devId)
    ++ leBytes 4 detail ++ leBytes 8 s.clk.tb

/-- The ring part of R93: write the entry, or count it as lost. -/
def evtRingWrite (e n cause detail : Nat) (s : State) : State :=
  match tblFind s.host.evts e with
  | none => s
  | some r =>
    if decide ((r.tail - r.head).toNat < 2 ^ r.log2) && mayRequest s && decide (s.chain.head ∨ holdBytes s + 28 ≤ 1048576) then
      let s1 := hostWrite (entryAddr r.base r.tail r.log2 16) (evtEntry s n cause detail r.lost (phaseBit r.tail r.log2)) s
      { s1 with host := { s1.host with evts := tblSet s1.host.evts e { r with tail := r.tail + 1, lost := false } } }
    else
      { s with host := { s.host with
          evts := tblSet s.host.evts e { r with lost := true }
          ringLost := tblUpd 0 s.host.ringLost e fun v => satAdd 16 v 1 } }

/-- R93 without the NVM log; `met` says that a W1C clear met this raise (R94). -/
def raiseCore (met : Bool) (n cause detail : Nat) (s : State) : State :=
  let r := routeOf s n
  let s1 := if bitOf r 16 then evtRingWrite (bits r 10 6) n cause detail s else s
  let was := pendBit s1 n
  let s2 := setPend n s1
  if bitOf r 9 && (!was || met) then msixSend (bits r 0 9) s2 else s2

/-- Was an entry of the source logged less than 1 s ago (R386)? -/
def logRecent (n : Nat) (s : State) : Bool :=
  match tblFind s.nvm.logLast n with
  | some l => decide (s.clk.ns < l.ns + sec 1)
  | none => false

/-- Log an entry (R386): at most one per source in 1 s, in a queue of 64. -/
def logRaise (n cause detail sev : Nat) (s : State) : State :=
  if logRecent n s then
    { s with nvm := { s.nvm with logLast := tblUpd ⟨0, 0⟩ s.nvm.logLast n fun l => { l with suppressed := satAdd 16 l.suppressed 1 } } }
  else if s.nvm.logQueue.length < 64 then
    let e : LogEntry := ⟨n, cause, sev, detail % 2 ^ 32, counter s 1 % 2 ^ 32, s.clk.tb, counter s 0 % 2 ^ 32,
      ((tblFind s.nvm.logLast n).map LogLast.suppressed).getD 0⟩
    { s with nvm := { s.nvm with logQueue := s.nvm.logQueue ++ [e], lostNoted := false
                                 logLast := tblSet s.nvm.logLast n ⟨s.clk.ns, 0⟩ } }
  else { s with nvm := { s.nvm with lost := satAdd 16 s.nvm.lost 1 } }

/-- Is this entry the first that the log discards after one queued (Table 19.8, LOG_LOST)? -/
def logLostDue (n : Nat) (s : State) : Bool :=
  !logRecent n s && decide (64 ≤ s.nvm.logQueue.length) && !s.nvm.lostNoted

/-- Raise a source, with the meeting of R94 given, and log it when its severity is 2 or above. -/
def raiseMet (met : Bool) (n cause detail : Nat) (s : State) : State :=
  let s1 := raiseCore met n cause detail s
  let sev := severity n cause detail
  if sev < 2 then s1
  else if logLostDue n s1 then
    let s2 := logRaise n cause detail sev s1
    let s3 := { s2 with nvm := { s2.nvm with lostNoted := true } }
    logRaise 325 0x06 0 2 (raiseCore false 325 0x06 0 s3)
  else logRaise n cause detail sev s1

/-- Raise source `n` with a cause and a detail (R93, R386). -/
def raise (n cause detail : Nat) (s : State) : State := raiseMet false n cause detail s

/-! ### Queue groups (R95) -/

/-- EVT_GRP[g]. -/
def grpReg (s : State) (g : Nat) : Nat := tblGet 1 s.host.grp g
/-- Entries that trigger a notification; 0 acts as 1. -/
def grpCount (s : State) (g : Nat) : Nat := max 1 (bits (grpReg s g) 0 16)
/-- µs from the first unnotified entry to a notification. -/
def grpTime (s : State) (g : Nat) : Nat := bits (grpReg s g) 16 16

/-- Notify: raise AVAILABLE with the count, which restarts at 0. -/
def grpNotify (g : Nat) (s : State) : State :=
  let r := tblGet {} s.host.grpRun g
  let s1 := { s with host := { s.host with grpRun := tblErase s.host.grpRun g } }
  raise (352 + g) 0x01 (satU 32 r.count) s1

/-- Evaluate the two conditions of R95 against the values in force. -/
def grpEval (g : Nat) (s : State) : State :=
  match tblFind s.host.grpRun g with
  | none => s
  | some r =>
    if r.count = 0 then s
    else if grpCount s g ≤ r.count then grpNotify g s
    else if grpTime s g ≠ 0 ∧ r.since + us (grpTime s g) ≤ s.clk.ns then grpNotify g s
    else s

/-- Count `n` entries of a member ring of a group. -/
def grpAdd (g : Option Nat) (n : Nat) (s : State) : State :=
  match g with
  | none => s
  | some g =>
    if n = 0 then s
    else
      let r := tblGet { since := s.clk.ns } s.host.grpRun g
      grpEval g { s with host := { s.host with grpRun := tblSet s.host.grpRun g { r with count := r.count + n } } }

/-- Does a member ring of group `g` exist? -/
def grpHasMember (s : State) (g : Nat) : Bool :=
  (s.host.pairs.any fun x => x.2.group = some g) || (s.host.dqs.any fun x => x.2.group = some g)
    || (s.host.srs.any fun x => x.2.group = some g)

/-- Clear the count and timer of a group whose last member ring has gone (R95). -/
def grpSettle (g : Option Nat) (s : State) : State :=
  match g with
  | none => s
  | some g => if grpHasMember s g then s else { s with host := { s.host with grpRun := tblErase s.host.grpRun g } }

end Sys2Proof.Machine
end

