-- ==== Sys2Proof/Machine/EncOps.lean ====
section
/-! DEFINITION. Encoders: counts, scaled readings, backward stretches, presets and the readings that stamps use
(R16, R154, R336 to R339, R419). -/

namespace Sys2Proof.Machine

/-- Encoder `e`. -/
def enc (s : State) (e : Nat) : Enc := tblGet {} s.ing.encs e
/-- Replace encoder `e`. -/
def setEnc (e : Nat) (x : Enc) (s : State) : State := { s with ing := { s.ing with encs := tblSet s.ing.encs e x } }

/-- SHARE_SRC, SHARE_ENC and SHARE_AS (Table 21.1). -/
def shareSrc (s : State) : Nat := cf s 0x11 4 0
def shareEnc (s : State) : Nat := cf s 0x11 4 1
def shareAs (s : State) : Nat := cf s 0x11 4 2
/-- The reading of ENCe comes from the shared samples (R419). -/
def sharedHere (s : State) (e : Nat) : Bool :=
  decide (shareSrc s ≠ 0xFF) && decide (shareSrc s ≠ s.chain.devId) && decide (shareAs s = e)
/-- The encoder that an ENCODER field means on this device (R419). -/
def encMeant (s : State) (e : Nat) : Nat :=
  if e = 0xFF then (if shareSrc s = s.chain.devId then shareEnc s else shareAs s) else e

/-- SCALE of an encoder. -/
def encScale (s : State) (e : Nat) : Nat := cf s 0x0C e 4

/-- The scaled reading at count `n` (R337). -/
def encReadingAt (s : State) (e : Nat) (n : Int) : Int :=
  (enc s e).pv + (n - (enc s e).np) * (encScale s e : Int) / 65536

/-- The scaled reading now: the latest sample of a shared encoder. -/
def encE (s : State) (e : Nat) : Int :=
  if sharedHere s e then (s.chain.samples.head?.map EncSample.e).getD 0 else encReadingAt s e (enc s e).n

/-- Entries of a history no older than `span`, and one older. -/
def keepRecent {α : Type} (age : α → Nat) (span : Nat) : List α → List α
  | [] => []
  | x :: xs => if age x ≤ span then x :: keepRecent age span xs else [x]

/-- v in 1/16 µm per ms, exact as a fraction over 65,536: (N − N′) × SCALE (R337), or from the shared samples. -/
def encV65536 (s : State) (e : Nat) : Int :=
  if sharedHere s e then
    match s.chain.samples with
    | [] => 0
    | x :: xs => match xs.find? fun y => decide (y.t + 64000000 ≤ x.t) with
      | some y => (x.e - y.e) * 65536
      | none => ((xs.getLast?.map fun y => x.e - y.e).getD 0) * 65536
  else
    let n' := match (enc s e).counts.find? fun x => decide (x.1 + 1000000 ≤ s.clk.ns) with
      | some y => y.2
      | none => ((enc s e).counts.getLast?.map fun y => y.2).getD 0
    ((enc s e).n - n') * (encScale s e : Int)

/-- SPEED of HK_ENC_STAT, rounded once with halves up and saturated (R337). -/
def encSpeed (s : State) (e : Nat) : Int :=
  clampI (-2147483648) 2147483647 ((2 * encV65536 s e + 65536) / 131072)

/-- The backward state of the encoder; a lost shared encoder reads as backward (R421). -/
def encBackward (s : State) (e : Nat) : Bool :=
  (enc s e).backward || (sharedHere s e && !s.chain.shareOk)

/-- The reading has become `newE`: the highest value and the backward stretch follow (R16, R339). -/
def encMoved (e : Nat) (oldE newE : Int) (s : State) : State :=
  let x := enc s e
  let back := if x.backward then decide (newE ≤ x.high) else decide (newE < oldE)
  let high := if x.high < newE then newE else x.high
  let edges := if newE = oldE ∧ back = x.backward then x.edges
    else keepRecent (fun y => s.clk.tb - y.1) 2000000000
      ((s.clk.tb, newE, back) :: if x.edges.isEmpty then [(0, oldE, false)] else x.edges)
  let s1 := setEnc e { x with backward := back, high := high, edges := edges } s
  if back ∧ !x.backward then raise (226 + e) 0x01 (ofS 32 newE) s1
  else if !back ∧ x.backward then raise (226 + e) 0x02 (ofS 32 newE) s1
  else s1

/-- A change of E without a count ends any backward stretch and restarts the highest value at the new E (R339). -/
def encRestart (e : Nat) (s : State) : State :=
  let x := enc s e
  let now := encE s e
  let s1 := setEnc e { x with backward := false, high := now
                              edges := keepRecent (fun y => s.clk.tb - y.1) 2000000000 ((s.clk.tb, now, false) :: x.edges) } s
  if x.backward then raise (226 + e) 0x02 (ofS 32 now) s1 else s1

/-- The grid's rows start afresh when its MD domain is set anew. The spec is silent on it: DESIGN CHOICE 20. -/
def couchFresh (e : Nat) (s : State) : State :=
  if encMeant s (cf s 0x06 0 0x14) = e then
    { s with web := { s.web with couch := { s.web.couch with
        lastRow := none, thermLast := none, thermClosed := [], thermFirst := [], firstClose := []
        contribs := s.web.couch.contribs.map fun x => (x.1, { x.2 with closed := none }) } } }
  else s

/-- An armed preset takes place (R338). -/
def encPreset (e : Nat) (s : State) : State :=
  let x := enc s e
  let s1 := setEnc e { x with np := x.n, pv := toS 64 (cf s 0x0C e 8), armed := none } s
  raise (226 + e) 0x04 (cf s 0x0C e 0x14) (couchFresh e (encRestart e s1))

/-- Linear interpolation between two readings, rounded once with halves up (R154). -/
def interpE (t0 : Int) (e0 : Int) (t1 : Int) (e1 : Int) (t : Int) : Int :=
  if t1 ≤ t0 then e0
  else e0 + (2 * (e1 - e0) * (t - t0) + (t1 - t0)) / (2 * (t1 - t0))

/-- The reading at moment `t` between the readings of a list, newest first; the newest when none is later. -/
def interpList (t : Int) : List (Int × Int) → Option Int
  | [] => none
  | [(_, e)] => some e
  | (t1, e1) :: (t0, e0) :: rest =>
    if t1 ≤ t then some e1
    else if t0 ≤ t then some (interpE t0 e0 t1 e1 t)
    else interpList t ((t0, e0) :: rest)

/-- The encoder reading that the AFE die latches at TB_NOW `t` (R154); for a shared encoder, that interpolated
between the samples (R419). -/
def encLatch (s : State) (e : Nat) (t : Nat) : Int :=
  if sharedHere s e then
    (interpList (64 * (t : Int)) (s.chain.samples.map fun x => (x.t, x.e))).getD 0
  else match (enc s e).edges.find? fun x => decide (x.1 ≤ t) with
    | some x => x.2.1
    | none => ((enc s e).edges.getLast?.map fun x => x.2.1).getD (encE s e)

/-- The reading interpolated between the 1 µs readings (R154, mode 0; R208). -/
def encInterp (s : State) (e : Nat) (t : Nat) : Int :=
  if sharedHere s e then encLatch s e t
  else (interpList t ((enc s e).samples.map fun x => ((x.1 : Int), x.2))).getD (encE s e)

/-- The backward state at TB_NOW `t`. -/
def encBackAt (s : State) (e : Nat) (t : Nat) : Bool :=
  (match (enc s e).edges.find? fun x => decide (x.1 ≤ t) with
    | some x => x.2.2
    | none => false) || (sharedHere s e && !s.chain.shareOk)

/-- Is the reading at a moment known: has it come, and for a shared encoder the later of the samples that bracket it (R419)?
A lost shared encoder sends none, and reads as its last sample (R421). -/
def captureKnown (s : State) (e t : Nat) : Bool :=
  decide (t ≤ s.clk.tb)
    && (!sharedHere s e || !s.chain.shareOk || s.chain.samples.any fun x => decide (64 * (t : Int) ≤ x.t))

/-- Is the reading interpolated between the 1 µs readings known at a moment: it has come, and so has the reading that ends its
interval (R154, R155)? -/
def interpKnown (s : State) (e t : Nat) : Bool :=
  if sharedHere s e then captureKnown s e t
  else decide (t ≤ s.clk.tb) && (enc s e).samples.any fun x => decide (t ≤ x.1)

/-- The reading at a capture moment, latched by the AFE die or interpolated, and whether it is known. -/
def encStamp (s : State) (latch : Bool) (e t : Nat) : Int := if latch then encLatch s e t else encInterp s e t
def stampKnown (s : State) (latch : Bool) (e t : Nat) : Bool := if latch then captureKnown s e t else interpKnown s e t

/-- A pair of quadrature levels as a position of the cycle 00, 10, 11, 01. -/
def quadPos (a b : Bool) : Nat := if a then (if b then 2 else 1) else (if b then 3 else 0)

/-- An edge of ENCe_A or ENCe_B (R336). -/
def encEdgeBody (e : Nat) (a b : Bool) (s : State) : State :=
  let x := enc s e
  let s0 := setEnc e { x with aIn := a, bIn := b } s
  if sharedHere s e ∨ (x.aIn = a ∧ x.bIn = b) then s0
  else if x.aIn ≠ a ∧ x.bIn ≠ b then
    let first := match x.errNs with
      | none => true
      | some t => decide (t + sec 1 ≤ s.clk.ns)
    let s1 := setEnc e { enc s0 e with err := satAdd 32 x.err 1, errNs := some s.clk.ns } s0
    if first then raise (226 + e) 0x03 0 s1 else s1
  else
    let fwd := decide (quadPos a b = (quadPos x.aIn x.bIn + 1) % 4)
    let step : Int := if fwd = decide (cf s 0x0C e 0 = 0) then 1 else -1
    let old := encE s e
    let n := x.n + step
    let s1 := setEnc e { enc s0 e with
      n := n, counts := keepRecent (fun y => s.clk.ns - y.1) 1000000 ((s.clk.ns, n) :: if x.counts.isEmpty then [(0, x.n)] else x.counts) } s0
    encMoved e old (encE s1 e) s1

/-- A rising edge of ENCe_Z (R338, R339). -/
def encZBody (e : Nat) (s : State) : State :=
  if sharedHere s e then s
  else
    let x := enc s e
    let zc : Int := cf s 0x0C e 0x10
    let s1 := setEnc e { x with zLast := some x.n } s
    let s2 := match x.zLast with
      | some z => if zc ≠ 0 ∧ x.n - z ≠ zc ∧ x.n - z ≠ -zc then raise (226 + e) 0x05 (ofS 32 (x.n - z)) s1 else s1
      | none => s1
    if x.armed = some 2 then encPreset e s2 else s2

/-- The AFE die sends its readings, every 1 µs (R337). -/
def encSampleBody (e : Nat) (s : State) : State :=
  let x := enc s e
  if sharedHere s e ∨ s.clk.ns < x.sampleNs + 1000 then s
  else
    let now := encE s e
    setEnc e { x with pos := now, sampleNs := s.clk.ns / 1000 * 1000, samples := keepRecent (fun y => s.clk.tb - y.1) 2000000000 ((s.clk.tb, now) :: x.samples) } s

end Sys2Proof.Machine
end

