-- ==== Sys2Proof/Machine/AfeBase.lean ====
section
/-! DEFINITION. Accessors of the AFE die and the shutter side that the watermark drive reports to (R222). -/

namespace Sys2Proof.Machine

/-- Low-side channel `n`. -/
def chan (s : State) (n : Nat) : Chan := tblGet {} s.afe.chans n
/-- Change channel `n`. -/
def updChan (n : Nat) (f : Chan → Chan) (s : State) : State :=
  { s with afe := { s.afe with chans := tblUpd {} s.afe.chans n f } }
/-- Dryer port `p`. -/
def dry (s : State) (p : Nat) : Dry := tblGet {} s.afe.dry p
/-- Change dryer port `p`. -/
def updDry (p : Nat) (f : Dry → Dry) (s : State) : State :=
  { s with afe := { s.afe with dry := tblUpd {} s.afe.dry p f } }
/-- Housekeeping unit `u`. -/
def hk (s : State) (u : Nat) : Hk := tblGet {} s.afe.hk u
/-- Change housekeeping unit `u`. -/
def updHk (u : Nat) (f : Hk → Hk) (s : State) : State :=
  { s with afe := { s.afe with hk := tblUpd {} s.afe.hk u f } }

/-- The governor step in force. -/
def govStep (s : State) : Nat := s.afe.step

/-- Serial port `n`. -/
def sp (s : State) (n : Nat) : Sp := tblGet {} s.afe.sp n
/-- Change serial port `n`. -/
def updSp (n : Nat) (f : Sp → Sp) (s : State) : State :=
  { s with afe := { s.afe with sp := tblUpd {} s.afe.sp n f } }

/-- A field of a pin (Table 16.3). -/
def pinf (s : State) (n o : Nat) : Nat := cf s 0x0C 4 (0x100 + 8 * n + o)

/-- What an output pin drives, before INVERT (R334). -/
def gpioDriven (s : State) (n : Nat) : Bool :=
  match pinf s n 0 with
  | 1 => bitOf s.afe.gpioOut n
  | 2 => !((List.range 4).any fun i => (sp s i).run.any fun f => decide (f.sel = some n))
  | 3 => pendBit s (pinf s n 4)
  | 4 => (tblFind s.afe.strobes n).isSome
  | _ => false

/-- Does the device drive the pin? Until ready every output is high-impedance (R58, R334). -/
def gpioDrives (s : State) (n : Nat) : Bool := decide (pinf s n 0 ≠ 0) && decide (s.boot.phase = .ready)

/-- The level of a pin after FILTER and INVERT (R334). -/
def gpioIn (s : State) (n : Nat) : Bool :=
  if gpioDrives s n then gpioDriven s n else Bool.xor (bitOf s.afe.gpio n) (bitOf (pinf s n 1) 0)

/-- A field of a serial port (Table 16.1). -/
def spf (s : State) (n o : Nat) : Nat := cf s 0x0B n o

/-- Does a port run a frame that the host asked for, or hold one queued? -/
def spBusy (x : Sp) : Bool := (x.run.any fun f => decide (f.kind = 0)) || x.queue.any fun f => decide (f.kind = 0)

/-- Insert a frame: the device's own frames wait before host frames (R326). -/
def spInsert (f : SpFrame) : List SpFrame → List SpFrame
  | [] => [f]
  | g :: gs => if f.kind ≠ 0 ∧ g.kind = 0 then f :: g :: gs else g :: spInsert f gs

/-- The pins of a phase (R323): on one lane IO0 is the output and IO1 the input; more lanes are each bidirectional. -/
def spPins (lanes : Nat) (inward : Bool) : List SpPin :=
  if lanes = 1 then [.output, .input] else List.replicate lanes (if inward then .input else .output)

/-- A phase that moves bytes, on the lanes of a code. -/
def spPhase (code : Nat) (bs : List Byte) (inLen : Nat) : SpPhase :=
  { lanes := 2 ^ code, pins := spPins (2 ^ code) (decide (inLen ≠ 0)), cycles := 8 * (bs.length + inLen) / 2 ^ code, bytes := bs }

/-- The phases of a frame, those of width 0 skipped (R325). -/
def spPhases (s : State) (f : SpFrame) : List SpPhase :=
  [spPhase (bits f.lanes 0 2) f.cmd 0, spPhase (bits f.lanes 2 2) f.addr 0,
   { lanes := 1, pins := List.replicate 4 .highZ, cycles := f.dummy, bytes := [] },
   spPhase (bits f.lanes 4 2) (f.out ++ hbmRead s f.buf f.outLen) f.inLen].filter fun p => decide (p.cycles ≠ 0)

/-- The form of a frame (Table 16.1, R322, R393); what R393 does not give of a frame to the flash is that of block 0x0B (DESIGN CHOICE
93). -/
def spForm (s : State) (n : Nat) (f : SpFrame) : SpForm :=
  { select := f.sel.isNone && f.select, mode := spf s n 1, div := f.div.getD (spf s n 2), rxDelay := spf s n 4, gap := spf s n 5 }

/-- `k` SCLK periods at a divisor, in ns: 5/8 ns a step. -/
def sclkNs (div k : Nat) : Nat := 5 * div * k / 8

/-- A frame starts, once select has been high for SEL_GAP periods: it asserts select a period before its first edge and releases it
a period after its last. A frame to the flash ends in the step that starts it (DESIGN CHOICE 92). -/
def spStart (n : Nat) (f : SpFrame) (s : State) : State :=
  let form := spForm s n f
  let ps := spPhases s f
  let from_ := max s.clk.ns ((sp s n).lastNs + sclkNs form.div form.gap)
  emit (.serial n form ps) (updSp n (fun x =>
    if f.kind = 4 then { x with lastNs := s.clk.ns }
    else { x with run := some f, endNs := from_ + sclkNs form.div ((ps.map SpPhase.cycles).sum + 2) }) s)

/-- The waiting frames start, each when none runs. -/
def spNext (n : Nat) : List SpFrame → State → State
  | [], s => updSp n (fun x => { x with queue := [] }) s
  | f :: fs, s =>
    if f.kind = 4 then spNext n fs (spStart n f s) else spStart n f (updSp n (fun x => { x with queue := fs }) s)

/-- The next waiting frame starts when none runs. -/
def spPump (n : Nat) (s : State) : State := if (sp s n).run.isNone then spNext n (sp s n).queue s else s

/-- Queue a frame on a port. -/
def spQueue (n : Nat) (f : SpFrame) (s : State) : State :=
  spPump n (updSp n (fun x => { x with queue := spInsert f x.queue }) s)

/-- A field of Table 10.1. -/
def dpc (s : State) (p o : Nat) : Nat := cf s 0x05 p o

/-- Is the port between F_c and its first viewed frame? -/
def dryShut (s : State) (p : Nat) : Bool := (dry s p).closure.isSome

/-- A closure fails: SHUTTER_FAULT, and no reason 1 to 3 for max(MIN_INTERVAL, 30) s after causes 1, 2 and 4 (R222). -/
def shutFault (p cause : Nat) (s : State) : State :=
  let s1 := if cause = 3 then s
    else updDry p (fun d => { d with quietNs := s.clk.ns + sec (max (dpc s p 0x42) 30) }) s
  raise (121 + p) 0x06 cause s1

/-- Cause 4: the drive of a shutter channel has been cut while its closure held it. The reopen frames follow. -/
def shutCut (n : Nat) (s : State) : State :=
  (List.range 4).foldl (fun s p =>
    match (dry s p).closure with
    | some c =>
      if dpc s p 0x37 = n ∧ (c.step = 1 ∨ c.step = 2 ∨ c.step = 3 ∨ c.step = 5) then
        shutFault p 4 (updDry p (fun d => { d with closure := some { c with step := 4, left := c.reopen, failed := true, hold := false } }) s)
      else s
    | none => s) s

/-! ### Triggers of the housekeeping units (R314) -/

/-- A field of Table 15.2. -/
def hkc (s : State) (u o : Nat) : Nat := cf s 0x0A u o
def hkMode (s : State) (u : Nat) : Nat := hkc s u 0
def hkLen (s : State) (u : Nat) : Nat := hkc s u 1

/-- A trigger is lost (R314, R321). -/
def hkLose (u k : Nat) (s : State) : State :=
  let s1 := updHk u (fun x => { x with lost := satAdd 32 x.lost 1, lostNoted := true }) s
  if (hk s u).lostNoted then s1 else raise (218 + u) 0x01 k s1

/-- A trigger of source `k` (R314). -/
def hkTrigger (u k : Nat) (s : State) : State :=
  let x := hk s u
  if hkMode s u = 0 ∨ hkc s u 2 = 0 ∨ (4 ≤ k ∧ !bitOf (hkc s u 3) (k - 4)) then s
  else if x.st = 3 ∨ x.pending.contains k then hkLose u k s
  else updHk u (fun x => { x with pending := x.pending ++ [k] }) s

/-- A write of HK_SWTRIG: bit 0 as 1 is a trigger of source 6; the other bits are reserved (R5, R314). -/
def swTrigger (u v : Nat) (s : State) : State := if bitOf v 0 then hkTrigger u 6 s else s

/-- A shutter trigger: the start or the end of the averaged frames of a closure (R314). -/
def shutTrigger (p : Nat) (s : State) : State :=
  (List.range 4).foldl (fun s u => if hkc s u 5 = p then hkTrigger u 4 s else s) s

end Sys2Proof.Machine
end

