-- ==== Sys2Proof/Machine/Brynlink.lean ====
section
/-! DEFINITION. The blocks of Brynlink (R147, R148, R150): control blocks and their checks, packets, the dealing of a
stream to lanes, and the scrambler. -/

namespace Sys2Proof.Machine

/-- A control block whose last byte is its CHECK, the CRC-8 of the seven before (R147). -/
def checked (bs : List Byte) : Block := ⟨true, bs ++ [BitVec.ofNat 8 (crc8 bs)]⟩
/-- One byte. -/
def by1 (v : Nat) : List Byte := leBytes 1 v

/-- The IDLE block of Table 7.4. -/
def idleBlock : Block := ⟨true, by1 0x1E ++ zeros 7⟩
/-- A TRAIN block: LANE_ID, WIDTH, STATE and LANE_MASK (Table 7.4). -/
def trainBlock (id width st mask : Nat) : Block :=
  checked (by1 0x4B ++ by1 id ++ by1 width ++ by1 st ++ by1 0xB5 ++ by1 0x3C ++ by1 mask)
/-- An AM block: LANE_ID and AM_COUNT. -/
def amBlock (id count : Nat) : Block := checked (by1 0x78 ++ by1 id ++ leBytes 4 count ++ by1 0)
/-- Bytes 1 to 7 of a SOP block: PTYPE, STREAM, SEQ and LEN. -/
def sopBytes (ptype stream seq len : Nat) : List Byte :=
  by1 ptype ++ by1 stream ++ by1 0 ++ leBytes 2 seq ++ leBytes 2 len
/-- The CRC-32 that a packet's EOP carries: over SOP bytes 1 to 7 and the payload. -/
def packetCrc (ptype stream seq : Nat) (payload : List Byte) : Nat :=
  crc32 (sopBytes ptype stream seq payload.length ++ payload)
/-- The data blocks of a payload, the last padded with zeros; `n` blocks are left. -/
def dataBlocks : Nat → List Byte → List Block
  | 0, _ => []
  | n + 1, bs => ⟨false, padTo 8 bs⟩ :: dataBlocks n (bs.drop 8)
/-- A packet: one SOP block, ⌈LEN ÷ 8⌉ data blocks and one EOP block (R148). -/
def packetBlocks (ptype stream seq : Nat) (payload : List Byte) : List Block :=
  [⟨true, by1 0x33 ++ sopBytes ptype stream seq payload.length⟩]
    ++ dataBlocks ((payload.length + 7) / 8) payload
    ++ [⟨true, by1 0x87 ++ leBytes 4 (packetCrc ptype stream seq payload) ++ zeros 3⟩]

/-- The bytes of a control block with a valid CHECK and the type given. -/
def readChecked (ty : Nat) (b : List Byte) : Bool :=
  decide (b.length = 8) && decide (u8At b 0 = ty) && decide (u8At b 7 = crc8 (b.take 7))
/-- A valid TRAIN block: LANE_ID, WIDTH, STATE, LANE_MASK (Table 7.4). -/
def readTrain (b : List Byte) : Option (Nat × Nat × Nat × Nat) :=
  if readChecked 0x4B b ∧ u8At b 1 ≤ 7 ∧ u8At b 4 = 0xB5 ∧ u8At b 5 = 0x3C then some (u8At b 1, u8At b 2, u8At b 3, u8At b 6)
  else none
/-- A valid AM block: LANE_ID and AM_COUNT. -/
def readAm (b : List Byte) : Option (Nat × Nat) :=
  if readChecked 0x78 b ∧ u8At b 6 = 0 then some (u8At b 1, u32At b 2) else none

/-- Deal consecutive blocks of a stream, the first of them block `j`, to the lanes in position order (R150). -/
def dealBlocks (w j : Nat) (bs : List Block) : List (List Block) :=
  (List.range w).map fun i => ((bs.zipIdx).filter fun x => decide ((j + x.2) % max 1 w = i)).map Prod.fst

/-! ### The scrambler x^58 + x^39 + 1 (R147)

A number holds bits in the order of the line, the first in bit 0; the 58 bits before a block stand below its own. -/

/-- The payload that the 64 received bits spell after the 58 bits before them. -/
def descramble (before word : Nat) : Nat :=
  let x := word * 2 ^ 58 + before
  (word ^^^ (x / 2 ^ 19) ^^^ x) % 2 ^ 64

/-- The bits sent for `k` more payload bits: after the 58 bits sent before them. -/
def scramble : Nat → Nat → Nat → Nat
  | 0, _, _ => 0
  | k + 1, before, word =>
    let b := b2n (bitOf word 0 != (bitOf before 19 != bitOf before 0))
    b + 2 * scramble k (before / 2 + b * 2 ^ 57) (word / 2)

/-- The control block that a received 66-bit block spells, taken as it is or complemented in all its bits (R129): the
scrambler passes a complement through. -/
def rxControl (inv : Bool) (before : BitVec 58) (header : BitVec 2) (word : W64) : Option (List Byte) :=
  let d := descramble before.toNat word.toNat
  let hdr := if inv then (~~~ header).toNat else header.toNat
  if hdr = 0b10 then some (leBytes 8 (if inv then 2 ^ 64 - 1 - d else d)) else none

/-- What state 5 finds in what the lane receives: whether the lane is inverted, and on a 64b/66b lane the LANE_ID of the
training block (R129, R130). -/
def identify (x66 : Bool) : LaneWord → Option (Bool × Nat)
  | .block before header word =>
    if !x66 then none
    else match (rxControl false before header word).bind readTrain with
      | some t => some (false, t.1)
      | none => ((rxControl true before header word).bind readTrain).map fun t => (true, t.1)
  | .idle octets =>
    if x66 then none
    else if octets = [0xBC, 0x3C, 0x3C, 0xB5] then some (false, 0x3F)
    else if octets = [0xBC, 0x3C, 0x3C, 0x4A] then some (true, 0x3F)
    else none

end Sys2Proof.Machine
end

