-- ==== Sys2Proof/Machine/Commands.lean ====
section
/-! DEFINITION. Commands in flight: their packet fields, progress, completions, the progress mirror and
the deletion of a drained pair (chapters 4 and 5). -/

namespace Sys2Proof.Machine

/-! ### Packet fields, Table 5.1 -/

/-- OPCODE. -/
def pkOp (p : List Byte) : Nat := u16At p 0x00
/-- FLAGS. -/
def pkFlags (p : List Byte) : Nat := u16At p 0x02
/-- PROG, Table 5.2. -/
def pkProg (p : List Byte) : Bool := bitOf (pkFlags p) 0
/-- FENCE, Table 5.2. -/
def pkFence (p : List Byte) : Bool := bitOf (pkFlags p) 1
/-- OPT bit 8: DISCARD, STAGED or RECORD. -/
def pkOpt8 (p : List Byte) : Bool := bitOf (pkFlags p) 8
/-- TAG. -/
def pkTag (p : List Byte) : W32 := BitVec.ofNat 32 (u32At p 0x04)
/-- TARGET. -/
def pkTarget (p : List Byte) : Nat := u32At p 0x08
/-- LENGTH. -/
def pkLen (p : List Byte) : Nat := u32At p 0x0C
/-- ADDR. -/
def pkAddr (p : List Byte) : Nat := u64At p 0x10
/-- Instance of an object ID in TARGET. -/
def pkInst (p : List Byte) : Nat := addrInst (pkTarget p)

/-! ### Status codes, Table 5.14 -/

def stOk : Nat := 0x0000
def stInProgress : Nat := 0x0001
def stBadOpcode : Nat := 0x0100
def stBadParam : Nat := 0x0101
def stInconsistent : Nat := 0x0102
def stBusy : Nat := 0x0200
def stAborted : Nat := 0x0201
def stTempInhibit : Nat := 0x0300
def stCalRejected : Nat := 0x0301
def stAuthFail : Nat := 0x0400
def stRollback : Nat := 0x0401
def stTileGone : Nat := 0x0500
def stUnreachable : Nat := 0x0600

/-- RESULT of a command whose host-memory access failed (R102). -/
def hostFailResult : Nat := 0x8000000000000000

/-! ### Opcodes, Table 5.3 -/

/-- Has the opcode a progress unit? -/
def opHasProgress (op : Nat) : Bool := [0x0040, 0x0041, 0x00A0, 0x00B1, 0x00C1, 0x00D0, 0x00F0].contains op

/-- The tender that owns a command, Table 1.8. The table names the work of LANE_TRAIN, LANE_TEST, PORT_START, PORT_STOP,
TABLE_LOAD, RULES_LOAD, SHUTTER, MARK_FIRE and BIST_RUN at no tender: they belong to T0, which interprets commands (DESIGN
CHOICE 83). -/
def opTender (op : Nat) : Nat :=
  if [0x0011, 0x0041, 0x00E0].contains op then 1
  else if [0x0090, 0x00A0].contains op then 2
  else if [0x00B0, 0x00B1, 0x00C0, 0x00C1, 0x00C2, 0x00C3, 0x00F0].contains op then 3
  else 0

/-! ### The command list -/

/-- Is `c` the command that an opcode row names? -/
def cmdIs (sq : Nat) (tag : W32) (op : Nat) (c : Cmd) : Bool :=
  decide (c.sq = sq) && decide (c.tag = tag) && decide (pkOp c.packet = op) && c.sentTo.isNone

/-- The earliest fetched command of an SQ and tag (R106). -/
def cmdNamed (s : State) (sq : Nat) (tag : W32) : Option Cmd :=
  s.cmds.flight.find? fun c => decide (c.sq = sq) && decide (c.tag = tag)

/-- Are two entries of the list the same command? -/
def sameCmd (a b : Cmd) : Bool := decide (a.cid = b.cid)

/-- Remove the first entry that is the command. -/
def cmdRemove (c : Cmd) : List Cmd → List Cmd
  | [] => []
  | d :: ds => if sameCmd c d then ds else d :: cmdRemove c ds

/-- Replace the first entry that is the command. -/
def cmdReplace (c : Cmd) : List Cmd → List Cmd
  | [] => []
  | d :: ds => if sameCmd c d then c :: ds else d :: cmdReplace c ds

/-- Store a changed command. -/
def putCmd (c : Cmd) (s : State) : State :=
  { s with cmds := { s.cmds with flight := cmdReplace c s.cmds.flight } }

/-- Commands before `c` in the list. -/
def cmdsBefore (c : Cmd) : List Cmd → List Cmd
  | [] => []
  | d :: ds => if sameCmd c d then [] else d :: cmdsBefore c ds

/-- May the command start: every earlier command of its SQ has started (R91), and has completed when FENCE is set
(Table 5.2); and no tender restart pauses command processing (R19)? -/
def mayStart (s : State) (c : Cmd) : Bool :=
  let earlier := (cmdsBefore c s.cmds.flight).filter fun d => decide (d.sq = c.sq) && decide (d.origin = c.origin)
  s.cmds.paused.isEmpty && (if pkFence c.packet then earlier.isEmpty else earlier.all fun d => d.started || d.sentTo.isSome)

/-! ### Progress (R116 to R119) -/

/-- PERCENT of a command that has not completed OK; 0 before it has begun (R104, R116). -/
def percentOf (c : Cmd) : Nat :=
  if !opHasProgress (pkOp c.packet) || !c.started then 0
  else if c.total = 0 then 255 else min 99 (100 * c.position / c.total)

/-- Mirror slot `n`. -/
def slotOf (s : State) (n : Nat) : Slot := tblGet {} s.cmds.slots n
/-- Replace mirror slot `n`. -/
def setSlot (n : Nat) (x : Slot) (s : State) : State :=
  { s with cmds := { s.cmds with slots := tblSet s.cmds.slots n x } }

/-- The first free slot among `n` slots from `i`. -/
def freeSlot (s : State) : Nat → Nat → Option Nat
  | 0, _ => none
  | n + 1, i => if (slotOf s i).state = 0 then some i else freeSlot s n (i + 1)

/-- The slot that has been done longest, and for 1 s at least. -/
def oldDoneSlot (s : State) : Option Nat :=
  let done := (List.range 64).filter fun i => decide ((slotOf s i).state = 2 ∧ (slotOf s i).doneNs + sec 1 ≤ s.clk.ns)
  done.foldl (fun b i => match b with
    | none => some i
    | some j => if (slotOf s i).doneNs < (slotOf s j).doneNs then some i else some j) none

/-- The slot that a starting command takes (R119). -/
def takeSlot (s : State) : Option Nat := (freeSlot s 64 0).orElse fun _ => oldDoneSlot s

/-- A command begins its work: it has passed the checks of R105, its TOTAL is fixed (R116) and it takes a slot
when it has a progress unit (R119). -/
def beginWork (c : Cmd) (total : Nat) (s : State) : Cmd × State :=
  let c1 := { c with started := true, startNs := s.clk.ns, total := total, position := 0 }
  if opHasProgress (pkOp c.packet) then
    match takeSlot s with
    | some n =>
      let c2 := { c1 with slot := some n }
      let x : Slot := { state := 1, percent := percentOf c1, sq := c.sq, op := pkOp c.packet % 256, tag := c.tag, total := total }
      (c2, putCmd c2 (setSlot n x s))
    | none => (c1, putCmd c1 s)
  else (c1, putCmd c1 s)

/-- Is an interim completion due at a change of POSITION now (R117)? -/
def interimDue (s : State) (c : Cmd) : Bool :=
  pkProg c.packet && opHasProgress (pkOp c.packet) &&
  match c.interimNs with
  | none => decide (c.startNs + ms 10 ≤ s.clk.ns)
  | some t => decide (t + ms 100 ≤ s.clk.ns)

/-- POSITION changes (R116, R117, R119). -/
def progressTo (c : Cmd) (pos : Nat) (s : State) : Cmd × State :=
  let c1 := { c with position := pos, moved := c.moved || (decide (pos ≠ c.position) && interimDue s c) }
  let s1 := match c1.slot with
    | some n => setSlot n { slotOf s n with pos := pos, percent := percentOf c1 } s
    | none => s
  (c1, putCmd c1 s1)

/-! ### Completions -/

/-- The 32 bytes of a completion, Table 5.5. -/
def completionBytes (tag : W32) (status percent phase result position head : Nat) : List Byte :=
  leBytes 4 tag.toNat ++ leBytes 2 status ++ leBytes 1 percent ++ leBytes 1 phase ++ leBytes 8 result
    ++ leBytes 8 position ++ leBytes 4 head ++ zeros 4

/-- Write one completion into the CQ of a pair, and count it in the CQ's group (R86, R90, R95). -/
def writeCqe (sq : Nat) (tag : W32) (status percent result position : Nat) (interim : Bool) (s : State) : State :=
  match tblFind s.host.pairs sq with
  | none => s
  | some p =>
    let bs := completionBytes tag status percent (phaseBit p.cqTail p.cqLog2 + 2 * b2n interim) result position p.fetch.toNat
    let s1 := hostWrite (entryAddr p.cqBase p.cqTail p.cqLog2 32) bs s
    let s2 := { s1 with host := { s1.host with pairs := tblSet s1.host.pairs sq { p with cqTail := p.cqTail + 1 } } }
    grpAdd p.group 1 s2

/-- Commands of a pair of this device fetched and not completed. -/
def outstanding (s : State) (sq : Nat) : Nat :=
  (s.cmds.flight.filter fun c => decide (c.sq = sq) && decide (c.origin = .here)).length
    + (s.cmds.abortedHeld.filter fun c => decide (c.sq = sq) && decide (c.origin = .here)).length
    + (s.cmds.waiting.filter fun c => decide (c.sq = sq) && decide (c.origin = .here)).length

/-- Entries of a pair's CQ written and not consumed. -/
def cqUsed (p : Pair) : Nat := (p.cqTail - p.cqHead).toNat

/-- Mark a command's slot done (R119). -/
def slotDone (c : Cmd) (status percent position : Nat) (s : State) : State :=
  match c.slot with
  | some n => setSlot n { slotOf s n with state := 2, percent := percent, pos := position, status := status, doneNs := s.clk.ns } s
  | none => s

/-- May a final completion be written: not while a tender restart pauses completions (R19, Table 1.8), nor into a CQ while Bus
Master Enable is 0 (R75)? -/
def mayComplete (o : Origin) (s : State) : Bool := s.cmds.paused.isEmpty && (decide (o ≠ .here) || mayRequest s)

/-- Write a final completion: into its CQ, or as a CPL packet to the device that the command came from (R96). -/
def cplWrite (w : Waiting) (s : State) : State :=
  let cpl : List Byte := leBytes 2 w.sq ++ completionBytes w.tag w.status w.percent 0 w.result w.position 0
  match w.origin with
  | .here => writeCqe w.sq w.tag w.status w.percent w.result w.position false s
  | .head => feltTo 0 0x16 cpl s
  | .device d => feltTo d 0x16 cpl s

/-- Write the final completion of a command without looking at drained pairs, or let it wait until it may be written. -/
def finishOnly (c : Cmd) (status percent result position : Nat) (s : State) : State :=
  let known := s.cmds.finished
  let s1 := { s with cmds := { s.cmds with flight := cmdRemove c s.cmds.flight
                                           finished := if known.contains (c.sq, c.tag) then known else (c.sq, c.tag) :: known } }
  let s2 := slotDone c status percent position s1
  let w : Waiting := ⟨c.origin, c.sq, c.tag, status, percent, result, position⟩
  if mayComplete c.origin s2 then cplWrite w s2
  else { s2 with cmds := { s2.cmds with waiting := s2.cmds.waiting ++ [w] } }

/-- The QUEUE_DELETE in flight that waits for a pair to drain. -/
def deleteOf (s : State) (sq : Nat) : Option Cmd :=
  s.cmds.flight.find? fun c => decide (pkOp c.packet = 0x0071) && c.started && decide (u8At c.packet 0x18 = 0)
    && decide (u32At c.packet 0x1C = sq)

/-- The first draining pair with no command left (R82, R83). -/
def drainedPair (s : State) : Option (Nat × Pair) :=
  s.host.pairs.find? fun x => x.2.draining && decide (outstanding s x.1 = 0)

/-- Remove a pair; pair 0 loses FAULT and DRAINING (R82). -/
def removePair (sq : Nat) (s : State) : State :=
  let g := (tblFind s.host.pairs sq).bind Pair.group
  let s1 := { s with host := { s.host with pairs := tblErase s.host.pairs sq } }
  let s2 := if sq = 0 then { s1 with host := { s1.host with q0Draining := false, q0Fault := false } } else s1
  grpSettle g s2

/-- Delete every pair whose fetched commands have all completed, and complete the QUEUE_DELETE that waited for it;
that may drain a further pair. -/
def settlePairs : Nat → State → State
  | 0, s => s
  | n + 1, s =>
    match drainedPair s with
    | none => s
    | some (sq, _) =>
      let d := deleteOf s sq
      let s1 := removePair sq s
      match d with
      | some c => settlePairs n (finishOnly c stOk 100 0 0 s1)
      | none => settlePairs n s1

/-- The waiting completions that may be written now are written, in the order in which their commands completed (R19, R75). -/
def waitingWrite (s : State) : State :=
  let s1 := (s.cmds.waiting.filter fun w => mayComplete w.origin s).foldl (fun s w => cplWrite w s)
    { s with cmds := { s.cmds with waiting := s.cmds.waiting.filter fun w => !mayComplete w.origin s } }
  settlePairs (s1.host.pairs.length + 1) s1

/-- The final completion of a command (R104). -/
def finish (c : Cmd) (status percent result position : Nat) (s : State) : State :=
  let s1 := finishOnly c status percent result position s
  settlePairs (s1.host.pairs.length + 1) s1

/-- Completion with status OK: PERCENT 100. -/
def finishOk (c : Cmd) (result position : Nat) (s : State) : State := finish c stOk 100 result position s

/-- Completion with another status: the PERCENT and POSITION reached. -/
def finishErr (c : Cmd) (status result : Nat) (s : State) : State :=
  finish c status (percentOf c) result c.position s

/-- Completion from the checks of R105, before any effect. -/
def finishCheck (c : Cmd) (status : Nat) (s : State) : State :=
  finish c status 0 0 0 s

/-- A host-memory access of the command failed (R102). -/
def finishHostFail (c : Cmd) (position : Nat) (s : State) : State :=
  finish c stBadParam (percentOf { c with position := position }) hostFailResult position s

/-- The opcodes that a tripped device still runs: IDENTIFY, PROGRESS, ABORT, ECHO, NVM_READ and CERT_READ (R352). -/
def tripOpcodes : List Nat := [0x0001, 0x0002, 0x0003, 0x0004, 0x00B0, 0x00C3]

/-- The command that an opcode row acts on, of those that its SQ, tag and opcode name: the earliest that may start, and
the earliest that runs where none may. Commands that share a tag therefore run as any others (R106). -/
def rowCmd (s : State) (sq : Nat) (tag : W32) (op : Nat) : Option Cmd :=
  let l := s.cmds.flight.filter (cmdIs sq tag op)
  (l.find? fun c => !c.started && mayStart s c).orElse fun _ => l.find? Cmd.started

/-- Run an opcode row: its command starts (`start`) or is carried on (`cont`); nothing happens without one. -/
def runCmd (sq : Nat) (tag : W32) (op : Nat) (start cont : Cmd → State → State) (s : State) : State :=
  match rowCmd s sq tag op with
  | none => s
  | some c =>
    if !s.cmds.paused.isEmpty then s
    else if s.boot.tripped ∧ !tripOpcodes.contains op then finishErr c stTempInhibit 0 s
    else if c.started then cont c s else start c s

/-- A meaning of an opcode row. -/
def opcodeRow (sq : Fin 1024) (tag : W32) (op : Nat) (start cont : Cmd → State → State) (s : State) : Out :=
  whenReady (runCmd sq.val tag op start cont) s

end Sys2Proof.Machine
end

