-- ==== Sys2Proof/Machine/FixMath.lean ====
section
/-! DEFINITION. Logarithm, exponential, square root and arc tangent in fixed point, for what the manual computes in real
numbers (R258, R297, R299). DESIGN CHOICE 30: the manual gives the real functions; these round below 2^−60. -/

namespace Sys2Proof.Machine

/-- The number of the fixed-point unit, 2^64. -/
def fixOne : Nat := 2 ^ 64

/-- Σ z^(2k+1) ÷ (2k+1) over `n` terms from k, with `t` the power so far and `zz` the square of z. -/
def atanhSum (zz : Nat) : Nat → Nat → Nat → Nat
  | 0, _, _ => 0
  | n + 1, k, t => t / (2 * k + 1) + atanhSum zz n (k + 1) (t * zz / fixOne)

/-- ln of 2 in units of 2^−64. -/
def lnTwo : Nat := 12786308645202655659

/-- ln(p ÷ q) in units of 2^−64, for p ≥ q > 0; 0 otherwise. -/
def lnFix (p q : Nat) : Nat :=
  if q = 0 ∨ p ≤ q then 0
  else
    let e := (p / q).log2
    let d := q * 2 ^ e
    -- p/d lies between 1 and 2
    let z := (p - d) * fixOne / (p + d)
    e * lnTwo + 2 * atanhSum (z * z / fixOne) 40 0 z

/-- 1 − exp(−1 ÷ n) in units of 2^−64, for n ≥ 1: x − x²/2 + x³/6 − … -/
def expGap (n : Nat) : Nat :=
  let x := fixOne / max 1 n
  let term : Nat → Nat → Nat := fun k t => t * x / fixOne / k
  let t2 := term 2 x
  let t3 := term 3 t2
  let t4 := term 4 t3
  let t5 := term 5 t4
  x - t2 + t3 - t4 + t5

/-- Integer square root, bit by bit. -/
def isqrtStep (n : Nat) : Nat → Nat → Nat
  | 0, r => r
  | b + 1, r => let r' := r + 2 ^ b; isqrtStep n b (if r' * r' ≤ n then r' else r)
/-- ⌊√n⌋. -/
def isqrt (n : Nat) : Nat := isqrtStep n (n.log2 / 2 + 1) 0

/-- The terms of Euler's series of the arc tangent: each is the last times (2k + 2) ÷ (2k + 3) times y² ÷ (x² + y²). -/
def atanSum (yy rr : Nat) : Nat → Nat → Nat → Nat
  | 0, _, _ => 0
  | n + 1, k, t => t + atanSum yy rr n (k + 1) (t * (2 * k + 2) * yy / ((2 * k + 3) * rr))

/-- atan(y ÷ x) in units of 2^−64, for 0 ≤ y ≤ x. -/
def atanFix (y x : Nat) : Nat :=
  if y = 0 then 0
  else
    let rr := x * x + y * y
    atanSum (y * y) rr 80 0 (x * y * fixOne / rr)

/-- π in units of 2^−64. -/
def piFix : Nat := 57952155664616982739

/-- atan2(y, x) in units of 2^−64, in 0 to 2π. -/
def atan2Fix (y x : Int) : Nat :=
  let a := y.natAbs
  let b := x.natAbs
  let base := if a ≤ b then atanFix a b else piFix / 2 - atanFix b a
  if 0 ≤ x then (if 0 ≤ y then base else 2 * piFix - base)
  else if 0 ≤ y then piFix - base else piFix + base

end Sys2Proof.Machine
end

