-- ==== Sys2Proof/Machine/F64.lean ====
section
/-! DEFINITION. IEEE 754 binary64 as exact dyadic numbers rounded to nearest, ties to even (R238): what the
homography needs. A result that is not finite is `none`. -/

namespace Sys2Proof.Machine

/-- A finite binary64 value m × 2^e. -/
structure Dy where
  m : Int
  e : Int
deriving DecidableEq, Repr

/-- Bits of a natural number. -/
def bitLen (n : Nat) : Nat := if n = 0 then 0 else n.log2 + 1

/-- Round m × 2^e to binary64. -/
def dyRound (m e : Int) : Option Dy :=
  if m = 0 then some ⟨0, 0⟩
  else
    let a := m.natAbs
    let t := max (e + (bitLen a : Int) - 53) (-1074)
    let (q, x) := if t ≤ e then (a, e)
      else
        let sh := (t - e).toNat
        let q := a / 2 ^ sh
        let r := a % 2 ^ sh
        let half := 2 ^ (sh - 1)
        (if half < r ∨ (r = half ∧ q % 2 = 1) then q + 1 else q, t)
    if 1024 < x + (bitLen q : Int) then none else some ⟨if m < 0 then -(q : Int) else q, x⟩

/-- The value of binary64 bits; none for infinities and NaNs. -/
def dyOfBits (v : Nat) : Option Dy :=
  let ex := bits v 52 11
  let fr := bits v 0 52
  if ex = 2047 then none
  else
    let m : Nat := if ex = 0 then fr else fr + 2 ^ 52
    let e : Int := if ex = 0 then -1074 else (ex : Int) - 1075
    some ⟨if bitOf v 63 then -(m : Int) else m, e⟩

/-- A small integer. -/
def dyOfNat (n : Nat) : Dy := ⟨n, 0⟩

/-- Product. -/
def dyMul (a b : Dy) : Option Dy := dyRound (a.m * b.m) (a.e + b.e)

/-- Sum. -/
def dyAdd (a b : Dy) : Option Dy :=
  let e := min a.e b.e
  dyRound (a.m * 2 ^ (a.e - e).toNat + b.m * 2 ^ (b.e - e).toNat) e

/-- h0·x + h1·y + h2, left to right, each operation rounded (R238). -/
def dyForm (h0 h1 h2 : Option Dy) (x y : Nat) : Option Dy := do
  let a ← dyMul (← h0) (dyOfNat x)
  let b ← dyMul (← h1) (dyOfNat y)
  let c ← dyAdd a b
  dyAdd c (← h2)

/-- Negation, exact. -/
def dyNeg (a : Dy) : Dy := ⟨-a.m, a.e⟩

/-- Quotient, rounded once: a quotient of 66 bits at least, and a sticky bit. -/
def dyDiv (a b : Dy) : Option Dy :=
  if b.m = 0 then none
  else
    let k := 66 + bitLen b.m.natAbs - bitLen a.m.natAbs
    let n := a.m.natAbs * 2 ^ k
    let q := n / b.m.natAbs
    let x : Nat := 2 * q + if n % b.m.natAbs = 0 then 0 else 1
    dyRound (if (a.m < 0) = (b.m < 0) then (x : Int) else -(x : Int)) (a.e - b.e - k - 1)

/-- Square root of a value that is not negative, rounded once. -/
def dySqrt (a : Dy) : Option Dy :=
  if a.m < 0 then none
  else
    let odd : Nat := (a.e % 2).toNat
    let n := a.m.natAbs * 2 ^ (132 + odd)
    let r := isqrt n
    let x : Nat := 2 * r + if r * r = n then 0 else 1
    dyRound (x : Int) ((a.e - odd) / 2 - 66 - 1)

/-- atan2 rounded once to binary64, in −π to π. -/
def dyAtan2 (y x : Dy) : Option Dy :=
  let e := min y.e x.e
  let yi := y.m * 2 ^ (y.e - e).toNat
  let xi := x.m * 2 ^ (x.e - e).toNat
  if 0 ≤ yi then dyRound (atan2Fix yi xi) (-64) else (dyRound (atan2Fix (-yi) xi) (-64)).map dyNeg

/-- π as binary64. -/
def dyPi : Dy := (dyRound piFix (-64)).getD ⟨0, 0⟩

/-- Rounded to the nearest integer, halves up. -/
def dyToInt (a : Dy) : Int := if 0 ≤ a.e then a.m * 2 ^ a.e.toNat else (2 * a.m + 2 ^ (-a.e).toNat) / (2 * 2 ^ (-a.e).toNat)

/-- Is the value above zero? -/
def dyPos (a : Dy) : Bool := decide (0 < a.m)

/-- The quotient rounded once to the nearest integer, halves up; the divisor is positive. -/
def dyQuot (a b : Dy) : Int :=
  let e := min a.e b.e
  let n := a.m * 2 ^ (a.e - e).toNat
  let d := b.m * 2 ^ (b.e - e).toNat
  if d ≤ 0 then 0 else (2 * n + d) / (2 * d)

end Sys2Proof.Machine
end

