-- ==== Sys2Proof/Machine/WebGeo.lean ====
section
/-! DEFINITION. The geometry of the grid (R229) and of what covers it: camera ports, dryer ports, felt sides and
slices. -/

namespace Sys2Proof.Machine

/-- Couch fields (Table 11.1). -/
def gPitch (s : State) : Nat := cf s 0x06 0 0x00
def gCols (s : State) : Nat := cf s 0x06 0 0x04
def gBase (s : State) : Nat := cf s 0x06 0 0x08
def gCd0 (s : State) : Int := cfS s 0x06 0 0x0C 4
def gMdPitch (s : State) : Nat := cf s 0x06 0 0x10
def gEnc (s : State) : Nat := encMeant s (cf s 0x06 0 0x14)
def gKernel (s : State) : Nat := cf s 0x06 0 0x15
def gSamples (s : State) : Nat := cf s 0x06 0 0x16
def gTherm (s : State) : Nat := cf s 0x06 0 0x17
def gMdPhase (s : State) : Int := cfS s 0x06 0 0x18 8
def gGap (s : State) : Nat := cf s 0x06 0 0x20
def gEdge (s : State) : Nat := cf s 0x06 0 0x22
def gFelt (s : State) (side : Nat) : Nat := cf s 0x06 0 (0x48 + side)
/-- Thermal columns of a stored thermal row. -/
def gTCols (s : State) : Nat := (gCols s + gTherm s - 1) / max 1 (gTherm s)
/-- The thermal column ⌊g ÷ THERM_MULT⌋ (R238) of a local column, counted from that of column COL_BASE. -/
def tcOf (s : State) (j : Nat) : Nat := (gBase s + j) / max 1 (gTherm s) - gBase s / max 1 (gTherm s)
/-- Thermal cells that meet the owned columns: one more than a stored row holds where COL_BASE is no multiple of THERM_MULT
(DEDUCED 69). -/
def gTCells (s : State) : Nat := if gCols s = 0 then 0 else tcOf s (gCols s - 1) + 1
/-- The first owned column of a thermal cell. -/
def tcFirst (s : State) (t : Nat) : Nat := (gBase s / max 1 (gTherm s) + t) * max 1 (gTherm s) - gBase s

/-- Offset of the couch fields of camera port p (Table 11.2). -/
def cpOff (p o : Nat) : Nat := 0x100 + 0x40 * p + o
/-- A couch field of camera port p. -/
def cpf (s : State) (p o : Nat) : Nat := cf s 0x06 0 (cpOff p o)
/-- Camera port p contributes to the grid: ENABLE 1 and the couch is on. -/
def cpOn (s : State) (p : Nat) : Bool := decide (cpf s p 0 = 1) && decide (gCols s ≠ 0)
/-- The couch takes the port's lines: ENABLE is 1, or becomes 1 at a couch boundary still to come (R245). -/
def cpWant (s : State) (p : Nat) : Bool :=
  cpOn s p || (decide (gCols s ≠ 0) && s.cfg.accepted.any fun g =>
    g.parts.contains (0x06, 0) && decide (tblFind g.vals (cfgAddr 0x06 0 (cpOff p 0)) = some 1))
/-- A couch field of dryer port p (Table 11.3). -/
def dpf (s : State) (p o : Nat) : Nat := cf s 0x06 0 (0x900 + 0x80 * p + o)
/-- Dryer port p feeds the thermal layer. -/
def dpOn (s : State) (p : Nat) : Bool := decide (dpf s p 0 = 1) && decide (gCols s ≠ 0)

/-- The centre of a global column, 1/256 µm (R229). -/
def colCentre (s : State) (g : Int) : Int := 16 * gCd0 s + g * (gPitch s : Int)
/-- Left edge of a column, rounded outward to 1/16 µm. -/
def colLeft (s : State) (g : Int) : Int := (2 * colCentre s g - (gPitch s : Int)) / 32
/-- Right edge of a column, rounded outward to 1/16 µm. -/
def colRight (s : State) (g : Int) : Int := -((-(2 * colCentre s g + (gPitch s : Int))) / 32)
/-- m_k of a grid row (R229). -/
def rowMd (s : State) (k : Int) : Int := gMdPhase s + k * (gMdPitch s : Int)
/-- Lower window edge, rounded outward (down). -/
def rowLo (s : State) (k : Int) : Int := (2 * rowMd s k - (gMdPitch s : Int)) / 2
/-- Upper window edge, rounded outward (up). -/
def rowHi (s : State) (k : Int) : Int := -((-(2 * rowMd s k + (gMdPitch s : Int))) / 2)
/-- The row that a stamp belongs to (R230). -/
def rowOf (s : State) (m : Int) : Int :=
  (2 * (m - gMdPhase s) + (gMdPitch s : Int)) / (2 * max 1 (gMdPitch s : Int))

/-- A CD in 1/16 µm within the range of CD (Table 1.7): an edge beyond it reads as the end of the range (R15). -/
def clampCd (i : Int) : Int := clampI (-2147483648) 2147483647 i

/-- The CD span of the global columns a to b, clipped to the owned columns; none when they are disjoint. -/
def ownedSpan (s : State) (a b : Int) : Option (Int × Int) :=
  let lo := max a (gBase s : Int)
  let hi := min b ((gBase s : Int) + (gCols s : Int) - 1)
  if hi < lo then none else some (clampCd (colLeft s lo), clampCd (colRight s hi))

/-- Entry i of the homography of dryer port p. -/
def homog (s : State) (p i : Nat) : Option Dy := dyOfBits (dpf s p (8 + 8 * i))
/-- X, Y and W of R238 at a pixel. -/
def homogAt (s : State) (p x y : Nat) : Option (Dy × Dy × Dy) := do
  let a ← dyForm (homog s p 0) (homog s p 1) (homog s p 2) x y
  let b ← dyForm (homog s p 3) (homog s p 4) (homog s p 5) x y
  let c ← dyForm (homog s p 6) (homog s p 7) (homog s p 8) x y
  some (a, b, c)
/-- CD and v of R238 at a pixel, 1/16 µm. -/
def homogPos (s : State) (p x y : Nat) : Option (Int × Int) :=
  match homogAt s p x y with
  | some (a, b, c) => if dyPos c then some (dyQuot a c, dyQuot b c) else none
  | none => none
/-- The corners of the active image of dryer port p: columns and rows of Table 10.1. -/
def dpCorners (s : State) (p : Nat) : List (Nat × Nat) :=
  let w := cf s 0x05 p 4
  let h := cf s 0x05 p 6
  [(0, 0), (w - 1, 0), (0, h - 1), (w - 1, h - 1)]
/-- The coverage of dryer port p: the owned columns between the least and greatest CD of its corners (R268). -/
def dpSpan (s : State) (p : Nat) : Option (Int × Int) :=
  let cs := (dpCorners s p).filterMap fun c => (homogPos s p c.1 c.2).map Prod.fst
  match cs with
  | [] => none
  | c :: rest =>
    let lo := rest.foldl min c
    let hi := rest.foldl max c
    let pt := max 1 (gPitch s : Int)
    -- columns whose centres lie between lo and hi: 16·CD in 1/256 µm
    let a := -((-(16 * lo - 16 * gCd0 s)) / pt)
    let b := (16 * hi - 16 * gCd0 s) / pt
    ownedSpan s a b

/-- The columns of a felt side: the owned columns within EDGE_COLS of that edge (R243). -/
def sideSpan (s : State) (side : Nat) : Option (Int × Int) :=
  let lo := (gBase s : Int)
  let hi := lo + (gCols s : Int) - 1
  if side = 0 then ownedSpan s lo (lo + (gEdge s : Int) - 1) else ownedSpan s (hi - (gEdge s : Int) + 1) hi

/-- The span of a slice (local columns). -/
def sliceSpan (s : State) (k : Nat) : Option (Int × Int) :=
  ownedSpan s ((gBase s : Int) + cf s 0x07 k 4) ((gBase s : Int) + cf s 0x07 k 8)

/-- The CD span of a blind interval by its SOURCE (Table 12.8). -/
def blindSpan (s : State) (source : Nat) : Option (Int × Int) :=
  if source < 32 then (if cpOn s source then ownedSpan s (cpf s source 4) (cpf s source 8) else none)
  else if source < 36 then (if dpOn s (source - 32) then dpSpan s (source - 32) else none)
  else if source = 64 then sideSpan s 0
  else if source = 65 then sideSpan s 1
  else sliceSpan s (source - 96)

end Sys2Proof.Machine
end

