-- ==== Sys2Proof/Machine/RecOps.lean ====
section
/-! DEFINITION. Defect records: their layout, numbering, routing and the blind records (R262 to R269). -/

namespace Sys2Proof.Machine

/-- Change the knotter. -/
def knotUpd (f : Knot → Knot) (s : State) : State := { s with web := { s.web with knot := f s.web.knot } }
/-- Change the couch. -/
def couchUpd (f : Couch → Couch) (s : State) : State := { s with web := { s.web with couch := f s.web.couch } }
/-- Change the history ring. -/
def histUpd (f : Hist → Hist) (s : State) : State := { s with web := { s.web with hist := f s.web.hist } }

/-- A field of the seam merger (Table 12.2). -/
def mgf (s : State) (o : Nat) : Nat := cf s 0x07 8 o

/-- EDGE[b] of the band table in force; none for an EMPTY, LOADING or INVALID bank (R260, R262). -/
def bandImage (s : State) : Option (List Byte) :=
  let it := tblGet {} s.web.knot.bands (mgf s 0x01)
  if it.st = 2 then some it.image else none

/-- The greatest b with EDGE[b] ≤ key among the entries of an image, or 0 (R262). -/
def bandScan (key : Int) : Nat → Nat → List Byte → Nat
  | 0, _, _ => 0
  | n + 1, b, bs =>
    match bs with
    | b0 :: b1 :: b2 :: b3 :: rest =>
      let r := bandScan key n (b + 1) rest
      if r ≠ 0 then r else if toS 32 (leNat [b0, b1, b2, b3]) ≤ key then b else 0
    | _ => 0

/-- The band of a CD. -/
def bandOf (s : State) (key : Int) : Nat :=
  match bandImage s with
  | some im => bandScan key 16384 0 im
  | none => 0

/-- The lowest CD of band b + 1, where the band table gives one. -/
def bandEnd (s : State) (b : Nat) : Option Int :=
  match bandImage s with
  | some im => if b < 16383 then some (toS 32 (u32At im (4 * (b + 1)))) else none
  | none => none

/-- The fields of a record beside its numbers (Table 12.7). -/
structure RecFields where
  cls : Nat
  flags : Nat
  md : Int
  left : Int
  right : Int
  len : Nat
  area : Nat := 0
  mean : Nat := 0
  peak : Nat := 0
  contrast : Nat := 0
  elong : Nat := 0
  orient : Nat := 0
  hue : Nat := 0xFFFF
  therm : Int := 0
  band : Nat := 0
  tile : Nat := 0xFFFFFFFF
  gen : Nat := 0
deriving DecidableEq, Repr

/-- The 64 bytes of a record (R263). -/
def recBytes (dev q devId : Nat) (r : RecFields) : List Byte :=
  let body := leBytes 8 dev ++ leBytes 4 q ++ leBytes 2 r.cls ++ leBytes 1 devId ++ leBytes 1 r.flags
    ++ leBytes 8 (ofS 64 r.md) ++ leBytes 4 (ofS 32 r.left) ++ leBytes 4 (ofS 32 r.right) ++ leBytes 4 r.len
    ++ leBytes 4 r.area ++ leBytes 2 r.mean ++ leBytes 2 r.peak ++ leBytes 2 r.contrast ++ leBytes 2 r.elong
    ++ leBytes 2 r.orient ++ leBytes 2 r.hue ++ leBytes 2 (ofS 16 r.therm) ++ leBytes 2 r.band
    ++ leBytes 4 r.tile ++ leBytes 2 r.gen
  body ++ leBytes 2 (crc16 body)

/-- A ring drops an entry (R92): DROPPED, and an event on the first drop after an entry was last written. -/
def ringDrop (src : Nat) (n : Nat) (r : Ring) (put : Ring → State → State) (s : State) : State :=
  let s1 := put { r with dropped := satAdd 32 r.dropped 1, dropNoted := true, mirrorStale := true } s
  if r.dropNoted then s1 else raise src 0x01 n s1

/-- Replace a defect queue. -/
def putDq (n : Nat) (r : Ring) (s : State) : State := { s with host := { s.host with dqs := tblSet s.host.dqs n r } }
/-- Replace a stream ring. -/
def putSr (n : Nat) (r : Ring) (s : State) : State := { s with host := { s.host with srs := tblSet s.host.srs n r } }

/-- A record is formed: it takes DEV_SEQ and Q_SEQ and enters the record buffer of 1,048,576 entries, or is dropped or
discarded (R264, R265, R65). -/
def formRec (r : RecFields) (tile : Option Nat) (s : State) : State :=
  let q := r.band * 16 + r.cls
  let dev := s.web.knot.devSeq
  let times := s.clk.ns :: s.web.knot.recTimes.filter fun t => decide (s.clk.ns < t + ms 1)
  let s1 := knotUpd (fun k => { k with devSeq := (k.devSeq + 1) % 2 ^ 64, recTimes := times.take 2000 }) s
  match tblFind s.host.dqs q with
  | none => knotUpd (fun k => { k with noQueue := satAdd 32 k.noQueue 1 }) s1
  | some ring =>
    let s2 := putDq q { ring with qseq := ring.qseq + 1 } s1
    if s.web.knot.recs.length < 1048576 then
      knotUpd (fun k => { k with recs := k.recs ++ [⟨dev, q, recBytes dev ring.qseq.toNat s.chain.devId r, tile⟩] }) s2
    else ringDrop 340 q { ring with qseq := ring.qseq + 1 } (putDq q) s2

/-- A piece of a blind interval over one CD span: one record per band it meets (R268, R269). -/
def blindBands (iv : BlindIv) (start len right : Int) : Nat → Int → State → State
  | 0, _, s => s
  | n + 1, left, s =>
    let b := bandOf s left
    let stop := match bandEnd s b with
      | some e => if left < e ∧ e < right then e else right
      | none => right
    let s1 := formRec { cls := 15, flags := 4, md := start, left := left, right := stop, len := len.toNat
                        mean := iv.kind, peak := iv.source, contrast := iv.cause, band := b } none s
    let s2 := knotUpd (fun k => { k with blind := satAdd 32 k.blind 1, blindAll := satAdd 32 k.blindAll 1 }) s1
    if stop < right then blindBands iv start len right n stop s2 else s2

/-- The records of a piece; an empty span forms none. -/
def blindPiece (iv : BlindIv) (start stop : Int) (s : State) : State :=
  if stop ≤ start then s
  else match blindSpan s iv.source with
    | some (l, r) => blindBands iv start (stop - start) r 16384 l s
    | none => s

/-- Pieces of 2^30 while the interval is longer than `limit` allows (R269). -/
def blindPieces (limit : Int) : Nat → BlindIv → State → BlindIv × State
  | 0, iv, s => (iv, s)
  | n + 1, iv, s =>
    if iv.start + 2 ^ 30 ≤ limit then
      let next := iv.start + 2 ^ 30
      blindPieces limit n { iv with start := next } (blindPiece iv iv.start next s)
    else (iv, s)

/-- An interval is handed to the knotter and stays open. -/
def blindOpen (kind source cause tag : Nat) (start : Int) (s : State) : State :=
  knotUpd (fun k => { k with blinds := k.blinds ++ [⟨kind, source, cause, tag, start⟩] }) s

/-- Is the interval open? -/
def blindIs (source cause tag : Nat) (iv : BlindIv) : Bool :=
  decide (iv.source = source) && decide (iv.cause = cause) && decide (iv.tag = tag)

/-- An open interval ends (R268): its final piece is emitted. -/
def blindClose (source cause tag : Nat) (stop : Int) (s : State) : State :=
  match s.web.knot.blinds.find? (blindIs source cause tag) with
  | none => s
  | some iv =>
    let s1 := knotUpd (fun k => { k with blinds := k.blinds.filter fun x => !blindIs source cause tag x }) s
    let r := blindPieces stop ((stop - iv.start).toNat / 2 ^ 30 + 1) iv s1
    blindPiece r.1 r.1.start stop r.2

/-- An interval that is whole when it is handed over. -/
def blindWhole (kind source cause : Nat) (start stop : Int) (s : State) : State :=
  let iv : BlindIv := ⟨kind, source, cause, 0, start⟩
  let r := blindPieces stop ((stop - start).toNat / 2 ^ 30 + 1) iv s
  blindPiece r.1 r.1.start stop r.2

/-- The couch has emitted a row whose window starts at `lo`: the pieces of the open intervals (R269). -/
def blindRow (lo : Int) (s : State) : State :=
  s.web.knot.blinds.foldl (fun s iv =>
    let r := blindPieces lo ((lo - iv.start).toNat / 2 ^ 30 + 1) iv s
    if r.1 = iv then s
    else knotUpd (fun k => { k with blinds := k.blinds.map fun x => if x = iv then r.1 else x }) r.2) s

end Sys2Proof.Machine
end

