-- ==== Sys2Proof/Machine/Records.lean ====
section
/-! DEFINITION. NVM records: two copies each, their validity and the winner (R376, R377, R391, R410). -/

namespace Sys2Proof.Machine

/-- Copy A, copy B and largest payload of a record (Tables 19.2 and 20.1, R391, R410). -/
def recordPlace : Nat → Option (Nat × Nat × Nat)
  | 1 => some (0x10000, 0x10800, 2032)
  | 2 => some (0x11000, 0x11100, 240)
  | 3 => some (0x12000, 0x16000, 16368)
  | 4 => some (0x2800, 0x2B00, 752)
  | 5 => some (0x2E00, 0x2E80, 1)
  | 6 => some (0x1A000, 0x1B000, 4080)
  | _ => none

/-- The record whose copy A lies at an address. -/
def recordAt (a : Nat) : Option Nat :=
  if a = 0x10000 then some 1 else if a = 0x11000 then some 2 else if a = 0x12000 then some 3
  else if a = 0x2800 then some 4 else if a = 0x2E00 then some 5 else if a = 0x1A000 then some 6 else none

/-- SEQ of the copy at an address. -/
def copySeq (s : State) (a : Nat) : Nat := leNat (nvmRead s a 4)
/-- LENGTH of the copy at an address. -/
def copyLen (s : State) (a : Nat) : Nat := leNat (nvmRead s (a + 8) 4)
/-- Payload of the copy at an address. -/
def copyPayload (s : State) (a : Nat) : List Byte := nvmRead s (a + 16) (copyLen s a)

/-- Is a copy valid (R376)? -/
def copyValid (s : State) (id maxLen a : Nat) : Bool :=
  decide (leNat (nvmRead s (a + 4) 2) = id) && decide (copyLen s a ≤ maxLen)
    && decide (leNat (nvmRead s (a + 12) 4) = crc32 (nvmRead s a 12 ++ copyPayload s a))

/-- The address of the winning copy of a record (R376). -/
def recordWinner (s : State) (id : Nat) : Option Nat :=
  match recordPlace id with
  | none => none
  | some (a, b, m) =>
    let va := copyValid s id m a
    let vb := copyValid s id m b
    if va && vb then (if toS 32 (copySeq s a + 2 ^ 32 - copySeq s b) < 0 then some b else some a)
    else if va then some a else if vb then some b else none

/-- Both copies are valid with equal SEQ (NVM_TIE, R376). -/
def recordTie (s : State) (id : Nat) : Bool :=
  match recordPlace id with
  | none => false
  | some (a, b, m) => copyValid s id m a && copyValid s id m b && decide (copySeq s a = copySeq s b)

/-- The payload of a record; none when it is absent. -/
def recordPayload (s : State) (id : Nat) : Option (List Byte) := (recordWinner s id).map (copyPayload s)

/-- The copy that a record write goes to, and its SEQ (R377). -/
def recordNext (s : State) (id : Nat) : Nat × Nat :=
  match recordPlace id with
  | none => (0, 0)
  | some (a, b, _) =>
    match recordWinner s id with
    | none => (a, 1)
    | some w => (if w = a then b else a, (copySeq s w + 1) % 2 ^ 32)

/-- The header and payload of a new copy (Table 19.3). -/
def recordImage (id seq : Nat) (payload : List Byte) : List Byte :=
  let h := leBytes 4 seq ++ leBytes 2 id ++ zeros 2 ++ leBytes 4 payload.length
  h ++ leBytes 4 (crc32 (h ++ payload)) ++ payload

end Sys2Proof.Machine
end

