-- ==== Sys2Proof/Machine/LaneBase.lean ====
section
/-! DEFINITION. Shared operations on lanes: bring-up, the lane table, unlocking (chapter 6). -/

namespace Sys2Proof.Machine

/-- A lane at device ready: felt lanes come up without a command (chapter 6). -/
def laneReset (n : Nat) : Lane := if n < 64 then {} else { st := 1 }
/-- Lane `n`: 0 to 63 for CL0 to CL63, 64 to 79 for FL0 to FL15. -/
def lane (s : State) (n : Nat) : Lane := (tblFind s.ing.lanes n).getD (laneReset n)
/-- Replace lane `n`. -/
def setLane (n : Nat) (l : Lane) (s : State) : State :=
  { s with ing := { s.ing with lanes := tblSet s.ing.lanes n l } }

/-- ENABLE of a lane. -/
def lnEnable (s : State) (n : Nat) : Nat := cf s 0x01 n 0
/-- RATE of a lane. -/
def lnRate (s : State) (n : Nat) : Nat := cf s 0x01 n 1
/-- AUTO_RETRAIN of a lane. -/
def lnAuto (s : State) (n : Nat) : Bool := decide (cf s 0x01 n 2 = 1)
/-- Enabled with a RATE other than 0. -/
def lnOn (s : State) (n : Nat) : Bool := decide (lnEnable s n = 1) && decide (lnRate s n ≠ 0)
/-- A 64b/66b lane (Table 6.1). -/
def ln66 (s : State) (n : Nat) : Bool := decide (lnRate s n = 8)

/-- Baud rate in units of 10 kBd per rate code, Table 6.1. -/
def laneBaud : Nat → Nat
  | 1 => 125000 | 2 => 250000 | 3 => 312500 | 4 => 500000 | 5 => 625000 | 6 => 1000000 | 7 => 1250000
  | 8 => 2578125 | _ => 0

/-- Is a lane locked (state 6)? -/
def laneLocked (s : State) (n : Nat) : Bool := decide ((lane s n).st = 6)

/-- A lane table entry is used only with VALID 1 and every field in range (Table 6.4, R128). -/
def laneEntryOk (e : List Byte) : Bool :=
  let mn := u8At e 2
  let mx := u8At e 3
  decide (u8At e 0 % 2 = 1) && decide (mn ≤ mx ∧ mx ≤ 15) && decide (mn ≤ u8At e 1 ∧ u8At e 1 ≤ mx)
    && (List.range 5).all (fun k =>
      let lim := u8At e (9 + k)
      let seed := toS 8 (u8At e (4 + k))
      decide (lim ≤ (if k = 0 then 63 else 31)) && decide (-(lim : Int) ≤ seed ∧ seed ≤ (lim : Int)))
    && decide (u8At e 0xE ≤ 8 ∧ u8At e 0xF ≤ 20)

/-- The entry of a lane in the lane table record, and the DETAIL of TABLE_DEFAULT when none is usable. -/
def laneEntry (s : State) (n : Nat) : Except Nat (List Byte) :=
  match recordPayload s 1 with
  | none => .error 1
  | some p =>
    let e := slice p (0x10 + 16 * n) 16
    if p.length = 1296 ∧ u16At p 0 = 1 ∧ u16At p 2 = 80 then (if laneEntryOk e then .ok e else .error 0) else .error 1

/-- Seed values of a bring-up: those of the entry, or the defaults of R128. -/
def seedLane (e : Option (List Byte)) (l : Lane) : Lane :=
  match e with
  | some e => { l with ctle := u8At e 1, ctleMin := u8At e 2, ctleMax := u8At e 3
                       taps := (List.range 5).map fun k => toS 8 (u8At e (4 + k))
                       limits := (List.range 5).map fun k => u8At e (9 + k), txPre := u8At e 0xE, txPost := u8At e 0xF }
  | none => { l with ctle := 8, ctleMin := 0, ctleMax := 15, taps := [0, 0, 0, 0, 0], limits := [63, 31, 31, 31, 31]
                     txPre := 4, txPost := 8 }

/-- What every start of bring-up clears: the bring-up begins in state 1, BOUND is cleared. A first lock counts its time from
here, the latest start of the bring-up from seeds or resumed (R140; DESIGN CHOICE 63). A 64b/66b lane finds its position afresh
(R130); that of a CoaXPress lane is the one that discovery gave, and no retrain rediscovers it (R146). -/
def restartLane (s : State) (n : Nat) (seeds : Bool) (l : Lane) : Lane :=
  { l with st := 1, cdr := false, aligned := false, polInv := false, bound := false
           position := if ln66 s n then 0x3F else l.position
           fromSeeds := seeds, bringNs := s.clk.ns, parked := false, genOn := false, chkOn := false, pattern := 0
           prbsSync := false, prbsInv := false, left1Ns := none, winAt := 0, winBad := [] }

/-- Bring-up from seeds (R126, R128): TABLE_DEFAULT is raised when the entry cannot be used. -/
def bringUpSeeds (n : Nat) (s : State) : State :=
  let l := restartLane s n true (lane s n)
  match laneEntry s n with
  | .ok e => setLane n (seedLane (some e) l) s
  | .error d => raise n 0x06 d (setLane n (seedLane none l) s)

/-- Bring-up that resumes from the present equaliser values. -/
def bringUpResume (n : Nat) (s : State) : State := setLane n (restartLane s n false (lane s n)) s

/-- A bring-up that follows no unlock: nothing of an earlier unlock's timers stays (R132). -/
def freshTimers (n : Nat) (s : State) : State :=
  let l := lane s n
  setLane n { l with unlockNs := none, left1Ns := none, seeded5 := false, failNoted := false, failNs := none } s

/-- A lane powers down. -/
def laneOff (n : Nat) (s : State) : State :=
  let l := lane s n
  setLane n { l with st := 0, signal := false, cdr := false, aligned := false, polInv := false, hold := false, parked := false
                     bound := false, prbsSync := false, prbsInv := false, position := 0x3F, genOn := false, chkOn := false
                     pattern := 0, unlockNs := none, left1Ns := none, failNs := none, firstLock := true, leftNs := none } s

/-- The headbox that binds a camera lane (R141). -/
def lanePort (s : State) (n : Nat) : Option Nat :=
  if n < 64 then
    (List.range 32).find? fun p => decide (cf s 0x02 p 0 ≠ 0) && decide (cf s 0x02 p 2 ≤ n ∧ n < cf s 0x02 p 2 + cf s 0x02 p 1)
  else none

/-- The port of a lane: a headbox 0 to 31 with PROTOCOL other than 0, or felt port 64 to 67. -/
def laneRef (s : State) (n : Nat) : Option Nat := if n < 64 then lanePort s n else some (64 + (n - 64) / 4)

/-- POSITION of a lane: 0x3F while it is unknown or the lane is bound to no port. -/
def lanePos (s : State) (n : Nat) : Nat := if (laneRef s n).isSome then (lane s n).position else 0x3F

/-- The LANE_TRAINs in flight that wait for a lane, oldest first. -/
def trainsOf (s : State) (n : Nat) : List Cmd :=
  s.cmds.flight.filter fun c => decide (pkOp c.packet = 0x0020) && c.started && c.sentTo.isNone && decide (pkInst c.packet = n)

/-- RESULT of LANE_TRAIN (R134). -/
def trainResult (s : State) (n : Nat) : Nat :=
  let l := lane s n
  b2n (l.st = 6) + 2 * b2n l.polInv + 256 * (if lanePos s n = 0x3F then 0xFF else lanePos s n)

/-- Complete every LANE_TRAIN that waits for a lane (R134). -/
def trainDone (n : Nat) (s : State) : State :=
  (trainsOf s n).foldl (fun s c => finishOk c (trainResult s n) 0 s) s

/-- Bits that a lane carries in a time, at its baud rate (Table 6.1). -/
def laneBits (rate ns : Nat) : Nat := ns * laneBaud rate / 100000

/-- LN_PRBS_BITS: every bit received in sync is compared (R138). -/
def prbsBitsNow (s : State) (n : Nat) : Nat :=
  let l := lane s n
  (l.prbsBits + (if l.prbsSync then laneBits (lnRate s n) (s.clk.ns - l.prbsSyncNs) else 0)) % 2 ^ 64

/-- The checker leaves sync: LN_PRBS_BITS keeps what was compared, at the rate in force in `old` (R137, R138). PRBS_INV stands
until the next sync, bring-up or power-down (DESIGN CHOICE 105: R138 says only when it is set). -/
def prbsHold (old : State) (n : Nat) (s : State) : State :=
  setLane n { lane s n with prbsBits := prbsBitsNow old n, prbsSync := false } s

end Sys2Proof.Machine
end

