-- ==== Sys2Proof/Machine/Routes.lean ====
section
/-! DEFINITION. Shortest routes over the chain map, and what follows when they change (R412, R415, R416, R423). -/

namespace Sys2Proof.Machine

/-- The entry of a device in the map. -/
def mapEntry (s : State) (d : Nat) : MapEntry := tblGet {} s.chain.map d
/-- Change a map entry. -/
def updMap (d : Nat) (f : MapEntry → MapEntry) (s : State) : State :=
  { s with chain := { s.chain with map := tblUpd {} s.chain.map d f } }

/-- The mapped neighbours of a device whose links are up as far as notices tell; 0xFF on the other ports. -/
def liveNb (e : MapEntry) : List Nat := (List.range 4).map fun k => if e.down.contains k then 0xFF else e.nbId.getD k 0xFF

/-- The neighbours of a device by felt port: those of this device only over ports that carry traffic now. -/
def feltNeighbours (s : State) (d : Nat) : List (Nat × Nat) :=
  let e := mapEntry s d
  let here := decide (d = s.chain.devId)
  ((List.range 4).map fun k => (k, (if here then e.nbId else liveNb e).getD k 0xFF)).filter fun x =>
    decide (x.2 < 64) && (mapEntry s x.2).present && (!here || feltUsable s x.1)

/-- The lower of two first ports. -/
def lowerPort (t : Tbl Nat) (d k : Nat) : Tbl Nat :=
  match tblFind t d with
  | some j => tblSet t d (min j k)
  | none => tblSet t d k

/-- The devices one hop beyond a frontier that have not been reached, each with the lowest first port. -/
def nextFront (s : State) (seen front : Tbl Nat) : Tbl Nat :=
  front.foldl (fun t x => (feltNeighbours s x.1).foldl (fun t n =>
    if (tblFind seen n.2).isSome then t else lowerPort t n.2 x.2) t) []

/-- Breadth-first search: the first port toward each device and its distance. -/
def bfs (s : State) : Nat → Nat → Tbl Nat → Tbl Nat → Tbl Nat → Tbl Nat × Tbl Nat
  | 0, _, seen, dist, _ => (seen, dist)
  | n + 1, hops, seen, dist, front =>
    let f := nextFront s seen front
    if f.isEmpty then (seen, dist)
    else bfs s n (hops + 1) (f.foldl (fun t x => tblSet t x.1 x.2) seen)
      (f.foldl (fun t x => tblSet t x.1 hops) dist) f

/-- First ports of shortest routes from device `d`, and distances (R412: the lowest felt port among equals). -/
def routesFrom (s : State) (d : Nat) : Tbl Nat × Tbl Nat :=
  let f : Tbl Nat := (feltNeighbours s d).foldl (fun t n => if n.2 = d then t else lowerPort t n.2 n.1) []
  let r := bfs s 64 2 (tblSet f d 0xFF) (f.map fun x => (x.1, 1)) f
  (tblErase r.1 d, r.2)

/-- Does a packet wait on the port that its route leaves by? Those for the neighbour alone do. -/
def feltStays (s : State) (k : Nat) (x : FeltPacket) : Bool :=
  decide (x.dst = 0xFF) || (feltUsable s k && decide (tblFind s.chain.routes x.dst = some k))

/-- Routed packets that wait on a felt port by which their route does not leave, or no longer, take their route: they go back
before what waits for a route, so that the order of R97, R99 and R413 stays (R423). -/
def feltGather (s : State) : State :=
  [3, 2, 1, 0].foldl (fun s k =>
    let p := feltPort s k
    let s1 := setFeltPort k { p with queue := p.queue.filter (feltStays s k) } s
    { s1 with chain := { s1.chain with hold := (p.queue.filter fun x => !feltStays s k x) ++ s1.chain.hold } }) s

/-- Packets that waited for a route take it now, in order (R415). -/
def holdFlush (s : State) : State :=
  s.chain.hold.foldl (fun s p => feltRoute p s) { s with chain := { s.chain with hold := [] } }

/-! ### Notices (CTRL packets). DESIGN CHOICE 27: the spec gives their layout no bytes. -/

/-- A device has joined: its ID, hops, parent, serial and head, and the TB_NOW to step to. -/
def ctrlJoin (id hops parent pport : Nat) (serial headSerial : List Byte) (step : Nat) : List Byte :=
  leBytes 1 1 ++ leBytes 1 id ++ leBytes 1 hops ++ leBytes 1 parent ++ leBytes 1 pport ++ padTo 16 serial
    ++ padTo 16 headSerial ++ leBytes 8 step
/-- Neighbours of a mapped device. -/
def ctrlEntry (d : Nat) (nbIds nbPorts : List Nat) : List Byte :=
  leBytes 1 2 ++ leBytes 1 d ++ (nbIds ++ nbPorts).map fun x => BitVec.ofNat 8 x
/-- A route change: the neighbour on a port of a device. -/
def ctrlLink (d port nb nbPort : Nat) : List Byte := leBytes 1 3 ++ leBytes 1 d ++ leBytes 1 port ++ leBytes 1 nb ++ leBytes 1 nbPort
/-- A device is lost. -/
def ctrlLoss (d : Nat) : List Byte := leBytes 1 4 ++ leBytes 1 d
/-- CHAIN_SYNC and the ASYM of the sending port. -/
def ctrlSync (ok : Bool) (asym : Int) : List Byte := leBytes 1 5 ++ leBytes 1 (b2n ok) ++ leBytes 2 (ofS 16 asym)

/-- Send a notice to every device that has a route. -/
def notifyAll (payload : List Byte) (s : State) : State :=
  s.chain.routes.foldl (fun s x => feltTo x.1 0x1A payload s) s

/-- The link on a port of a mapped device has gone (`nb` 0xFF), or carries traffic to the neighbour's port again: the mapped
neighbour stays in the map, whose links a search and the routes follow (R409, R412). -/
def linkNoted (d port nb nbPort : Nat) (s : State) : State :=
  if nb < 64 then
    updMap nb (fun e => { e with down := e.down.filter fun x => decide (x ≠ nbPort) })
      (updMap d (fun e => { e with nbId := e.nbId.set port nb, nbPort := e.nbPort.set port nbPort, down := e.down.filter fun x => decide (x ≠ port) }) s)
  else updMap d (fun e => { e with down := port :: e.down.filter fun x => decide (x ≠ port) }) s

/-- A felt port of this device has begun or ceased to carry traffic to its mapped neighbour: the chain hears of it (R423). -/
def linkNotice (k : Nat) (up : Bool) (s : State) : State :=
  if !s.chain.mapped then s
  else
    let e := mapEntry s s.chain.devId
    let nb := e.nbId.getD k 0xFF
    let shown := if up ∧ feltUsable s k ∧ nb < 64 ∧ (mapEntry s nb).present then nb else 0xFF
    notifyAll (ctrlLink s.chain.devId k shown (e.nbPort.getD k 0)) (linkNoted s.chain.devId k shown (e.nbPort.getD k 0) s)

/-- A packet for a device that has lost its route goes no further: a register or window access ends as R100 gives, and a
command by its ROUTE_TIMEOUT (R423). -/
def packetLost (p : FeltPacket) (s : State) : State :=
  if p.ptype = 0x17 ∨ p.ptype = 0x18 then
    let read := decide (p.ptype = 0x17) && decide (u8At p.payload 0 % 2 = 0)
    let n := u16At p.payload 2
    raise 342 0x03 0 (if read then emit (.readData n (2 ^ (8 * n) - 1)) s else s)
  else s

/-- The head reports a device that has lost its route (R423, Table 21.5). What waits for it is lost with it, its window writes
too, so that reads wait for them no longer (R79). -/
def deviceLost (d : Nat) (s : State) : State :=
  let s1 := raise 329 0x08 d (updMap d (fun e => { e with unreachable := true }) s)
  let gone := s1.chain.hold.filter fun p => decide (p.dst = d)
  let s2 := gone.foldl (fun s p => packetLost p s)
    { s1 with chain := { s1.chain with hold := s1.chain.hold.filter fun p => decide (p.dst ≠ d) } }
  notifyAll (ctrlLoss d) { s2 with host := { s2.host with bar2Out := s2.host.bar2Out.filter fun x => decide (x ≠ d) } }

/-- Devices that had a route and have none in the new table. -/
def lostDevices (old new : Tbl Nat) : List Nat := (old.map Prod.fst).filter fun d => (tblFind new d).isNone

/-- The sync parent follows the route to the head (R416). -/
def reparent (dist : Tbl Nat) (s : State) : State :=
  if s.chain.head then { s with chain := { s.chain with parentPort := none, hops := 0, parentLostNs := none } }
  else
    let p := tblFind s.chain.routes 0
    { s with chain := { s.chain with
        parentPort := p
        hops := tblGet s.chain.hops dist 0
        thetas := if p = s.chain.parentPort then s.chain.thetas else []
        parentLostNs := if p.isSome then none else (s.chain.parentLostNs.orElse fun _ => some s.clk.ns) } }

/-- Routes are computed anew: lost devices are reported by the head, the sync parent follows and what waited for a
route is sent (R415, R416, R423). -/
def recompute (s : State) : State :=
  let r := routesFrom s s.chain.devId
  let lost := lostDevices s.chain.routes r.1
  let s1 := feltGather (reparent r.2 { s with chain := { s.chain with routes := r.1 } })
  let s2 := if s.chain.head then lost.foldl (fun s d => deviceLost d s) s1 else s1
  holdFlush s2

end Sys2Proof.Machine
end

