-- ==== Sys2Proof/Machine/ReelOps.lean ====
section
/-! DEFINITION. Reels: scaling, formats, units and their delivery (R275 to R283). -/

namespace Sys2Proof.Machine

/-- Reel `r`. -/
def reel (s : State) (r : Nat) : Reel := tblGet {} s.web.reels r
/-- Change reel `r`. -/
def updReel (r : Nat) (f : Reel → Reel) (s : State) : State :=
  { s with web := { s.web with reels := tblSet s.web.reels r (f (reel s r)) } }

/-- A field of Table 13.1. -/
def rlf (s : State) (r o : Nat) : Nat := cf s 0x08 r o
def rlSource (s : State) (r : Nat) : Nat := rlf s r 0x00
def rlDownX (s : State) (r : Nat) : Nat := max 1 (rlf s r 0x0C)
def rlDownY (s : State) (r : Nat) : Nat := max 1 (rlf s r 0x0E)
def rlUpX (s : State) (r : Nat) : Nat := max 1 (rlf s r 0x10)
def rlUpY (s : State) (r : Nat) : Nat := max 1 (rlf s r 0x11)
/-- Wo (R277). -/
def rlWidth (s : State) (r : Nat) : Nat := rlf s r 8 / rlDownX s r * rlUpX s r
/-- Bytes per pixel (Table 13.3). -/
def rlBpp (s : State) (r : Nat) : Nat := match rlf s r 1 with
  | 1 => 1 | 3 => 3 | _ => 2
/-- STRIDE (R278). -/
def rlStride (s : State) (r : Nat) : Nat := (rlWidth s r * rlBpp s r + 63) / 64 * 64

/-- A quotient rounded once, halves up. -/
def rhu (n d : Nat) : Nat := if d = 0 then 0 else (2 * n + d) / (2 * d)
/-- An integer quotient rounded once, halves up. -/
def rhuI (n : Int) (d : Nat) : Int := if d = 0 then 0 else (2 * n + d) / (2 * d)

/-- False colour of one cell (R276). -/
def falseColour (s : State) (r : Nat) (v : List Nat) (t : Nat) (absent : Bool) : List Nat :=
  let tl := rlf s r 0x18
  let th := rlf s r 0x1A
  let mix := rlf s r 0x16
  -- v over 4
  let v4 := match v with
    | [a] => 4 * a
    | [a, b, c] => a + 2 * b + c
    | _ => 0
  if t = 0 ∨ absent then List.replicate 3 (rhu v4 4)
  else
    -- q as a fraction over th − tl
    let d := th - tl
    let q := min (65535 * d) ((t - tl) * 65535)
    let full := 65535 * d
    let p := [q, full - ((2 * q : Int) - full).natAbs, full - q]
    p.map fun pc => min 65535 (rhu (v4 * (256 - mix) * d + 4 * pc * mix) (4 * 256 * d))

/-! ### The down stage -/

/-- Mean of a sample over columns a to a + n − 1 of the rows, rounded once; none when no sample is valid. -/
def downSample (rows : List ReelIn) (a n i : Nat) : Option Nat :=
  let xs := rows.flatMap fun q => (slice' q a n).filterMap fun c => c.map fun v => v.getD i 0
  if xs.isEmpty then none else some (rhu xs.sum xs.length)
where
  slice' (q : ReelIn) (a n : Nat) : List (Option (List Nat)) := (q.samples.drop a).take n

/-- An averaged pixel; none for a group with no valid sample. -/
def downPx (rows : List ReelIn) (spp a n : Nat) : Option (List Nat) :=
  let v := (List.range spp).map fun i => downSample rows a n i
  if v.any Option.isNone then none else some (v.map fun x => x.getD 0)

/-- A group of rows averaged (R277). -/
def downRow (s : State) (r : Nat) (rows : List ReelIn) : Option DownRow :=
  match rows with
  | [] => none
  | q :: _ =>
    let dx := rlDownX s r
    let cols := (List.range (rlf s r 8 / dx)).map fun j => downPx rows q.spp (rlf s r 4 + j * dx) dx
    some { n := q.idx / (rlDownY s r : Int), md := q.md, spp := q.spp
           px := cols
           gap := cols.any Option.isNone
           absent := rows.any ReelIn.absent, forced := rows.any ReelIn.forced }

/-! ### The up stage -/

/-- Weighted mean of two samples at a fraction num/den, rounded once. -/
def lerpN (a b num den : Nat) : Nat := rhu (a * (den - num) + b * num) den
/-- The same of two pixels; one with no valid sample takes no part (R275, DEDUCED 48). -/
def lerpPx (a b : Option (List Nat)) (num den : Nat) : Option (List Nat) :=
  match a, b with
  | some x, some y => some ((List.range x.length).map fun i => lerpN (x.getD i 0) (y.getD i 0) num den)
  | some x, none => some x
  | none, some y => if num = 0 then none else some y
  | none, none => none

/-- Where output index b of an up-scaling by u lies from its input: the lower neighbour relative to the input (−1 or 0)
and the fraction over 2u (R277). -/
def upPos (u b : Nat) : Int × Nat :=
  if 2 * b + 1 < u then (-1, 2 * b + 1 + u) else (0, 2 * b + 1 - u)

/-- Columns of an output row. -/
def upColumns (mode u : Nat) (px : List (Option (List Nat))) : List (Option (List Nat)) :=
  let n := px.length
  (List.range n).flatMap fun j => (List.range u).map fun a =>
    if mode = 0 then px.getD j none
    else
      let (lo, num) := upPos u a
      let i0 := if lo < 0 then j - 1 else j
      let i1 := if lo < 0 then j else min (n - 1) (j + 1)
      lerpPx (px.getD i0 none) (px.getD i1 none) num (2 * u)

/-- An output line before its format: its index, MD and pixels. -/
structure OutRow where
  idx : Int
  md : Int
  px : List (List Nat)
  flags : Nat
deriving DecidableEq, Repr

/-- Flags of Table 13.4 of a down row. -/
def downFlags (d : DownRow) : Nat := 2 * b2n d.gap + 8 * b2n d.absent + 16 * b2n d.forced

/-- Output rows of down row `d` for b in a range, between `lo` and `hi` neighbours under bilinear scaling. -/
def upRows (mode u ux : Nat) (prev : Option DownRow) (d : DownRow) (next : Option DownRow) (bs : List Nat) : List OutRow :=
  let cols (x : DownRow) := upColumns mode ux x.px
  -- a pixel with no valid sample gives 0
  let out (xs : List (Option (List Nat))) : List (List Nat) := xs.map fun v => v.getD (List.replicate d.spp 0)
  bs.map fun (b : Nat) =>
    let i : Int := d.n * (u : Int) + (b : Int)
    if mode = 0 ∨ u = 1 then ⟨i, d.md, out (cols d), downFlags d⟩
    else
      let (lo, num) := upPos u b
      let a := if lo < 0 then prev.getD d else d
      let c := if lo < 0 then d else next.getD d
      let pa := cols a
      let pc := cols c
      ⟨i, a.md, out ((List.range pa.length).map fun k => lerpPx (pa.getD k none) (pc.getD k none) num (2 * u)), downFlags a ||| downFlags c⟩

/-! ### Formats (R278) -/

/-- Red, green and blue of a pixel. -/
def rgbOf (v : List Nat) : Nat × Nat × Nat := match v with
  | [a] => (a, a, a)
  | a :: b :: c :: _ => (a, b, c)
  | _ => (0, 0, 0)

/-- Mono value over 4. -/
def mono4 (v : List Nat) : Nat := match v with
  | [a] => 4 * a
  | a :: b :: c :: _ => a + 2 * b + c
  | _ => 0

/-- Clamp to a byte. -/
def clamp8 (i : Int) : Nat := (clampI 0 255 i).toNat

/-- 1,000 e of R278 in sample units. -/
def luma1000 (r g b : Nat) : Nat := 299 * r + 587 * g + 114 * b

/-- Two pixels of YCbCr422. -/
def ycc (a b : List Nat) : List Byte :=
  let (r0, g0, b0) := rgbOf a
  let (r1, g1, b1) := rgbOf b
  let y (r g b : Nat) : Nat := clamp8 (rhuI (16 * 65535000 + 219 * luma1000 r g b) 65535000)
  let e := luma1000 (r0 + r1) (g0 + g1) (b0 + b1)
  let cb := clamp8 (128 + rhuI (224 * (1000 * ((b0 + b1 : Nat) : Int) - e)) (2 * 1772 * 65535))
  let cr := clamp8 (128 + rhuI (224 * (1000 * ((r0 + r1 : Nat) : Int) - e)) (2 * 1402 * 65535))
  [y r0 g0 b0, cb, y r1 g1 b1, cr].map (BitVec.ofNat 8)

/-- Pairs of pixels. -/
def yccLine : List (List Nat) → List Byte
  | a :: b :: rest => ycc a b ++ yccLine rest
  | [a] => (ycc a a).take 2
  | [] => []

/-- The pixels of a line in a format. -/
def lineBytes (fmt : Nat) (px : List (List Nat)) : List Byte :=
  match fmt with
  | 1 => px.map fun v => BitVec.ofNat 8 (rhu (mono4 v) (4 * 257))
  | 2 => px.flatMap fun v => leBytes 2 (rhu (mono4 v) 4)
  | 3 => px.flatMap fun v => let (r, g, b) := rgbOf v; [r, g, b].map fun x => BitVec.ofNat 8 (rhu x 257)
  | 4 => yccLine px
  | _ => px.flatMap fun v => leBytes 2 (v.headD 0)

/-! ### Units (R279 to R281) -/

/-- Capacity of the bucket × 10^6. -/
def bucketCap (s : State) (r : Nat) : Nat := 2 * (64 + rlf s r 0x12 * rlStride s r) * 1000000
/-- The bucket now. -/
def bucketNow (s : State) (r : Nat) : Nat :=
  let x := reel s r
  match x.bucket with
  | none => bucketCap s r
  | some b => min (bucketCap s r) (b + (s.clk.ns - x.bucketNs) * rlf s r 0x1C)

/-- CD_LEFT of a unit. -/
def unitCdLeft (s : State) (r : Nat) : Nat :=
  match rlSource s r with
  | 4 => 0x80000000
  | 2 => ofS 32 (colLeft s ((gBase s + rlf s r 4 * gTherm s : Nat) : Int))
  | _ => ofS 32 (colLeft s ((gBase s + rlf s r 4 : Nat) : Int))

/-- The 64-byte header (Table 13.4). -/
def unitHeader (s : State) (r seq : Nat) (u : RUnit) (flags : Nat) : List Byte :=
  padTo 64 (leBytes 8 seq ++ leBytes 8 (ofS 64 u.first) ++ leBytes 8 (ofS 64 u.md) ++ leBytes 8 s.clk.tb
    ++ leBytes 4 (unitCdLeft s r) ++ leBytes 4 (rlWidth s r) ++ leBytes 4 (rlStride s r) ++ leBytes 2 u.lines.length
    ++ leBytes 1 (rlf s r 1) ++ leBytes 1 flags ++ leBytes 1 r ++ leBytes 1 s.chain.devId)

/-- Write a unit into its ring: too large for the slot, ring full, or written (R92, R281). -/
def unitDeliver (r : Nat) (bytes : List Byte) (s : State) : State :=
  let n := rlf s r 0x14
  match tblFind s.host.srs n with
  | none => updReel r (fun x => { x with small := false }) s
  | some ring =>
    if 2 ^ ring.slotLog2 < bytes.length then
      let was := (reel s r).smallNoted
      let s1 := updReel r (fun x => { x with small := true, smallNoted := true }) (putSr n { ring with dropped := satAdd 32 ring.dropped 1, mirrorStale := true } s)
      if was then s1 else raise (134 + r) 0x02 bytes.length s1
    else
      let s0 := updReel r (fun x => { x with small := false }) s
      if mayRequest s0 = false ∨ (ring.tail - ring.head).toNat = 2 ^ ring.log2 then ringDrop 341 n ring (putSr n) s0
      else
        let s1 := hostWrite (entryAddr ring.base ring.tail ring.log2 (2 ^ ring.slotLog2)) bytes (updReel r (fun x => { x with smallNoted := false }) s0)
        putSr n { ring with tail := ring.tail + 1, uncovered := ring.uncovered + 1, dropNoted := false } s1

/-- Can a chained device's host-bound traffic not enter its route: there is none, or packets wait on its port (R415)? -/
def hostBlocked (s : State) : Bool :=
  !s.chain.head && (match tblFind s.chain.routes 0 with
    | some k => !feltUsable s k || feltFull s k
    | none => true)

/-- The open unit closes (R279, R280). -/
def unitClose (r : Nat) (s : State) : State :=
  let x := reel s r
  match x.unit with
  | none => s
  | some u =>
    let flags := u.flags ||| (if x.skipBefore then 4 else 0) ||| (if rlSource s r = 5 then 1 else 0)
    let bytes := unitHeader s r x.seq u flags ++ u.lines.flatten
    let have_ := bucketNow s r
    let s0 := updReel r (fun x => { x with unit := none, seq := (x.seq + 1) % 2 ^ 64, bucketNs := s.clk.ns, bucket := some have_ }) s
    if bytes.length * 1000000 ≤ have_ then
      let s1 := updReel r (fun x => { x with bucket := some (have_ - bytes.length * 1000000), throttled := false, skipBefore := false }) s0
      if hostBlocked s1 || !x.held.isEmpty then updReel r (fun x => { x with held := x.held ++ [(bytes, s.clk.ns)] }) s1
      else unitDeliver r bytes s1
    else
      let s1 := updReel r (fun x => { x with throttled := true, small := false, skipBefore := true, skips := satAdd 32 x.skips 1 }) s0
      if x.throttled then s1 else raise (134 + r) 0x01 (x.seq % 2 ^ 32) s1

/-- An output row joins the open unit. -/
def unitAdd (r : Nat) (o : OutRow) (s : State) : State :=
  let line := padTo (rlStride s r) (lineBytes (rlf s r 1) o.px)
  let u := match (reel s r).unit with
    | some u => { u with lines := u.lines ++ [line], flags := u.flags ||| o.flags }
    | none => { first := o.idx, md := o.md, lines := [line], openNs := s.clk.ns, flags := o.flags }
  let s1 := updReel r (fun x => { x with unit := some u }) s
  if rlf s r 0x12 ≤ u.lines.length then unitClose r s1 else s1

/-- A down row passes the up stage: under bilinear scaling of rows, the rows past its centre wait for the next. -/
def upStage (r : Nat) (d : DownRow) (s : State) : State :=
  let mode := rlf s r 3
  let u := rlUpY s r
  let ux := rlUpX s r
  if mode = 0 ∨ u = 1 then (upRows mode u ux none d none (List.range u)).foldl (fun s o => unitAdd r o s) s
  else
    let half := u / 2
    let prev := (reel s r).down
    let near := prev.filter fun p => decide (p.n + 1 = d.n)
    let late := match prev with
      | some p => upRows mode u ux none p (if p.n + 1 = d.n then some d else none) ((List.range u).drop half)
      | none => []
    let early := upRows mode u ux near d none ((List.range u).take half)
    let s1 := (late ++ early).foldl (fun s o => unitAdd r o s) s
    updReel r (fun x => { x with down := some d }) s1

/-- The row group closes with the rows present. -/
def groupClose (r : Nat) (s : State) : State :=
  match downRow s r (reel s r).grp with
  | none => s
  | some d => upStage r d (updReel r (fun x => { x with grp := [] }) s)

/-- The first waiting input row is taken (R277). -/
def reelTake (r : Nat) (s : State) : State :=
  match (reel s r).inq with
  | [] => s
  | q :: rest =>
    let s1 := updReel r (fun x => { x with inq := rest }) s
    if rlSource s r = 0 then s1
    else
      let other := match (reel s1 r).grp with
        | g :: _ => decide (g.idx / (rlDownY s r : Int) ≠ q.idx / (rlDownY s r : Int))
        | [] => false
      let s2 := if other then groupClose r s1 else s1
      updReel r (fun x => { x with grp := x.grp ++ [q] }) s2

/-- Take every waiting row. -/
def reelDrain (r : Nat) : Nat → State → State
  | 0, s => s
  | n + 1, s => if (reel s r).inq.isEmpty then s else reelDrain r n (reelTake r s)

/-- The waiting half of the last down row passes, its next neighbour clamped to itself. -/
def upFlush (r : Nat) (s : State) : State :=
  match (reel s r).down with
  | none => s
  | some d =>
    let u := rlUpY s r
    let s1 := (upRows (rlf s r 3) u (rlUpX s r) none d none ((List.range u).drop (u / 2))).foldl (fun s o => unitAdd r o s) s
    updReel r (fun x => { x with down := none }) s1

/-- A unit closes for its age: the rows present close their group; output rows that wait for the next down-stage row go on
waiting (R277, R279). -/
def unitCut (r : Nat) (s : State) : State := unitClose r (groupClose r s)

/-- The unit closes with every row that has reached the reel (R283). -/
def reelFlush (r : Nat) (s : State) : State := unitClose r (upFlush r (groupClose r (reelDrain r ((reel s r).inq.length + 1) s)))

/-- A reel applies its accepted groups at its boundary (R280, R283): those handed over before `lim`, or all when it does not
run. -/
def reelBoundary (r : Nat) (lim : Option Nat) (s : State) : State :=
  let ok (g : Accepted) : Bool := match lim with
    | some t => decide (g.tv < t)
    | none => true
  if !(s.cfg.accepted.any fun g => g.parts.contains (0x08, r) && ok g) then s
  else
    let s1 := reelFlush r s
    let s2 := takeSel (ofInst 0x08 r) (0x08, r) ok s1
    let full := [0x1C, 0x12, 8, 0x0C, 0x10, 1].any fun o => decide (rlf s1 r o ≠ rlf s2 r o)
    if full then updReel r (fun x => { x with bucket := none, bucketNs := s.clk.ns }) s2 else s2

/-- An input row reaches a reel. -/
def reelPush (r : Nat) (q : ReelIn) (s : State) : State := updReel r (fun x => { x with inq := x.inq ++ [q] }) s

/-- Reels whose source matches. -/
def reelsOf (s : State) (src : Nat) : List Nat := (List.range 64).filter fun r => decide (rlSource s r = src)

/-- The reels that a camera port feeds. -/
def rawReels (s : State) (p : Nat) : List Nat := (reelsOf s 4).filter fun r => decide (rlf s r 2 = p)

/-- A line of a camera port leaves its FIFO (Table 13.2, SOURCE 4): BiBayer gives two rows. The first line of a stripe begun
after T_v is the boundary of its reels (R283). -/
def reelRaw (p : Nat) (num : Nat) (md : Int) (flags spp stripeTb : Nat) (samples : List Nat) (s : State) : State :=
  let s0 := (rawReels s p).foldl (fun s r => reelBoundary r (some stripeTb) s) s
  (rawReels s0 p).foldl (fun s r =>
    let bad := bitOf flags 2
    let one (xs : List (List Nat)) : List (Option (List Nat)) := xs.map fun v => if bad then none else some v
    if spp = 2 then
      let n := samples.length / 2
      let row (xs : List Nat) := one (xs.map fun v => [v])
      reelPush r { idx := 2 * num + 1, md := md, samples := row (samples.drop n) }
        (reelPush r { idx := 2 * num, md := md, samples := row (samples.take n) } s)
    else if spp = 3 then
      reelPush r { idx := num, md := md, spp := 3, samples := one ((List.range (samples.length / 3)).map fun j => (samples.drop (3 * j)).take 3) } s
    else reelPush r { idx := num, md := md, samples := one (samples.map fun v => [v]) } s) s0

/-- A stopped port whose FIFO is empty closes the units of its reels, whose waiting parts come into force (R45, R283). -/
def rawStops (p : Nat) (s : State) : State :=
  let x : Port := tblGet {} s.ing.ports p
  if x.running ∨ x.pipe.any fun i => decide (i.st = .fifo) then s
  else (rawReels s p).foldl (fun s r => reelBoundary r none (reelFlush r s)) s

end Sys2Proof.Machine
end

