-- ==== Sys2Proof/Machine/WebBound.lean ====
section
/-! DEFINITION. Commit boundaries of couch, knotter and reels (Table 2.6, R245, R252, R273, R283). -/

namespace Sys2Proof.Machine

/-- Camera-side and grid fields of the couch: below offset 0x900. -/
def couchGridSel (a : Nat) : Bool := ofInst 0x06 0 a && decide (addrOff a < 0x900)
/-- Dryer port fields of the couch. -/
def couchDryerSel (a : Nat) : Bool := ofInst 0x06 0 a && decide (0x900 ≤ addrOff a)
/-- The dryer port of such a field, and the pseudo-block of that port's part of the couch. -/
def couchDryerOf (a : Nat) : Nat := (addrOff a - 0x900) / 0x80
def dryerPart (p : Nat) : Nat × Nat := (0x106, p)

/-- The fields that the column maps follow from (R231). -/
def mapFields (s : State) : List Nat :=
  [gPitch s, gCols s, gBase s, ofS 32 (gCd0 s)] ++ (List.range 32).flatMap fun p =>
    [0, 1, 4, 8, 0xC, 0x10, 0x14, 0x18, 0x20, 0x22].map (cpf s p)

/-- The residual images that maps built now follow from: those of the ports with ENABLE 1, in their CAL_BANK (R231). -/
def mapResiduals (s : State) : Tbl (List Byte) :=
  (List.range 32).filterMap fun p =>
    let key := p * 2 + cpf s p 1
    if cpf s p 0 = 1 ∧ tblGet 0 s.web.couch.resSt key = 2 then some (p, tblGet [] s.web.couch.resImg key) else none

/-- Is a group handed over before a moment, where one is given? -/
def before (lim : Option Nat) (g : Accepted) : Bool := match lim with
  | some t => decide (g.tv < t)
  | none => true

/-- The grid part of the couch with the values and maps of the groups handed over before `lim`. -/
def couchLaid (lim : Option Nat) (s : State) : State :=
  let maps := s.cfg.accepted.foldl (fun m g => if g.parts.contains (0x06, 0) && before lim g then g.maps.getD m else m) s.web.couch.resMap
  couchUpd (fun c => { c with resMap := maps }) (takeSel couchGridSel (0x06, 0) (before lim) s)

/-- A tile source ring laid out anew holds no row (R267). -/
def srcFresh (old s : State) : State :=
  let lay (s : State) : List Nat := [mgf s 0x10, mgf s 0x18, gCols s, gSamples s, gTherm s]
  if lay old = lay s then s else histUpd (fun h => { h with srcRuns := [], tsrcRuns := [], srcOld := h.srcRuns ++ h.srcOld, tsrcOld := h.tsrcRuns ++ h.tsrcOld }) s

/-- The couch's grid part comes into force, for the groups handed over before `lim`; MAP_SWITCH follows a changed map
(R245). -/
def couchTake (lim : Option Nat) (s : State) : State :=
  if !(s.cfg.accepted.any fun g => g.parts.contains (0x06, 0) && before lim g) then s
  else
    let s1 := srcFresh s (couchLaid lim s)
    let fed := (List.range 64).filter fun r => decide (1 ≤ rlSource s r ∧ rlSource s r ≤ 3)
    let s2 := if gCols s ≠ 0 ∧ gCols s1 = 0 then
        fed.foldl (fun s r => reelFlush r s) (couchUpd (fun c => { c with lines := [], edges := [], kept := [], firstClose := [], lastRow := none }) s1)
      else s1
    if mapFields s ≠ mapFields s2 ∨ s.web.couch.resMap ≠ s2.web.couch.resMap then
      let b := 1 - s.web.couch.mapBank
      raise 334 0x08 b (couchUpd (fun c => { c with mapBank := b }) s2)
    else s2

/-- The couch's part for a dryer port comes into force for some groups. -/
def couchDryerTake (p : Nat) (ok : Accepted → Bool) (s : State) : State :=
  takeSel (fun a => couchDryerSel a && decide (couchDryerOf a = p)) (dryerPart p) ok s

/-- The first thermal row built only from frames whose sync follows a group's T_v, as far as frames have reached the couch:
above every open row that an earlier frame has touched (R245, DEDUCED 70); none: every open row. -/
def thermFrom (s : State) (g : Accepted) : Option Int :=
  match (s.web.couch.thermTb.filter fun x => decide (x.2 ≤ g.tv)).map Prod.fst with
  | [] => none
  | r :: rs => some (rs.foldl max r + 1)

/-- What waits for the thermal rows built only from frames after T_v comes into force with the first of them: a frame after
T_v has reached the couch, and no open row that an earlier one touched is left (R245). -/
def couchDryerReach (p : Nat) (s : State) : State :=
  match tblFind s.web.couch.thermSync p with
  | none => s
  | some t => couchDryerTake p (fun g => decide (g.tv < t) && (thermFrom s g).isNone) s

/-- A frame of a dryer port reaches the couch. -/
def thermSeen (p tb : Nat) (s : State) : State :=
  couchDryerReach p (couchUpd (fun c => { c with thermSync := tblSet c.thermSync p tb }) s)

/-- A dryer port as some thermal rows see it: the couch with its first groups in force, for the rows from `lo` and below
`hi`. -/
structure DryView where
  state : State
  lo : Option Int
  hi : Option Int
deriving DecidableEq, Repr

/-- Does a view hold for a thermal row? -/
def DryView.has (v : DryView) (row : Int) : Bool := v.lo.all (fun a => decide (a ≤ row)) && v.hi.all fun b => decide (row < b)

/-- The views of a dryer port for a frame of sync `tb`, oldest fields first (R245). -/
def dryViews (s : State) (p tb : Nat) : List DryView :=
  let gs := (s.cfg.accepted.filter fun g => g.parts.contains (dryerPart p)).takeWhile fun g => decide (g.tv < tb)
  let go (n : Nat) : Option DryView :=
    let with_ := couchDryerTake p (fun g => (gs.take n).contains g) s
    let lo := ((gs.take n).getLast?).bind (thermFrom s)
    match gs[n]? with
    | none => some ⟨with_, lo, none⟩
    | some g => (thermFrom s g).map fun b => ⟨with_, lo, some b⟩
  (List.range (gs.length + 1)).filterMap go

/-- The columns that a slice covers while it takes part. -/
def sliceHas (s : State) (k c : Nat) : Bool := decide (cf s 0x07 k 0 = 1) && decide (cf s 0x07 k 4 ≤ c ∧ c ≤ cf s 0x07 k 8)

/-- The background of a thermal column is the layer's own: it goes with the column to the slice that owns it now (R251). -/
def thermMove (k : Nat) (s : State) : State :=
  let mine (t : Nat) : Bool := sliceHas s k (tcFirst s t)
  let others := s.web.knot.slices.filter fun e => e.1 ≠ k
  let moved := others.flatMap fun e => e.2.tback.filter fun b => mine b.1
  if moved.isEmpty then s
  else
    let last := (others.find? fun e => e.2.tback.any fun b => mine b.1).bind fun e => e.2.tlast
    knotUpd (fun x =>
      let x1 := x.slices.map fun e => if e.1 = k then e else (e.1, { e.2 with tback := e.2.tback.filter fun b => !mine b.1 })
      { x with slices := tblUpd {} x1 k fun y =>
          { y with tback := moved.foldl (fun t b => tblSet t b.1 b.2) y.tback, tlast := y.tlast.or last } }) s

/-- A slice's part comes into force; a changed DETECT restarts its backgrounds, and a column that another slice covers from
now on keeps none (R252). -/
def sliceTake (k : Nat) (lim : Option Nat) (s : State) : State :=
  let ok (g : Accepted) : Bool := match lim with
    | some t => decide (g.tv < t)
    | none => true
  if !(s.cfg.accepted.any fun g => g.parts.contains (0x07, k) && ok g) then s
  else
    let s1 := takeSel (ofInst 0x07 k) (0x07, k) ok s
    let taken (j c : Nat) : Bool := (List.range 8).any fun i => decide (i ≠ j) && sliceHas s1 i c
    let left (j : Nat) (sl : Slice) : Slice :=
      { sl with back := if j = k ∧ cf s 0x07 k 1 ≠ cf s1 0x07 k 1 then [] else sl.back.filter fun b => !taken j b.1 }
    thermMove k (knotUpd (fun x => { x with slices := x.slices.map fun e => (e.1, left e.1 e.2) }) s1)

/-- The merger's part comes into force for some groups (R273). -/
def mergerLay (ok : Accepted → Bool) (s : State) : State := srcFresh s (takeSel (ofInst 0x07 8) (0x07, 8) ok s)

/-- It comes into force for the groups handed over before `lim`. -/
def mergerTake (lim : Option Nat) (s : State) : State := mergerLay (before lim) s

/-- Does a camera port with couch ENABLE 1 run (R109, R272, R289)? -/
def couchPortRuns (s : State) : Bool :=
  (List.range 32).any fun p => decide (cpf s p 0 = 1) && (tblGet {} s.ing.ports p).running

/-- Does one run while the couch is on? -/
def couchRuns (s : State) : Bool :=
  (List.range 32).any fun p => cpOn s p && (tblGet {} s.ing.ports p).running

/-- Does what waits for a slice change the columns it covers: ENABLE, COL_FIRST or COL_LAST? -/
def sliceMoves (s : State) (k : Nat) : Bool :=
  s.cfg.accepted.any fun g => g.parts.contains (0x07, k)
    && g.vals.any fun v => ofInst 0x07 k v.1 && [0, 4, 8].contains (addrOff v.1)

/-- Slices that have taken every live row come to a stop with the couch. Columns move once every slice has taken its rows: till
then their backgrounds stay with the slice that tests them (R251, R252). -/
def slicesIdle (s : State) : State :=
  (List.range 8).foldl (fun s k =>
    if s.web.knot.rows.any fun r => r.reproc.isNone && (r.todo.contains k || sliceMoves s k) then s else sliceTake k none s) s

/-- Reels fed by the couch or the thermal layer, and reels that are off. -/
def webReels (s : State) : List Nat := (List.range 64).filter fun r => decide (rlSource s r ≤ 3)

/-- An instance under test takes what waits for it as a stopped one does, whatever runs beside it (R428). -/
def webTested (s : State) : State :=
  let s1 := if underTest s 0x06 0 then couchTake none s else s
  let s2 := (List.range 8).foldl (fun s k => if underTest s 0x07 k then sliceTake k none s else s) s1
  if underTest s2 0x07 8 then mergerTake none s2 else s2

/-- With no camera port of the couch running, couch, knotter and the reels they feed are stopped: their parts come into
force at once (R45). -/
def webStopped (s : State) : State :=
  if couchRuns s then webTested s
  else
    let s1 := couchTake none s
    let s2 := slicesIdle s1
    -- while a row or a closed component waits, with the last of them
    let owes := (s2.web.knot.rows.any fun r => r.reproc.isNone) || s2.web.knot.comps.any fun m => m.reproc.isNone && m.closed.isSome
    let s3 := if owes then s2 else mergerTake none s2
    (webReels s3).foldl (fun s r => reelBoundary r none s) s3

/-- The couch's part for a dryer port that does not run, and whose rows have all reached the couch, comes into force at once
(R45); every part does while the couch is under test (R428). -/
def couchDryerIdle (s : State) : State :=
  (List.range 4).foldl (fun s p =>
    let d : Dry := tblGet {} s.afe.dry p
    if !underTest s 0x06 0 ∧ (d.running ∨ !d.fifo.isEmpty ∨ !d.out.isEmpty) then s else couchDryerTake p (fun _ => true) s) s

end Sys2Proof.Machine
end

