-- ==== Sys2Proof/Machine/HeadboxOps.lean ====
section
/-! DEFINITION. Shared operations of the headboxes (chapter 7): triggers, stamps, lines, stripes, truncation and
delayed settings. -/

namespace Sys2Proof.Machine

/-- Headbox `p`. -/
def port (s : State) (p : Nat) : Port := tblGet {} s.ing.ports p
/-- Replace headbox `p`. -/
def setPort (p : Nat) (x : Port) (s : State) : State := { s with ing := { s.ing with ports := tblSet s.ing.ports p x } }
/-- Change headbox `p`. -/
def updPort (p : Nat) (f : Port → Port) (s : State) : State := setPort p (f (port s p)) s

/-- The Brynlink link of a headbox, 0 to 31, or of a felt port, 64 to 67. -/
def link (s : State) (r : Nat) : Link := if r < 32 then (port s r).link else (feltPort s (r - 64)).link
/-- Replace a link. -/
def setLink (r : Nat) (l : Link) (s : State) : State :=
  if r < 32 then updPort r (fun x => { x with link := l }) s
  else setFeltPort (r - 64) { feltPort s (r - 64) with link := l } s

/-! ### Fields of Table 7.1 -/

def hbProto (s : State) (p : Nat) : Nat := cf s 0x02 p 0x00
def hbWidth (s : State) (p : Nat) : Nat := cf s 0x02 p 0x01
def hbBase (s : State) (p : Nat) : Nat := cf s 0x02 p 0x02
def hbFormat (s : State) (p : Nat) : Nat := cf s 0x02 p 0x03
def hbPixels (s : State) (p : Nat) : Nat := cf s 0x02 p 0x04
/-- H, the stripe height. -/
def hbHeight (s : State) (p : Nat) : Nat := 2 ^ cf s 0x02 p 0x06
def hbEnc (s : State) (p : Nat) : Nat := cf s 0x02 p 0x07
def hbMdOff (s : State) (p : Nat) : Int := cfS s 0x02 p 0x08 8
def hbMode (s : State) (p : Nat) : Nat := cf s 0x02 p 0x10
def hbPitch (s : State) (p : Nat) : Nat := cf s 0x02 p 0x14
def hbPhase (s : State) (p : Nat) : Int := cfS s 0x02 p 0x18 4
def hbDelay (s : State) (p : Nat) : Nat := cf s 0x02 p 0x1C
def hbDeadline (s : State) (p : Nat) : Nat := cf s 0x02 p 0x20
def hbPad (s : State) (p : Nat) : Nat := cf s 0x02 p 0x38

/-- Samples per pixel of a format, which is also c_p of R169 (Table 7.2). -/
def fmtSpp (f : Nat) : Nat := if f < 0x10 then 1 else if f < 0x20 then 2 else 3
/-- Bits per sample of a format. -/
def fmtBits (f : Nat) : Nat :=
  if f < 0x10 then 6 + 2 * f else 8 + 2 * (f % 16)
/-- Samples of a line unit. -/
def hbSamples (s : State) (p : Nat) : Nat := hbPixels s p * fmtSpp (hbFormat s p)
/-- Bytes of a line unit under Brynlink (R143). -/
def hbLineBytes (s : State) (p : Nat) : Nat := hbSamples s p * fmtBits (hbFormat s p) / 8

/-- Samples of `b` bits from a little-endian bit stream, as U16 values v × 2^(16 − b) (R143). -/
def unpackBits (b n : Nat) (bs : List Byte) : List Nat :=
  let v := leNat bs
  (List.range n).map fun i => (v / 2 ^ (b * i)) % 2 ^ b * 2 ^ (16 - b)

/-! ### Service -/

/-- Is bit p of the wire's CHEST_MASK or TMUX_MASK set? -/
def wireBuffers (s : State) (w p : Nat) : Bool := bitOf (cf s 0x03 w 4) p || bitOf (cf s 0x03 w 8) p
/-- Does the wire serve the port? -/
def wireServes (s : State) (w p : Nat) : Bool := decide (cf s 0x03 w 1 = p) || wireBuffers s w p
/-- The wire that serves a port. -/
def wireOf (s : State) (p : Nat) : Option Nat := (List.range 9).find? fun w => wireServes s w p
/-- Bytes of a chest slot of a port (R168). -/
def slotBytes (s : State) (p : Nat) : Nat := hbHeight s p * hbSamples s p * 2
/-- The address of slot `i` of a port's partition in a wire's chest region (R168). -/
def slotAddrOf (s : State) (w p i : Nat) : Nat :=
  let before := ((List.range p).filter (wireBuffers s w)).map (slotBytes s)
  cf s 0x03 w 0x10 + before.sum * cf s 0x03 w 3 + i * slotBytes s p
/-- The chest slots that stripes hold: address and bytes, each as laid out when its stripe began (R44). -/
def slotsHeld (s : State) : List (Nat × Nat) :=
  (List.range 32).flatMap fun p =>
    ((port s p).old ++ (port s p).cur.toList).filterMap fun x => x.slot.map fun _ => (x.slotAddr, x.slotLen)
/-- Do two stretches of bytes meet? -/
def stretchMeets (a b : Nat × Nat) : Bool := decide (a.1 < b.1 + b.2 ∧ b.1 < a.1 + a.2)
/-- The next free slot of a port's partition (R172): no stripe still waits in any of its bytes. -/
def freeChest (s : State) (w p : Nat) : Option Nat :=
  (List.range (cf s 0x03 w 3)).find? fun i => !(slotsHeld s).any (stretchMeets (slotAddrOf s w p i, slotBytes s p))

/-- A bound lane or the link of a port is out: a Brynlink link in DOWN, DEGRADE or RECOVERY, or a bound lane that is not locked
before the link is ACTIVE again, where lines resume at its width (Table 7.9); a CoaXPress connection that is not locked or has
not delivered stream packets again (R158). -/
def portLinkOut (s : State) (p : Nat) : Bool :=
  let x := port s p
  let lost := (List.range (hbWidth s p)).any fun i => !laneLocked s (hbBase s p + i)
  if hbProto s p = 2 then decide (x.link.st = 0 ∨ x.link.st = 4 ∨ x.link.st = 5) || (decide (x.link.st ≠ 3) && lost)
  else !x.quiet.isEmpty || lost
/-- Is the port out: it runs, its stripe has begun and a bound lane or the link is out (R158)? -/
def portOut (s : State) (p : Nat) : Bool := (port s p).running && (port s p).cur.isSome && portLinkOut s p

/-! ### What a headbox sends to its camera -/

/-- Kinds of `Emit.camera`: a trigger, a tagged write, the discovery reads, the set-up (R144, R145). -/
def camTrigger : Nat := 0x03
def camWrite : Nat := 0x04
def camDiscover : Nat := 0xD0
def camSetup : Nat := 0xD1
/-- PTYPEs of Table 7.5 that the device sends. -/
def pkCredit : Nat := 0x02
def pkTrigger : Nat := 0x03
def pkWrite : Nat := 0x04
def pkWidth : Nat := 0x06
def pkWidthAck : Nat := 0x07

/-- The blocks of one lane as the line carries them, after the 58 bits `before` them, and the last 58 bits (R147). -/
def scrambleLane : Nat → List Block → List Block × Nat
  | before, [] => ([], before)
  | before, b :: bs =>
    let w := scramble 64 before (leNat b.bytes)
    let r := scrambleLane (w / 64) bs
    (⟨b.ctrl, leBytes 8 w⟩ :: r.1, r.2)

/-- The 58 bits that a lane sent before: those of the block before where `follow` says that it stands in the log; else a free
value, since the spec gives the scrambler's register no start and the blocks between stand in no log (DESIGN CHOICE 66). -/
def scramblerAt (s : State) (r pos i : Nat) (follow : Bool) : Nat :=
  ((if follow then tblFind (link s r).scr pos else none).getD (Config.freeValue (s.free + i))) % 2 ^ 58

/-- Send blocks on the lanes from position `off` on, scrambled lane by lane (R147). -/
def sendBlocks (r off : Nat) (follow : Bool) (lanes : List (List Block)) (s : State) : State :=
  let out := lanes.zipIdx.map fun x => scrambleLane (scramblerAt s r (off + x.2) x.2 follow) x.1
  let scr := out.zipIdx.foldl (fun t x => tblSet t (off + x.2) x.1.2) (link s r).scr
  emit (.blocks r off (out.map Prod.fst)) { setLink r { link s r with scr := scr } s with free := s.free + lanes.length }

/-- Blocks of a link's stream, dealt to the `w` lanes from position `off` on (R150). IDLE blocks fill the stream between
packets, so the first goes out as the block after the last sent, or the one that the time since ACTIVE gives: one block a
lane in 2.56 ns (DESIGN CHOICE 66 says which block of the stream is the first). -/
def linkBlocks (r off w : Nat) (bs : List Block) (s : State) : State :=
  let l := link s r
  let j := max l.txAt (w * ((s.clk.ns - l.ns) * 25 / 64))
  sendBlocks r off (decide (0 < l.txAt ∧ j = l.txAt ∧ w = l.widthNow)) (dealBlocks w j bs) (setLink r { l with txAt := j + bs.length } s)

/-- STREAM of the packets a link sends: BRYN_STREAM, and 0 on felt (DESIGN CHOICE 66). -/
def linkStream (s : State) (r : Nat) : Nat := if r < 32 then cf s 0x02 r 0x37 else 0

/-- A packet on the lanes of a group: packets go out only in ACTIVE, and SEQ rises by 1 with each (R148, R151). -/
def linkPacketOn (r off w ptype : Nat) (payload : List Byte) (s : State) : State :=
  let l := link s r
  if l.st = 3 then
    linkBlocks r off w (packetBlocks ptype (linkStream s r) l.txSeq payload) (setLink r { l with txSeq := (l.txSeq + 1) % 65536 } s)
  else s

/-- A packet on the lanes that the link uses. -/
def linkPacket (r ptype : Nat) (payload : List Byte) (s : State) : State :=
  linkPacketOn r (link s r).laneOff (link s r).widthNow ptype payload s

/-! ### Truncation (R162, R163) -/

/-- Find a stripe of a port by its number over all stripes. -/
def stripeOf (x : Port) (sid : Nat) : Option Stripe := (x.cur.toList ++ x.old).find? fun t => decide (t.sid = sid)
/-- Replace a stripe. -/
def putStripe (t : Stripe) (x : Port) : Port :=
  { x with cur := x.cur.map fun c => if c.sid = t.sid then t else c
           old := x.old.map fun c => if c.sid = t.sid then t else c }

/-- Is a closed stripe the last one that closed, which CP_STRIPE shows? -/
def lastClosed (x : Port) (sid : Nat) : Bool := decide ((x.cur.map Stripe.sid).getD x.nextSid = sid + 1)

/-- A stripe loses a line for the first time: CP_OVF and PORT_OVERFLOW. -/
def truncate (p sid : Nat) (s : State) : State :=
  let x := port s p
  match stripeOf x sid with
  | none => s
  | some t =>
    if t.truncated then s
    else
      let x1 := putStripe { t with truncated := true } { x with ovf := satAdd 32 x.ovf 1 }
      let s1 := setPort p { x1 with trunc := x1.trunc || (t.closed && lastClosed x sid) } s
      raise (80 + p) 0x01 t.number { s1 with ing := { s1.ing with truncAll := satAdd 32 s1.ing.truncAll 1 } }

/-! ### The pipe of a port on its way to the couch -/

/-- A line leaves the head of the pipe: the blind intervals of truncated stripes open and close (R163). -/
def pipeLeave (p : Nat) (it : Item) (s : State) : State :=
  let x := port s p
  if it.st = .dropped then
    if x.blind.contains it.sid then s
    else blindOpen 1 p 1 (it.sid + 1) it.md (setPort p { x with blind := x.blind ++ [it.sid] } s)
  else
    let done := x.blind.filter fun k => decide (k < it.sid)
    done.foldl (fun s k => blindClose p 1 (k + 1) it.md s) (setPort p { x with blind := x.blind.filter fun k => !decide (k < it.sid) } s)

/-- A line that neither is a placeholder nor is out of its wire. -/
def liveItem (it : Item) : Bool := !decide (it.st = .dropped) && !decide (it.st = .out) && !decide (it.st = .unstamped)

/-- Forget closed stripes whose lines have all left the wire. -/
def stripeSweep (p : Nat) (s : State) : State :=
  updPort p (fun x =>
    let live (t : Stripe) : Bool := x.pipe.any fun it => decide (it.sid = t.sid) && liveItem it
    { x with old := x.old.filter live }) s

/-- Lines of a port that the couch does not take leave the pipe at once. -/
def pipePump (p : Nat) : Nat → State → State
  | 0, s => s
  | n + 1, s =>
    if cpWant s p then s
    else
      match (port s p).pipe with
      | [] => s
      | it :: rest =>
        -- a placeholder whose capture moment has not come stays, and holds what is behind it
        if it.st = .out ∨ it.st = .dropped then pipePump p n (pipeLeave p it (updPort p (fun x => { x with pipe := rest }) s))
        else s

/-! ### The raw area of the history ring (R287) -/

def hsBase (s : State) : Nat := cf s 0x13 0 0x00
def hsView (s : State) : Nat := cf s 0x13 0 0x08
def hsTile (s : State) : Nat := cf s 0x13 0 0x10
def hsRaw (s : State) : Nat := cf s 0x13 0 0x18
/-- Blocks of the raw area. -/
def rawBlocks (s : State) : Nat := hsRaw s / 4096
/-- Bytes of a line record. -/
def rawLineBytes (samples : Nat) : Nat := (32 + 2 * samples + 63) / 64 * 64
/-- Blocks of a stripe of `h` lines. -/
def rawStripeBlocks (h samples : Nat) : Nat := (64 + h * rawLineBytes samples + 4095) / 4096
/-- Write bytes at a position counted from a logical block, wrapping at the end of the area. -/
def rawWrite (block off : Nat) (bs : List Byte) (s : State) : State :=
  let size := rawBlocks s * 4096
  if size = 0 then s
  else
    let at_ := (block * 4096 + off) % size
    let base := hsBase s + hsView s + hsTile s
    let first := min bs.length (size - at_)
    hbmWrite base (bs.drop first) (hbmWrite (base + at_) (bs.take first) s)
/-- The 64-byte stripe header; its layout is the model's (DESIGN CHOICE 23). -/
def rawHeader (r : RawStripe) : List Byte :=
  padTo 64 (leBytes 2 r.port ++ leBytes 2 r.epoch ++ leBytes 4 r.number ++ leBytes 8 r.lines
    ++ leBytes 8 (ofS 64 r.mdFirst) ++ leBytes 8 (ofS 64 r.mdLast))
/-- A span joins those of its port from which no more than `slack` parts it. -/
def spanAdd (p slack : Nat) (a b : Int) (xs : List (Nat × Int × Int)) : List (Nat × Int × Int) :=
  let near (x : Nat × Int × Int) : Bool := decide (x.1 = p ∧ x.2.1 ≤ b + slack ∧ a ≤ x.2.2 + slack)
  let hit := xs.filter near
  (xs.filter fun x => !near x) ++ [(p, (hit.map fun x => x.2.1).foldl min a, (hit.map fun x => x.2.2).foldl max b)]

/-- Raw stripes are lost: their spans are kept. The web between two of them that are no farther apart than twice their widest line
step is lost with them (DEDUCED 43). -/
def rawLose (rs : List RawStripe) (h : Hist) : Hist :=
  { h with rawLost := (rs.filter fun r => decide (0 < r.lines)).foldl (fun xs r => spanAdd r.port (max 1 (2 * r.step)) r.mdMin r.mdMax xs) h.rawLost }

/-- Reserve space at a stripe's start. -/
def rawBegin (p sid : Nat) (s : State) : State :=
  if !bitOf (cf s 0x13 0 0x28) p || decide (rawBlocks s = 0) then s
  else
    let n := rawStripeBlocks (hbHeight s p) (hbSamples s p)
    let h := s.web.hist
    let r : RawStripe := ⟨p, (port s p).stripeNo, (port s p).epoch, h.rawPos, n, 0, hbPixels s p, hbFormat s p, 0, 0, 0, 0, 0, false⟩
    let keep := h.raw.filter fun q => decide (h.rawPos + n ≤ q.block + rawBlocks s)
    let s1 := histUpd (fun h => { rawLose (h.raw.filter fun q => !keep.contains q) h with rawPos := h.rawPos + n, raw := keep ++ [r] }) s
    updPort p (fun x => { x with cur := x.cur.map fun t => if t.sid = sid then { t with rawAddr := some h.rawPos } else t })
      (rawWrite h.rawPos 0 (rawHeader r) s1)
/-- Write a line that its wire has taken: R162 drops it no more. -/
def rawLine (block num : Nat) (md : Int) (tb flags : Nat) (samples : List Nat) (s : State) : State :=
  match s.web.hist.raw.find? fun r => decide (r.block = block) with
  | none => s
  | some r =>
    let r' := { r with lines := r.lines + 1, mdFirst := if r.lines = 0 then md else r.mdFirst, mdLast := md
                       mdMin := if r.lines = 0 then md else min r.mdMin md, mdMax := if r.lines = 0 then md else max r.mdMax md
                       step := if r.lines = 0 then 0 else max r.step (md - r.mdLast).natAbs }
    let bs := leBytes 8 num ++ leBytes 8 (ofS 64 md) ++ leBytes 8 tb ++ leBytes 1 flags ++ zeros 7
      ++ samples.flatMap (leBytes 2)
    histUpd (fun h => { h with raw := h.raw.map fun q => if q.block = block then r' else q })
      (rawWrite block (64 + r.lines * rawLineBytes samples.length) bs s)
/-- Close a raw stripe: the header takes DELIVERED and the MD of the first and last line. -/
def rawClose (block : Nat) (s : State) : State :=
  match s.web.hist.raw.find? fun r => decide (r.block = block) with
  | none => s
  | some r =>
    histUpd (fun h => { h with raw := h.raw.map fun q => if q.block = block then { r with closed := true } else q })
      (rawWrite block 0 (rawHeader r) s)

/-! ### Correction tables (chapter 9) -/

/-- Words of the table store. -/
def storeWords : Nat := 1048576
/-- Words not held by any item (WIRE_STORE). -/
def storeFree (s : State) : Nat := storeWords - (s.ing.tabs.map fun x => x.2.words).sum
/-- Item `i` of Table 9.10 of a bank of a port's table set: 0 to 8. -/
def tabKey (p bank i : Nat) : Nat := p * 64 + bank * 16 + i
def tab (s : State) (p bank i : Nat) : TabItem := tblGet {} s.ing.tabs (tabKey p bank i)
def setTab (p bank i : Nat) (x : TabItem) (s : State) : State :=
  { s with ing := { s.ing with tabs := tblSet s.ing.tabs (tabKey p bank i) x } }
/-- Release a bank: its words are freed and it holds no kind (R193). -/
def releaseBank (p bank : Nat) (s : State) : State :=
  { s with ing := { s.ing with tabs := s.ing.tabs.filter fun x => !decide (x.1 / 16 = p * 4 + bank) } }
/-- The image of a VALID item; none reads as identity (R194). -/
def TabItem.used (x : TabItem) : Option (List Byte) := if x.st = 2 then some x.image else none
/-- The image of an item of a bank. -/
def tabImage (s : State) (p bank i : Nat) : Option (List Byte) := (tab s p bank i).used
/-- The tables of a port's bank and gain set as they stand. -/
def tablesOf (s : State) (p bank set_ : Nat) : Tables :=
  { xtalk := tab s p bank 0, dark := tab s p bank 1, gain := tab s p bank (2 + set_), dead := tab s p bank 6
    matrix := tab s p bank 7, shade := tab s p bank 8 }

/-! ### Configuration at the stripe boundary (R43, R44, R159) -/

/-- The pseudo-block that stands for the deferred fields of a port in an accepted group. -/
def deferBlk : Nat := 0x102

/-- Lay values of a port's table set: COLUMNS releases both banks when it changes, RELEASE releases banks and reads as 0
in force (R193). -/
def layTables (p : Nat) (vals : Tbl Nat) (s : State) : State :=
  let s1 := match tblFind vals (cfgAddr 0x04 p 0) with
    | some c =>
      let s0 := if c ≠ cf s 0x04 p 0 then releaseBank p 1 (releaseBank p 0 s) else s
      { s0 with cfg := { s0.cfg with vals := tblSet s0.cfg.vals (cfgAddr 0x04 p 0) c } }
    | none => s
  match tblFind vals (cfgAddr 0x04 p 2) with
  | some r =>
    let s2 := if bitOf r 0 then releaseBank p 0 s1 else s1
    if bitOf r 1 then releaseBank p 1 s2 else s2
  | none => s1

/-- Lay values as they are. -/
def layAll (vals : Tbl Nat) (s : State) : State :=
  { s with cfg := { s.cfg with vals := vals.foldl (fun t x => tblSet t x.1 x.2) s.cfg.vals } }

/-- Remove parts from an accepted group, add one, and forget groups that are wholly in force (R42). -/
def dropParts (seq : W32) (gone : List (Nat × Nat)) (add : List (Nat × Nat)) (s : State) : State :=
  let acc := s.cfg.accepted.map fun g =>
    if g.seq = seq then { g with parts := (g.parts.filter fun p => !gone.contains p) ++ add } else g
  { s with cfg := { s.cfg with accepted := acc.filter fun g => !g.parts.isEmpty } }

/-- Setting writes that wait for their line T (R161). -/
def writesPending (x : Port) : List SetWrite := x.writes.filter fun w => !w.loose && decide (x.lines ≤ w.target)

/-- Deferred values without those of fields that `vals` lay. RELEASE is an act and no value (R193), so it stays. -/
def outdated (vals deferred : Tbl Nat) : Tbl Nat :=
  deferred.filter fun v => (tblFind vals v.1).isNone || decide (addrBlk v.1 = 0x04 ∧ addrOff v.1 = 2)

/-- Values that a later group lays on an instance stand: a field that a setting write of an earlier group still defers is not laid
over them at T (R42, R45). `part` is the pseudo-part of the deferred fields. -/
def supersede (part : Nat × Nat) (vals : Tbl Nat) (s : State) : State :=
  { s with cfg := { s.cfg with accepted := s.cfg.accepted.map fun g => if g.parts.contains part then { g with vals := outdated vals g.vals } else g } }

/-- Send a setting write: a REG_WRITE, or a tagged control write (R159). Where the Brynlink link is not ACTIVE, R151 lets no packet
go and R159 does not say what then: nothing goes out, and the write counts as sent and pending, so that it times out (DESIGN
CHOICE 87). -/
def sendSetting (p seq : Nat) (s : State) : State :=
  let w := cf s 0x02 p 0x27
  let a := cf s 0x02 p 0x28
  let v := cf s 0x02 p 0x2C % 256 ^ w
  if hbProto s p = 2 then linkPacket p pkWrite (leBytes 2 seq ++ leBytes 2 w ++ leBytes 4 a ++ leBytes 4 v) s
  else emit (.camera p camWrite [seq, w, a, v]) s

/-- The next trigger position of mode 1 above the present reading (R153). -/
def trigAbove (s : State) (p : Nat) : Int :=
  let pt := (max 1 (hbPitch s p) : Int)
  hbPhase s p + ((encE s (hbEnc s p) - hbPhase s p) / pt + 1) * pt

/-- The link of a headbox is up: ACTIVE, or CoaXPress discovered. -/
def hbUp (s : State) (p : Nat) : Bool :=
  if hbProto s p = 2 then decide ((port s p).link.st = 3) else decide (hbProto s p = 1) && (port s p).discovered

/-- The full width of a link: WIDTH, or four lanes. -/
def linkFull (s : State) (r : Nat) : Nat := if r < 32 then hbWidth s r else 4
/-- The lanes bound to a link. -/
def linkLanes (s : State) (r : Nat) : List Nat :=
  if r < 32 then (List.range (hbWidth s r)).map fun i => hbBase s r + i else (List.range 4).map fun i => 64 + 4 * (r - 64) + i

/-- Does another lane of the same port hold the position already, or does it lie outside the port's width (R130)? -/
def positionBad (s : State) (r n pos : Nat) : Bool :=
  decide (linkFull s r ≤ pos) || (linkLanes s r).any fun m => decide (m ≠ n) && laneLocked s m && decide ((lane s m).position = pos)

/-- The positions that discovery gave the lanes that a CoaXPress headbox bound in `old` hold no longer. -/
def forgetPositions (old : State) (p : Nat) (s : State) : State :=
  (if hbProto old p = 1 then linkLanes old p else []).foldl (fun s n => setLane n { lane s n with position := 0x3F } s) s

/-- Brynlink lanes that locked before a headbox bound them: those whose lane IDs do not fit it raise ORDER_FAULT (R130). -/
def bindFaults (p : Nat) (s : State) : State :=
  if hbProto s p = 2 then
    ((linkLanes s p).filter fun n => laneLocked s n && ln66 s n && positionBad s p n (lane s n).position).foldl
      (fun s n => raise n 0x05 p s) s
  else s

/-- A stopped headbox whose PROTOCOL, WIDTH or LANE_BASE changes keeps no link of its old lanes (R141, R142). `old` holds the
values before. -/
def unbind (old : State) (p : Nat) (s : State) : State :=
  let x := port s p
  let s1 := setPort p { x with link := {}, discovered := false } (forgetPositions old p s)
  bindFaults p (if x.link.st ≠ 0 ∨ x.discovered then raise (80 + p) 0x03 0 s1 else s1)

/-- A headbox brings its parts of one accepted group into force: at a stripe boundary when it runs, else at once. -/
def portGroup (p : Nat) (g : Accepted) (s : State) : State :=
  if !(g.parts.contains (0x02, p) || g.parts.contains (0x04, p)) then s
  else
    let mine := g.vals.filter fun v => decide (addrBlk v.1 = 0x02 ∧ addrInst v.1 = p)
    let tabs := g.vals.filter fun v => decide (addrBlk v.1 = 0x04 ∧ addrInst v.1 = p)
    let x := port s p
    let newSeq := match tblFind mine (cfgAddr 0x02 p 0x30) with
      | some q => if q ≠ cf s 0x02 p 0x30 then some q else none
      | none => none
    let trigs := mine.any fun v => [0x14, 0x18].contains (addrOff v.1)
    let gone := [(0x02, p), (0x04, p)]
    let rebound (n : State) : State :=
      if ([0, 1, 2] : List Nat).any fun o => decide (cf n 0x02 p o ≠ cf s 0x02 p o) then unbind s p n else n
    let s' := match newSeq with
      | some q =>
        if x.running then
          let late := mine.filter fun v => [0x12, 0x13].contains (addrOff v.1)
          let now := mine.filter fun v => !([0x12, 0x13] : List Nat).contains (addrOff v.1)
          let s1 := layAll now s
          let w : SetWrite := { seq := q, sentNs := s.clk.ns, target := x.lines + cf s1 0x02 p 0x24, vals := late ++ tabs, grp := g.seq }
          sendSetting p q (updPort p (fun x => { x with writes := x.writes ++ [w] }) (dropParts g.seq gone [(deferBlk, p)] s1))
        else
          let s1 := dropParts g.seq gone [] (layTables p tabs (rebound (layAll mine s)))
          if hbUp s1 p then
            let w : SetWrite := { seq := q, sentNs := s.clk.ns, target := 0, loose := true, vals := [], grp := g.seq }
            sendSetting p q (updPort p (fun x => { x with writes := x.writes ++ [w] }) s1)
          else s1
      | none => updPort p (fun x => { x with writes := x.writes.map fun w => { w with vals := outdated (mine ++ tabs) w.vals } })
          (supersede (deferBlk, p) (mine ++ tabs) (dropParts g.seq gone [] (layTables p tabs (rebound (layAll mine s)))))
    if trigs then updPort p (fun x => { x with trigNext := some (trigAbove s' p) }) s' else s'

/-- A headbox's boundary: its parts of every accepted group, in sequence order (R43, R45). -/
def portBoundary (p : Nat) (s : State) : State := s.cfg.accepted.foldl (fun s g => portGroup p g s) s

/-- The deferred fields that reach their line T (R159): they come into force, SET_APPLIED is raised. -/
def settingsAt (p num : Nat) (s : State) : Bool × State :=
  let hit := (port s p).writes.filter fun w => decide (w.target = num) && !w.failed && !w.loose
  let s1 := hit.foldl (fun s w =>
    let mine := w.vals.filter fun v => decide (addrBlk v.1 = 0x02)
    let tabs := w.vals.filter fun v => decide (addrBlk v.1 = 0x04)
    raise (80 + p) 0x04 w.seq (dropParts w.grp [(deferBlk, p)] [] (layTables p tabs (layAll mine s)))) s
  (!hit.isEmpty, s1)

/-- Forget setting writes past their line T whose acknowledgement is known. -/
def writesSweep (p : Nat) (s : State) : State :=
  updPort p (fun x =>
    let isOver (w : SetWrite) : Bool := (w.acked || w.failed) && (w.loose || decide (w.target < x.lines))
    { x with writes := x.writes.filter fun w => !isOver w }) s

/-- A setting write fails (R160): cause 1 refused, 2 timeout. -/
def settingFails (p : Nat) (w : SetWrite) (cause : Nat) (s : State) : State :=
  let x := port s p
  let after := w.loose || decide (w.target < x.lines)
  let w' := { w with failed := true, vals := if after then w.vals else [] }
  let s1 := setPort p { x with writes := x.writes.map fun v => if v = w then w' else v } s
  let s2 := if after then s1 else dropParts w.grp [(deferBlk, p)] [] s1
  writesSweep p (raise (80 + p) 0x05 (w.seq + at' 16 cause + at' 31 (b2n after)) s2)

/-! ### Stripes (R157, R172) -/

/-- The pseudo-block of the fields of a wire that are not tied to a port: ROLE and ADMIT (Table 2.6). -/
def untiedBlk : Nat := 0x103
def untiedField (a : Nat) : Bool := decide (addrBlk a = 0x03) && ([0, 2] : List Nat).contains (addrOff a)
/-- The pseudo-block of PLAN_RATE[p] of wire w, at instance 32 × w + p: it is the wire's part that is tied to port p alone. -/
def planBlk : Nat := 0x104
def planField (a : Nat) : Bool := decide (addrBlk a = 0x03) && decide (0x40 ≤ addrOff a)
def planPart (a : Nat) : Nat × Nat := (planBlk, 32 * addrInst a + (addrOff a - 0x40) / 4)
def planAt (part : Nat × Nat) (a : Nat) : Bool := planField a && decide (planPart a = part)
def tiedWire (w a : Nat) : Bool := ofInst 0x03 w a && !untiedField a && !planField a
def untiedWire (w a : Nat) : Bool := ofInst 0x03 w a && untiedField a

/-- Does a wire serve the port under the values in force, or once its waiting parts are? -/
def wireConcerns (s : State) (w p : Nat) : Bool := wireServes s w p || wireServes (takePart 0x03 w s) w p

/-- Has a port begun a stripe since a group was accepted, or does it not run (Table 2.6, R45)? -/
def portPast (s : State) (p : Nat) (g : Accepted) : Bool :=
  !(port s p).running || (match (port s p).cur with
    | some t => decide ((t.cfgSeq - g.seq).toNat < 2 ^ 31)
    | none => false)

/-- Has every running port that a wire serves begun a stripe since a group was accepted (Table 2.6)? A stripe of such a port
goes by the group's values from its own beginning on; what the ports share of the wire's part is in force once the last has
begun. -/
def wireDue (s : State) (w : Nat) (g : Accepted) : Bool :=
  (List.range 32).all fun p => !wireConcerns s w p || portPast s p g

/-- Each PLAN_RATE[p] comes into force with port p's own stripe (Table 2.6). -/
def plansTake (s : State) : State :=
  ((s.cfg.accepted.flatMap Accepted.parts).filter fun x => decide (x.1 = planBlk)).foldl (fun s x =>
    takeSel (planAt x) x (portPast s (x.2 % 32)) s) s

/-- What is not tied to a port comes into force: when the wire starts a stripe, or at once where no port that it serves runs
(Table 2.6, R45). -/
def wireUntied (w : Nat) (s : State) : State := takeSel (untiedWire w) (untiedBlk, w) (fun _ => true) s

/-- Is a wire stopped: none of the ports that it serves runs? -/
def wireStopped (s : State) (w : Nat) : Bool := (List.range 32).all fun p => !(port s p).running || !wireConcerns s w p

/-- Wires bring into force the parts that every port they serve has reached; one with no running port, at once (R43 to
R45). -/
def wiresTake (s : State) : State :=
  (List.range 9).foldl (fun s w =>
    let s1 := takeSel (tiedWire w) (0x03, w) (wireDue s w) s
    if wireStopped s1 w then wireUntied w s1 else s1) (plansTake s)

/-- The wires as a stripe that begins now sees them: every group accepted by now is over the values in force (R43, R44). -/
def wireView (s : State) : State := (List.range 9).foldl (fun s w => takePart 0x03 w s) s

/-- A stripe begins: the boundary of R43 for the port, its table set and its wire, a chest slot when buffered. -/
def beginStripe (p : Nat) (s : State) : State :=
  let s1 := portBoundary p s
  let v := wireView s1
  let w := wireOf v p
  let buf := match w with
    | some w => wireBuffers v w p
    | none => false
  let slot := match w with
    | some w => if buf then freeChest v w p else none
    | none => none
  let x := port s1 p
  let t : Stripe := { sid := x.nextSid, number := x.stripeNo, epoch := x.epoch, height := hbHeight s1 p, first := x.lines
                      wire := w, slot := slot, noSlot := w.isNone || (buf && slot.isNone) || portLinkOut s1 p, buffered := buf
                      slotAddr := (match w, slot with
                        | some w, some i => slotAddrOf v w p i
                        | _, _ => 0)
                      slotLen := slotBytes v p
                      beginTb := s1.clk.tb, deadline := hbDeadline s1 p, cfgSeq := s1.cfg.seq }
  rawBegin p t.sid (wiresTake (setPort p { x with cur := some t, nextSid := x.nextSid + 1 } s1))

/-- The PORT_STOP commands that run on a port. -/
def stopsOf (s : State) (blk p : Nat) : List Cmd :=
  s.cmds.flight.filter fun c => decide (pkOp c.packet = 0x0031) && c.started && c.sentTo.isNone
    && decide (addrBlk (pkTarget c.packet) = blk) && decide (pkInst c.packet = p)

/-- They complete with the number of the last stripe or frame. -/
def finishStops (blk p n : Nat) (s : State) : State := (stopsOf s blk p).foldl (fun s c => finishOk c n 0 s) s

/-- Number of the last stripe of a port; 0 before the first. -/
def lastStripe (s : State) (p : Nat) : Nat :=
  if (port s p).everClosed then ((port s p).stripeNo + 2 ^ 32 - 1) % 2 ^ 32 else 0

/-- The deferred fields of a port that stops come into force at once (R45). Its setting writes wait only for their outcome
from then on (R160). -/
def landWrites (p : Nat) (s : State) : State :=
  let s1 := ((port s p).writes.filter fun w => !w.loose && !w.failed).foldl (fun s w =>
    let mine := w.vals.filter fun v => decide (addrBlk v.1 = 0x02)
    let tabs := w.vals.filter fun v => decide (addrBlk v.1 = 0x04)
    dropParts w.grp [(deferBlk, p)] [] (layTables p tabs (layAll mine s))) s
  writesSweep p (updPort p (fun x => { x with writes := x.writes.map fun w => { w with loose := true, vals := [] } }) s1)

/-- The stop point of a port: its waiting parts come into force (R45) and its PORT_STOP completes. The blind interval of a
profile port whose image failed stays open over it, until the port is started (DESIGN CHOICE 104). -/
def portHalt (p : Nat) (s : State) : State :=
  let x := port s p
  let n := lastStripe s p
  let x' := { x with running := false, stopping := false, cur := none, part := none, trigs := [], waitStart := false, imageWait := false }
  let s0 := portBoundary p (landWrites p (setPort p x' s))
  finishStops 0x02 p n (webStopped (rawStops p (wiresTake s0)))

/-- A line that waits for its wire. -/
def isWaiting (it : Item) : Bool := match it.st with
  | .fifo => true
  | .chest _ => true
  | _ => false

/-- The raw stripe of a closed stripe is complete once no line of it waits for the wire any more. -/
def rawSettle (p sid : Nat) (s : State) : State :=
  match stripeOf (port s p) sid with
  | some t =>
    match t.rawAddr with
    | some b => if t.closed ∧ !((port s p).pipe.any fun i => decide (i.sid = sid) && isWaiting i) then rawClose b s else s
    | none => s
  | none => s

/-- The current stripe closes. `force` closes it at once, truncated where it has lost no line before (PORT_STOP mode 1,
R142, R164). -/
def closeStripe (p : Nat) (force : Bool) (s0 : State) : State :=
  let s := if force then ((port s0 p).cur.map fun t => truncate p t.sid s0).getD s0 else s0
  let x := port s p
  match x.cur with
  | none => s
  | some t =>
    let t' := { t with closed := true, closeTb := s.clk.tb, closeNs := s.clk.ns }
    let no := (x.stripeNo + 1) % 2 ^ 32
    let x' := { x with cur := none, old := x.old ++ [t'], everClosed := true, stripeNo := no
                       epoch := if no = 0 then (x.epoch + 1) % 65536 else x.epoch
                       delivered := t.delivered, trunc := t'.truncated }
    let s1 := setPort p x' s
    let s2 := if t.flagsSeen ≠ 0 then raise (80 + p) 0x02 t.flagsSeen s1 else s1
    let s4 := stripeSweep p (rawSettle p t.sid s2)
    if force ∨ x.stopping then portHalt p s4 else beginStripe p s4

/-! ### Lines (R155, R156, R162) -/

/-- Sample bytes that wait in the port FIFO. -/
def fifoBytes (x : Port) : Nat := ((x.pipe.filter fun it => decide (it.st = .fifo)).map fun it => 2 * it.samples.length).sum

/-- A counted line of a port: `samples` none for a line that an outage drops, `expected` for one that mode 0 counts at its
expected capture moment (R158). A dropped line whose reading is not known yet is stamped then: it waits as a placeholder
without a stamp, and MD and flags of this call do not count for it. -/
def countLine (p : Nat) (tb : Nat) (latch : Bool) (md : Int) (flags0 : Nat) (expected : Bool) (samples : Option (List Nat))
    (s : State) : State :=
  match (port s p).cur with
  | none => s
  | some _ =>
    let num := (port s p).lines
    let (set, s1) := settingsAt p num s
    let flags := flags0 + (if set then 16 else 0)
    let x := port s1 p
    match x.cur with
    | none => s1
    | some t =>
      let room := t.buffered || decide (fifoBytes x + 2 * (samples.map List.length).getD 0 ≤ 262144)
      let keep := samples.isSome && !t.truncated && !t.noSlot && room
      let idx := num - t.first
      let late := samples.isNone && !stampKnown s latch (hbEnc s p) tb
      let st : ItemSt := if late then .unstamped else if !keep then .dropped else if t.buffered then .chest (t.slotAddr + idx * hbSamples s1 p * 2) else .fifo
      let it : Item := { num := num, sid := t.sid, tb := tb, md := md, flags := flags, st := st, wire := t.wire
                         samples := if keep ∧ !t.buffered then samples.getD [] else []
                         bank := cf s1 0x02 p 0x12, ffSet := cf s1 0x02 p 0x13
                         tabs := if keep then tablesOf s1 p (cf s1 0x02 p 0x12) (cf s1 0x02 p 0x13) else {}, format := hbFormat s1 p
                         pixels := hbPixels s1 p, pad := hbPad s1 p, stripeTb := t.beginTb, lastOfStripe := decide (t.counted + 1 = t.height) }
      let t' := { t with counted := t.counted + 1, delivered := t.delivered + b2n keep
                         flagsSeen := t.flagsSeen ||| flags }
      let x' := { x with lines := num + 1, mdLast := if late then x.mdLast else md, cur := some t', pipe := x.pipe ++ [it]
                         captures := if keep then ((tb : Int) :: x.captures).take 256 else x.captures
                         capLast := if expected then x.capLast else tb
                         dropK := if expected then x.dropK + 1 else 0 }
      let s1' := if late then { s1 with ing := { s1.ing with lateStamps := s1.ing.lateStamps ++ [⟨p, num, tb, latch, hbEnc s1 p, hbMdOff s1 p⟩] } } else s1
      let s2 := setPort p x' s1'
      let s3 := if keep ∧ t.buffered then hbmWrite (t.slotAddr + idx * hbSamples s1 p * 2) ((samples.getD []).flatMap (leBytes 2)) s2 else s2
      let s3 := if keep ∧ t.buffered then reelRaw p num md flags (fmtSpp (hbFormat s1 p)) t.beginTb (samples.getD []) s3 else s3
      let s5 := if keep then s3 else truncate p t.sid s3
      let s6 := writesSweep p s5
      let s7 := if t'.counted = t.height then closeStripe p false s6 else s6
      pipePump p (x'.pipe.length) s7

/-- The stamp of a line: MD = E − MD_OFFSET and MD_REVISIT (R16, R155). -/
def stampOf (mdOfs e : Int) : Int := toS 64 (ofS 64 (e - mdOfs))
def stampMd (s : State) (p : Nat) (e : Int) : Int := stampOf (hbMdOff s p) e

/-- The MD_REVISIT flag at a capture moment, as bit 3. -/
def revisitFlag (s : State) (e tb : Nat) : Nat := if encBackAt s e tb then 8 else 0

/-- A capture moment that has come: the placeholder that waits for it is stamped, with the MD_OFFSET of its own stripe (R44,
R155, R158). -/
def lateStamp (x : LateStamp) (s : State) : State :=
  let p := x.port
  let num := x.num
  let md := stampOf x.mdOfs (encStamp s x.latch x.enc x.tb)
  let fl := revisitFlag s x.enc x.tb
  let stamp (i : Item) : Item := if i.num = num ∧ i.st = .unstamped then { i with st := .dropped, md := md, flags := i.flags ||| fl } else i
  let s1 := updPort p (fun x => { x with mdLast := md, pipe := x.pipe.map stamp
                                         cur := x.cur.map fun t => if t.first ≤ num then { t with flagsSeen := t.flagsSeen ||| fl } else t }) s
  pipePump p ((port s1 p).pipe.length) s1
/-- Every capture moment whose reading is known. -/
def lateStampsDue (s : State) : State :=
  let known (x : LateStamp) : Bool := stampKnown s x.latch x.enc x.tb
  let due := s.ing.lateStamps.filter known
  if due.isEmpty then s
  else due.foldl (fun s x => lateStamp x s)
    { s with ing := { s.ing with lateStamps := s.ing.lateStamps.filter fun x => !known x } }

/-- The capture moment of a line (R154): the trigger's TB_NOW plus CAPTURE_DELAY, its first byte's minus CAPTURE_DELAY, or the
moment at which mode 0 expects it. -/
def captureTb (s : State) (p : Nat) (l : LineDue) : Nat :=
  match l.start with
  | .trigger => l.tb + hbDelay s p
  | .byte => l.tb - hbDelay s p
  | .expected => l.tb

/-- Does the AFE die latch the reading at the capture moment (R154)? -/
def captureLatch (l : LineDue) : Bool := decide (l.start = .trigger)

/-- Is the reading at the capture moment of a line known? -/
def dueKnown (s : State) (p : Nat) (l : LineDue) : Bool := stampKnown s (captureLatch l) (hbEnc s p) (captureTb s p l)

/-- The samples of a line as it was received, of the configured length (R156). -/
def lineGot (s : State) (p : Nat) (l : Partial) : List Nat :=
  let n := hbSamples s p
  let b := fmtBits (hbFormat s p)
  if hbProto s p = 2 then unpackBits b (min n (8 * l.bytes.length / b)) l.bytes
  else (l.samples.take n).map fun v => v % 2 ^ b * 2 ^ (16 - b)

/-- Does a received line go beyond its configured length (R156)? -/
def lineLong (s : State) (p : Nat) (l : Partial) : Bool :=
  if hbProto s p = 2 then decide (hbLineBytes s p < l.total) else decide (hbSamples s p < l.samples.length)

/-- A received line is counted among BAD, SHORT and LONG lines (Table 7.10). -/
def countKinds (p : Nat) (bad short long_ : Bool) (s : State) : State :=
  updPort p (fun x => { x with bad := if bad then satAdd 32 x.bad 1 else x.bad
                               short_ := if short then satAdd 32 x.short_ 1 else x.short_
                               long_ := if long_ then satAdd 32 x.long_ 1 else x.long_ }) s

/-- A line is stamped and counted, by the values in force for its stripe (R44, R154 to R156). A line is SHORT where its bytes do
not reach its length, closed by LINE_TIMEOUT or not, and BAD or not (DESIGN CHOICE 107). -/
def countDue (p : Nat) (l : LineDue) (s : State) : State :=
  let tb := captureTb s p l
  let md := stampMd s p (encStamp s (captureLatch l) (hbEnc s p) tb)
  let flags := 32 * b2n (decide (l.start = .byte ∧ hbMode s p ≠ 0)) + revisitFlag s (hbEnc s p) tb
  match l.content with
  | none => countLine p tb (captureLatch l) md flags (decide (l.start = .expected)) none s
  | some c =>
    let n := hbSamples s p
    let got := lineGot s p c
    let short := decide (got.length < n)
    let samples := if c.bad then List.replicate n (hbPad s p) else got ++ List.replicate (n - got.length) (hbPad s p)
    countLine p tb (captureLatch l) md (flags + b2n short + 2 * b2n (lineLong s p c) + 4 * b2n c.bad) false (some samples)
      (countKinds p c.bad short (lineLong s p c) s)

/-- Does a line of the port wait for its reading? -/
def lineWaits (s : State) (p : Nat) : Bool := s.ing.awaiting.any fun x => decide (x.1 = p)

/-- A line is to be counted: at once, or, where the reading at its capture moment is not known yet, once it is, with the lines
of its port behind it (R155, R419). Fields of its stripe are those in force when it is counted (R44). -/
def lineCount (p : Nat) (l : LineDue) (s : State) : State :=
  if lineWaits s p || (l.content.isSome && !dueKnown s p l) then
    { s with ing := { s.ing with awaiting := s.ing.awaiting ++ [(p, l)] } }
  else countDue p l s

/-- The lines whose readings have become known are counted, in order; lines of a port that has stopped are discarded. -/
def linesDue (s : State) : State :=
  if s.ing.awaiting.isEmpty then s
  else
    let r := s.ing.awaiting.foldl (fun (a : List (Nat × LineDue) × State) x =>
      if a.1.any (fun y => decide (y.1 = x.1)) || !dueKnown a.2 x.1 x.2 then (a.1 ++ [x], a.2)
      else (a.1, countDue x.1 x.2 a.2)) ([], { s with ing := { s.ing with awaiting := [] } })
    { r.2 with ing := { r.2.ing with awaiting := r.1.filter fun x => (port r.2 x.1).running } }

/-- The line that a line in progress makes, by what fixes its capture moment (R154). -/
def partDue (l : Partial) : LineDue :=
  match l.trig with
  | some t => { tb := t.tb, start := .trigger }
  | none => { tb := l.firstTb, start := .byte }

/-- A lane or the link of the port goes out: the line in progress is the first that lacks data, so it is dropped (R162). -/
def dropPartial (p : Nat) (s : State) : State :=
  match (port s p).part with
  | none => s
  | some l =>
    lineCount p (partDue l) (updPort p (fun x => { x with part := none }) s)

/-- The line in progress ends (R154 to R156). -/
def endLine (p : Nat) (s : State) : State :=
  match (port s p).part with
  | none => s
  | some l => lineCount p { partDue l with content := some l } (updPort p (fun x => { x with part := none }) s)

/-- The trigger that a line pairs with: the one named, or the oldest issued before the first byte (R154). -/
def pairTrig (x : Port) (seq : Option Nat) (tb : Nat) : Option Trig :=
  match seq with
  | some q => x.trigs.find? fun t => decide (t.seq = q)
  | none => x.trigs.find? fun t => decide (t.tb < tb)

/-- A line opens. -/
def openLine (p : Nat) (seq : Option Nat) (s : State) : State :=
  let x := port s p
  let trig := if hbMode s p = 0 then none else pairTrig x seq s.clk.tb
  setPort p { x with
    part := some { trig := trig, firstTb := s.clk.tb, firstNs := s.clk.ns }
    trigs := match trig with
      | some t => x.trigs.filter fun u => !decide (u = t)
      | none => x.trigs } s

/-- Mark the line in progress BAD. -/
def spoilLine (p : Nat) (s : State) : State :=
  updPort p (fun x => { x with part := x.part.map fun l => { l with bad := true } }) s

/-! ### Triggers (R153, R158) -/

/-- The outputs of strobes that follow a headbox's triggers. -/
def strobePins (s : State) (p : Nat) : List Nat :=
  (List.range 48).filter fun n => decide (cf s 0x0C 4 (0x100 + 8 * n) = 4 ∧ cf s 0x0C 4 (0x103 + 8 * n) = p)

/-- A trigger falls due at the headbox. The first TRIG_SEQ is 0, and it goes on over PORT_STOP and PORT_START (DESIGN CHOICE 106:
R153 gives neither). -/
def issueTrigger (p : Nat) (s : State) : State :=
  let x := port s p
  if !x.running || x.cur.isNone then s
  else
    let soon := match x.lastTrigNs with
      | some t => decide (s.clk.ns < t + cf s 0x02 p 0x34)
      | none => false
    if soon then
      let noted := (x.cur.map Stripe.trigSkipNoted).getD true
      let s1 := setPort p { x with trigSkip := satAdd 32 x.trigSkip 1, cur := x.cur.map fun t => { t with trigSkipNoted := true } } s
      if noted then s1 else raise (80 + p) 0x0A x.trigSeq s1
    else
      let t : Trig := ⟨x.trigSeq, s.clk.ns, s.clk.tb⟩
      let out := portOut s p
      let s1 := setPort p { x with trigSeq := (x.trigSeq + 1) % 65536, lastTrigNs := some s.clk.ns
                                   trigs := if out then x.trigs else x.trigs ++ [t] } s
      let s2 := if hbProto s p = 2 then linkPacket p pkTrigger (leBytes 2 t.seq ++ zeros 6 ++ leBytes 8 t.tb) s1
        else emit (.camera p camTrigger [t.seq, t.tb]) (updPort p (fun x => { x with trigOut := x.trigOut + 1 }) s1)
      let s3 := (strobePins s p).foldl (fun s n =>
        { s with afe := { s.afe with strobes := tblSet s.afe.strobes n s.clk.ns } }) s2
      if out then lineCount p { tb := s.clk.tb, start := .trigger } s3 else s3

/-! ### Starting -/

/-- A started headbox begins its first stripe once its link is up and its tables are loaded (R64, R142). -/
def portTryStart (p : Nat) (s : State) : State :=
  let x := port s p
  if x.running ∧ x.waitStart ∧ !x.imageWait ∧ hbUp s p then
    let s1 := setPort p { x with waitStart := false, trigTimerNs := s.clk.ns, trigNext := some (trigAbove s p)
                                 hbNs := s.clk.ns, hbLost := false } s
    beginStripe p (if x.profBlind then
        blindClose p 2 0 (stampMd s p (encE s (hbEnc s p))) (updPort p (fun x => { x with profBlind := false }) s1)
      else s1)
  else s

end Sys2Proof.Machine
end

