-- ==== Sys2Proof/Machine/CouchOps.lean ====
section
/-! DEFINITION. The couch: column maps, cells, gaps, the emission of grid rows, edge blocks and thermal cells
(chapter 11), and the row copies of the history ring (R267, R284). -/

namespace Sys2Proof.Machine

/-! ### Column maps and cells (R231 to R234) -/

/-- RES of a camera port, as the map in force was built from it; EMPTY reads as 0. -/
def residual (s : State) (p x : Nat) : Int :=
  match tblFind s.web.couch.resMap p with
  | some im => toS 16 (u16At im (2 * x))
  | none => 0

/-- CD of an integer pixel in units of 2^−44 of 1/256 µm (R231). -/
def cdAt (s : State) (p : Nat) (x : Nat) : Int :=
  let c (o : Nat) : Int := toS 32 (cpf s p o)
  c 0x0C * 2 ^ 48 + c 0x10 * x * 2 ^ 32 + c 0x14 * (x ^ 2 : Nat) * 2 ^ 16 + c 0x18 * (x ^ 3 : Nat) + residual s p x * 2 ^ 44

/-- The map position between two neighbouring pixels, if the target lies there, in 1/64 pixel. -/
def segPos (x : Nat) (a b t : Int) : Option Nat :=
  if a ≤ t ∧ t ≤ b ∧ a < b then some (64 * x + rhu (64 * (t - a).toNat) (b - a).toNat)
  else if b ≤ t ∧ t ≤ a ∧ b < a then some (64 * x + rhu (64 * (a - t).toNat) (a - b).toNat)
  else none

/-- u_g in 1/64 pixel for a global column (R231). -/
def mapPos (s : State) (p : Nat) (g : Int) : Option Nat :=
  let t := colCentre s g * 2 ^ 44
  let lo := cpf s p 0x20
  let hi := cpf s p 0x22
  if hi ≤ lo then (if cdAt s p lo = t then some (64 * lo) else none)
  else (List.range (hi - lo)).findSome? fun i => segPos (lo + i) (cdAt s p (lo + i)) (cdAt s p (lo + i + 1)) t

/-- The four kernel weights at a fraction f/64, over 524,288 (R232). -/
def kernelW (kernel f : Nat) : List Int :=
  let n : Int := f
  if kernel = 0 then
    [-n ^ 3 + 128 * n ^ 2 - 4096 * n, 3 * n ^ 3 - 320 * n ^ 2 + 524288, -3 * n ^ 3 + 256 * n ^ 2 + 4096 * n, n ^ 3 - 64 * n ^ 2]
  else [0, (64 - n) * 8192, n * 8192, 0]

/-- A tap reflected into PIX_FIRST … PIX_LAST (R232). -/
def tapAt (lo hi : Nat) (x : Int) : Nat :=
  if x < (lo : Int) then (2 * (lo : Int) - x).toNat else if (hi : Int) < x then (2 * (hi : Int) - x).toNat else x.toNat

/-- What a camera port contributes to a row: the sums of its data lines per sample, and their number (R230). -/
structure PortRow where
  port : Nat
  sums : List Nat
  count : Nat
deriving DecidableEq, Repr

/-- The samples that a port gives a column (R232). -/
def portSample (s : State) (c : PortRow) (g : Int) : Option (List Nat) :=
  match mapPos s c.port g with
  | none => none
  | some u =>
    let lo := cpf s c.port 0x20
    let hi := cpf s c.port 0x22
    let ws := kernelW (gKernel s) (u % 64)
    let ns := gSamples s
    some ((List.range ns).map fun i =>
      let term (j : Nat) : Int := ws.getD j 0 * (c.sums.getD (tapAt lo hi (((u / 64 : Nat) : Int) + (j : Int) - 1) * ns + i) 0 : Nat)
      rc' (term 0 + term 1 + term 2 + term 3) (524288 * c.count))
where
  rc' (n : Int) (d : Nat) : Nat := clampU16 (rhuI n d)

/-- A port's weight at a covered column (R233). -/
def portWeight (s : State) (p : Nat) (g : Int) : Nat :=
  let side (d r : Nat) : Nat := if r ≤ d then 256 else 256 * (d + 1) / (r + 1)
  min (side (g - cpf s p 4).toNat (cpf s p 2)) (side (cpf s p 8 - g).toNat (cpf s p 3))

/-- Does a port's coverage hold a column? -/
def covers (s : State) (p : Nat) (g : Int) : Bool := decide ((cpf s p 4 : Int) ≤ g ∧ g ≤ (cpf s p 8 : Int))

/-- What the edge blocks of a row give a local column. -/
def edgeSamples (es : List EdgeBlock) (j : Nat) : List (List Nat × Nat) :=
  es.flatMap fun e => (e.cols.filter fun c => decide (c.1 = j)).map fun c => (c.2.1, c.2.2)

/-- Σ w × v ÷ Σ w per sample, rounded once (R233). -/
def blend (ns : Nat) (xs : List (List Nat × Nat)) : Option (List Nat) :=
  if xs.isEmpty then none
  else some ((List.range ns).map fun i => min 65535 (rhu (xs.map fun x => x.2 * x.1.getD i 0).sum (xs.map Prod.snd).sum))

/-- The cell of a local column (R233, R234). -/
def cellOf (s : State) (cs : List PortRow) (es : List EdgeBlock) (j : Nat) : Option (List Nat) :=
  let g : Int := gBase s + j
  let mine := (cs.filter fun c => covers s c.port g).filterMap fun c => (portSample s c g).map fun v => (v, portWeight s c.port g)
  blend (gSamples s) (mine ++ edgeSamples es j)

/-- Samples of a line in its alignment slot (R237). -/
def lineSamples (s : State) (l : CouchLine) : List Nat :=
  let bs := hbmRead s l.addr l.len
  (List.range (l.len / 2)).map fun i => leNat ((bs.drop (2 * i)).take 2)

/-- A data line is a delivered line without BAD (R230). -/
def isData (l : CouchLine) : Bool := l.data && !bitOf l.flags 2

/-- A port's contribution to a row from the lines held for it. -/
def portRow (s : State) (p : Nat) (ls : List CouchLine) : Option PortRow :=
  let xs := (ls.filter fun l => decide (l.port = p) && isData l).map (lineSamples s)
  match xs with
  | [] => none
  | x :: rest => some ⟨p, rest.foldl (fun a b => List.zipWith (· + ·) a b) x, xs.length⟩

/-! ### The wait set (R236) -/

/-- The contributors that the couch waits for: camera ports, 64 FELT_LO, 65 FELT_HI. -/
def waitSet (s : State) : List Nat :=
  ((List.range 32).filter fun p => cpOn s p && (port s p).running)
    ++ ((List.range 2).filter fun d => decide (gFelt s d ≠ 0xFF) && decide (gCols s ≠ 0)).map (64 + ·)

/-- A contributor. -/
def contrib (s : State) (c : Nat) : Contrib := tblGet {} s.web.couch.contribs c
/-- Change a contributor. -/
def updContrib (c : Nat) (f : Contrib → Contrib) (s : State) : State :=
  couchUpd (fun x => { x with contribs := tblUpd {} x.contribs c f }) s

/-- Has a contributor closed window k? -/
def hasClosed (s : State) (k : Int) (c : Nat) : Bool :=
  match (contrib s c).closed with
  | some m => decide (k ≤ m)
  | none => false

/-- Rows that the couch holds something for. -/
def heldRows (s : State) : List Int :=
  s.web.couch.lines.map CouchLine.row ++ (s.web.couch.edges.filter fun e => !e.cols.isEmpty).map EdgeBlock.row

/-- The least of a list of rows. -/
def leastRow : List Int → Option Int
  | [] => none
  | k :: ks => some (ks.foldl min k)

/-- The next row to emit (R236): the one after the last, or the lowest that holds something. -/
def nextRow (s : State) : Option Int :=
  match s.web.couch.lastRow with
  | some k => some (k + 1)
  | none => leastRow (heldRows s)

/-- Has every contributor that the couch waits for closed window k? With none to wait for, a row that holds something, or
lies below one that does, is complete. -/
def rowComplete (s : State) (k : Int) : Bool :=
  let ws := waitSet s
  if ws.isEmpty then (heldRows s).any fun r => decide (k ≤ r) else ws.all (hasClosed s k)

/-- When the first of the contributors that the couch waits for closed window k. -/
def firstClosed (s : State) (k : Int) : Option Nat :=
  (s.web.couch.firstClose.find? fun x => decide (k ≤ x.2.1) && (waitSet s).contains x.1).map fun x => x.2.2

/-- A contributor has closed every window up to k. -/
def closeUpTo (c : Nat) (k : Int) (s : State) : State :=
  let s1 := updContrib c (fun x => { x with closed := some (match x.closed with
    | some m => max m k
    | none => k) }) s
  if hasClosed s k c then s1 else couchUpd (fun x => { x with firstClose := x.firstClose ++ [(c, k, s.clk.ns)] }) s1

/-! ### Copies in HBM (R267, R284) -/

/-- Bytes of a visible row of the tile source ring. -/
def srcRowBytes (s : State) : Nat := gCols s * gSamples s * 2
/-- The thermal rows that the ring holds. -/
def srcTherm (s : State) : Nat := (mgf s 0x18 + gTherm s - 1) / max 1 (gTherm s) + 1
/-- HBM address of a visible row in the tile source ring. -/
def srcAddr (s : State) (k : Int) : Nat := mgf s 0x10 + (k % (max 1 (mgf s 0x18) : Int)).toNat * srcRowBytes s
/-- HBM address of a thermal row in the tile source ring. -/
def srcThermAddr (s : State) (k : Int) : Nat :=
  mgf s 0x10 + mgf s 0x18 * srcRowBytes s + (k % (max 1 (srcTherm s) : Int)).toNat * gTCols s * 2

/-- Samples of a cell as they are stored: GAP_VALUE for an invalid one. -/
def cellSamples (s : State) (c : Option (List Nat)) : List Nat := c.getD (List.replicate (gSamples s) (gGap s))

/-- A row is added to the stretches of rows emitted. -/
def runsAdd (k : Int) : List (Int × Int) → List (Int × Int)
  | [] => [(k, k)]
  | (a, b) :: rest => if k = b + 1 then (a, k) :: rest else if k ≤ b then [(k, k)] else (k, k) :: (a, b) :: rest

/-- Has one of rows `a … b` been emitted? -/
def meetsRuns (a b : Int) (rs : List (Int × Int)) : Bool := rs.any fun r => decide (a ≤ r.2 ∧ r.1 ≤ b)

/-- Was a row emitted? -/
def inRuns (k : Int) (rs : List (Int × Int)) : Bool := rs.any fun r => decide (r.1 ≤ k ∧ k ≤ r.2)

/-- Of rows `a … b`, has one that was emitted left a ring of `n` rows? -/
def ringLeft (n : Nat) (a b : Int) (rs : List (Int × Int)) : Bool :=
  match rs with
  | [] => false
  | q :: _ => rs.any fun r => decide (max a r.1 ≤ min (min b r.2) (q.2 - (n : Int)))

/-- Copy a visible row (R267). Where there is no ring, it is none of the ring's. -/
def srcCopy (r : GridRow) (s : State) : State :=
  if mgf s 0x10 = 0 then histUpd (fun h => { h with srcOld := runsAdd r.k h.srcOld }) s
  else
    let s1 := hbmWrite (srcAddr s r.k) (r.cells.flatMap fun c => (cellSamples s c).flatMap (leBytes 2)) s
    histUpd (fun h => { h with srcRuns := runsAdd r.k h.srcRuns, srcOld := h.srcOld.filter fun x => decide (x.2 < r.k) }) s1

/-- Copy a thermal row (R267). -/
def srcCopyTherm (k : Int) (cells : List (Nat × Nat)) (s : State) : State :=
  if mgf s 0x10 = 0 then histUpd (fun h => { h with tsrcOld := runsAdd k h.tsrcOld }) s
  else histUpd (fun h => { h with tsrcRuns := runsAdd k h.tsrcRuns, tsrcOld := h.tsrcOld.filter fun x => decide (x.2 < k) })
    (hbmWrite (srcThermAddr s k) ((cells.take (gTCols s)).flatMap fun c => leBytes 2 c.1) s)

/-- Bytes of a view row (R284). -/
def viewRowBytes (s : State) : Nat :=
  let w := gCols s / max 1 (cf s 0x13 0 0x20)
  (32 + w * gSamples s * 2 + (if cf s 0x13 0 0x24 = 1 then gTCols s * 2 else 0) + 63) / 64 * 64

/-- A grid row as the input of a reel. -/
def reelRow (s : State) (r : GridRow) : ReelIn :=
  { idx := r.k, md := rowLo s r.k, samples := r.cells, spp := gSamples s, absent := r.therm.isNone, forced := r.forced }

/-- Column j of a view row. -/
def viewCol (s : State) (rows : List ReelIn) (j : Nat) : Option (List Nat) :=
  let dx := max 1 (cf s 0x13 0 0x20)
  downPx rows (gSamples s) (j * dx) dx

/-- The next of the three steps in which the first waiting view row is written (R284). -/
def viewStep (s : State) : State :=
  match s.web.hist.viewJobs with
  | [] => s
  | j :: rest =>
    let next : List ViewJob := { j with step := j.step + 1 } :: rest
    match j.step with
    | 0 => hbmWrite j.addr (leBytes 8 0x8000000000000000) (histUpd (fun h => { h with viewJobs := next }) s)
    | 1 => hbmWrite (j.addr + 32) j.data (histUpd (fun h => { h with viewJobs := next }) s)
    | _ =>
      let hdr := leBytes 8 (ofS 64 j.row) ++ leBytes 8 (ofS 64 j.md) ++ leBytes 8 s.clk.tb ++ leBytes 2 j.flags ++ zeros 6
      hbmWrite j.addr hdr (histUpd (fun h => { h with viewJobs := rest, view := j.row }) s)

/-- The open view group closes: its row waits to be written (R284; each tick takes one step, DESIGN CHOICE 73). -/
def viewClose (s : State) : State :=
  match s.web.hist.group with
  | [] => s
  | g :: rest =>
    let rows := g :: rest
    let v := viewRowBytes s
    let slots := hsView s / max 1 v
    let dy : Int := max 1 (cf s 0x13 0 0x22)
    let n := g.k / dy
    let s0 := histUpd (fun h => { h with group := [] }) s
    if slots = 0 then s0
    else
      let w := gCols s / max 1 (cf s 0x13 0 0x20)
      let cols := (List.range w).map (viewCol s (rows.map (reelRow s)))
      let gap := cols.any Option.isNone
      let last := (rows.getLast?.getD g).therm
      let therm := if cf s 0x13 0 0x24 = 1 then
          (match last with
            | some t => (t.2.take (gTCols s)).flatMap fun c => leBytes 2 c.1
            | none => zeros (gTCols s * 2))
        else []
      let flags := b2n gap + 2 * b2n (rows.any fun r => r.therm.isNone) + 4 * b2n (rows.any GridRow.forced)
      let body := cols.flatMap (fun c => (c.getD (List.replicate (gSamples s) 0)).flatMap (leBytes 2)) ++ therm
      let job : ViewJob := { addr := hsBase s + (n % (slots : Int)).toNat * v, row := n, md := rowLo s (n * dy), flags := flags
                             data := padTo (v - 32) body }
      histUpd (fun h => { h with viewJobs := h.viewJobs ++ [job] }) s0

/-- A grid row joins its view group. -/
def viewAdd (r : GridRow) (s : State) : State :=
  if hsView s = 0 then s
  else
    let dy : Int := max 1 (cf s 0x13 0 0x22)
    let other := match s.web.hist.group with
      | g :: _ => decide (g.k / dy ≠ r.k / dy)
      | [] => false
    histUpd (fun h => { h with group := h.group ++ [r] }) (if other then viewClose s else s)

/-! ### Gaps (R235) -/

/-- The sources of gaps. -/
def gapSources (s : State) : List Nat :=
  ((List.range 32).filter (cpOn s)) ++ ((List.range 2).filter fun d => decide (gFelt s d ≠ 0xFF)).map (64 + ·)

/-- The global columns that a source covers, clipped to the owned ones. -/
def sourceCols (s : State) (c : Nat) : Int × Int :=
  let lo : Int := gBase s
  let hi : Int := lo + gCols s - 1
  if c < 32 then (max lo (cpf s c 4), min hi (cpf s c 8))
  else if c = 64 then (lo, min hi (lo + gEdge s - 1)) else (max lo (hi - gEdge s + 1), hi)

/-- Has the row an invalid cell in a column that the source covers? -/
def invalidIn (s : State) (cells : List (Option (List Nat))) (c : Nat) : Bool :=
  let (a, b) := sourceCols s c
  ((cells.drop (a - gBase s).toNat).take (b - a + 1).toNat).any Option.isNone

/-- The gap of one source at a row: `data` and `any` say what it contributed. -/
def gapStep (k : Int) (cells : List (Option (List Nat))) (src : Nat) (data any : Bool) (s : State) : State :=
  let x := contrib s src
  if data then
    match x.gap with
    | some (a, b) =>
      let s1 := updContrib src (fun y => { y with gap := none }) s
      blindWhole 1 src 3 (rowLo s a) (rowHi s b) (couchUpd (fun c => { c with gaps := satAdd 32 c.gaps 1 }) s1)
    | none => s
  else if !any ∧ invalidIn s cells src ∧ !(decide (src < 32) && (port s src).profBlind) then
    updContrib src (fun y => { y with gap := some ((y.gap.map Prod.fst).getD k, k) }) s
  else s

/-! ### Emission (R236, R241) -/

/-- Does a dryer port of the thermal layer run? -/
def thermOn (s : State) : Bool := (List.range 4).any fun p => dpOn s p && (dry s p).running

/-- The thermal row carried with a visible row (R241). -/
def thermFor (s : State) (k : Int) : Option (Int × List (Nat × Nat)) :=
  s.web.couch.thermRows.find? fun t => decide (t.1 = k / (max 1 (gTherm s) : Int))

/-- The transitions of THERM_ABSENT (R241, R246). -/
def thermFlag (k : Int) (absent : Bool) (s : State) : State :=
  let was := s.web.couch.absent
  let first := !s.web.couch.rowOut
  let s1 := couchUpd (fun c => { c with absent := absent, thAbsent := if absent then satAdd 32 c.thAbsent 1 else c.thAbsent }) s
  if absent ∧ !was ∧ !first ∧ thermOn s then raise 334 0x03 (ofS 32 (k / (max 1 (gTherm s) : Int))) s1
  else if !absent ∧ was then raise 334 0x04 0 s1
  else s1

/-- A row is forced for a felt side (R246, SEAM_LOST). -/
def seamForced (k : Int) (d : Nat) (s : State) : State :=
  if gFelt s d ≠ 0xFF ∧ !hasClosed s k (64 + d) ∧ (contrib s (64 + d)).seamLive then
    raise 334 0x06 d (updContrib (64 + d) (fun x => { x with seamLive := false, seamBad := true }) s)
  else s

/-- Why a row is emitted: complete, forced by ROW_TIMEOUT, or forced under R237 for a port. -/
inductive EmitWhy where
  | complete
  | timeout
  | full (p : Nat)
deriving DecidableEq, Repr

/-- The counters and events of a forced row (R246). -/
def forcedEvents (k : Int) (why : EmitWhy) (s : State) : State :=
  let c := s.web.couch
  match why with
  | .complete => couchUpd (fun c => { c with wasForced := false, wasFull := false }) s
  | .timeout =>
    let missing := ((waitSet s).find? fun x => !hasClosed s k x).getD 0
    let s1 := couchUpd (fun c => { c with forced := satAdd 32 c.forced 1, wasForced := true, wasFull := false }) s
    let s2 := if !c.wasForced ∧ c.rowOut then raise 334 0x01 missing s1 else s1
    seamForced k 1 (seamForced k 0 s2)
  | .full p =>
    let s1 := couchUpd (fun c => { c with full := satAdd 32 c.full 1, wasFull := true }) s
    let s2 := if !c.wasFull ∧ c.rowOut then raise 334 0x02 p s1 else s1
    seamForced k 1 (seamForced k 0 s2)

/-- Slices with ENABLE 1. -/
def slicesOn (s : State) : List Nat := (List.range 8).filter fun i => decide (cf s 0x07 i 0 = 1)

/-- The window of a reel, false-coloured for SOURCE 3. -/
def reelSource3 (s : State) (r : Nat) (row : GridRow) : ReelIn :=
  let q := reelRow s row
  let t (j : Nat) : Nat := match row.therm with
    | some x => (x.2.getD (tcOf s j) (0, 0)).1
    | none => 0
  { q with spp := 3, samples := (List.range q.samples.length).zipWith (fun j c => c.map fun v => falseColour s r v (t j) row.therm.isNone) q.samples }

/-- A grid row reaches the reels of SOURCE 1 and 3, which first bring into force what waits for a row built only from
stripes begun after T_v (R283). -/
def reelsGrid (row : GridRow) (s : State) : State :=
  let s1 := (reelsOf s 1 ++ reelsOf s 3).foldl (fun s r => reelBoundary r (some row.minTb) s) s
  let s2 := (reelsOf s1 1).foldl (fun s r => reelPush r (reelRow s row) s) s1
  (reelsOf s2 3).foldl (fun s r => reelPush r (reelSource3 s r row) s) s2

/-- The columns of a port in a neighbour's range. -/
def seamCols (s : State) (p d : Nat) : List Int :=
  let a : Int := cpf s p 4
  let b : Int := cpf s p 8
  let lo : Int := gBase s
  let hi : Int := lo + gCols s - 1
  let (x, y) := if d = 0 then (a, min b (lo - 1)) else (max a (hi + 1), b)
  (List.range (y - x + 1).toNat).map fun (i : Nat) => x + (i : Int)

/-- What a port gives the neighbour of a side: samples and weight of each column that it covers there (R242). -/
def seamCells (s : State) (c : PortRow) (d : Nat) : List (Int × List Nat × Nat) :=
  (seamCols s c.port d).filterMap fun g => (portSample s c g).map fun v => (g, v, portWeight s c.port g)

/-- The couch emits row k. -/
def emitRow (k : Int) (why : EmitWhy) (s : State) : State :=
  let c := s.web.couch
  let held := c.lines.filter fun l => decide (l.row = k) && cpOn s l.port
  let es := c.edges.filter fun e => decide (e.row = k)
  let prs := (List.range 32).filterMap fun p => portRow s p held
  let cells := (List.range (gCols s)).map (cellOf s prs es)
  let rowMin := leastNat (held.map CouchLine.stripeTb)
  let minTb := match rowMin with
    | some t => max c.minTb t
    | none => c.minTb
  let therm := thermFor s k
  let s1 := (gapSources s).foldl (fun s src =>
    let data := if src < 32 then prs.any fun r => decide (r.port = src) else es.any fun e => decide (e.side = src - 64) && !e.cols.isEmpty
    let any := decide (src < 32) && held.any fun l => decide (l.port = src) && !l.data
    gapStep k cells src data any s) s
  let s2 := thermFlag k therm.isNone (forcedEvents k why s1)
  let row : GridRow := { k := k, cells := cells, forced := decide (why ≠ .complete), therm := therm, reproc := none
                         todo := slicesOn s2, ns := s.clk.ns, minTb := minTb }
  let keep := (List.range 32).filterMap fun p =>
    if hasClosed s k p ∨ ((seamCols s p 0).isEmpty ∧ (seamCols s p 1).isEmpty) then none
    else (prs.find? fun r => decide (r.port = p)).map fun r => (⟨p, k, seamCells s r 0, seamCells s r 1⟩ : KeptRow)
  let s3 := couchUpd (fun c => { c with
    kept := c.kept ++ keep
    lines := c.lines.filter fun l => decide (k < l.row)
    edges := c.edges.filter fun e => decide (k < e.row)
    firstClose := c.firstClose.filter fun x => decide (k < x.2.1)
    lastRow := some k, minTb := minTb, rowOut := true, row := k
    seamLo := es.any fun e => decide (e.side = 0), seamHi := es.any fun e => decide (e.side = 1)
    thermRows := c.thermRows.filter fun t => decide (k / (max 1 (gTherm s) : Int) ≤ t.1) }) s2
  let s4 := if row.todo.isEmpty then s3 else knotUpd (fun x => { x with rows := x.rows ++ [row] }) s3
  reelsGrid row (viewAdd row (srcCopy row (blindRow (rowLo s k) (passTokens 9 (gCols s) s4))))
where
  leastNat : List Nat → Option Nat
    | [] => none
    | t :: ts => some (ts.foldl min t)

/-- The least stripe start behind the lines held for a row. -/
def rowMinTb (s : State) (k : Int) : Nat :=
  match emitRow.leastNat (((s.web.couch.lines.filter fun l => decide (l.row = k)).map CouchLine.stripeTb)) with
  | some t => max s.web.couch.minTb t
  | none => s.web.couch.minTb

/-- The couch boundary that row k passes (R245), as built from what is held for it. -/
def rowBoundary (k : Int) (s : State) : State := couchTake (some (rowMinTb s k)) s

/-- The least stripe start among what a port has still to deliver. -/
def portOldest (s : State) (p : Nat) : Option Nat :=
  let x := port s p
  emitRow.leastNat (x.pipe.map Item.stripeTb ++ (x.cur.toList.map Stripe.beginTb))

/-- The boundary of row k while ports that have not closed its window may still add to it: their stripes in progress count. -/
def rowBoundaryOpen (k : Int) (s : State) : State :=
  let late := (List.range 32).filterMap fun p => if cpOn s p && (port s p).running && !hasClosed s k p then portOldest s p else none
  couchTake (some (late.foldl min (rowMinTb s k))) s

/-! ### Alignment (R237) -/

/-- Bytes of an alignment slot of a port. -/
def alignSlot (s : State) (p : Nat) : Nat := hbPixels s p * gSamples s * 2
/-- Bytes of its partition. -/
def alignPart (s : State) (p : Nat) : Nat := (cpf s p 0x1C * alignSlot s p + 4095) / 4096 * 4096
/-- The couch fields by which a port's lines are aligned: those in force, or those with which its ENABLE 1 is still to come into
force (R245). -/
def alignView (s : State) (p : Nat) : State := if cpOn s p then s else couchLaid none s
/-- HBM address of a port's partition. -/
def alignBase (v : State) (p : Nat) : Nat := cf v 0x06 0 0x28 + (((List.range p).filter (cpWant v)).map (alignPart v)).sum
/-- The next free slot of a port's partition for a line of `bytes`: its own LINE_PIXELS lays the slots out (R44). No line that
the couch holds has a byte in it, also where the partitions have moved since that line was taken. -/
def alignFree (s : State) (p bytes : Nat) : Option Nat :=
  let v := alignView s p
  let used := (s.web.couch.lines.filter CouchLine.data).map fun l => (l.addr, l.len)
  ((List.range (cpf v p 0x1C)).map fun i => alignBase v p + i * bytes).find? fun a => !used.any (stretchMeets (a, bytes))

/-- Emit rows that wait only on contributors until a slot of the port is free (R237). -/
def makeRoom (p bytes : Nat) : Nat → State → State
  | 0, s => s
  | n + 1, s =>
    if (alignFree s p bytes).isSome then s
    else match nextRow s with
      | none => s
      | some k => if rowComplete (rowBoundaryOpen k s) k then s else makeRoom p bytes n (emitRow k (.full p) (rowBoundary k s))

/-- How many rows the couch may have to force for a port. -/
def roomFuel (s : State) : Nat :=
  match leastRow (heldRows s), nextRow s with
  | some _, some k => ((heldRows s).foldl max k - k).toNat + 1
  | _, _ => 0

/-- Has the row been emitted already? -/
def lineLate (s : State) (row : Int) : Bool := match s.web.couch.lastRow with
  | some k => decide (row ≤ k)
  | none => false

/-! ### Edge blocks (R242) -/

/-- The encoder byte of the grid descriptor. -/
def encByte (s : State) : Nat :=
  let e := cf s 0x06 0 0x14
  if e = 0xFF ∨ (shareSrc s ≠ 0xFF ∧ e = encMeant s 0xFF) then 0xFF else 0x80 + s.chain.devId

/-- The grid descriptor (R242). -/
def gridDescriptor (s : State) : Nat :=
  crc32 (leBytes 4 (gPitch s) ++ leBytes 4 (ofS 32 (gCd0 s)) ++ leBytes 4 (gMdPitch s) ++ leBytes 8 (ofS 64 (gMdPhase s))
    ++ leBytes 1 (gSamples s) ++ leBytes 1 (encByte s) ++ zeros 2)

/-- An edge block: descriptor, row, columns (DESIGN CHOICE 24 for the order of its bytes). -/
def edgePayload (s : State) (row : Int) (cols : List (Int × List Nat × Nat)) : List Byte :=
  leBytes 4 (gridDescriptor s) ++ leBytes 8 (ofS 64 row) ++ leBytes 2 cols.length
    ++ cols.flatMap fun c => leBytes 4 c.1.toNat ++ c.2.1.flatMap (leBytes 2) ++ leBytes 2 c.2.2

/-- A neighbour's packet on a felt port (Table 21.3). -/
def feltNeighbour (k ptype : Nat) (payload : List Byte) (s : State) : State :=
  if feltUsable s k then feltOn k ⟨0xFF, s.chain.devId, 32, ptype, payload⟩ s else s

/-- The couch as row k sees it (R245): with the groups handed over before every stripe that the row is built from, as far as
they have begun when port p closes the row's window. -/
def rowView (p : Nat) (k : Int) (s : State) : State :=
  let late := (List.range 32).filterMap fun q =>
    if q ≠ p ∧ cpOn s q ∧ (port s q).running ∧ !hasClosed s k q then portOldest s q else none
  couchLaid (some (late.foldl min (rowMinTb s k))) s

/-- The block of one window of a port for one side, under the fields in force for its row. -/
def edgeSend (p d : Nat) (row : Int) (s : State) : State :=
  let v := rowView p row s
  if gFelt v d = 0xFF ∨ !cpOn v p ∨ (seamCols v p d).isEmpty then s
  else
    let body := match s.web.couch.kept.find? fun r => decide (r.port = p ∧ r.row = row) with
      | some r => if d = 0 then r.lo else r.hi
      | none => ((portRow v p (s.web.couch.lines.filter fun l => decide (l.row = row))).map fun c => seamCells v c d).getD []
    feltNeighbour (gFelt v d) 0x13 (edgePayload v row body) s

/-- A port closes its windows up to k: edge blocks, then the closing (R230, R242). -/
def portCloses (p : Nat) (k : Int) (s : State) : State :=
  let from_ := match (contrib s p).closed with
    | some m => some (m + 1)
    | none => leastRow (((s.web.couch.lines.filter fun (l : CouchLine) => decide (l.port = p)).map CouchLine.row)
        ++ (s.web.couch.kept.filter fun (r : KeptRow) => decide (r.port = p)).map KeptRow.row)
  let s1 := match from_ with
    | some a => (List.range (k - a + 1).toNat).foldl (fun s (i : Nat) => edgeSend p 1 (a + (i : Int)) (edgeSend p 0 (a + (i : Int)) s)) s
    | none => s
  closeUpTo p k (couchUpd (fun c => { c with kept := c.kept.filter fun r => decide (r.port ≠ p) || decide (k < r.row) }) s1)

/-! ### The thermal layer (R238 to R240) -/

/-- The oldest open thermal row. -/
def thermOldest (s : State) : Option Int :=
  match s.web.couch.thermLast with
  | some k => some (k + 1)
  | none => leastRow (s.web.couch.therm.map Prod.fst)

/-- A thermal cell takes a pixel of a frame of sync `tb` (R239). -/
def thermAdd (row : Int) (col v flags tb : Nat) (s : State) : State :=
  couchUpd (fun c =>
    let cell (t : Tbl ThermCell) : Tbl ThermCell := tblUpd {} t col fun x =>
      if 65535 ≤ x.count then x else { count := x.count + 1, sum := x.sum + v, flags := x.flags ||| flags }
    let tbs := if c.thermTb.any fun r => decide (r.1 = row) then c.thermTb.map fun r => if r.1 = row then (r.1, min r.2 tb) else r
      else c.thermTb ++ [(row, tb)]
    if c.therm.any fun r => decide (r.1 = row) then
      { c with therm := c.therm.map (fun r => if r.1 = row then (r.1, cell r.2) else r), thermTb := tbs }
    else { c with therm := c.therm ++ [(row, cell [])], thermTb := tbs }) s

/-- A pixel is discarded outside the thermal layer. -/
def thermOutside (s : State) : State := couchUpd (fun c => { c with thOutside := satAdd 32 c.thOutside 1 }) s

/-- Column and thermal row of a pixel stamped `md` (R238). -/
def thermPlace (s : State) (p x y : Nat) (md : Int) : Option (Int × Int) :=
  (homogPos s p x y).map fun (cd, dn) =>
    let pt : Int := max 1 (gPitch s)
    ((2 * (16 * cd - 16 * gCd0 s) + pt) / (2 * pt), rowOf s (md - dn) / (max 1 (gTherm s) : Int))

/-- A pixel with its place in the thermal layer (R239). -/
def thermPut (g row : Int) (v flags tb : Nat) (s : State) : State :=
  let outside := decide (g < (gBase s : Int)) || decide ((gBase s : Int) + gCols s ≤ g)
  let far := match thermOldest s with
    | some k => decide (k + cf s 0x06 0 0x40 ≤ row)
    | none => false
  let late := match s.web.couch.thermLast with
    | some k => decide (row ≤ k)
    | none => false
  if outside then thermOutside s
  else if late then couchUpd (fun c => { c with thLate := satAdd 32 c.thLate 1 }) s
  else if far then thermOutside s
  else thermAdd row (tcOf s (g - gBase s).toNat) v flags tb s

/-- A valid pixel of a dryer port is mapped under the fields of the thermal row that it falls in, the newest first; one that
falls in no row under the fields of that row is outside (R238, R245, DEDUCED 70). -/
def thermPixel (views : List DryView) (p x y v : Nat) (md : Int) (flags tb : Nat) (s : State) : State :=
  let here (w : DryView) : Option (Bool × Int × Int) :=
    (thermPlace w.state p x y md).bind fun c => if w.has c.2 then some (dpOn w.state p, c) else none
  match views.reverse.findSome? here with
  | none => if views.any fun w => dpOn w.state p then thermOutside s else s
  | some (on, g, row) => if on then thermPut g row v flags tb s else s

/-- v_max of a dryer port (R240). -/
def vMax (s : State) (p : Nat) : Int :=
  match (dpCorners s p).filterMap fun c => (homogPos s p c.1 c.2).map Prod.snd with
  | [] => 0
  | v :: vs => vs.foldl max v

/-- The highest thermal row whose upper MD edge lies at or below L (R240): m + MD_PITCH ÷ 2 ≤ L for its last grid row. -/
def thermUpTo (s : State) (p : Nat) (leastStamp : Int) : Int :=
  let l := leastStamp - vMax s p
  let tm : Int := max 1 (gTherm s)
  let pt : Int := max 1 (gMdPitch s)
  ((2 * (l - gMdPhase s) - pt) / (2 * pt) + 1) / tm - 1

/-- How far a port closes under its views, the oldest first: past the rows of one view only when it has closed them all, or
is not in the wait for them. -/
def thermReach (p : Nat) (leastStamp : Int) : List DryView → Option Int
  | [] => none
  | w :: ws =>
    let k := if dpOn w.state p then some (thermUpTo w.state p leastStamp) else none
    match w.hi with
    | none => k
    | some b =>
      if k.all fun x => decide (b - 1 ≤ x) then some (match thermReach p leastStamp ws with
        | some x => max x (b - 1)
        | none => b - 1)
      else k

/-- After a frame, the port closes thermal rows up to k (R240). -/
def thermClose (p : Nat) (k : Int) (s : State) : State :=
  couchUpd (fun c =>
    let old := tblFind c.thermClosed p
    let k' := match old with
      | some m => max m k
      | none => k
    let newer := c.thermFirst.getLast?.all fun x => decide (x.1 < k)
    { c with thermClosed := tblSet c.thermClosed p k'
             thermFirst := if newer then c.thermFirst ++ [(k, s.clk.ns)] else c.thermFirst }) s

/-- A thermal row as it is emitted: value and flags of each thermal column. -/
def thermCells (s : State) (k : Int) : List (Nat × Nat) :=
  let t : Tbl ThermCell := ((s.web.couch.therm.find? fun r => decide (r.1 = k)).map Prod.snd).getD []
  (List.range (gTCells s)).map fun j =>
    let c := tblGet {} t j
    (rhu c.sum c.count, c.flags)

/-- The couch emits a thermal row (R240, R275). -/
def emitTherm (k : Int) (s : State) : State :=
  let cells := thermCells s k
  let s1 := couchUpd (fun c => { c with
    therm := c.therm.filter fun r => decide (k < r.1)
    thermTb := c.thermTb.filter fun r => decide (k < r.1)
    thermRows := (k, cells) :: c.thermRows
    thermFirst := c.thermFirst.filter fun x => decide (k < x.1)
    thermLast := some k, trow := k }) s
  let q (s : State) : ReelIn := { idx := k, md := rowLo s (k * (max 1 (gTherm s) : Int))
                                  samples := (cells.take (gTCols s)).map fun c => if c.1 = 0 then none else some [c.1] }
  let s2 := srcCopyTherm k cells s1
  let s3 := (reelsOf s2 2).foldl (fun s r => reelBoundary r (some s.web.couch.minTb) s) s2
  (List.range 4).foldl (fun s p => couchDryerReach p s) ((reelsOf s3 2).foldl (fun s r => reelPush r (q s) s) s3)

end Sys2Proof.Machine
end

