-- ==== Sys2Proof/Machine/LinkOps.lean ====
section
/-! DEFINITION. The Brynlink link state machine of Table 7.6, for headboxes (0 to 31) and felt ports (64 to 67)
(R149 to R152, R406). -/

namespace Sys2Proof.Machine

/-- The least width: 1, or MIN_WIDTH (R406). -/
def linkMin (s : State) (r : Nat) : Nat := if r < 32 then 1 else cf s 0x11 (r - 64) 1
/-- May the link narrow: DEGRADE_OK, and always on felt (R152, R406). -/
def linkNarrows (s : State) (r : Nat) : Bool := if r < 32 then decide (cf s 0x02 r 0x26 = 1) else true
/-- The link runs: a started Brynlink headbox, or a felt port with ENABLE 1. A link that is up stays up when its
headbox stops. -/
def linkOn (s : State) (r : Nat) : Bool :=
  if r < 32 then decide (hbProto s r = 2) && ((port s r).running || decide ((port s r).link.st ≠ 0)) else decide (cf s 0x11 (r - 64) 0 = 1)
/-- A lane in a position is locked (R130). -/
def posLocked (s : State) (r pos : Nat) : Bool :=
  (linkLanes s r).any fun n => laneLocked s n && decide ((lane s n).position = pos)
/-- An aligned group of positions is wholly locked. -/
def groupLocked (s : State) (r off w : Nat) : Bool := (List.range w).all fun i => posLocked s r (off + i)
/-- The lowest aligned group of `w` positions that is wholly locked. -/
def groupOf (s : State) (r w : Nat) : Option Nat :=
  ((List.range (linkFull s r / max 1 w)).map fun i => i * w).find? fun off => groupLocked s r off w
/-- The largest power-of-two width at most `w`, not below the least, with a locked group (R152, R406). -/
def widestGroup (s : State) (r w : Nat) : Option (Nat × Nat) :=
  ([8, 4, 2, 1].filter fun v => decide (v ≤ w ∧ linkMin s r ≤ v)).findSome? fun v => (groupOf s r v).map fun off => (v, off)

/-- LANE_MASK of a width and offset. -/
def laneMask (w off : Nat) : Nat := (2 ^ w - 1) * 2 ^ off

/-- The width and offset that a link trains at: those it has, or before the first training all its lanes. -/
def linkGroup (s : State) (r : Nat) : Nat × Nat :=
  let l := link s r
  if l.widthNow = 0 then (linkFull s r, 0) else (l.widthNow, l.laneOff)

/-- TRAIN blocks go out on every lane of LANE_MASK in DOWN, TRAIN, DESKEW and RECOVERY (R151): one set stands in the log for
the stream of them, which lasts while the state does. -/
def sendTrain (r : Nat) (s : State) : State :=
  let st := (link s r).st
  let (w, off) := linkGroup s r
  if linkOn s r ∧ (st = 0 ∨ st = 1 ∨ st = 2 ∨ st = 5) then
    sendBlocks r off false ((List.range w).map fun i => [trainBlock (off + i) w st (laneMask w off)]) s
  else s

/-- The line in progress of a headbox whose link has gone out is dropped (R158, R162). -/
def linkOut (r : Nat) (s : State) : State :=
  if r < 32 ∧ portOut s r then dropPartial r s else s

/-- LINK_STATE is raised on each change of LINK (Table 7.11, Table 21.5). -/
def linkRaise (r : Nat) (s : State) : State :=
  let l := link s r
  let d := l.st + at' 4 l.widthNow
  if r < 32 then raise (80 + r) 0x03 d s else raise (330 + (r - 64)) 0x01 d s

/-- The link enters a state. -/
def linkTo (r st : Nat) (s : State) : State :=
  let l := link s r
  let s1 := setLink r { l with st := st, ns := s.clk.ns, amCount := none, amAligned := 0 } s
  linkOut r (sendTrain r (if l.st = st then s1 else linkRaise r s1))

/-- Is the order of a link's locked lanes at fault: two in one position, or one outside the port's width (R130)? -/
def orderBad (s : State) (r : Nat) : Bool :=
  let ps := ((linkLanes s r).filter fun n => laneLocked s n).map fun n => (lane s n).position
  ps.any fun x => decide (linkFull s r ≤ x) || decide (1 < ps.countP fun y => y == x)

/-- Leaving DOWN: every lane of LANE_MASK is locked, in an order that is valid (R130). A felt port trains at the widest
locked group (R406). -/
def linkPoll (r : Nat) (s : State) : State :=
  let l := link s r
  let all := groupLocked s r 0 (linkFull s r)
  let s1 := setLink r { l with fullSince := if all then (if l.fullSince.isSome then l.fullSince else some s.clk.ns) else none } s
  if l.st = 0 ∧ linkOn s r ∧ !orderBad s r then
    if r < 32 then
      let (w, off) := linkGroup s r
      if groupLocked s r off w then
        linkTo r 1 (setLink r { link s1 r with widthNow := w, laneOff := off, amNext := 100 * s.clk.ns + 4194304 } s1)
      else s1
    else match widestGroup s r 4 with
      | some (w, off) => linkTo r 1 (setLink r { link s1 r with widthNow := w, laneOff := off, amNext := 100 * s.clk.ns + 4194304 } s1)
      | none => s1
  else s1

/-- The link enters ACTIVE: counts reset, credits are granted (R148, R149, R412). A felt link that returns may give
shorter routes. -/
def linkActive (r : Nat) (s : State) : State :=
  let g := if r < 32 then 256 else 1024
  let s1 := linkTo r 3 s
  let s2 := setLink r { link s1 r with freed := 0, freedNs := 0, granted := g, usedIn := 0, credit := 0, grantIn := 0
                                       prev := none, reqWidth := none, txSeq := 0, txAt := 0 } s1
  if r < 32 then portTryStart r (linkPacket r pkCredit (leBytes 4 g) (updPort r (fun x => { x with rxSeq := 0 }) s2))
  else linkNotice (r - 64) true (recompute (linkPacket r pkCredit (leBytes 4 g) s2))

/-- WIDTH and LANE_MASK of a width request or its echo (Table 7.5). -/
def widthPayload (w mask : Nat) : List Byte := leBytes 1 w ++ leBytes 1 mask ++ zeros 6

/-- A request for another width: the WIDTH_REQ goes out on the lanes that stay (R152). -/
def linkRequest (r w off : Nat) (s : State) : State :=
  let l := link s r
  let (o, v) := if w < l.widthNow then (off, w) else (l.laneOff, l.widthNow)
  let s1 := linkPacketOn r o v pkWidth (widthPayload w (laneMask w off)) s
  let s2 := linkTo r 4 s1
  setLink r { link s2 r with reqWidth := some w, reqOff := off } s2

/-- An ACTIVE link meets a fault: a lane unlock may lead to DEGRADE, every other fault to RECOVERY. -/
def linkFault (r : Nat) (unlock : Bool) (s : State) : State :=
  let l := link s r
  if l.st ≠ 3 then s
  else match (if unlock ∧ linkNarrows s r then widestGroup s r (l.widthNow / 2) else none) with
    | some (w, off) => if w = 0 then linkTo r 5 s else linkRequest r w off s
    | none => linkTo r 5 s

/-- A lane of the link has left state 6: a lane in use is a fault of the link. -/
def linkLaneLost (r n pos : Nat) (s : State) : State :=
  let l := link s r
  let s1 := setLink r { l with fullSince := none } s
  if (linkLanes s r).contains n ∧ l.laneOff ≤ pos ∧ pos < l.laneOff + l.widthNow then linkFault r true s1 else s1

/-- Is there, for every lane in use, a valid TRAIN block with the width and mask of the link, from a sender in TRAIN or
beyond (Table 7.6)? -/
def trainSet (l : Link) (bs : List (List Byte)) : Bool :=
  (List.range l.widthNow).all fun i => bs.any fun b => match readTrain b with
    | some (id, w, st, mask) => decide (id = l.laneOff + i ∧ w = l.widthNow ∧ mask = laneMask l.widthNow l.laneOff ∧ 1 ≤ st)
    | none => false

/-- TRAIN blocks arrive on the lanes. -/
def linkTrain (r : Nat) (bs : List (List Byte)) (s : State) : State :=
  let l := link s r
  if l.st = 1 ∧ trainSet l bs ∧ groupLocked s r l.laneOff l.widthNow then linkTo r 2 s else s

/-- The AM_COUNT of a set of AM blocks: a valid one for every lane in use, all of one count (R150). -/
def amSet (l : Link) (bs : List (List Byte)) : Option Nat :=
  match bs.findSome? readAm with
  | some (_, c) =>
    if (List.range l.widthNow).all fun i => bs.any fun b => decide (readAm b = some (l.laneOff + i, c)) then some c else none
  | none => none

/-- An AM set arrives with its skew in blocks. -/
def linkAm (r : Nat) (bs : List (List Byte)) (skew : Nat) (s : State) : State :=
  let l := link s r
  let count := (amSet l bs).getD 0
  let good := (amSet l bs).isSome && decide (skew ≤ 32)
  if l.st = 2 then
    if !good then setLink r { l with amCount := none } s
    else match l.amCount with
      | some c => if count = (c + 1) % 2 ^ 32 then linkActive r s else setLink r { l with amCount := some count } s
      | none => setLink r { l with amCount := some count } s
  else if l.st = 3 then (if good then setLink r { l with amCount := some count } s else linkFault r false s)
  else s

/-- The interval for the next AM block has passed: 16,384 blocks, 41,943.04 ns (R150). None goes out in DOWN, and the first one
interval after the link has left DOWN (DESIGN CHOICE 108: R150 gives no start). -/
def linkAmSend (r : Nat) (s : State) : State :=
  let l := link s r
  if l.st ≠ 0 ∧ l.amNext ≤ 100 * s.clk.ns then
    let w := l.widthNow
    let j := (max l.txAt (w * ((s.clk.ns - l.ns) * 25 / 64)) + w - 1) / max 1 w * w
    sendBlocks r l.laneOff (decide (0 < l.txAt ∧ j = l.txAt)) ((List.range w).map fun i => [amBlock (l.laneOff + i) l.amSent])
      (setLink r { l with amSent := (l.amSent + 1) % 2 ^ 32, amNext := l.amNext + 4194304, txAt := j + w } s)
  else s

/-- WIDTH_ACK: the request is echoed and the link retrains at the new width. -/
def linkWidthAck (r w mask : Nat) (s : State) : State :=
  let l := link s r
  if l.st = 4 ∧ l.reqWidth = some w ∧ mask = laneMask w l.reqOff then
    linkTo r 1 (setLink r { l with prev := if l.widthNow < w then some (l.widthNow, l.laneOff) else none
                                   widthNow := w, laneOff := l.reqOff, reqWidth := none } s)
  else s

/-- 100 µs in TRAIN, DESKEW or DEGRADE: RECOVERY. A failed request for the full width falls back to the width the link
had, and is repeated 10 s later (R152). -/
def linkTimeout (r : Nat) (s : State) : State :=
  let l := link s r
  if (l.st = 1 ∨ l.st = 2 ∨ l.st = 4) ∧ l.ns + us 100 ≤ s.clk.ns then
    let wider : Bool := match l.reqWidth with
      | some w => decide (l.st = 4 ∧ l.widthNow < w)
      | none => false
    let l1 := match l.prev with
      | some (w, off) => { l with widthNow := w, laneOff := off, prev := none, fullFailNs := some s.clk.ns, reqWidth := none }
      | none => { l with reqWidth := none, fullFailNs := if wider then some s.clk.ns else l.fullFailNs }
    linkTo r 5 (setLink r l1 s)
  else s

/-- 10 µs in RECOVERY: DOWN. -/
def linkRecovered (r : Nat) (s : State) : State :=
  let l := link s r
  if l.st = 5 ∧ l.ns + us 10 ≤ s.clk.ns then linkPoll r (linkTo r 0 s) else s

/-- A narrowed link requests its full width (R152). -/
def linkFullWidth (r : Nat) (s : State) : State :=
  let l := link s r
  let since : Bool := match l.fullSince with
    | some t => decide (t + sec 1 ≤ s.clk.ns)
    | none => false
  let again : Bool := match l.fullFailNs with
    | some t => decide (t + sec 10 ≤ s.clk.ns)
    | none => true
  if l.st = 3 ∧ l.widthNow < linkFull s r ∧ since ∧ again then linkRequest r (linkFull s r) 0 s else s

/-- A felt port receives WIDTH_REQ: it echoes WIDTH_ACK and retrains at the new width (R406). -/
def linkWidthReq (r w mask : Nat) (s : State) : State :=
  let l := link s r
  let off := (List.range 4).find? fun o => decide (mask = laneMask w o ∧ o % max 1 w = 0)
  match off with
  | some o =>
    if l.st = 3 ∧ [1, 2, 4].contains w ∧ linkMin s r ≤ w ∧ o + w ≤ 4 then
      let s1 := linkPacketOn r o w pkWidthAck (widthPayload w mask) s
      linkTo r 1 (setLink r { link s1 r with widthNow := w, laneOff := o } s1)
    else s
  | none => s

/-- Credits of a packet of `len` payload bytes (R149). -/
def pktCredits (len : Nat) : Nat := (len + 16 + 255) / 256

/-- CREDIT is due: 16 credits freed, or 1 µs after the first (R149). -/
def linkCredit (r : Nat) (s : State) : State :=
  let l := link s r
  if l.st = 3 ∧ l.freed ≠ 0 ∧ (16 ≤ l.freed ∨ l.freedNs + us 1 ≤ s.clk.ns) then
    let g := (l.granted + l.freed) % 2 ^ 32
    linkPacket r pkCredit (leBytes 4 g) (setLink r { l with granted := g, freed := 0 } s)
  else s

/-- A packet has been moved out of the receive buffer: its credits are free. -/
def linkFree (r len : Nat) (s : State) : State :=
  let l := link s r
  setLink r { l with usedIn := (l.usedIn + pktCredits len) % 2 ^ 32, freed := l.freed + pktCredits len
                     freedNs := if l.freed = 0 then s.clk.ns else l.freedNs } s

/-- Does a packet exceed the credits granted? -/
def linkOver (s : State) (r len : Nat) : Bool :=
  let l := link s r
  decide ((l.granted + 2 ^ 32 - l.usedIn) % 2 ^ 32 < pktCredits len)

/-- A packet comes from the neighbour on a felt port: it is taken while the link is ACTIVE and its sender keeps to the credits
granted (R149), and its credits are free. That its framing was right is told by its row (DESIGN CHOICE 102). -/
def fromNb (k len : Nat) (act : State → State) (s : State) : State :=
  if (feltPort s k).link.st = 3 ∧ linkOver s (64 + k) (4 + len) = false then act (linkFree (64 + k) (4 + len) s) else s

/-- As `fromNb`, on a port that carries chain traffic (R406, R408); on another the packet is discarded, and its credits are free. -/
def fromUsable (k len : Nat) (act : State → State) (s : State) : State :=
  fromNb k len (fun s => if feltUsable s k then act s else s) s

/-- ENABLE or MIN_WIDTH of a felt port has come into force (R407): its link, where DOWN, sends TRAIN blocks and may train. -/
def feltCommit (old : State) (k : Nat) (s : State) : State :=
  linkPoll (64 + k) (if linkOn old (64 + k) then s else sendTrain (64 + k) s)

end Sys2Proof.Machine
end

