-- ==== Sys2Proof/Machine/Couch.lean ====
section
/-! DEFINITION. The rows of the couch (chapter 11): lines, grid rows, edge blocks, and the emission of thermal rows. -/

namespace Sys2Proof.Machine

/-- The head of a port's pipe leaves it. -/
def popPipe (p : Nat) (it : Item) (s : State) : State :=
  pipeLeave p it (updPort p (fun x => { x with pipe := x.pipe.drop 1 }) s)

/-- A line of a row not yet emitted is held; the port closes the windows below it (R230). -/
def holdLine (p : Nat) (it : Item) (row : Int) (data : Bool) (addr len : Nat) (s : State) : State :=
  let l : CouchLine := ⟨p, it.num, row, it.md, it.flags, data, addr, len, it.stripeTb⟩
  couchUpd (fun c => { c with lines := c.lines ++ [l] }) (portCloses p (row - 1) s)

/-- A line of a row already emitted is discarded (R236); it closes the windows below it like any other (R230). -/
def lateLine (p : Nat) (it : Item) (row : Int) (s : State) : State :=
  portCloses p (row - 1) (couchUpd (fun c => { c with lateLines := satAdd 32 c.lateLines 1 }) (popPipe p it s))

/-- A delivered line takes a slot and is held, is discarded for a row that room had to be made at, or waits (R237). -/
def takeLine (p : Nat) (it : Item) (row : Int) (s : State) : State :=
  let bytes := 2 * it.samples.length
  let s1 := makeRoom p bytes (roomFuel s) s
  if lineLate s1 row then lateLine p it row s1
  else match alignFree s1 p bytes with
    | none => s1
    | some a => holdLine p it row true a bytes (hbmWrite a (it.samples.flatMap (leBytes 2)) (popPipe p it s1))

/-- A line or placeholder reaches the couch (R230, R236, R237). -/
def couchLineBody (p : Nat) (s : State) : State :=
  match (port s p).pipe with
  | [] => s
  | it :: _ =>
    if !cpWant s p || !(decide (it.st = .out) || decide (it.st = .dropped)) then s
    else if bitOf it.flags 3 then popPipe p it s
    else
      let row := rowOf s it.md
      if lineLate s row then lateLine p it row s
      else if it.st = .dropped then holdLine p it row false 0 0 (popPipe p it s)
      else takeLine p it row s

/-- COUCH_LINE. -/
def execCouchLine (p : Fin 32) (s : State) : Out := whenLive (couchLineBody p.val) s

/-- The next row is emitted when every contributor has closed it (R236). -/
def rowEmitBody (s : State) : State :=
  match nextRow s with
  | none => s
  | some k =>
    let s1 := rowBoundaryOpen k s
    if gCols s1 ≠ 0 ∧ rowComplete s1 k then emitRow k .complete s1 else s

/-- ROW_EMIT. -/
def execRowEmit (s : State) : Out := whenLive rowEmitBody s

/-- ROW_TIMEOUT µs have passed since the first contributor closed the next row (R236). -/
def rowTimeoutBody (s : State) : State :=
  match nextRow s with
  | none => s
  | some k =>
    let s1 := rowBoundary k s
    match firstClosed s1 k with
    | none => s
    | some t =>
      if gCols s1 ≠ 0 ∧ !rowComplete s1 k ∧ t + us (cf s1 0x06 0 0x24) ≤ s.clk.ns then emitRow k .timeout s1 else s

/-- ROW_TIMEOUT. -/
def execRowTimeout (s : State) : Out := whenLive rowTimeoutBody s

/-! ### Edge blocks received (R242, R243, R422) -/

/-- The felt side of a felt port. -/
def sideOf (s : State) (k : Nat) : Option Nat :=
  if gFelt s 0 = k then some 0 else if gFelt s 1 = k then some 1 else none

/-- A block is discarded. -/
def seamDrop (s : State) : State := couchUpd (fun c => { c with seamDrop := satAdd 32 c.seamDrop 1 }) s

/-- A valid block is taken: it closes its window for the side (R236, R246). -/
def seamTake (d : Nat) (row : Int) (cols : List (Nat × List Nat × Nat)) (s : State) : State :=
  let x := contrib s (64 + d)
  let s1 := updContrib (64 + d) (fun x => { x with seamOk := true, seamLive := true, seamBad := false }) s
  let s2 := if x.seamBad then raise 334 0x07 d s1 else s1
  let e : EdgeBlock := ⟨d, row, cols.map fun c => (c.1 - gBase s, c.2.1, c.2.2)⟩
  closeUpTo (64 + d) row (couchUpd (fun c => { c with edges := c.edges ++ [e] }) s2)

/-- A descriptor mismatch (R243, R246). -/
def seamMismatch (d : Nat) (s : State) : State :=
  let s1 := seamDrop s
  if (contrib s (64 + d)).seamOk then
    raise 334 0x05 d (updContrib (64 + d) (fun x => { x with seamOk := false, seamBad := true }) s1)
  else s1

/-- An edge block arrives on a felt port; columns are global. -/
def edgeBody (k : Nat) (row : Int) (desc : Nat) (cols : List (Nat × List Nat × Nat)) (s : State) : State :=
  match sideOf s k with
  | none => seamDrop s
  | some d =>
    if gCols s = 0 then seamDrop s
    else if desc ≠ gridDescriptor s then seamMismatch d s
    else if cols.any fun c => decide (c.1 < gBase s) || decide (gBase s + gCols s ≤ c.1) then seamDrop s
    else if lineLate s row then seamDrop s
    else seamTake d row cols s

/-- EDGE, over a port that carries chain traffic (R406, R408). -/
def execEdge (k : Fin 4) (row : W64) (desc : W32) (cols : List (Nat × List Nat × Nat)) (s : State) : Out :=
  whenReady (fromUsable k.val (14 + (cols.map fun c => 6 + 2 * c.2.1.length).sum)
    (unlessTripped (edgeBody k.val row.toInt desc.toNat cols))) s

/-! ### Thermal rows (R240) -/

/-- The dryer ports whose closing a thermal row waits for. -/
def thermWaits (s : State) : List Nat :=
  (List.range 4).filter fun p => dpOn s p && (dry s p).running && !dryShut s p

/-- Has every dryer port waited for closed thermal row k? -/
def thermComplete (s : State) (k : Int) : Bool :=
  !(thermWaits s).isEmpty && (thermWaits s).all fun p => match tblFind s.web.couch.thermClosed p with
    | some m => decide (k ≤ m)
    | none => false

/-- THERMAL_ROW_EMIT. -/
def execThermalRowEmit (s : State) : Out :=
  whenLive (fun s => match thermOldest s with
    | some k => if gCols s ≠ 0 ∧ thermComplete s k then emitTherm k s else s
    | none => s) s

/-- When the first port closed thermal row k. -/
def thermFirstClosed (s : State) (k : Int) : Option Nat :=
  (s.web.couch.thermFirst.find? fun x => decide (k ≤ x.1)).map Prod.snd

/-- THERM_TIMEOUT. -/
def execThermTimeout (s : State) : Out :=
  whenLive (fun s => match thermOldest s with
    | none => s
    | some k =>
      match thermFirstClosed s k with
      | some t => if gCols s ≠ 0 ∧ !thermComplete s k ∧ t + us (cf s 0x06 0 0x44) ≤ s.clk.ns then emitTherm k s else s
      | none => s) s

end Sys2Proof.Machine
end

