-- ==== Sys2Proof/Machine/LaneOps.lean ====
section
/-! DEFINITION. Lanes that lose lock, and commits to lanes (R125, R131). -/

namespace Sys2Proof.Machine

/-- What a headbox or felt port does about a lane that has left state 6 (R133, R151, R158): a Brynlink link may leave
ACTIVE; a CoaXPress connection is out until it delivers stream packets again. -/
def laneLost (n pos : Nat) (s : State) : State :=
  if n < 64 then
    match lanePort s n with
    | some p =>
      if hbProto s p = 2 then linkLaneLost p n pos s
      else linkOut p (updPort p (fun x => if x.running ∧ !x.quiet.contains n then { x with quiet := x.quiet ++ [n] } else x) s)
    | none => s
  else linkLaneLost (64 + (n - 64) / 4) n pos s

/-- A locked lane leaves state 6: LN_UNLOCKS counts, LANE_UNLOCK is raised with the reason (R131). -/
def leaveLocked (n reason : Nat) (s : State) : State :=
  let l := lane s n
  if l.st = 6 then
    laneLost n l.position
      (raise n 0x01 reason (setLane n { l with st := 1, unlocks := satAdd 32 l.unlocks 1, leftNs := some s.clk.ns, reason := reason } s))
  else s

/-- A commit that changes ENABLE or RATE takes effect at T_v (R125). `old` holds the values before. -/
def laneCommit (old : State) (n : Nat) (s : State) : State :=
  if lnEnable old n = lnEnable s n ∧ lnRate old n = lnRate s n then s
  else
    let s1 := prbsHold old n (leaveLocked n 5 s)
    if lnOn s n then
      let s2 := freshTimers n s1
      let s3 := setLane n { lane s2 n with firstLock := true, hold := false, leftNs := none, position := 0x3F } s2
      bringUpSeeds n s3
    else laneOff n s1

/-- A lane enters state 6 (R130, R132, R134, R140). The lane ID stays with it also while no port binds it: a port that binds it
later needs no host action. -/
def laneLocks (n : Nat) (inv : Bool) (id : Nat) (s : State) : State :=
  let l := lane s n
  let us_ := min ((s.clk.ns - (if l.firstLock then l.bringNs else l.leftNs.getD l.bringNs)) / 1000) (2 ^ 31 - 1)
  let first := l.firstLock
  let l1 := { l with st := 6, polInv := inv, position := if ln66 s n then id else l.position
                     firstLock := false, leftNs := none, unlockNs := none, left1Ns := none, failNs := none, failNoted := false, seeded5 := false }
  let s1 := raise n 0x02 (us_ + at' 31 (b2n first)) (setLane n l1 s)
  match laneRef s n with
  | none => trainDone n s1
  | some r =>
    let s2 := if ln66 s n && positionBad s1 r n id then raise n 0x05 r s1 else s1
    linkPoll r (trainDone n s2)

end Sys2Proof.Machine
end

