-- ==== Sys2Proof/Machine/Operands.lean ====
section
/-! DEFINITION. The operand forms of the command packet: the parameters of Table 5.4 and the checks of the
packet alone, step 2 of R105. -/

namespace Sys2Proof.Machine

/-! ### Parameters, Table 5.4 -/

/-- A u8 parameter at a packet offset. -/
def pm8 (p : List Byte) (o : Nat) : Nat := u8At p o
/-- A u16 parameter. -/
def pm16 (p : List Byte) (o : Nat) : Nat := u16At p o
/-- A u32 parameter. -/
def pm32 (p : List Byte) (o : Nat) : Nat := u32At p o
/-- A u64 parameter. -/
def pm64 (p : List Byte) (o : Nat) : Nat := u64At p o
/-- An s64 parameter. -/
def pmS64 (p : List Byte) (o : Nat) : Int := toS 64 (u64At p o)

/-- Every byte of `n` at `o` is 0. -/
def zeroRun (p : List Byte) (o n : Nat) : Bool := (slice p o n).all fun b => decide (b = 0)

/-- Every PARAM byte outside the listed runs (offset, length) is 0 (R6, R101). -/
def paramZeroBut (p : List Byte) (used : List (Nat × Nat)) : Bool :=
  (List.range 40).all fun i =>
    let o := 0x18 + i
    (used.any fun r => decide (r.1 ≤ o ∧ o < r.1 + r.2)) || decide (u8At p o = 0)

/-- FLAGS uses only PROG, FENCE and the OPT bits of `opt` (Table 5.2). -/
def flagsOk (p : List Byte) (opt : Nat) : Bool :=
  decide (bits (pkFlags p) 2 6 = 0) && decide (bits (pkFlags p) 8 8 ||| opt = opt)

/-- An object ID of the block with an instance below `n` (R101). -/
def objectOf (t blk n : Nat) : Bool := decide (addrBlk t = blk ∧ addrInst t < n ∧ addrOff t = 0)

/-- ADDR is 4-byte aligned and non-zero for a non-zero LENGTH (R102). -/
def addrOk (p : List Byte) : Bool := decide (pkAddr p % 4 = 0) && (decide (pkLen p = 0) || decide (pkAddr p ≠ 0))

/-- LENGTH and ADDR are reserved and so 0. -/
def noData (p : List Byte) : Bool := decide (pkLen p = 0 ∧ pkAddr p = 0)

/-- Walk a range from `o` to its end `e`, field by field; reserved configuration bytes are walked one by one. -/
def coverWalk (blk inst e : Nat) : Nat → Nat → Bool
  | 0, o => decide (o = e)
  | n + 1, o =>
    if o = e then true
    else match fieldCovering blk inst o with
      | none => false
      | some f =>
        if f.resv then coverWalk blk inst e n (o + 1)
        else if f.off = o ∧ o + f.width ≤ e then coverWalk blk inst e n (o + f.width) else false

/-- The coverage rule of R37 for a range: it starts and ends at field bounds and touches no offset that holds no
field. -/
def coversWhole (blk inst off len : Nat) : Bool := coverWalk blk inst (off + len) len off

/-- The fields that a range of bytes covers with the values its bytes give. -/
def coveredFields (blk inst off : Nat) (bs : List Byte) : List (Field × Nat) :=
  ((fieldsOf blk inst).filter fun f => decide (off ≤ f.off ∧ f.off + f.width ≤ off + bs.length) && !f.resv).map
    fun f => (f, leNat (slice bs (f.off - off) f.width))

/-- Every covered value lies in the part of its range that depends on itself, and every reserved configuration byte
is 0 (R37). -/
def stageRangesOk (blk inst off : Nat) (bs : List Byte) : Bool :=
  ((coveredFields blk inst off bs).all fun x => x.1.ok x.2) &&
  (List.range bs.length).all fun i => match fieldCovering blk inst (off + i) with
    | some f => !f.resv || decide (u8At bs i = 0)
    | none => true

/-- Is the data of a CFG_STAGE inline (Table 5.4)? -/
def stageInline (p : List Byte) : Bool := decide (pkAddr p = 0 ∧ 1 ≤ pkLen p ∧ pkLen p ≤ 32)

/-- The packet checks of CFG_STAGE. -/
def stagePacketOk (p : List Byte) : Bool :=
  let a := pkTarget p
  flagsOk p 0 && decide (1 ≤ pkLen p ∧ pkLen p ≤ 65536 ∧ addrOff a + pkLen p ≤ 65536) && instListed (addrBlk a) (addrInst a)
  && (if stageInline p then paramZeroBut p [(0x18, 1), (0x20, pkLen p)] else paramZeroBut p [(0x18, 1)] && addrOk p)
  && coversWhole (addrBlk a) (addrInst a) (addrOff a) (pkLen p)
  && (!stageInline p || stageRangesOk (addrBlk a) (addrInst a) (addrOff a) (slice p 0x20 (pkLen p)))

/-- The owner block of a table kind, Table 5.8. -/
def kindBlock (k : Nat) : Option Nat :=
  if 0x01 ≤ k ∧ k ≤ 0x06 then some 0x04 else if 0x10 ≤ k ∧ k ≤ 0x14 then some 0x05
  else if k = 0x20 then some 0x06 else if k = 0x30 then some 0x07 else none

/-- TARGET and SET of a table kind: the owner's object ID, and SET 0 but where the owning chapter has several: the
four flat-field sets of kind 0x03 and the camera ports of kind 0x20. -/
def tableTargetOk (kind target set_ : Nat) : Bool :=
  match kindBlock kind with
  | none => false
  | some b =>
    (if b = 0x07 then decide (target = cfgAddr 0x07 8 0) else objectOf target b (blockInstances b))
    && (if kind = 0x03 then decide (set_ < 4) else if kind = 0x20 then decide (set_ < 32) else decide (set_ = 0))

/-- The ranges of QUEUE_CREATE, Table 4.5. -/
def queueRangesOk (p : List Byte) : Bool :=
  let kind := pm8 p 0x18
  let l := pm8 p 0x19
  let l2 := pm8 p 0x1A
  let dev := pm8 p 0x1B
  let n := pm32 p 0x1C
  let base := pm64 p 0x20
  let b2 := pm64 p 0x28
  let g := pm16 p 0x30
  let grpOk := decide (g < 160 ∨ g = 0xFFFF)
  paramZeroBut p [(0x18, 4), (0x1C, 4), (0x20, 8), (0x28, 8), (0x30, 2)] && decide (base % 4096 = 0) &&
  (if kind = 0 then decide (1 ≤ n ∧ n ≤ 1023 ∧ 4 ≤ l ∧ l ≤ 16 ∧ 4 ≤ l2 ∧ l2 ≤ 16 ∧ dev ≤ 63 ∧ b2 % 4096 = 0) && grpOk
   else if kind = 1 then decide (n ≤ 262143 ∧ 4 ≤ l ∧ l ≤ 13 ∧ l2 = 0 ∧ dev = 0 ∧ b2 % 8 = 0) && grpOk
   else if kind = 2 then decide (n ≤ 255 ∧ 2 ≤ l ∧ l ≤ 12 ∧ 12 ≤ l2 ∧ l2 ≤ 24 ∧ dev = 0 ∧ b2 % 8 = 0) && grpOk
   else if kind = 3 then decide (n ≤ 63 ∧ 6 ≤ l ∧ l ≤ 16 ∧ l2 = 0 ∧ dev = 0 ∧ b2 = 0 ∧ g = 0)
   else false)

/-- The ranges of QUEUE_DELETE, Table 4.5; pair 0 is never named (R82). -/
def deleteRangesOk (p : List Byte) : Bool :=
  let kind := pm8 p 0x18
  let n := pm32 p 0x1C
  paramZeroBut p [(0x18, 1), (0x1C, 4)] &&
  (if kind = 0 then decide (1 ≤ n ∧ n ≤ 1023) else if kind = 1 then decide (n ≤ 262143)
   else if kind = 2 then decide (n ≤ 255) else if kind = 3 then decide (n ≤ 63) else false)

/-- Blocks of LOGIC, MEMORY and LOOPBACK of a target kind; 0 for "—" (Table 22.2). -/
def bistParts (blk : Nat) : List Nat :=
  match blk with
  | 0x02 => [2, 1, 0]
  | 0x03 => [8, 4, 1]
  | 0x05 => [2, 1, 0]
  | 0x06 => [4, 2, 0]
  | 0x07 => [1, 1, 0]
  | 0x08 => [1, 0, 0]
  | _ => [0, 0, 0]

/-- R427: the mask and the target of BIST_RUN. -/
def bistOk (blk mask : Nat) : Bool :=
  decide (mask ≠ 0 ∧ mask < 8) && (List.range 3).all fun k => !bitOf mask k || decide ((bistParts blk).getD k 0 ≠ 0)

/-- Is the opcode one of Table 5.3? -/
def opcodeListed (op : Nat) : Bool :=
  [0x0001, 0x0002, 0x0003, 0x0004, 0x0010, 0x0011, 0x0012, 0x0020, 0x0021, 0x0030, 0x0031, 0x0040, 0x0041, 0x0050,
   0x0060, 0x0070, 0x0071, 0x0080, 0x0090, 0x00A0, 0x00B0, 0x00B1, 0x00C0, 0x00C1, 0x00C2, 0x00C3, 0x00D0, 0x00E0,
   0x00F0].contains op

/-- The opcodes that the recovery image executes (R62). -/
def recoveryOpcodes : List Nat :=
  [0x0001, 0x0004, 0x0002, 0x0003, 0x00B0, 0x00B1, 0x00C3, 0x00C0, 0x00C1, 0x00C2]

/-- Step 1 of R105: the opcode is listed, and accepted by the running image (R62, R103). -/
def opcodeAccepted (source op : Nat) : Bool :=
  if source = 2 then recoveryOpcodes.contains op else opcodeListed op

/-- Step 2 of R105: the packet alone, for a listed opcode. LANE_TEST's burst length is held to 1 to 64 for a burst and to
at most 64 otherwise, so that 0 goes with no burst (DESIGN CHOICE 61). -/
def packetOk (p : List Byte) : Bool :=
  let t := pkTarget p
  let len := pkLen p
  match pkOp p with
  | 0x0001 => flagsOk p 0 && decide (t = 0 ∧ len = 4096) && addrOk p && paramZeroBut p []
  | 0x0002 | 0x0003 => flagsOk p 0 && decide (t = 0) && noData p && paramZeroBut p [(0x18, 2), (0x1C, 4)]
      && decide (pm16 p 0x18 ≤ 1023)
  | 0x0004 => flagsOk p 0 && decide (t = 0) && noData p
  | 0x0010 => stagePacketOk p
  | 0x0011 => flagsOk p 1 && decide (t = 0) && noData p && paramZeroBut p [(0x18, 1)]
  | 0x0012 => flagsOk p 1 && decide (1 ≤ len ∧ len ≤ 65536 ∧ addrOff t + len ≤ 65536) && addrOk p
      && paramZeroBut p (if pkOpt8 p then [(0x18, 1)] else []) && instListed (addrBlk t) (addrInst t)
      && coversWhole (addrBlk t) (addrInst t) (addrOff t) len
  | 0x0020 => flagsOk p 0 && objectOf t 0x01 80 && noData p && paramZeroBut p [(0x18, 1)] && decide (pm8 p 0x18 ≤ 1)
  | 0x0021 => flagsOk p 0 && objectOf t 0x01 80 && noData p && paramZeroBut p [(0x18, 4)]
      && decide (pm8 p 0x18 ≤ 4 ∧ pm8 p 0x19 ≤ 3 ∧ pm8 p 0x1A ≤ 2)
      && (if pm8 p 0x1A = 2 then decide (1 ≤ pm8 p 0x1B ∧ pm8 p 0x1B ≤ 64) else decide (pm8 p 0x1B ≤ 64))
  | 0x0030 => flagsOk p 0 && (objectOf t 0x02 32 || objectOf t 0x05 4) && noData p && paramZeroBut p []
  | 0x0031 => flagsOk p 0 && (objectOf t 0x02 32 || objectOf t 0x05 4) && noData p && paramZeroBut p [(0x18, 1)]
      && decide (pm8 p 0x18 ≤ 1)
  | 0x0040 => flagsOk p 0 && addrOk p && paramZeroBut p [(0x18, 3), (0x1C, 4)] && decide (pm8 p 0x19 ≤ 1)
      && tableTargetOk (pm8 p 0x18) t (pm8 p 0x1A)
  | 0x0041 => flagsOk p 0 && objectOf t 0x03 9 && noData p && paramZeroBut p [(0x18, 3), (0x20, 16)]
      && decide (pm8 p 0x18 ≤ 31 ∧ pm8 p 0x19 ≤ 1 ∧ (pm8 p 0x1A ≤ 63 ∨ pm8 p 0x1A = 0xFF))
      && decide (pmS64 p 0x20 < pmS64 p 0x28)
  | 0x0050 => flagsOk p 0 && objectOf t 0x05 4 && noData p && paramZeroBut p [(0x18, 1)] && decide (pm8 p 0x18 ≤ 4)
  | 0x0060 => flagsOk p 0 && decide (t = 0x07080000) && addrOk p && paramZeroBut p [(0x18, 1), (0x1A, 2), (0x1C, 4)]
      && decide (pm8 p 0x18 ≤ 1 ∧ 1 ≤ pm16 p 0x1A ∧ pm16 p 0x1A ≤ 256 ∧ len = 64 * pm16 p 0x1A)
  | 0x0070 => flagsOk p 0 && decide (t = 0) && noData p && queueRangesOk p
  | 0x0071 => flagsOk p 0 && decide (t = 0) && noData p && deleteRangesOk p
  | 0x0080 => flagsOk p 0 && objectOf t 0x09 16 && noData p && decide (pm8 p 0x18 ≤ 1)
      && paramZeroBut p (if pm8 p 0x18 = 0 then [(0x18, 1), (0x20, 8), (0x28, 4)] else [(0x18, 1), (0x28, 4)])
  | 0x0090 => flagsOk p 0 && objectOf t 0x0A 4 && noData p && paramZeroBut p []
  | 0x00A0 => flagsOk p 0 && decide (t = 0x0E000000) && noData p && decide (pm8 p 0x18 ≤ 5)
      && paramZeroBut p (if 1 ≤ pm8 p 0x18 ∧ pm8 p 0x18 ≤ 3 then [(0x18, 1), (0x20, 8)] else [(0x18, 1)])
  | 0x00B0 => flagsOk p 1 && addrOk p && paramZeroBut p []
      && (if pkOpt8 p then [0xC000, 0x2800, 0x2E00, 0x10000, 0x11000, 0x12000, 0x1A000].contains t
          else decide (t + len ≤ 0x40000))
  | 0x00B1 => flagsOk p 1 && addrOk p && paramZeroBut p []
      && (if pkOpt8 p then
            decide ((t = 0x10000 ∧ 1 ≤ len ∧ len ≤ 2032) ∨ (t = 0x11000 ∧ 1 ≤ len ∧ len ≤ 240)
              ∨ (t = 0x12000 ∧ 1 ≤ len ∧ len ≤ 16368) ∨ (t = 0x1A000 ∧ 1 ≤ len ∧ len ≤ 4080))
          else decide (0x1C000 ≤ t ∧ t + len ≤ 0x20000))
  | 0x00C0 => flagsOk p 0 && decide (t = 0 ∧ 640 ≤ len) && addrOk p && paramZeroBut p [(0x18, 32)]
  | 0x00C1 => flagsOk p 0 && decide (t = 0 ∧ 256 ≤ len ∧ len ≤ 1048576) && addrOk p && paramZeroBut p [(0x18, 1)] && decide (pm8 p 0x18 ≤ 1)
  | 0x00C2 => flagsOk p 0 && decide (t = 0) && noData p && paramZeroBut p [(0x18, 1)] && decide (pm8 p 0x18 ≤ 1)
  | 0x00C3 => flagsOk p 0 && decide (t = 0) && addrOk p && paramZeroBut p [(0x18, 1)] && decide (pm8 p 0x18 ≤ 3)
  | 0x00D0 => flagsOk p 0 && decide (addrOff t = 0) && instListed (addrBlk t) (addrInst t) && noData p
      && paramZeroBut p [(0x18, 4)] && bistOk (addrBlk t) (pm32 p 0x18)
  | 0x00E0 => flagsOk p 0 && decide (t = 0) && noData p && paramZeroBut p [(0x18, 2)]
      && decide (pm8 p 0x18 ≤ 8 ∧ pm8 p 0x19 ≤ 8 ∧ pm8 p 0x18 ≠ pm8 p 0x19)
  | 0x00F0 => flagsOk p 0 && decide (t = 0 ∧ 2064 ≤ len) && addrOk p && paramZeroBut p [(0x18, 1)] && decide (pm8 p 0x18 ≤ 1)
  | _ => false

end Sys2Proof.Machine
end

