-- ==== Sys2Proof/Machine/Prbs.lean ====
section
/-! DEFINITION. The PRBS patterns of Table 6.6: the shift register, its value any number of bits later, the check of
received bits against it, and the test of R138 over 1,024 bits. -/

namespace Sys2Proof.Machine

/-- Degree n and inner exponent m of the polynomial x^n + x^m + 1 of a pattern, by its LANE_TEST code (Table 6.6). -/
def prbsTaps : Nat → Nat × Nat
  | 1 => (7, 6)
  | 2 => (15, 14)
  | 3 => (23, 18)
  | _ => (31, 28)

/-- One step of a pattern's register. Bit i is the bit that is sent i bits from now, so bit 0 is the most significant
stage, which is sent first (R136). -/
def prbsStep (pat r : Nat) : Nat :=
  let (n, m) := prbsTaps pat
  r / 2 + (if bitOf r 0 = bitOf r (n - m) then 0 else 2 ^ (n - 1))

/-- The next `k` bits of a pattern, as a number whose bit i is the i-th sent, and the register after them. -/
def prbsRun (pat : Nat) : Nat → Nat → Nat × Nat
  | 0, r => (0, r)
  | k + 1, r =>
    let (v, r') := prbsRun pat k (prbsStep pat r)
    (2 * v + r % 2, r')

/-! ### A register far ahead

Bit N of the sequence is the sum over the register's bits that the coefficients of x^N name, modulo the polynomial that the
sequence obeys. -/

/-- The product by x modulo x^n + x^(n − m) + 1, over the field of two elements. -/
def polyX (pat v : Nat) : Nat :=
  let (n, m) := prbsTaps pat
  if 2 ^ n ≤ 2 * v then (2 * v) ^^^ (2 ^ n + 2 ^ (n - m) + 1) else 2 * v

/-- The product of two residues: `k` bits of the second are left to fold in. -/
def polyMul (pat a b : Nat) : Nat → Nat
  | 0 => 0
  | k + 1 => (polyX pat (polyMul pat a (b / 2) k)) ^^^ (if bitOf b 0 then a else 0)

/-- x^e modulo the polynomial, `k` bits of the exponent being left. -/
def polyPow (pat e : Nat) : Nat → Nat
  | 0 => 1
  | k + 1 =>
    let h := polyPow pat (e / 2) k
    let q := polyMul pat h h (prbsTaps pat).1
    if bitOf e 0 then polyX pat q else q

/-- The sum modulo 2 of the low `k` bits of a number. -/
def parity (v : Nat) : Nat → Bool
  | 0 => false
  | k + 1 => bitOf v 0 != parity (v / 2) k

/-- A pattern's register after `e` more bits. -/
def prbsJump (pat r e : Nat) : Nat :=
  let n := (prbsTaps pat).1
  let c0 := polyPow pat (e % (2 ^ n - 1)) n
  let go (x : Nat × Nat) (i : Nat) : Nat × Nat :=
    (polyX pat x.1, x.2 + (if parity (x.1 &&& r) n then 2 ^ i else 0))
  ((List.range n).foldl go (c0, 0)).2

/-! ### The checker (R138) -/

/-- Bits as a number, the first in bit 0. -/
def bitsNat : List Bool → Nat
  | [] => 0
  | b :: bs => b2n b + 2 * bitsNat bs

/-- Do the bits follow a register? Answers the register after them. -/
def prbsFollows (pat : Nat) : List Bool → Nat → Option Nat
  | [], r => some r
  | b :: bs, r => if b = bitOf r 0 then prbsFollows pat bs (prbsStep pat r) else none

/-- A checker that has seeded itself from the bits before the last 128 and finds those 128 to match the pattern, or its
complement: whether it is the complement, and its register (R138). A register of zeros is no pattern. -/
def prbsMatches (pat : Nat) (rx : List Bool) : Option (Bool × Nat) :=
  let n := (prbsTaps pat).1
  if rx.length < n + 128 then none
  else
    let bs := rx.drop (rx.length - (n + 128))
    let try_ (inv : Bool) : Option (Bool × Nat) :=
      let cs := bs.map fun b => b != inv
      let r := bitsNat (cs.take n)
      if r = 0 then none else (prbsFollows pat cs r).map fun q => (inv, q)
    match try_ false with
    | some x => some x
    | none => try_ true

/-- A checker in sync: its register, the bits compared, and which of the last 1,023 of them differed, newest first. -/
structure PrbsRun where
  reg : Nat
  pos : Nat
  diffs : List Nat
deriving DecidableEq, Repr

/-- Compare received bits: the checker after them, the bits that differed, and whether 256 of 1,024 consecutive bits have
differed, at which it stops (R138). -/
def prbsCompare (pat : Nat) (inv : Bool) : List Bool → PrbsRun → PrbsRun × Nat × Bool
  | [], c => (c, 0, false)
  | b :: bs, c =>
    let recent := c.diffs.filter fun d => decide (c.pos < d + 1024)
    let diff := b != (bitOf c.reg 0 != inv)
    let c1 : PrbsRun := ⟨prbsStep pat c.reg, c.pos + 1, if diff then c.pos :: recent else recent⟩
    if 256 ≤ c1.diffs.length then (c1, 1, true)
    else
      let (c2, e, lost) := prbsCompare pat inv bs c1
      (c2, e + b2n diff, lost)

end Sys2Proof.Machine
end

