-- ==== Sys2Proof/Machine/Lanes.lean ====
section
/-! DEFINITION. Lane rows (chapter 6): bring-up, unlock and retrain, PRBS; LANE_TRAIN and LANE_TEST. -/

namespace Sys2Proof.Machine

/-- A lane that waits for LANE_TRAIN takes no step of bring-up on its own (R132, R135). -/
def laneWaits (l : Lane) : Bool := l.hold || l.parked

/-- LANE_SIGNAL_DETECT (Table 6.5, state 1). -/
def execLaneSignalDetect (n : Fin 80) (s : State) : Out :=
  whenReady (fun s =>
    if !lnOn s n then s
    else
      let l := lane s n
      let l1 := { l with signal := true }
      if l.st = 1 ∧ !laneWaits l then
        setLane n { l1 with st := 2, left1Ns := if l.unlockNs.isNone ∧ l.left1Ns.isNone then some s.clk.ns else l.left1Ns } s
      else setLane n l1 s) s

/-- LANE_CDR_LOCK (Table 6.5, state 2; R123). -/
def execLaneCdrLock (n : Fin 80) (s : State) : Out :=
  whenReady (fun s =>
    let l := lane s n
    if l.st = 2 then setLane n { l with st := 3, cdr := true } s
    else if l.st = 7 then setLane n { l with cdr := true } s else s) s

/-- LANE_EQ_DONE (Table 6.5, state 3; R126): a bring-up from seeds keeps the CTLE setting that its search over CTLE_MIN to
CTLE_MAX found; a resumed one skips the search. -/
def execLaneEqDone (n : Fin 80) (ctle : Fin 16) (s : State) : Out :=
  whenReady (fun s =>
    let l := lane s n
    if l.st = 3 then
      setLane n { l with st := 4, ctle := if l.fromSeeds then max l.ctleMin (min l.ctleMax ctle) else l.ctle } s
    else s) s

/-- One sign-sign LMS step of a tap, held at its limit (R126): the tap, and whether it was held. -/
def tapStep (t : Int) (lim : Nat) (up down : Bool) : Int × Bool :=
  let v := t + (if up && !down then 1 else if down && !up then -1 else 0)
  if (lim : Int) < v then (lim, true) else if v < -(lim : Int) then (-(lim : Int), true) else (v, false)

/-- May a tap step now: a microsecond has passed since its last step (R126)? -/
def tapMay (l : Lane) (k now : Nat) : Bool :=
  match l.tapNs.getD k none with
  | some t => decide (t + us 1 ≤ now)
  | none => true

/-- DFE_ADAPT_STEP: at most one step per tap per microsecond (R126). -/
def execDfeAdaptStep (n : Fin 80) (up down : BitVec 5) (s : State) : Out :=
  whenReady (fun s =>
    let l := lane s n
    if 3 ≤ l.st ∧ l.st ≤ 6 then
      let may (k : Nat) : Bool := tapMay l k s.clk.ns
      let r := (List.range 5).map fun k =>
        tapStep (l.taps.getD k 0) (l.limits.getD k 0) (may k && up.getLsbD k) (may k && down.getLsbD k)
      let hit := r.any Prod.snd
      let taps := r.map Prod.fst
      let stepped (k : Nat) : Bool := may k && (up.getLsbD k != down.getLsbD k)
      let times := (List.range 5).map fun k => if stepped k then some s.clk.ns else l.tapNs.getD k none
      let mask := ((List.range 5).map fun k => if (taps.getD k 0).natAbs = l.limits.getD k 0 then 2 ^ k else 0).sum
      let s1 := setLane n { l with taps := taps, tapNs := times, bound := l.bound || hit } s
      if hit && !l.bound then raise n 0x03 mask s1 else s1
    else s) s

/-- LANE_ALIGNED (Table 6.5, state 4). -/
def execLaneAligned (n : Fin 80) (s : State) : Out :=
  whenReady (fun s =>
    let l := lane s n
    if l.st = 4 then setLane n { l with st := 5, aligned := true, winBad := if ln66 s n then [] else l.winBad } s else s) s

/-- LANE_RELOCK: what the lane receives in state 5 shows its polarity and, on a 64b/66b lane, its lane ID; anything else
leaves it in state 5 (R129, R130, R132). -/
def execLaneRelock (n : Fin 80) (rx : LaneWord) (s : State) : Out :=
  whenReady (fun s =>
    if (lane s n).st = 5 then
      match identify (ln66 s n) rx with
      | some (inv, id) => laneLocks n inv id s
      | none => s
    else s) s

/-- Reason 3 of R131: at one of the invalid headers or code groups numbered `start` or above, the 64 consecutive ones that end
with it hold `limit` invalid ones. -/
def windowBad (limit start : Nat) (bad : List Nat) : Bool :=
  bad.any fun b => decide (start ≤ b ∧ limit ≤ (bad.filter fun x => decide (x ≤ b ∧ b < x + 64)).length)

/-- The number that the first of `k` blocks (66 bits) or code groups (10 bits) received up to now has on a lane: those that no
row has told of were valid. -/
def windowFrom (s : State) (n k : Nat) : Nat :=
  max (lane s n).winAt (laneBits (lnRate s n) s.clk.ns / (if ln66 s n then 66 else 10) - k)

/-- The numbers of the invalid blocks or code groups on a lane, up to now: those kept and those told of. -/
def windowNow (s : State) (n : Nat) (bad : List Bool) : List Nat :=
  (lane s n).winBad ++ (bad.zipIdx.filter Prod.fst).map fun x => windowFrom s n bad.length + x.2

/-- What is kept of them for the windows to come: those of the last 64. -/
def windowKept (s : State) (n : Nat) (bad : List Bool) : List Nat :=
  (windowNow s n bad).filter fun x => decide (windowFrom s n bad.length + bad.length < x + 64)

/-- The reason for which a lane leaves state 6 (R131): amplitude or phase lock, else the count of invalid headers in the sliding
window over the blocks or code groups received, as soon as one of those told of meets it. -/
def unlockReason (s : State) (n : Nat) (reason : Nat) (bad : List Bool) : Nat :=
  if reason = 1 ∨ reason = 2 then reason else if windowBad (if ln66 s n then 16 else 8) (windowFrom s n bad.length) (windowNow s n bad) then 3 else 0

/-- Blocks or code groups are received on a lane: the invalid ones count in LN_ERR and stand in the window (R131). -/
def laneReceives (n : Nat) (bad : List Bool) (s : State) : State :=
  setLane n { lane s n with codeErr := satAdd 32 (lane s n).codeErr (bad.countP id)
                            winAt := windowFrom s n bad.length + bad.length, winBad := windowKept s n bad } s

/-- LANE_UNLOCK: reasons 1 to 3 of R131. `bad` tells of consecutive blocks or code groups received, oldest first, which had
an invalid header or were invalid: each of those counts in LN_ERR. R132 decides the retrain. -/
def execLaneUnlock (n : Fin 80) (reason : Fin 4) (bad : List Bool) (s : State) : Out :=
  whenReady (fun s =>
    let s0 := laneReceives n bad s
    let why := unlockReason s n reason bad
    if (lane s0 n).st = 6 ∧ why ≠ 0 then
      let s1 := leaveLocked n why s0
      let l := { lane s1 n with signal := (lane s1 n).signal && decide (why ≠ 1)
                                unlockNs := some s.clk.ns, seeded5 := false, failNoted := false, failNs := none }
      let s2 := setLane n l s1
      if lnAuto s2 n && !l.hold then bringUpResume n s2
      else setLane n { restartLane s2 n false l with parked := true } s2
    else s0) s

/-- LANE_RETRAIN_TIMEOUT: 5 ms after the unlock, a bring-up from seeds (R132). -/
def execLaneRetrainTimeout (n : Fin 80) (s : State) : Out :=
  whenReady (fun s =>
    let l := lane s n
    match l.unlockNs with
    | some t =>
      if 1 ≤ l.st ∧ l.st ≤ 5 ∧ !laneWaits l ∧ lnAuto s n ∧ !l.seeded5 ∧ t + ms 5 ≤ s.clk.ns then
        bringUpSeeds n (setLane n { l with seeded5 := true } s)
      else s
    | none => s) s

/-- The moment from which a LOCK_FAIL period counts: the last one, or what began it (R132). -/
def failFrom (l : Lane) : Option Nat := l.failNs.orElse fun _ => l.unlockNs.orElse fun _ => l.left1Ns

/-- LOCK_FAIL: 100 ms have passed; raised once, and bring-up from seeds is repeated (R132). -/
def execLockFail (n : Fin 80) (s : State) : Out :=
  whenReady (fun s =>
    let l := lane s n
    match failFrom l with
    | some t =>
      if 1 ≤ l.st ∧ l.st ≤ 5 ∧ !laneWaits l ∧ t + ms 100 ≤ s.clk.ns then
        let s1 := if l.failNoted then s else raise n 0x04 (if l.unlockNs.isSome then l.reason else 0) s
        let l1 := { lane s1 n with failNoted := true, failNs := some s.clk.ns }
        if lnAuto s n then bringUpSeeds n (setLane n l1 s1)
        else setLane n { restartLane s1 n false l1 with parked := true } s1
      else s
    | none => s) s

/-- LANE_TRAIN_TIMEOUT: 100 ms after LANE_TRAIN started (R134). -/
def execLaneTrainTimeout (n : Fin 80) (s : State) : Out :=
  whenReady (fun s =>
    ((trainsOf s n).filter fun c => decide (c.startNs + ms 100 ≤ s.clk.ns)).foldl
      (fun s c => finishOk c (trainResult s n) 0 s) s) s

/-- PRBS_SYNC: the bits received up to now, oldest first, in which the checker finds its pattern (R138). -/
def execPrbsSync (n : Fin 80) (rx : List Bool) (s : State) : Out :=
  whenReady (fun s =>
    let l := lane s n
    if l.st = 7 ∧ l.chkOn ∧ !l.prbsSync then
      match prbsMatches l.pattern rx with
      | some (inv, reg) =>
        setLane n { l with prbsSync := true, prbsInv := inv, prbsSyncNs := s.clk.ns, chkReg := reg, chkPos := 0, chkDiffs := [] } s
      | none => s
    else s) s

/-- The checker in sync as the bits received before now stand: those that no row has told of matched. -/
def prbsRunNow (s : State) (n : Nat) (k : Nat) : PrbsRun :=
  let l := lane s n
  let at_ := max l.chkPos (laneBits (lnRate s n) (s.clk.ns - l.prbsSyncNs) - k)
  ⟨prbsJump l.pattern l.chkReg (at_ - l.chkPos), at_, l.chkDiffs⟩

/-- PRBS_SYNC_LOSS: the bits received up to now, oldest first, are compared; 256 or more of 1,024 that differ drop sync
(R138). -/
def execPrbsSyncLoss (n : Fin 80) (rx : List Bool) (s : State) : Out :=
  whenReady (fun s =>
    let l := lane s n
    if l.st = 7 ∧ l.chkOn ∧ l.prbsSync then
      let (c, errs, lost) := prbsCompare l.pattern l.prbsInv rx (prbsRunNow s n rx.length)
      let l1 := { l with prbsErr := satAdd 32 l.prbsErr errs, chkReg := c.reg, chkPos := c.pos, chkDiffs := c.diffs }
      if lost then raise n 0x07 0 (setLane n { l1 with prbsSync := false, prbsBits := (l.prbsBits + c.pos) % 2 ^ 64 } s)
      else setLane n l1 s
    else s) s

/-! ### LANE_TRAIN (R134) -/

/-- LANE_TRAIN starts. Mode 1 on a locked lane finds it locked: the lane stays, and the command completes (R134). -/
def laneTrainStart (c : Cmd) (s : State) : State :=
  let n := pkInst c.packet
  let l := lane s n
  if 2 ≤ l.st ∧ l.st ≤ 5 ∨ l.st = 7 then finishCheck c stBusy s
  else if !lnOn s n then finishCheck c stBadParam s
  else
    let s0 := (beginWork c 0 s).2
    let free (s : State) : State := setLane n { lane s n with hold := false, parked := false } s
    if pm8 c.packet 0x18 = 0 then bringUpSeeds n (free (freshTimers n (leaveLocked n 4 s0)))
    else if l.st = 6 then trainDone n (free s0)
    else bringUpResume n (free (freshTimers n s0))

/-- LANE_TRAIN; it completes when the lane locks, or at LANE_TRAIN_TIMEOUT. -/
def execLaneTrain (sq : Fin 1024) (tag : W32) (s : State) : Out :=
  opcodeRow sq tag 0x0020 laneTrainStart (fun _ s => s) s

/-! ### LANE_TEST (R136 to R139) -/

/-- Is the lane bound to a running headbox, or to a felt port in service? The spec says nowhere when a felt port is in service:
it is while its link is ACTIVE (DESIGN CHOICE 86). -/
def laneInService (s : State) (n : Nat) : Bool :=
  match laneRef s n with
  | some r => if r < 32 then (port s r).running else decide ((link s r).st = 3)
  | none => false

/-- Bits of the words that a lane's transmitter sends: one 66-bit block (R121). -/
def laneWordBits : Nat := 66

/-- The generator starts: the register that it starts with is a free value other than 0 (DESIGN CHOICE 64). -/
def genStart (n pat : Nat) (s : State) : State :=
  let reg := 1 + Config.freeValue s.free % (2 ^ (prbsTaps pat).1 - 1)
  emit (.lane n 1 [pat, reg]) { setLane n { lane s n with genOn := true, genReg := reg, genNs := s.clk.ns } s with free := s.free + 1 }

/-- An injection: the first whole word after acceptance goes out with its first bit, or its first `k` bits, inverted (R139;
DESIGN CHOICE 64 says which of its bits). -/
def inject (n k : Nat) (s : State) : State :=
  let l := lane s n
  let i := (laneBits (lnRate s n) (s.clk.ns - l.genNs) + laneWordBits - 1) / laneWordBits
  let w := (prbsRun l.pattern laneWordBits (prbsJump l.pattern l.genReg (i * laneWordBits))).1
  emit (.lane n 2 [i, w ^^^ (2 ^ k - 1)]) s

/-- The functions that LANE_TEST leaves on, in state 7 (R137): a change of the pattern restarts the generator and
re-synchronises the checker; turning the checker on clears its counters. The test ends the bring-up that R129 speaks of, and
POL_INV with it (DESIGN CHOICE 105). -/
def testOn (n pat : Nat) (gen chk : Bool) (s : State) : State :=
  let l := lane s n
  let same := decide (l.st = 7 ∧ l.pattern = pat)
  let s0 := leaveLocked n 6 s
  let s1 := if same && l.chkOn && chk then s0 else prbsHold s0 n s0
  let cleared := chk && !(decide (l.st = 7) && l.chkOn)
  let l1 := { lane s1 n with st := 7, aligned := false, polInv := false, position := 0x3F, pattern := pat, chkOn := chk
                             genOn := gen && same && l.genOn, unlockNs := none, left1Ns := none, failNs := none, parked := false }
  let s2 := setLane n (if cleared then { l1 with prbsErr := 0, prbsBits := 0 } else l1) s1
  if gen && !l1.genOn then genStart n pat s2 else s2

/-- LANE_TEST starts. A lane at RATE 1 to 7 has its PRBS functions on the receive side only (R124): its generator is never
on, and one that asks for the generator alone puts the lane in state 7 with both functions off and completes OK (DESIGN CHOICE
86). A command with both functions off ends the test as pattern 0 does, and on a lane that is not in test it has no effect
(DESIGN CHOICE 63). -/
def laneTestStart (c : Cmd) (s : State) : State :=
  let n := pkInst c.packet
  let pat := pm8 c.packet 0x18
  let fn := pm8 c.packet 0x19
  let inj := pm8 c.packet 0x1A
  let burst := pm8 c.packet 0x1B
  let named := decide (pat ≠ 0) && bitOf fn 0
  let gen := named && ln66 s n
  let chk := decide (pat ≠ 0) && bitOf fn 1
  if !lnOn s n ∨ (laneInService s n ∧ (named ∨ chk)) ∨ (inj ≠ 0 ∧ !gen) ∨ (inj = 2 ∧ burst = 0) then finishCheck c stBadParam s
  else
    let s1 := (beginWork c 0 s).2
    let s2 :=
      if named ∨ chk then testOn n pat gen chk s1
      else if (lane s1 n).st = 7 then bringUpSeeds n (freshTimers n (prbsHold s1 n s1))
      else s1
    let s3 := if inj ≠ 0 then inject n (if inj = 1 then 1 else burst) s2 else s2
    match s3.cmds.flight.find? (sameCmd c) with
    | some c1 => finishOk c1 0 0 s3
    | none => s3

/-- LANE_TEST. -/
def execLaneTest (sq : Fin 1024) (tag : W32) (s : State) : Out :=
  opcodeRow sq tag 0x0021 laneTestStart (fun _ s => s) s

end Sys2Proof.Machine
end

