-- ==== Sys2Proof/Machine/MarkOps.lean ====
section
/-! DEFINITION. The watermark drive: positions, the coil model, jobs, drives, the shared switches, faults and arming
(chapter 14). -/

namespace Sys2Proof.Machine

/-- A field of Table 14.1. -/
def mkf (s : State) (n o : Nat) : Nat := cf s 0x09 n o
def mkFunction (s : State) (n : Nat) : Nat := mkf s n 0x00
def mkEnc (s : State) (n : Nat) : Nat := encMeant s (mkf s n 0x02)
def mkPeak (s : State) (n : Nat) : Nat := mkf s n 0x04
def mkHold (s : State) (n : Nat) : Nat := mkf s n 0x06
def mkArmed (s : State) (n : Nat) : Bool := bitOf s.afe.arm n

/-! ### Positions (R299, R300) -/

/-- Positions are compared in units of 1/K of 1/16 µm: V of `encV65536` is 1/65,536 of 1/16 µm per ms, times are ns or
1/64 ns. -/
def mkK : Int := 4194304000000

/-- The reading of a channel's encoder now, over K; that of a shared encoder runs on from its last sample (R419). -/
def mkE (s : State) (n : Nat) : Int :=
  let e := mkEnc s n
  let base := encE s e * mkK
  if sharedHere s e then
    match s.chain.samples with
    | x :: _ => base + encV65536 s e * (64 * (s.clk.tb : Int) - x.t)
    | [] => base
  else base

/-- v of a channel's encoder. -/
def mkV (s : State) (n : Nat) : Int := encV65536 s (mkEnc s n)

/-- E + v × T_OPEN − F_open, over K. -/
def mkLead (s : State) (n : Nat) (j : MJob) : Int :=
  mkE s n + mkV s n * (mkf s n 0x40 : Int) * 64000 - j.fOpen * mkK

/-- The lateness of a job (R300), over K. -/
def lateK (s : State) (n : Nat) (j : MJob) : Int := max 0 (mkLead s n j)

/-- A reported lateness: rounded once, halves up. -/
def lateOut (k : Int) : Nat := ((2 * k + mkK) / (2 * mkK)).toNat

/-- v times an interval in ns, over K. -/
def runK (v : Int) (ns : Nat) : Int := v * 64 * ns

/-- The tolerance of a job, over K. -/
def tolK (s : State) (n : Nat) (j : MJob) : Int := (if j.tol = 0 then mkf s n 0x20 else j.tol : Nat) * mkK

/-- The open condition of R299. -/
def openNow (s : State) (n : Nat) (j : MJob) : Bool := !encBackward s (mkEnc s n) && decide (0 ≤ mkLead s n j)

/-! ### The coil model (R297 to R299) -/

/-- COIL_RES × (1 + 0.00393 × (Tc − 20)) in mΩ × 10^−5 × 2^−40. -/
def coilR (s : State) (n : Nat) : Int :=
  (mkf s n 0x2C : Int) * (100000 * 2 ^ 40 + 393 * ((chan s n).tc - 20 * 2 ^ 40))

/-- The regulated current of R294, mA. -/
def mkReg (s : State) (n : Nat) : Nat :=
  match (chan s n).phase with
  | 1 => mkPeak s n
  | 2 => mkHold s n
  | _ => 0

/-- t_rel of R299 for a regulated current, in 2^−64 µs. -/
def relFix (s : State) (n i0 : Nat) : Nat :=
  let r := (coilR s n).toNat
  let d := 100000000 * 2 ^ 40
  let vd := mkf s n 0x3C * d
  if r = 0 then 0
  else mkf s n 0x30 * d * lnFix (i0 * r + vd) (mkf s n 0x3E * r + vd) / r

/-- E + v × (t_rel + T_CLOSE) reaches the close position within `us_` µs at the present speed (R299). -/
def closeIn (s : State) (n us_ : Nat) (k : Int) : Bool :=
  let look : Int := (relFix s n (mkReg s n) : Int) + ((mkf s n 0x42 : Int) + us_) * fixOne
  decide (k * fixOne ≤ mkE s n * fixOne + mkV s n * 64000 * look)
/-- It reaches it now. -/
def closeNow (s : State) (n : Nat) (k : Int) : Bool := closeIn s n 0 k

/-- Tc in 1/4 °C, rounded with halves up. -/
def coilQuarter (s : State) (n : Nat) : Int := (2 * (chan s n).tc * 4 + 2 ^ 40) / 2 ^ 41

/-! ### Jobs (R300 to R304) -/

/-- Cause 3 to 6 or 8 of Table 14.2 that holds for a drive start now. -/
def skipCause (s : State) (n : Nat) : Option Nat :=
  let pin := mkf s n 0x2A
  if (chan s n).inhibit then some 3
  else if bitOf s.afe.inhibit n then some 4
  else if pin ≠ 0xFF ∧ gpioIn s pin = false then some 5
  else if s.afe.held then some 6
  else if !mkArmed s n || (chan s n).fault then some 8
  else none

/-- The MARK_FIRE command of a job. -/
def jobCmd (s : State) (j : MJob) : Option Cmd := j.cid.bind fun k => s.cmds.flight.find? fun c => decide (c.cid = k)

/-- A job is skipped (R303); a MARK_FIRE completes with the lateness the mark would have had (R110). -/
def skipJob (n : Nat) (cause : Nat) (late : Int) (j : MJob) (s : State) : State :=
  let s0 := updChan n (fun c => { c with skip := satAdd 32 c.skip 1 }) s
  let s1 := { s0 with afe := { s0.afe with skips := satAdd 32 s0.afe.skips 1 } }
  let s2 := raise (198 + n) 0x02 (cause + at' 8 (j.seq % 2 ^ 24)) s1
  match jobCmd s2 j with
  | some c => finishOk c 0 (if j.now_ then 0 else lateOut late) s2
  | none => s2

/-- A job counts as fired at its drive start: MARK_LATE when it is late, and the completion of MARK_FIRE (R300, R302). -/
def fireJob (n : Nat) (late : Bool) (j : MJob) (s : State) : State :=
  let k := lateK s n j
  let s1 := if late ∧ !j.now_ then
      let s0 := updChan n (fun c => { c with late := satAdd 32 c.late 1 }) s
      raise (198 + n) 0x01 (satU 32 (lateOut k)) { s0 with afe := { s0.afe with lates := satAdd 32 s0.afe.lates 1 } }
    else s
  match jobCmd s1 j with
  | some c => finishOk c s.clk.tb (if j.now_ then 0 else lateOut k) s1
  | none => s1

/-- A discarded job: MARK_FIRE completes with ABORTED (R302). -/
def dropJob (j : MJob) (s : State) : State :=
  match jobCmd s j with
  | some c => finishErr c stAborted 0 s
  | none => s

/-- Every pending job of a channel. -/
def allJobs (c : Chan) : List MJob :=
  c.incoming ++ c.jobs ++ (match c.wait with
    | some w => w.reqs.map MReq.job
    | none => [])

/-- Pending jobs, in transit ones included. -/
def jobCount (c : Chan) : Nat := (allJobs c).length

/-- Insert in order of F_open; equal ones keep the order of hand-over. -/
def insertJob (j : MJob) : List MJob → List MJob
  | [] => [j]
  | x :: xs => if j.fOpen < x.fOpen then j :: x :: xs else x :: insertJob j xs

/-! ### Drives -/

/-- The end conditions of a job that starts or merges now: its close position, shifted by v × delay when the pulse moves
whole (R305), or PULSE_NOW (R302). -/
def endsOf (s : State) (n : Nat) (j : MJob) (shift : Int) (d0 : MDrive) : MDrive :=
  let d := { d0 with endSensed := false }
  if j.now_ then { d with minEndNs := max d.minEndNs (s.clk.ns + us (mkf s n 0x0C)) }
  else
    let k := j.fClose * mkK + shift
    { d with closeMet := false, closeK := some (match d.closeK with
      | some x => if d.closeMet then k else max x k
      | none => k) }

/-- A drive ends and enters decay for the release time of the present current (R294). -/
def endDrive (n : Nat) (s : State) : State :=
  let c := chan s n
  if c.phase = 1 ∨ c.phase = 2 then
    let dec := (relFix s n (mkReg s n) * 1000 + fixOne - 1) / fixOne
    updChan n (fun c => { c with phase := 3, drive := none, decayEndNs := s.clk.ns + dec }) s
  else s

/-- A drive that a fault of R296 ends goes straight to PHASE 0. -/
def killDrive (n : Nat) (s : State) : State :=
  let c := chan s n
  if c.phase = 1 ∨ c.phase = 2 then updChan n (fun c => { c with phase := 0, drive := none }) s else s

/-- A drive begins: it serves the jobs of a request, each with its delay. -/
def startDrive (n : Nat) (w : MWait) (s : State) : State :=
  let tp := us (mkf s n 0x08)
  let d0 : MDrive := { startNs := s.clk.ns, peakEndNs := s.clk.ns + tp, minEndNs := s.clk.ns + tp, shutter := w.shutter }
  let d := w.reqs.foldl (fun d r => endsOf s n r.job (runK r.v (s.clk.ns - r.tp)) d) d0
  let s1 := countLife (6 + n) (updChan n (fun c => { c with phase := 1, drive := some d, wait := none, fires := c.fires + 1 }) s)
  w.reqs.foldl (fun s r => fireJob n (r.first || decide (r.tp < s.clk.ns)) r.job s) s1

/-! ### Sharing a switch (R305) -/

/-- The current that channel `k` will regulate at `t`, as far as known phases run out; a placed request counts from its
start. -/
def currentAt (s : State) (k t : Nat) : Nat :=
  let c := chan s k
  let drive := match c.drive with
    | some d => if c.phase = 1 ∧ t < d.peakEndNs then mkPeak s k else mkHold s k
    | none => 0
  let placed := match c.wait with
    | some w => (match w.th with
      | some h => if h ≤ t then (if t < h + us (mkf s k 0x08) then mkPeak s k else mkHold s k) else 0
      | none => 0)
    | none => 0
  drive + placed

/-- The other channels of a switch. -/
def switchOthers (n : Nat) : List Nat := ((List.range 4).map (4 * (n / 4) + ·)).filter fun k => k ≠ n

/-- Requests of the switch that are served before one planned at `tp` on channel `n`: earlier planned, or planned at the
same tick on a lower channel. -/
def earlierWaits (s : State) (n tp : Nat) : List MWait :=
  (switchOthers n).filterMap fun k => (chan s k).wait.bind fun w =>
    if w.tp < tp ∨ (w.tp = tp ∧ k < n) then some w else none

/-- Moments from `lo` on at which the switch's current can fall or the channel become available. -/
def headroomTimes (s : State) (n lo : Nat) : List Nat :=
  let ends := (switchOthers n).flatMap fun k =>
    let c := chan s k
    (match c.drive with
      | some d => [d.peakEndNs]
      | none => []) ++ (match c.wait with
      | some w => (match w.th with
        | some h => [h + us (mkf s k 0x08)]
        | none => [])
      | none => [])
  (lo :: ends).filter fun t => decide (lo ≤ t)

/-- The least of a list. -/
def leastTime : List Nat → Option Nat
  | [] => none
  | t :: ts => some (ts.foldl min t)

/-- The earliest start at or after now that leaves headroom (R305); none while holds leave none, or while an earlier
request has no start yet. -/
def headroom (s : State) (n tp : Nat) : Option Nat :=
  let before := earlierWaits s n tp
  if before.any fun w => w.th.isNone then none
  else
    let lo := (before.filterMap MWait.th).foldl max (max s.clk.ns ((chan s n).calEndNs.getD 0))
    let fits (t : Nat) : Bool :=
      decide (((switchOthers n).map fun k => currentAt s k t).sum + mkPeak s n ≤ mkf s (16 + n / 4) 0)
    leastTime ((headroomTimes s n lo).filter fits)

/-- May the request never be skipped with cause 2? -/
def waitsForever (j : MJob) : Bool := j.now_

/-- Would a delay exceed the job's tolerance? -/
def tooLate (s : State) (n : Nat) (r : MReq) (v : Int) (at_ : Nat) : Bool :=
  !waitsForever r.job && decide (tolK s n r.job < runK v (at_ - r.tp))

/-- Skip the jobs of a request that a start at `t` would delay too far. -/
def shedLate (n : Nat) (t : Nat) (w : MWait) (s : State) : MWait × State :=
  let v := mkV s n
  let out := w.reqs.filter fun r => tooLate s n r v t
  let keep := w.reqs.filter fun r => !tooLate s n r v t
  let s1 := out.foldl (fun s r => skipJob n 2 (lateK s n r.job) r.job s) s
  ({ w with reqs := keep, tp := match keep with
    | r :: _ => r.tp
    | [] => w.tp }, s1)

/-- A request that has headroom now starts, or every job of it is skipped for a cause of Table 14.2, which are judged at the
start (R303). -/
def requestStart (n : Nat) (w : MWait) (s : State) : State :=
  match (if w.shutter then none else skipCause s n) with
  | some cause => w.reqs.foldl (fun s r => skipJob n cause (lateK s n r.job) r.job s) (updChan n (fun c => { c with wait := none }) s)
  | none => startDrive n w s

/-- A request is served: it starts now, waits for the start found, or waits for headroom. When its first job is skipped, what
remains is a request of its own, with its own planned start (R305). -/
def serveSteps (n : Nat) : Nat → MWait → State → State
  | 0, _, s => s
  | k + 1, w, s =>
    let th := headroom s n w.tp
    let (w1, s1) := shedLate n (th.getD s.clk.ns) w s
    if w1.reqs.isEmpty ∧ !w1.shutter then updChan n (fun c => { c with wait := none }) s1
    else if w1.tp ≠ w.tp then serveSteps n k w1 s1
    else if th ≠ some s.clk.ns then updChan n (fun c => { c with wait := some { w1 with th := th } }) s1
    else requestStart n w1 s1
/-- The same, with steps for every job of the request. -/
def serveWait (n : Nat) (w : MWait) (s : State) : State := serveSteps n (w.reqs.length + 1) w s

/-- A request comes to the start found for it: its delay was judged when that was found, and is not judged again (R305). Where
the headroom has gone since, it is searched anew. -/
def servePlaced (n : Nat) (w : MWait) (s : State) : State :=
  if headroom s n w.tp = some s.clk.ns then requestStart n w s else serveWait n { w with th := none } s

/-- A job's drive start falls now: it is skipped, merges with the drive in progress (R304), joins a waiting request, or
asks for a drive. -/
def driveStart (n : Nat) (late : Bool) (j : MJob) (s : State) : State :=
  match skipCause s n with
  | some c => skipJob n c (lateK s n j) j s
  | none =>
    let c := chan s n
    match c.drive with
    | some d => fireJob n late j (updChan n (fun c => { c with drive := some (endsOf s n j 0 d) }) s)
    | none =>
      let r : MReq := ⟨j, s.clk.ns, mkV s n, late⟩
      match c.wait with
      | some w =>
        -- a start found already is judged for it at once
        if w.th.any (tooLate s n r r.v) then skipJob n 2 (lateK s n j) j s
        else updChan n (fun c => { c with wait := some { w with reqs := w.reqs ++ [r] } }) s
      | none => serveWait n { tp := s.clk.ns, reqs := [r] } s

/-- The jobs of a channel whose open condition holds now, in order of F_open; mode 1 jobs are due at once. -/
def dueJobs (s : State) (n : Nat) : List MJob := (chan s n).jobs.filter fun j => j.now_ || openNow s n j

/-- A job's drive start falls at its first evaluation: it is skipped with cause 1 when it comes too late, else it starts late
(R300, R303). -/
def firstLook (n : Nat) (j : MJob) (s : State) : State :=
  if tolK s n j < lateK s n j then skipJob n 1 (lateK s n j) j s else driveStart n true j s

/-- A job is due at a tick. -/
def jobDue (n : Nat) (j : MJob) (s : State) : State := if j.now_ || j.seen then driveStart n false j s else firstLook n j s

/-- What a tick with the encoder moving forward leaves pending has been evaluated. -/
def jobsSeen (n : Nat) (s : State) : State :=
  if encBackward s (mkEnc s n) then s
  else updChan n (fun c => { c with jobs := c.jobs.map fun j => if j.now_ || openNow s n j then j else { j with seen := true } }) s

/-- The close position of a drive past T_PEAK, once a tick has found it reached, stays so (R299, R304). -/
def closeLook (n : Nat) (s : State) : State :=
  match (chan s n).drive with
  | none => s
  | some d =>
    if (chan s n).phase = 2 ∧ !d.shutter ∧ !d.closeMet ∧ d.closeK.any (closeNow s n) then
      updChan n (fun c => { c with drive := some { d with closeMet := true } }) s
    else s

/-- Every 1 µs the comparators evaluate what is pending and what is driven (R299). -/
def comparatorsLook (s : State) : State :=
  if s.clk.ns % 1000 = 0 then
    (List.range 16).foldl (fun s n => closeLook n (if (chan s n).jobs.isEmpty then s else jobsSeen n s)) s
  else s

/-- A comparator tick evaluates a channel's pending jobs. -/
def tickJobs (n : Nat) (s : State) : State :=
  jobsSeen n ((dueJobs s n).foldl (fun s j => jobDue n j (updChan n (fun c => { c with jobs := c.jobs.erase j }) s)) s)

/-- The due jobs of the lower channels of a switch: those of one tick are served in ascending channel order (R305). -/
def tickLower (n : Nat) (s : State) : State :=
  ((List.range (n % 4)).map (4 * (n / 4) + ·)).foldl (fun s k => tickJobs k s) s

/-- A comparator tick at a channel. -/
def tickSwitch (n : Nat) (s : State) : State := tickJobs n (tickLower n s)

/-- The first job on its way reaches the comparators and is evaluated for the first time (R301, R303); while the encoder moves
backward it waits for the first forward tick (R421). -/
def jobArrives (n : Nat) (s : State) : State :=
  match (chan s n).incoming with
  | [] => s
  | j :: rest =>
    let s1 := updChan n (fun c => { c with incoming := rest }) s
    if j.now_ then driveStart n false j (tickLower n s1)
    else if openNow s1 n j then firstLook n j (tickLower n s1)
    else
      let j1 := { j with seen := !encBackward s1 (mkEnc s1 n) }
      updChan n (fun c => { c with jobs := insertJob j1 c.jobs }) s1

/-- The loss of the shared encoder: what is pending on it is evaluated for the first time again after its return (R421). -/
def jobsUnseen (s : State) : State :=
  (List.range 16).foldl (fun s n => if sharedHere s (mkEnc s n) then
    updChan n (fun c => { c with jobs := c.jobs.map fun j => { j with seen := false } }) s else s) s

/-- A job is handed to a channel: 256 pending at most (R301). One that finds the AFE link out is discarded, as those pending
when it failed (R8, DESIGN CHOICE 90). -/
def handJob (n : Nat) (j : MJob) (s : State) : State :=
  if s.afe.linkLost then dropJob j s
  else if 256 ≤ jobCount (chan s n) then skipJob n 7 (lateK s n j) j s
  else updChan n (fun c => { c with incoming := c.incoming ++ [j] }) s

/-- A record of a live component makes one job on each channel that covers it (R301). -/
def recordJobs (r : RecFields) (dev : Nat) (s : State) : State :=
  (List.range 16).foldl (fun s n =>
    let left := cfS s 0x09 n 0x18 4
    let right := cfS s 0x09 n 0x1C 4
    if mkFunction s n = 1 ∧ mkArmed s n ∧ bitOf (mkf s n 0x28) r.cls ∧ left ≤ r.right ∧ r.left ≤ right then
      let o := r.md + cfS s 0x09 n 0x10 8
      handJob n { fOpen := o, fClose := o + max r.len (mkf s n 0x24), seq := dev % 2 ^ 24 } s
    else s) s

/-! ### Arming and faults (R292, R296) -/

/-- Set or clear a channel's ARM bit. -/
def setArm (n : Nat) (b : Bool) (s : State) : State := { s with afe := { s.afe with arm := setBitN s.afe.arm n b } }

/-- Every pending job of a channel is skipped with cause 8. -/
def skipAll (n : Nat) (s : State) : State :=
  let js := allJobs (chan s n)
  js.foldl (fun s j => skipJob n 8 (lateK s n j) j s) (updChan n (fun c => { c with incoming := [], jobs := [], wait := none }) s)

/-- A channel is disarmed by a host write, a commit or a fault of R296. -/
def disarm (n : Nat) (s : State) : State :=
  shutCut n (skipAll n (endDrive n (setArm n false s)))

/-- Every drive ends and every job is discarded without MARK_SKIPPED: R8, R28 and R352. A closure whose channel goes off
fails (R222). -/
def discardAll (clearArm : Bool) (s : State) : State :=
  (List.range 16).foldl (fun s n =>
    let js := allJobs (chan s n)
    let s1 := endDrive n (updChan n (fun c => { c with incoming := [], jobs := [], wait := none }) s)
    shutCut n (js.foldl (fun s j => dropJob j s) (if clearArm then setArm n false s1 else s1))) s

/-- A fault of R296 on a channel. -/
def faultChan (n : Nat) (s : State) : State :=
  shutCut n (skipAll n (updChan n (fun c => { c with fault := true }) (setArm n false (killDrive n s))))

/-- A host write of 1 to a channel's ARM bit: it clears FAULT (R296); the bit stays 0 while FUNCTION is 0 or XTAL_FAIL is 1;
after R8 it takes effect when the link has been valid for 1 ms. -/
def armOne (n : Nat) (s : State) : State :=
  let s1 := updChan n (fun c => { c with fault := false }) s
  if mkFunction s n = 0 ∨ s.clk.xtalFail then s1
  else
    if s.afe.linkLost then { s1 with afe := { s1.afe with armWait := setBitN s1.afe.armWait n true } }
    else setArm n true s1

/-- A write of MRK_ARM. -/
def armWrite (v : Nat) (s : State) : State :=
  (List.range 16).foldl (fun s n =>
    if bitOf v n then armOne n s
    else
      let s1 := { s with afe := { s.afe with armWait := setBitN s.afe.armWait n false } }
      if mkArmed s1 n then disarm n s1 else s1) s

/-- A group has brought channel fields into force: arming, and what a change of FUNCTION or PAIR does (R292, R297,
R303). `f` is the FUNCTION that the group holds, and `old` the state before. -/
def markTook (n : Nat) (f : Option Nat) (old s : State) : State :=
  let changed := decide (mkFunction old n ≠ mkFunction s n) || decide (mkf old n 1 ≠ mkf s n 1)
  let s1 := if changed then skipAll n s else s
  let s2 := if mkFunction old n = 0 ∧ mkFunction s n ≠ 0 then
      updChan n (fun c => { c with tc := cfS s 0x09 n 0x38 2 * 2 ^ 40, peakFull := true }) s1
    else s1
  match f with
  | none => s2
  | some v =>
    if v = 0 then
      let s3 := { s2 with afe := { s2.afe with armWait := setBitN s2.afe.armWait n false } }
      if mkArmed s3 n then disarm n s3 else s3
    else if mkf s2 n 3 = 1 ∧ !s2.clk.xtalFail then
      setArm n true s2
    else s2

/-! ### Shutters (R306) -/

/-- A dryer port asks for its shutter channel to be driven; a drive that runs out its T_PEAK goes on. -/
def shutDrive (n : Nat) (s : State) : State :=
  match (chan s n).drive with
  | some d => updChan n (fun c => { c with drive := some { d with shutter := true } }) s
  | none => serveWait n { tp := s.clk.ns, shutter := true } (tickLower n s)

/-- The port releases the channel; its drive lasts at least T_PEAK (R294). -/
def shutRelease (n : Nat) (s : State) : State :=
  let s1 := updChan n (fun c => { c with wait := none }) s
  match (chan s n).drive with
  | some d =>
    if s.clk.ns < d.peakEndNs then updChan n (fun c => { c with drive := some { d with shutter := false } }) s1 else endDrive n s1
  | none => s1

/-- A drive of a shutter channel that is cut reports to its port. -/
def cutDrive (n : Nat) (s : State) : State :=
  shutCut n (endDrive n (updChan n (fun c => { c with wait := c.wait.filter fun w => !w.shutter }) s))

/-! ### The coil (R297, R298) -/

/-- A drive ends at once when Tc reaches T_LIMIT + 10 °C (R298). -/
def coilCut (n : Nat) (s : State) : State :=
  if (chan s n).drive.isSome ∧ (cfS s 0x09 n 0x3A 2 + 10) * 2 ^ 40 ≤ (chan s n).tc then cutDrive n s else s

/-- INHIBIT and INHIBIT_END at an update, and the cut. -/
def coilJudge (n : Nat) (s : State) : State :=
  let c := chan s n
  let lim := cfS s 0x09 n 0x3A 2
  let hyst : Int := mkf s n 0x2B
  let d := ofS 32 (coilQuarter s n)
  let s1 := if !c.inhibit ∧ lim * 2 ^ 40 ≤ c.tc then raise (198 + n) 0x03 d (updChan n (fun c => { c with inhibit := true }) s)
    else if c.inhibit ∧ c.tc ≤ (lim - hyst) * 2 ^ 40 then raise (198 + n) 0x04 d (updChan n (fun c => { c with inhibit := false }) s)
    else s
  coilCut n s1

/-- Tc starts at T_AMB at ready (R297). -/
def coilReady (s : State) : State :=
  (List.range 16).foldl (fun s n => if mkFunction s n = 0 then s else updChan n (fun c => { c with tc := cfS s 0x09 n 0x38 2 * 2 ^ 40 }) s) s

/-- One update of a channel's coil temperature. -/
def coilStep (n : Nat) (s : State) : State :=
  if mkFunction s n = 0 then s
  else
    let i := mkReg s n
    let heat := (i : Int) * i * coilR s n * (mkf s n 0x34 : Int) / 10 ^ 16
    let tc := (chan s n).tc
    let a := expGap (1000 * mkf s n 0x36)
    coilJudge n (updChan n (fun c => { c with tc := tc + (cfS s 0x09 n 0x38 2 * 2 ^ 40 + heat - tc) * a / fixOne }) s)

/-- A measurement of current (1/4,096 of 6,000 mA) and voltage (1/4,096 of 48,000 mV) has come in (R297, R316). V ÷ I
has no value at I = 0: R_MEAS is then a free value (31). -/
def coilMeasured (n iv vv : Nat) (s : State) : State :=
  let ima := (2 * iv * 6000 + 4096) / 8192
  let rm := if iv = 0 then Config.freeValue s.free % 2 ^ 32 else satU 32 ((2 * vv * 48000 * 1000 + iv * 6000) / (2 * iv * 6000))
  let s0 := if iv = 0 then { s with free := s.free + 1 } else s
  let s1 := updChan n (fun c => { c with iMeas := ima, rMeas := rm }) s0
  if 20 * 4096 ≤ iv * 6000 ∧ mkFunction s n ≠ 0 then
    -- Tc = 20 + (V ÷ I ÷ COIL_RES − 1) ÷ 0.00393; V ÷ I = 8,000 × vv ÷ iv mΩ
    let den : Int := iv * mkf s n 0x2C * 393
    let num : Int := (8000 * (vv : Int) - iv * mkf s n 0x2C) * 100000 * 2 ^ 40
    coilCut n (updChan n (fun c => { c with tc := 20 * 2 ^ 40 + num / max 1 den }) s1)
  else s1

end Sys2Proof.Machine
end

