-- ==== Sys2Proof/Machine/DryerOps.lean ====
section
/-! DEFINITION. Dryer ports: timing, biases, ROIC writes, the DC-blocking stage, the thermal pipe, tables, closures and
settings (chapter 10). -/

namespace Sys2Proof.Machine

/-! ### Frame geometry (R199, R200) -/

def dpTaps (s : State) (p : Nat) : Nat := max 1 (dpc s p 0x01)
def dpCols (s : State) (p : Nat) : Nat := dpc s p 0x04
def dpRows (s : State) (p : Nat) : Nat := dpc s p 0x06
/-- W: active pixels per tap and row. -/
def dpW (s : State) (p : Nat) : Nat := dpCols s p / dpTaps s p
/-- Pixel clocks of a row period. -/
def dpClocks (s : State) (p : Nat) : Nat := dpc s p 0x08 + dpW s p + dpc s p 0x0A
/-- Sample periods of a frame: a time is this over SAMPLE_KHZ, in ms. -/
def dpFrameSamples (s : State) (p : Nat) : Nat := (dpRows s p + dpc s p 0x0C) * dpClocks s p * 2 ^ dpc s p 0x03
/-- Whole frames that cover a time in µs (R218). -/
def dpFramesFor (s : State) (p t : Nat) : Nat :=
  let d := dpFrameSamples s p * 1000
  if d = 0 then 0 else (t * dpc s p 0x10 + d - 1) / d
/-- The column of pixel `j` of tap `t` (TAP_ORDER). -/
def dpColumn (s : State) (p t j : Nat) : Nat := if dpc s p 0x02 = 0 then j * dpTaps s p + t else t * dpW s p + j

/-! ### Biases (R201) -/

/-- Bias outputs now, in steps, on their way from `biasFrom` to `biasTo`. -/
def biasNow (s : State) (p : Nat) : List Nat :=
  let d := dry s p
  match d.rampNs with
  | none => d.biasTo
  | some t =>
    -- BIAS_RAMP mV per ms is BIAS_RAMP × 65,536 ÷ 4,800 steps per ms
    let moved := (s.clk.ns - t) * dpc s p 0x30 * 65536 / 4800000000
    List.zipWith (fun a b => if a ≤ b then min b (a + moved) else max b (a - moved)) d.biasFrom d.biasTo

/-- A new BIAS_RAMP holds from now on: the move in progress goes on from where the outputs stand. -/
def biasRebase (p : Nat) (s : State) : State :=
  updDry p (fun d => { d with biasFrom := if d.rampNs.isSome then biasNow s p else d.biasFrom
                              rampNs := d.rampNs.map fun _ => s.clk.ns }) s

/-- The bias outputs start moving to new targets. -/
def biasMove (p : Nat) (target : List Nat) (s : State) : State :=
  updDry p (fun d => { d with biasFrom := biasNow s p, biasTo := target, rampNs := some s.clk.ns }) s

/-- BIAS[0..7]. -/
def biasFields (s : State) (p : Nat) : List Nat := (List.range 8).map fun b => dpc s p (0x20 + 2 * b)

/-! ### ROIC frames (R327) -/

/-- The `n` low bytes of a value, most significant first. -/
def msbBytes (n v : Nat) : List Byte := (leBytes n v).reverse

/-- A write or read of `w` bytes of an ROIC register as a frame of ROIC_SP. -/
def roicFrame (s : State) (p kind seq w addr value : Nat) : SpFrame :=
  let n := dpc s p 0x5E
  let read := decide (kind = 3)
  let cmd := msbBytes (spf s n 0x0C / 8) (spf s n (if read then 0x0A else 0x08))
  let ad := msbBytes (spf s n 0x0D / 8) addr
  let data := if read then [] else if spf s n 6 = 0 then leBytes w value else msbBytes w value
  { kind := kind, port := p, seq := seq, cmd := cmd, addr := ad, out := data, inLen := if read then w else 0
    dummy := if read then spf s n 0x0E else 0
    sel := if dpc s p 0x5F = 0xFF then none else some (dpc s p 0x5F) }

/-- Queue an ROIC frame. -/
def roicSend (p kind seq w addr value : Nat) (s : State) : State :=
  spQueue (dpc s p 0x5E) (roicFrame s p kind seq w addr value) s

/-! ### Tables (R213) -/

def tblP (s : State) (p : Nat) : Nat := dpCols s p * dpRows s p
/-- g: bytes of a per-pixel table, rounded up to 4 KiB. -/
def tblG (s : State) (p : Nat) : Nat := (2 * tblP s p + 4095) / 4096 * 4096
/-- m: bytes of a bad-pixel map, rounded up. -/
def tblM (s : State) (p : Nat) : Nat := ((tblP s p + 7) / 8 + 4095) / 4096 * 4096
/-- B: bytes of a bank. -/
def tblB (s : State) (p : Nat) : Nat := 3 * tblG s p + tblM s p + 12288
/-- HBM address of the item of a bank: 0 gain, 1 offset, 2 drift, 3 bad pixels, 4 LUT. -/
def tblAddr (s : State) (p bank i : Nat) : Nat :=
  dpc s p 0x78 + bank * tblB s p + (if i < 4 then i * tblG s p else 3 * tblG s p + tblM s p)
/-- HBM address of the residual table (R219). -/
def resAddr (s : State) (p : Nat) : Nat := dpc s p 0x78 + 2 * tblB s p

/-- State of an item. -/
def dTab (s : State) (p bank i : Nat) : Nat := tblGet 0 (dry s p).tabs (bank * 5 + i)
/-- Is an item VALID? -/
def dValid (s : State) (p bank i : Nat) : Bool := decide (dTab s p bank i = 2)
/-- Set the state of an item. -/
def setDTab (p bank i st : Nat) (s : State) : State :=
  updDry p (fun d => { d with tabs := tblSet d.tabs (bank * 5 + i) st }) s

/-- The bank in force. -/
def dBank (s : State) (p : Nat) : Nat := dpc s p 0x35
/-- G[i], O[i], Cd[i] and the bad-pixel bit of a pixel under the bank in force; an item that is not VALID acts as
EMPTY (R213). -/
def gainOf (s : State) (p i : Nat) : Nat :=
  if dValid s p (dBank s p) 0 then hbmLe s (tblAddr s p (dBank s p) 0 + 2 * i) 2 else 16384
def offsetOf (s : State) (p i : Nat) : Int :=
  if dValid s p (dBank s p) 1 then toS 16 (hbmLe s (tblAddr s p (dBank s p) 1 + 2 * i) 2) else 0
def driftOf (s : State) (p i : Nat) : Int :=
  if dValid s p (dBank s p) 2 then toS 16 (hbmLe s (tblAddr s p (dBank s p) 2 + 2 * i) 2) else 0
def badOf (s : State) (p i : Nat) : Bool :=
  dValid s p (dBank s p) 3 && bitOf (hbmLe s (tblAddr s p (dBank s p) 3 + i / 8) 1) (i % 8)
/-- T_REF in force; with an EMPTY offset table it is the present FPA temperature. -/
def tRefOf (s : State) (p : Nat) (t : Int) : Int :=
  if dValid s p (dBank s p) 1 then tblGet 0 (dry s p).tabRef (dBank s p) else t

/-! ### The thermal pipe (R209 to R211) -/

/-- What is in force for pixel i. -/
def pixTab (s : State) (p i : Nat) : PixTab := ⟨gainOf s p i, offsetOf s p i, driftOf s p i, badOf s p i⟩

/-- The scale of y: 16,384 × 64,000 × 2. -/
def yScale : Int := 2 * 16384 * 64000

/-- y of a pixel before R210, over `yScale`, under the tables of its row. -/
def pixelY (k : PixTab) (v t tref : Int) : Int := 2 * (k.gain : Int) * (64000 * (v - k.ofs) - k.drift * (t - tref))

/-- R210 for column x: neighbours are read before replacement. -/
def replaceY (ys : List (Option Int)) (prev : List (Option Int)) (x : Nat) : Option Int :=
  match ys.getD x none with
  | some y => some y
  | none =>
    let l := if x = 0 then none else ys.getD (x - 1) none
    let r := ys.getD (x + 1) none
    match l, r with
    | some a, some b => some ((a + b) / 2)
    | some a, none => some a
    | none, some b => some b
    | none, none => prev.getD x none

/-- R211 and the final rounding, with the LUT given. -/
def lutMap (lut : Nat → Nat) (y : Int) : Nat :=
  let u := clampI 0 (65535 * yScale) (y + 32768 * yScale)
  let k := (u / (16 * yScale)).toNat
  let f := u % (16 * yScale)
  let a : Int := lut k
  let b : Int := lut (k + 1)
  let d := 16 * yScale
  let v := (2 * (a * d + (b - a) * f) + d) / (2 * d)
  (clampI 1 65535 v).toNat

/-- The LUT in force, when its item is VALID. -/
def lutList (s : State) (p : Nat) : Option (List Nat) :=
  let b := dBank s p
  if dValid s p b 4 then some ((List.range 4097).map fun k => hbmLe s (tblAddr s p b 4 + 2 * k) 2) else none

/-- The entries of a row's LUT. The manual gives a LUT that is not VALID no identity: its entries are free values
(DESIGN CHOICE 32). -/
def lutAt (free : Nat) (lut : Option (List Nat)) (k : Nat) : Nat :=
  match lut with
  | some l => l.getD k 0
  | none => Config.freeValue (free + k) % 65536

/-- y of every pixel of a row before R210. -/
def rowYs (r : DRow) : List (Option Int) :=
  (List.range r.px.length).map fun x => match r.bad.getD x true, r.tabs[x]? with
    | false, some k => if k.bad then none else some (pixelY k (r.px.getD x 0) r.t r.tref)
    | _, _ => none

/-- The pipe takes the first row of the FIFO, once its stamp is known, under the tables of the row's frame. -/
def pipeRow (p : Nat) (s : State) : State :=
  match (dry s p).fifo with
  | [] => s
  | r :: rest =>
    if !r.stamped then s
    else
      let missing := bitOf r.flags 0
      let n := if missing then dpCols s p else r.px.length
      let ys := (List.range n).map (replaceY (rowYs r) (if r.row = 0 then [] else (dry s p).prevY))
      let temps : List Int := if missing then List.replicate n 0 else ys.map fun y => match y with
        | some v => (lutMap (lutAt s.free r.lut) v : Int)
        | none => 0
      let s1 := updDry p (fun d => { d with fifo := rest, prevY := if missing then d.prevY else ys
                                            out := d.out ++ [{ r with px := temps, bad := [], tabs := [], lut := none }] }) s
      passTokens (19 + p) n (if missing ∨ r.lut.isSome then s1 else { s1 with free := s1.free + 4097 })

/-! ### DC blocking (R205 to R207) -/

/-- Unsettled outputs after a restart, Table 10.2. -/
def unsettledCount (dec : Nat) : Nat := [4, 10, 20, 40].getD dec 4

/-- Time of the unsettled outputs after a restart, ns. -/
def unsettledNs (s : State) (p : Nat) : Nat :=
  (unsettledCount (dpc s p 0x03) * 2 ^ dpc s p 0x03 * 1000000 + dpc s p 0x10 - 1) / max 1 (dpc s p 0x10)

/-- Is output `j` of a row, counted from its first blind output, unsettled? -/
def unsettledAt (s : State) (p : Nat) (e : DcEst) (tl j : Nat) : Bool :=
  match e.restart with
  | none => false
  | some r =>
    let dec := dpc s p 0x03
    -- times over SAMPLE_KHZ: a sample period is 10^6 ÷ SAMPLE_KHZ ns
    let t := tl * dpc s p 0x10 + (dpc s p 0x0F + j * 2 ^ dec) * 1000000
    decide (t < r * dpc s p 0x10 + unsettledCount dec * 2 ^ dec * 1000000)

/-- Restart a channel's chain. -/
def restartEst (s : State) (e : DcEst) : DcEst := { e with e := none, last := e.e.getD e.last, restart := some s.clk.tb }

/-- Restart the chains of a port. A channel that calibrates stays unsettled until its own restart (R362). -/
def restartAll (p : Nat) (s : State) : State :=
  let again (e : DcEst) : DcEst := { restartEst s e with restart := some (max s.clk.tb (e.restart.getD 0)) }
  updDry p (fun d => { d with est := (List.range 16).map fun c => (c, again (tblGet {} d.est c)) }) s

/-- The estimate is held: BLOCK_FREEZE, or a closure (R207). -/
def estFrozen (s : State) (p : Nat) : Bool := decide (dpc s p 0x34 = 1) || dryShut s p

/-- A code of −8,192 or +8,191 is saturated (R203). -/
def codeSat (c : BitVec 14) : Bool := decide (c.toInt = -8192 ∨ c.toInt = 8191)

/-- An output is saturated when any code within its FIR span was (R204). -/
def outSat (o : TapOut) : Bool := o.codes.any codeSat

/-- An output in counts of 1/4 LSB: 4 × the code of a steady span (the DC gain, R204), else what the filters give. -/
def outValue (o : TapOut) : Int :=
  match o.codes with
  | c :: cs => if cs.all fun d => decide (d = c) then 4 * c.toInt else o.filtered.toInt
  | [] => o.filtered.toInt

/-- The estimate after a row's blind outputs (value, saturated), and whether one was saturated. -/
def estStep (s : State) (p tl : Nat) (e : DcEst) (blind : List (Int × Bool)) : DcEst :=
  let sat := blind.any Prod.snd
  let good := ((List.range blind.length).zip blind).filterMap fun x =>
    if unsettledAt s p e tl x.1 ∨ x.2.2 then none else some x.2.1
  let e1 := { e with refSat := sat, unset := (List.range blind.length).all fun j => unsettledAt s p e tl j }
  if sat ∨ good.isEmpty ∨ estFrozen s p then e1
  else
    let n : Int := good.length
    let sum := good.sum
    match e.e with
    | none => { e1 with e := some ((2 * sum * 256 + n) / (2 * n)), last := (2 * sum * 256 + n) / (2 * n) }
    | some v =>
      let d := n * 2 ^ dpc s p 0x33
      let w := (2 * (v * d + (sum * 256 - n * v)) + d) / (2 * d)
      { e1 with e := some w, last := w }

/-- An active output less the estimate, rounded with halves up and clamped (R206). -/
def blocked (e : DcEst) (v : Int) : Int := clampI (-32768) 32767 ((2 * (v * 256 - e.e.getD e.last) + 256) / 512)

/-! ### Closures (R217 to R224) -/

/-- SHUT_CHAN and SHUT_SENSE. -/
def shutChan (s : State) (p : Nat) : Nat := dpc s p 0x37
def shutSense (s : State) (p : Nat) : Option Bool :=
  if dpc s p 0x38 = 0xFF then none else some (gpioIn s (dpc s p 0x38))

/-- The automatic inhibit in effect (R223). -/
def autoInhibit (s : State) (p : Nat) : Bool := (dry s p).inhibit || bitOf s.afe.shutOvr p

/-- Age a in ns. -/
def dryAge (s : State) (p : Nat) : Nat := s.clk.tb - (dry s p).tr

/-- P in 10^−15 K. -/
def dryPred (s : State) (p : Nat) : Nat :=
  let d := dry s p
  d.q * (d.t - tRefOf s p d.t).natAbs * 1000000000 + dpc s p 0x46 * dryAge s p

/-- The automatic reasons that hold (Table 10.5). -/
def autoReason (s : State) (p : Nat) : Option Nat :=
  let d := dry s p
  let a := dryAge s p
  let dt := (d.t - tRefOf s p d.t).natAbs
  let old := decide (sec (dpc s p 0x42) ≤ a)
  if dpc s p 0x39 = 0 ∨ autoInhibit s p ∨ s.clk.ns < d.quietNs then none
  else if old ∧ d.lastRms ≠ 0xFFFF ∧ dpc s p 0x3C * 10000000000000 < dryPred s p then some 1
  else if sec (dpc s p 0x40) ≤ a then some 2
  else if old ∧ dpc s p 0x3E * 10 < dt then some 3
  else none

/-- Join a request with its reason: the lowest number that holds. -/
def joinReason (r : Option Nat) (new : Option Nat) : Option Nat :=
  match r, new with
  | some a, some b => some (min a b)
  | some a, none => some a
  | none, b => b

/-- T of a sync: FPA_T_OFFSET + FPA_T_SLOPE × code ÷ 65,536, from a result without TEST of the last 10 ms (R216, R319), to
a whole mK with halves up (DESIGN CHOICE 100). -/
def fpaNow (s : State) (p : Nat) : Option Int :=
  let r := tblGet {} (hk s (dpc s p 0x5C)).res (dpc s p 0x5D)
  match r.goodNs with
  | some t => if s.clk.ns < t + ms 10 then
      some (toS 32 (dpc s p 0x54) + (2 * toS 32 (dpc s p 0x58) * (r.goodVal : Int) + 65536) / 131072)
    else none
  | none => none

/-- With TIMING_MASTER 0 the device drives FSYNC itself: a frame's sync falls a frame period after the last. -/
def syncEarly (s : State) (p : Nat) : Bool :=
  match (dry s p).frame with
  | some f => decide (dpc s p 0x0E = 0) &&
      decide (s.clk.ns * dpc s p 0x10 < f.syncNs * dpc s p 0x10 + dpFrameSamples s p * 1000000)
  | none => false

/-- Has a port a frame sync yet to come at this very instant: one that its own timing gives, or a FRAME_SYNC that waits? No
time passes while a command waits. -/
def syncToCome (s : State) (q : Nat) : Bool :=
  (match (dry s q).frame with
    | some f => decide (dpc s q 0x0E = 0)
        && decide (f.syncNs * dpc s q 0x10 + dpFrameSamples s q * 1000000 = s.clk.ns * dpc s q 0x10)
    | none => false)
  || !syncEarly s q && s.pending.any fun i => match i with
    | .frameSync r => decide (r.val = q)
    | _ => false

/-- Is the shutter channel refused at F_c: ARM 0 or inhibited (R222 cause 3, R306)? -/
def shutRefused (s : State) (p : Nat) : Bool := !mkArmed s (shutChan s p) || (chan s (shutChan s p)).inhibit

/-- Does a port's first viewed frame begin, or its closure end with its run, at its sync of this very instant, which is still to
come? -/
def viewsNow (s : State) (q : Nat) : Bool :=
  match (dry s q).closure with
  | some c => syncToCome s q && ((dry s q).stopping
      || (decide (shutSense s q ≠ some true) && (decide (c.step = 7) || (decide (c.step = 4) && decide (c.left ≤ 1)))))
  | none => false

/-- Is a port between its F_c and its first viewed frame, or does it hold its shutter closed (R221)? -/
def dryBars (s : State) (q : Nat) : Bool := dryShut s q && !viewsNow s q

/-- Would a port start a closure at its sync of this instant (R221)? The first argument bounds the chain of lower ports. -/
def wouldStart : Nat → State → Nat → Bool
  | 0, _, _ => false
  | n + 1, s, q =>
    let s1 := updDry q (fun d => { d with t := (fpaNow s q).getD d.t }) s
    (dry s q).running && decide ((dry s q).st = 3) && !(dry s q).stopping && !dryShut s q && syncToCome s q
      && (joinReason (dry s q).req (autoReason s1 q)).isSome && !shutRefused s q
      && !(List.range 4).any fun r => bitOf (dpc s q 0x3A) r && decide (r ≠ q) && (dryBars s r || (decide (r < q) && wouldStart n s r))

/-- Does an interlocked neighbour bar a start now (R221): one that is shut, or a lower port that starts at this instant? -/
def interlocked (s : State) (p : Nat) : Bool :=
  (List.range 4).any fun q => bitOf (dpc s p 0x3A) q && decide (q ≠ p) && (dryBars s q || (decide (q < p) && wouldStart 4 s q))

/-- Commands with the listed numbers complete. -/
def finishCids (cids : List Nat) (status result position : Nat) (s : State) : State :=
  cids.foldl (fun s k => match s.cmds.flight.find? fun c => decide (c.cid = k) with
    | some c => if status = stOk then finishOk c result position s else finish c status (percentOf c) result position s
    | none => s) s

/-- A closure begins at F_c (R218). -/
def closureStart (p : Nat) (s : State) : State :=
  let d := dry s p
  let reason := d.req.getD 4
  let m := dpFramesFor s p (dpc s p 0x48)
  let c : Closure := { reason := reason, left := m, settle := dpFramesFor s p (dpc s p 0x4C), reopen := dpFramesFor s p (dpc s p 0x50)
                       hold := d.reqHold, holdCids := d.reqHoldCids, cids := d.reqCids }
  let s1 := updDry p (fun d => { d with
    closure := some c, req := none, reqCids := [], reqHoldCids := [], reqHold := false, reqNoted := false, waiting := false
    startDue := false, due := d.due ++ [.blind], reason := reason, closures := satAdd 32 d.closures 1 }) s
  let s2 := countLife (2 + p) (raise (121 + p) 0x04 reason s1)
  if s2.afe.held || s2.afe.linkLost then shutCut (shutChan s2 p) s2 else shutDrive (shutChan s2 p) s2

/-- A set request tries to start its closure at a frame sync. -/
def closureTry (p : Nat) (s : State) : State :=
  if (dry s p).req.isNone then updDry p (fun d => { d with waiting := false, reqNoted := false }) s
  else if interlocked s p then updDry p (fun d => { d with waiting := true }) s
  else if shutRefused s p then
    let s1 := updDry p (fun d => { d with waiting := false, reqNoted := true }) s
    if (dry s p).reqNoted then s1 else shutFault p 3 s1
  else closureStart p s

/-- The pixels that R219 averages over: neither bad (R210: listed, or unsettled in an averaged frame) nor saturated, and
read in every averaged frame. -/
def closureGood (s : State) (p : Nat) (c : Closure) (i : Nat) : Bool :=
  !c.sat.getD i false && !c.unset.getD i false && !c.miss.getD i false && !badOf s p i

/-- Round a quotient of integers with halves up, for a positive or negative divisor. -/
def rhuDiv (a b : Int) : Int := if b = 0 then 0 else if b < 0 then (2 * (-a) - b) / (2 * (-b)) else (2 * a + b) / (2 * b)

/-- The end of averaging (R214, R219, R220): new offsets, T_REF, residuals, LAST_RMS and Q. T_k is a whole mK, halves up (DESIGN
CHOICE 101). An offset whose pixel has
gain 0 or was not read in every averaged frame, every offset where no pixel is good, and the rms of no pixel are free values
(log entry 40). -/
def closureMeasure (p : Nat) (c : Closure) (s : State) : State :=
  let n := tblP s p
  let b := dBank s p
  let d := dry s p
  let good := (List.range n).filter (closureGood s p c)
  -- A over 16 × 16,384 × |good|
  let sumA : Int := (good.map fun i => (gainOf s p i : Int) * c.sums.getD i 0).sum
  let cnt : Int := good.length
  let tk := rhuDiv c.tSum 16
  let told := tRefOf s p tk
  -- O' = M − A × 16,384 ÷ G = (sum × cnt × G − sumA) ÷ (16 × cnt × G)
  let newO (i : Nat) : Int :=
    let g : Int := gainOf s p i
    if c.sat.getD i false then offsetOf s p i
    else if cnt = 0 ∨ g = 0 ∨ c.miss.getD i false then toS 16 (Config.freeValue (s.free + i) % 65536)
    else clampI (-32768) 32767 (rhuDiv (c.sums.getD i 0 * cnt * g - sumA) (16 * cnt * g))
  let os := (List.range n).map newO
  let drawn : Nat := if good.isEmpty || (List.range n).any fun i => gainOf s p i == 0 || c.miss.getD i false then n + 1 else 0
  -- residual over 64,000
  let res (i : Nat) : Int := 64000 * (os.getD i 0 - offsetOf s p i) - driftOf s p i * (tk - told)
  let again := d.closed.contains b
  -- rms of r × G ÷ 16,384 ÷ (RESP ÷ 16), squared sum over cnt
  let den : Nat := 64000 * 1024 * max 1 (dpc s p 0x44)
  let ss : Nat := (good.map fun i => (res i * gainOf s p i).natAbs ^ 2).sum
  let free := Config.freeValue (s.free + n)
  -- √(ss ÷ cnt) × k ÷ (den × m), rounded once with halves up
  let rounded (k m : Nat) : Nat :=
    if good.isEmpty then (2 * free * k / 1000000 / m + 1) / 2
    else (isqrt (4 * ss * k ^ 2 / (good.length * den ^ 2 * m ^ 2)) + 1) / 2
  let dk := max 50 (tk - told).natAbs
  let last := if again then min 65535 (rounded 100 1) else 0xFFFF
  let q := if again then min 65535 (rounded 1000000 dk) else 0
  let resBytes := (List.range n).flatMap fun i => leBytes 2 (ofS 16 (clampI (-32768) 32767 (rhuDiv (res i) 64000)))
  let s1 := hbmWrite (tblAddr s p b 1) (os.flatMap fun o => leBytes 2 (ofS 16 o)) s
  let s2 := if again then hbmWrite (resAddr s p) resBytes s1 else s1
  let wide := again && decide (50 ≤ (tk - told).natAbs)
  let lost := d.refine.isSome
  let coeffs := (List.range n).map fun i =>
    clampI (-32768) 32767 (rhuDiv (driftOf s p i * ((tk - told) * 2 ^ dpc s p 0x3B) + res i) ((tk - told) * 2 ^ dpc s p 0x3B))
  updDry p (fun d => { d with
    tabs := tblSet d.tabs (b * 5 + 1) 2, tabRef := tblSet d.tabRef b tk
    closed := if d.closed.contains b then d.closed else d.closed ++ [b]
    lastRms := last, q := q, refineSkip := if lost then satAdd 32 d.refineSkip 1 else d.refineSkip
    refine := if wide then some { bank := b, coeffs := coeffs } else none }) { s2 with free := s2.free + drawn }

/-- The channel is released and the reopen frames follow. -/
def closureReopen (p : Nat) (c : Closure) (s : State) : State :=
  shutRelease (shutChan s p) (updDry p (fun d => { d with closure := some { c with step := 4, left := c.reopen, hold := false } }) s)

/-- The end of settling: SHUT_SENSE must read 1; action 1 completes; averaging follows. -/
def closureSettled (p : Nat) (c : Closure) (s : State) : State :=
  if shutSense s p = some false then
    shutFault p 1 (closureReopen p { c with failed := true } s)
  else
    let s1 := finishCids c.holdCids stOk s.clk.tb 0 s
    let none_ := List.replicate (tblP s p) false
    let avg : Closure := { c with step := 3, left := 16, holdCids := [], sums := List.replicate (tblP s p) 0, sat := none_, unset := none_, miss := none_ }
    shutTrigger p (updDry p (fun d => { d with closure := some avg }) s1)

/-- The first viewed frame begins at this sync. -/
def closureOver (p : Nat) (c : Closure) (s : State) : State :=
  raise (121 + p) 0x05 (dry s p).lastRms
    (updDry p (fun d => { d with closure := none, tr := s.clk.tb, due := d.due ++ [.over s.clk.tb c.failed (c.cids ++ c.holdCids)] }) s)

/-- The end of reopening, or a later sync of a shutter stuck closed: SHUT_SENSE must read 0. -/
def closureOpened (p : Nat) (c : Closure) (s : State) : State :=
  if shutSense s p = some true then
    if c.step = 7 then s
    else shutFault p 2 (updDry p (fun d => { d with closure := some { c with step := 7, left := 0, failed := true } }) s)
  else closureOver p c s

/-- A frame sync within a closure: the frame before has ended. -/
def closureSync (p : Nat) (c : Closure) (s : State) : State :=
  if c.step = 7 then closureOpened p c s
  else if c.step = 5 then (if c.hold then s else closureReopen p c s)
  else if 1 < c.left then updDry p (fun d => { d with closure := some { c with left := c.left - 1 } }) s
  else match c.step with
    | 1 => if c.settle = 0 then closureSettled p c s else updDry p (fun d => { d with closure := some { c with step := 2, left := c.settle } }) s
    | 2 => closureSettled p c s
    | 3 =>
      let s1 := shutTrigger p (closureMeasure p c s)
      if c.hold then updDry p (fun d => { d with closure := some { c with step := 5, left := 0 } }) s1 else closureReopen p c s1
    | _ => closureOpened p c s

/-! ### Settings and commit boundaries (R44, R214, R227) -/

/-- The pseudo-block of the deferred fields of a dryer port: CORR_BANK and CARRY. -/
def dryDefer : Nat := 0x105

/-- The pseudo-block of the fields of a dryer port that wait for the end of a forced calibration (R370): DEC, SAMPLE_KHZ. -/
def dryCalPart : Nat := 0x205
/-- Is it one of them? -/
def dryCalField (a : Nat) : Bool := ([0x03, 0x10] : List Nat).contains (addrOff a)

/-- Lay values over those in force; a change of CORR_BANK with CARRY 1 copies offsets, T_REF and coefficients, those of an
EMPTY item as what it acts as (R213, R214); the offsets copied are a closure's where those they come from are. -/
def dryLay (p : Nat) (vals : Tbl Nat) (s : State) : State :=
  let old := dBank s p
  let s1 := layAll vals s
  let new := dBank s1 p
  if old = new ∨ !(dry s p).running then s1
  else if dpc s1 p 0x36 = 1 then
    let n := 2 * tblP s1 p
    let cp (i : Nat) (s : State) : State :=
      setDTab p new i 2 (hbmWrite (tblAddr s p new i) (if dValid s p old i then hbmRead s (tblAddr s p old i) n else zeros n) s)
    let ref := if dValid s1 p old 1 then tblGet 0 (dry s p).tabRef old else (fpaNow s1 p).getD (dry s p).t
    updDry p (fun d => { d with tabRef := tblSet d.tabRef new ref
                                closed := d.closed.filter (· ≠ new) ++ (if d.closed.contains old then [new] else []) }) (cp 2 (cp 1 s1))
  else s1

/-- A setting write goes out over ROIC_SP (R227). -/
def drySend (p : Nat) (w : FpaWrite) (s : State) : State :=
  let w' := { w with sentNs := s.clk.ns, addr := dpc s p 0x64, value := dpc s p 0x68, width := dpc s p 0x62, ackUs := dpc s p 0x6E }
  roicSend p 2 w.seq w'.width w'.addr w'.value (updDry p (fun d => { d with writes := d.writes ++ [w'] }) s)

/-- A port brings its part of one accepted group into force: at the sync of frame `at_`, or at once when it is stopped; a
stopped port's setting write goes out at T_v (R159). -/
def dryGroup (p : Nat) (at_ : Option Nat) (g : Accepted) (s : State) : State :=
  if !g.parts.contains (0x05, p) then s
  else
    let mine := g.vals.filter fun v => ofInst 0x05 p v.1 && !(g.parts.contains (dryCalPart, p) && dryCalField v.1)
    let newSeq := match tblFind mine (cfgAddr 0x05 p 0x6C) with
      | some q => if q ≠ dpc s p 0x6C then some q else none
      | none => none
    let bias := biasFields s p
    let chain := (dpc s p 0x03, dpc s p 0x10)
    let gone := [(0x05, p)]
    let s := if (tblFind mine (cfgAddr 0x05 p 0x30)).isSome then biasRebase p s else s
    let s1 := match newSeq with
      | some q =>
        match at_ with
        | some num =>
          let late := mine.filter fun v => [0x35, 0x36].contains (addrOff v.1)
          let now := mine.filter fun v => !([0x35, 0x36] : List Nat).contains (addrOff v.1)
          let s2 := dryLay p now s
          drySend p { seq := q, sentNs := s.clk.ns, target := num + dpc s2 p 0x60, vals := late, grp := g.seq.toNat }
            (dropParts g.seq gone [(dryDefer, p)] s2)
        | none =>
          drySend p { seq := q, sentNs := s.clk.ns, target := 0, loose := true, vals := [], grp := g.seq.toNat }
            (dropParts g.seq gone [] (dryLay p mine s))
      -- a later group's values stand over those that an earlier one still defers
      | none => updDry p (fun d => { d with writes := d.writes.map fun w => { w with vals := outdated mine w.vals } })
          (supersede (dryDefer, p) mine (dropParts g.seq gone [] (dryLay p mine s)))
    let s3 := if biasFields s1 p ≠ bias ∧ (dry s1 p).running then biasMove p (biasFields s1 p) s1 else s1
    if (dpc s3 p 0x03, dpc s3 p 0x10) ≠ chain then restartAll p s3 else s3

/-- Does a forced calibration of a port run (R363)? -/
def forcedRuns (s : State) (p : Nat) : Bool :=
  (List.range 16).any fun c => let e : CalEl := tblGet {} s.afe.cal.els (64 + 16 * p + c); e.forced && e.run.isSome

/-- DEC and SAMPLE_KHZ of a group at a boundary within a forced calibration wait for its end (R370). -/
def dryCalWait (p : Nat) (g : Accepted) (s : State) : State :=
  let mine := g.vals.filter fun v => ofInst 0x05 p v.1 && dryCalField v.1
  if !g.parts.contains (0x05, p) || mine.isEmpty || !forcedRuns s p then s
  else
    let keep (a : Accepted) : Accepted := if a.seq = g.seq then
        { a with parts := a.parts ++ [(dryCalPart, p)] } else a
    let s1 := { s with cfg := { s.cfg with accepted := s.cfg.accepted.map keep } }
    updDry p (fun d => { d with calWaits := d.calWaits ++ [(g.seq.toNat, mine)] }) s1

/-- The chains restart: what forced calibrations leave unsettled lasts anew (R205, R363). -/
def forcedAgain (p : Nat) (s : State) : State :=
  restartAll p (updDry p (fun d => { d with forced := d.forced.map fun x =>
    (x.1, if s.clk.tb < x.2.1 then s.clk.tb + unsettledNs s p else x.2.1, x.2.2) }) s)

/-- They come into force, and the chains restart where DEC or SAMPLE_KHZ changes (R205). -/
def dryCalOver (p : Nat) (s : State) : State :=
  let ws := (dry s p).calWaits
  if ws.isEmpty ∨ forcedRuns s p then s
  else
    let s1 := updDry p (fun d => { d with calWaits := [] })
      (ws.foldl (fun s w => dropParts (BitVec.ofNat 32 w.1) [(dryCalPart, p)] [] (dryLay p w.2 s)) s)
    if (dpc s1 p 0x03, dpc s1 p 0x10) ≠ (dpc s p 0x03, dpc s p 0x10) then forcedAgain p s1 else s1

/-- The boundary of a port: its parts of every accepted group, in sequence order. -/
def dryBoundary (p : Nat) (at_ : Option Nat) (s : State) : State := 
  let s1 := s.cfg.accepted.foldl (fun s g => dryCalWait p g s) s
  s1.cfg.accepted.foldl (fun s g => dryGroup p at_ g s) s1

/-- Setting writes that wait for their frame T (R161). -/
def dryPending (d : Dry) : List FpaWrite := d.writes.filter fun w => !w.loose

/-- Forget writes past their frame T whose outcome is known. -/
def dryWritesSweep (p : Nat) (s : State) : State :=
  updDry p (fun d => { d with writes := d.writes.filter fun w => !(w.loose && (w.acked || w.failed)) }) s

/-- Settings whose frame T this sync begins (R227): the deferred fields come into force. -/
def drySettings (p num : Nat) (s : State) : Bool × State :=
  let hit := (dry s p).writes.filter fun w => decide (w.target ≤ num) && !w.failed && !w.loose
  let s1 := hit.foldl (fun s w =>
    let s0 := updDry p (fun d => { d with writes := d.writes.map fun v => if v = w then { v with vals := [], loose := true } else v }) s
    raise (121 + p) 0x07 w.seq (dropParts (BitVec.ofNat 32 w.grp) [(dryDefer, p)] [] (dryLay p w.vals s0))) s
  -- a write that failed before its frame T is pending up to it (R161)
  let s2 := updDry p (fun d => { d with writes := d.writes.map fun v => if v.target ≤ num then { v with loose := true } else v }) s1
  (!hit.isEmpty, dryWritesSweep p s2)

/-- A setting write fails (R160, R227): cause 1 refused, 2 timeout. -/
def drySettingFails (p : Nat) (w : FpaWrite) (cause : Nat) (s : State) : State :=
  let after := w.loose
  let s1 := updDry p (fun d => { d with writes := d.writes.map fun v => if v = w then { v with failed := true, vals := [] } else v }) s
  let s2 := if after then s1 else dropParts (BitVec.ofNat 32 w.grp) [(dryDefer, p)] [] s1
  dryWritesSweep p (raise (121 + p) 0x08 (w.seq + at' 16 cause + at' 31 (b2n after)) s2)

/-- A ROIC frame of a port has ended (R202, R227): an initial write, a setting write, or its read-back. -/
def roicDone (f : SpFrame) (input : List Byte) (s : State) : State :=
  let p := f.port
  match f.kind with
  | 1 => updDry p (fun d => { d with initK := if f.seq = d.runNo then d.initK + 1 else d.initK }) s
  | 2 =>
    match (dry s p).writes.find? fun w => decide (w.seq = f.seq) && !w.acked && !w.failed with
    | none => s
    | some w =>
      if dpc s p 0x63 = 1 then roicSend p 3 f.seq w.width w.addr 0 s
      else dryWritesSweep p (updDry p (fun d => { d with writes := d.writes.map fun v => if v = w then { v with acked := true } else v }) s)
  | 3 =>
    match (dry s p).writes.find? fun w => decide (w.seq = f.seq) && !w.acked && !w.failed with
    | none => s
    | some w =>
      let n := w.width
      let got := if spf s (dpc s p 0x5E) 6 = 0 then leNat (input.take n) else leNat (input.take n).reverse
      if got = w.value % 2 ^ (8 * n) then
        dryWritesSweep p (updDry p (fun d => { d with writes := d.writes.map fun v => if v = w then { v with acked := true } else v }) s)
      else drySettingFails p w 1 s
  | _ => s

/-! ### Starting and stopping (R202) -/

/-- Have the attempts of R360 at the port's channels ended? -/
def dryAttempted (s : State) (p : Nat) : Bool :=
  (List.range 16).all fun c => (tblGet {} s.afe.cal.els (64 + 16 * p + c)).attempted

/-- Initial writes are made, then timing starts, when the channels' attempts at ready have ended and the tables of a
profile are loaded. -/
def dryTiming (p : Nat) (s : State) : State :=
  let d := dry s p
  if d.st = 2 ∧ dpc s p 0x74 ≤ d.initK ∧ dryAttempted s p ∧ !d.imageWait then
    let s1 := updDry p (fun d => { d with st := 3, frame := none }) s
    if dpc s p 0x39 = 1 then updDry p (fun d => { d with req := joinReason d.req (some 5), startDue := true }) s1 else s1
  else s

/-- The biases have reached their targets: the initial writes follow. -/
def biasReached (p : Nat) (s : State) : State :=
  let d := dry s p
  match d.rampNs with
  | none => s
  | some _ =>
    if biasNow s p ≠ d.biasTo then s
    else
      let s1 := updDry p (fun d => { d with biasFrom := d.biasTo, rampNs := none }) s
      if d.st = 1 then
        let s2 := updDry p (fun d => { d with st := 2, initK := 0 }) s1
        let s3 := (List.range (dpc s p 0x74)).foldl (fun s k => roicSend p 1 (dry s p).runNo (dpc s p 0x62) (dpc s p (0x100 + 8 * k)) (dpc s p (0x104 + 8 * k)) s) s2
        dryTiming p s3
      else s1

/-- PORT_START: the biases ramp, and the chains restart (R205). -/
def startDryer (p : Nat) (s : State) : State :=
  restartAll p (biasMove p (biasFields s p) (updDry p (fun d => { d with
    running := true, st := 1, runNo := d.runNo + 1, closed := [], lastRms := 0xFFFF, q := 0, frame := none }) s))

/-- The stamp of a moment: MD and the backward state then (R208). -/
def dryStampAt (s : State) (enc tb : Nat) (mdOfs : Int) : Int × Bool := (encInterp s enc tb - mdOfs, encBackAt s enc tb)

/-- A mark whose row has its stamp: intervals begin and end, and SHUTTER commands complete (R222 to R226). -/
def dryMark (p : Nat) (md : Int) (m : DryMark) (s : State) : State :=
  let d := dry s p
  match m with
  | .blind => blindOpen 2 (32 + p) 5 0 md (updDry p (fun d => { d with blindMd := some md }) s)
  | .overflow => if d.ovfBlind then s else blindOpen 1 (32 + p) 4 0 md (updDry p (fun d => { d with ovfBlind := true }) s)
  | .viewed => if d.ovfBlind then blindClose (32 + p) 4 0 md (updDry p (fun d => { d with ovfBlind := false }) s) else s
  | .over tb failed cids =>
    let s1 := if d.blindMd.isSome then blindClose (32 + p) 5 0 md (updDry p (fun d => { d with blindMd := none }) s) else s
    finishCids cids (if failed then stAborted else stOk) (if failed then 0 else tb) (ofS 64 (md - d.blindMd.getD md)) s1

/-- Rows and marks are stamped once the reading at their stamped moment is known (R208, R419). -/
def dryStamps (p : Nat) (s : State) : State :=
  let now (m : DryStamp) : Bool := interpKnown s m.enc m.tb
  let row (r : DRow) : DRow :=
    if r.stamped || !interpKnown s r.enc r.tb then r
    else
      let x := dryStampAt s r.enc r.tb r.mdOfs
      { r with stamped := true, md := x.1, flags := r.flags + at' 6 (b2n x.2) }
  let s1 := updDry p (fun d => { d with fifo := d.fifo.map row, marks := d.marks.filter fun m => !now m }) s
  ((dry s p).marks.filter now).foldl (fun s m => dryMark p (dryStampAt s m.enc m.tb m.mdOfs).1 m.mark s) s1

/-- A mark at a stamped moment of the port. -/
def dryMarkAt (p tb : Nat) (m : DryMark) (s : State) : State :=
  updDry p (fun d => { d with marks := d.marks ++ [⟨tb, dpc s p 0x32, toS 64 (dpc s p 0x18), m⟩] }) s

/-- Does any port hold a row or a mark that waits for its stamp? -/
def stampsWait (s : State) : Bool :=
  (List.range 4).any fun p => !(dry s p).marks.isEmpty || (dry s p).fifo.any fun r => !r.stamped

/-- Deliver a frame's missing rows, and count it when it is short (R225, R226). -/
def frameClose (p : Nat) (short : Bool) (s : State) : State :=
  match (dry s p).frame with
  | none => s
  | some f =>
    let n := dpRows s p
    let miss (r : Nat) : DRow :=
      { frame := f.number, row := r, md := 0, tb := s.clk.tb, flags := 1 + at' 4 (b2n f.stale) + at' 5 (b2n (f.setChange && decide (r = 0)))
        px := [], bad := [], t := f.t, syncTb := f.syncTb, last := decide (r + 1 = n) }
    let lost := (List.range (n - f.rows)).map fun i => miss (f.rows + i)
    let unread := f.got * dpCols s p
    let s1 := updDry p (fun d => { d with
      frame := none
      fifo := if f.deliver then d.fifo ++ lost else d.fifo
      closure := d.closure.map fun c => if c.step = 3 then { c with miss := c.miss.take unread ++ (c.miss.drop unread).map fun _ => true } else c }) s
    let s2 := if f.got < n ∧ short then
        raise (121 + p) 0x02 f.rows (updDry p (fun d => { d with short_ := satAdd 32 d.short_ 1 }) s1)
      else s1
    if f.long_ ≠ 0 then raise (121 + p) 0x03 f.long_ (updDry p (fun d => { d with long_ := satAdd 32 d.long_ 1 }) s2) else s2

/-- Does a mark end a thermal-blind interval? -/
def DryMark.ends : DryMark → Bool
  | .over _ _ _ => true
  | .blind | .overflow | .viewed => false

/-- The commands that a mark completes. -/
def DryMark.cids : DryMark → List Nat
  | .over _ _ cs => cs
  | .blind | .overflow | .viewed => []

/-- Marks less those of an interval that begins and does not end. -/
def endedMarks : List DryStamp → List DryStamp
  | [] => []
  | m :: ms => if m.mark = .blind ∧ !ms.any fun x => x.mark.ends then endedMarks ms else m :: endedMarks ms

/-- A stop abandons a closure that has ended no interval: marks whose moment has come are stamped now, the interval that the
closure has begun ends now, and one whose first row's moment is still to come has never begun (R224, DESIGN CHOICE 67). Its
commands complete with ABORTED and the interval's length (R223). -/
def intervalAbandon (p : Nat) (cids : List Nat) (s : State) : State :=
  let ms := (dry s p).marks
  let s1 := (ms.filter fun m => decide (m.tb ≤ s.clk.tb)).foldl (fun s m => dryMark p (dryStampAt s m.enc m.tb m.mdOfs).1 m.mark s)
    (updDry p (fun d => { d with marks := endedMarks (ms.filter fun m => decide (s.clk.tb < m.tb)) }) s)
  if (dry s1 p).marks.any fun m => m.mark.ends then finishCids cids stAborted 0 0 s1
  else dryMark p (dryStampAt s1 (dpc s1 p 0x32) s1.clk.tb (toS 64 (dpc s1 p 0x18))).1 (.over s1.clk.tb true cids) s1

/-- A closure in progress and a request are abandoned by a stop; the shutter channel is switched off. -/
def closureAbandon (p : Nat) (s : State) : State :=
  let d := dry s p
  let mine := (match d.closure with
    | some c => c.cids ++ c.holdCids
    | none => []) ++ d.due.flatMap DryMark.cids
  let s1 := updDry p (fun d => { d with closure := none, req := none, reqCids := [], reqHoldCids := [], reqHold := false
                                        reqNoted := false, waiting := false, startDue := false, due := [] }) s
  -- a first viewed frame without a row yet has ended no interval
  let s2 := if d.closure.isSome || d.due.any DryMark.ends then intervalAbandon p mine s1 else s1
  finishCids (d.reqCids ++ d.reqHoldCids) stAborted 0 0 (shutRelease (shutChan s p) s2)

/-- The deferred fields of a port that stops come into force at once (R45). Its setting writes wait only for their outcome
from then on (R160). -/
def dryLand (p : Nat) (s : State) : State :=
  let s1 := ((dry s p).writes.filter fun w => !w.loose && !w.failed).foldl (fun s w =>
    dropParts (BitVec.ofNat 32 w.grp) [(dryDefer, p)] [] (dryLay p w.vals s)) s
  dryWritesSweep p (updDry p (fun d => { d with writes := d.writes.map fun w => { w with loose := true, vals := [] } }) s1)

/-- The port stops: its groups come into force at once (R45), its biases go to 0 V. -/
def dryHalt (p : Nat) (s : State) : State :=
  let s1 := closureAbandon p s
  let s2 := updDry p (fun d => { d with running := false, st := 0, frame := none, imageWait := false }) s1
  couchDryerIdle (dryBoundary p none (dryLand p (biasMove p [0, 0, 0, 0, 0, 0, 0, 0] s2)))

/-- A stop at once: the frame in progress is closed short. -/
def dryStopNow (p : Nat) (s : State) : State := dryHalt p (frameClose p true s)

/-- Every running dryer port stops (R8, R28). -/
def dryStopAll (s : State) : State := (List.range 4).foldl (fun s p => if (dry s p).running then dryStopNow p s else s) s

end Sys2Proof.Machine
end

