-- ==== Sys2Proof/Machine/Headbox.lean ====
section
/-! DEFINITION. Headbox and Brynlink link rows (chapters 7 and 21), and the encoder rows (chapter 16). -/

namespace Sys2Proof.Machine

/-- The number of a link: headbox 0 to 31, felt port 64 to 67. -/
def refNum : LinkRef → Nat
  | .port p => p
  | .felt k => 64 + k

/-! ### Links (R149 to R152, R406) -/

/-- TRAIN: TRAIN blocks on the lanes (R151). -/
def execTrain (r : LinkRef) (blocks : List (List Byte)) (s : State) : Out :=
  whenReady (linkTrain (refNum r) blocks) s
/-- AM: a set of alignment markers (R150, R151). -/
def execAm (r : LinkRef) (blocks : List (List Byte)) (skew : Nat) (s : State) : Out :=
  whenReady (linkAm (refNum r) blocks skew) s
/-- AM_SEND (R150). -/
def execAmSend (r : LinkRef) (s : State) : Out := whenReady (linkAmSend (refNum r)) s
/-- LINK_FAULT: an invalid AM or excess skew, or with `unlock` a lane in use that is no longer locked (R151, R152). -/
def execLinkFault (r : LinkRef) (unlock : Bool) (s : State) : Out :=
  whenReady (fun s =>
    let l := link s (refNum r)
    if unlock && groupLocked s (refNum r) l.laneOff l.widthNow then s else linkFault (refNum r) unlock s) s
/-- LINK_STATE_TIMEOUT (Table 7.6). -/
def execLinkStateTimeout (r : LinkRef) (s : State) : Out := whenReady (linkTimeout (refNum r)) s
/-- RECOVERY_END (Table 7.6). -/
def execRecoveryEnd (r : LinkRef) (s : State) : Out := whenReady (linkRecovered (refNum r)) s
/-- FULL_WIDTH_REQUEST (R152). -/
def execFullWidthRequest (r : LinkRef) (s : State) : Out := whenReady (linkFullWidth (refNum r)) s
/-- CREDIT (R149). -/
def execCredit (r : LinkRef) (s : State) : Out := whenReady (linkCredit (refNum r)) s
/-! ### Packets (R148, R149, R156) -/

/-- Has a packet arrived whole: its LEN and the CRC of its EOP hold (R148)? -/
def packetSound (pkt : BrynPacket) (payload : List Byte) : Bool :=
  decide (payload.length = pkt.len.toNat)
    && decide (pkt.crc.toNat = packetCrc pkt.ptype.toNat pkt.stream.toNat pkt.seq.toNat payload)

/-- What becomes of a packet that arrives: its payload is used; its data is lost, to its CRC or for want of credit; or it is
discarded as of another type or stream. -/
inductive Arrival where
  | taken
  | lost
  | discarded
deriving DecidableEq, Repr

/-- A packet arrives at a Brynlink headbox (R148, R149): of another type or stream, beyond the credits granted, or taken. Its
credits are freed unless it exceeded them, and a gap in SEQ or a lost packet costs the line in progress its data (R156). -/
def packetIn (p : Nat) (pkt : BrynPacket) (want : Nat) (payload : List Byte) (s : State) : Arrival × State :=
  let len := pkt.len.toNat
  let gap := decide (pkt.seq.toNat ≠ (port s p).rxSeq)
  let s1 := updPort p (fun x => { x with rxSeq := (pkt.seq.toNat + 1) % 65536 }) s
  let s2 := if gap then spoilLine p s1 else s1
  let beyond := linkOver s2 p len
  let s3 := if beyond then updPort p (fun x => { x with creditOvr := satAdd 32 x.creditOvr 1 }) s2 else linkFree p len s2
  if pkt.ptype.toNat ≠ want ∨ pkt.stream.toNat ≠ cf s 0x02 p 0x37 ∨ 16384 < len then
    (.discarded, updPort p (fun x => { x with discard := satAdd 32 x.discard 1 }) s3)
  else if !beyond && packetSound pkt payload then (.taken, s3) else (.lost, spoilLine p s3)

/-- WIDTH_ACK: the echo of a width request (R152). -/
def execWidthAck (r : LinkRef) (pkt : BrynPacket) (payload : List Byte) (s : State) : Out :=
  whenReady (fun s =>
    let n := refNum r
    if (link s n).st ≠ 4 then s
    else
      let (a, s1) := if n < 32 then packetIn n pkt 0x07 payload s
        else (if packetSound pkt payload && decide (pkt.ptype = 0x07) then .taken else .lost, s)
      if a = .taken then linkWidthAck n (u8At payload 0) (u8At payload 1) s1 else s1) s

/-- WIDTH_REQ on a felt port (R406). -/
def execWidthReq (k : Fin 4) (pkt : BrynPacket) (payload : List Byte) (s : State) : Out :=
  whenReady (fun s =>
    if packetSound pkt payload ∧ pkt.ptype = 0x06 then linkWidthReq (64 + k) (u8At payload 0) (u8At payload 1) s else s) s

/-- CREDIT_GRANT_RECEIVED: GRANTED is cumulative; packets that wait for credit may be sent (R149, R412). -/
def execCreditGrantReceived (k : Fin 4) (pkt : BrynPacket) (payload : List Byte) (s : State) : Out :=
  whenReady (fun s =>
    let p := feltPort s k
    if p.link.st = 3 ∧ packetSound pkt payload ∧ pkt.ptype = 0x02 then
      let granted := u32At payload 0
      let add := (granted + 2 ^ 32 - p.link.grantIn) % 2 ^ 32
      let p' := { p with link := { p.link with credit := p.link.credit + add, grantIn := granted } }
      holdFlush (feltPump k (p.queue.length + 1) (setFeltPort k p' s))
    else s) s

/-! ### Lines (R143 to R156) -/

/-- The header of a LINE_DATA payload (Table 7.5). -/
structure LineHeader where
  trigSeq : Nat
  first : Bool
  last : Bool
  offset : Nat
deriving DecidableEq, Repr

/-- Read it; the camera's own line number is not used. -/
def lineHeader (payload : List Byte) : LineHeader :=
  ⟨u16At payload 8, bitOf (u8At payload 0x0A) 0, bitOf (u8At payload 0x0A) 1, u32At payload 0x0C⟩

/-- Add a fragment to the line in progress: an OFFSET that does not continue the line makes it BAD. -/
def addFragment (p : Nat) (bytes : List Byte) (offset : Nat) (s : State) : State :=
  updPort p (fun x => { x with part := x.part.map fun l =>
                         { l with bytes := l.bytes ++ bytes, total := l.total + bytes.length
                                  bad := l.bad || decide (offset ≠ l.total) } }) s

/-- A fragment or packet arrives for a line: a first one closes a line still in progress as BAD and opens its own, and one
that is not first opens a line marked BAD where none is in progress (DESIGN CHOICE 65: R156 does not say). -/
def enterLine (p : Nat) (first : Bool) (seq : Option Nat) (s : State) : State :=
  let s1 := if first ∧ (port s p).part.isSome then endLine p (spoilLine p s) else s
  if (port s1 p).part.isNone then
    let s2 := openLine p seq s1
    if first then s2 else spoilLine p s2
  else s1

/-- LINE_DATA: a packet whose payload is the 16-byte header and pixel data (R148, R154, R156). Data that arrives while
the port is out is discarded (R158). A packet whose data is lost still shows, by its header, which line it belonged to
(DESIGN CHOICE 65): that line is BAD. -/
def execLineData (p : Fin 32) (pkt : BrynPacket) (payload : List Byte) (s : State) : Out :=
  whenLive (fun s =>
    if hbProto s p ≠ 2 ∨ (link s p).st ≠ 3 then s
    else
      let (a, s1) := packetIn p pkt 0x01 payload s
      if a = .discarded || !(port s1 p).running || (port s1 p).cur.isNone || portOut s1 p then s1
      else
        let h := lineHeader payload
        let s2 := enterLine p h.first (some h.trigSeq) s1
        let s3 := if a = .taken then addFragment p (payload.drop 16) h.offset s2 else spoilLine p s2
        if h.last then endLine p s3 else s3) s

/-- CXP_STREAM_PACKET (R144, R146, R158). -/
def execCxpStreamPacket (p : Fin 32) (conn : Fin 4) (pkt : CxpPacket) (s : State) : Out :=
  whenLive (fun s =>
    if hbProto s p ≠ 1 ∨ !(port s p).running ∨ hbWidth s p ≤ conn.val then s
    else if !pkt.supported || decide (pkt.stream.toNat ≠ cf s 0x02 p 0x36) then
      updPort p (fun x => { x with discard := satAdd 32 x.discard 1 }) s
    else
      let n := hbBase s p + conn.val
      let s1 := if laneLocked s n then updPort p (fun x => { x with quiet := x.quiet.filter fun m => m ≠ n }) s else s
      if !laneLocked s n || (port s1 p).cur.isNone || portOut s1 p then s1
      else
        let s3 := enterLine p pkt.first none s1
        let s4 := if pkt.good then s3 else spoilLine p s3
        let wrong := decide (pkt.format.toNat ≠ hbFormat s p)
        let s5 := if wrong then
            let noted := ((port s4 p).cur.map Stripe.fmtNoted).getD true
            let s0 := updPort p (fun x => { x with cur := x.cur.map fun t => { t with fmtNoted := true } }) (spoilLine p s4)
            if noted then s0 else raise (80 + p) 0x07 pkt.format.toNat s0
          else s4
        let s6 := updPort p (fun x => { x with part := x.part.map fun l => { l with samples := l.samples ++ pkt.samples } }) s5
        if pkt.last then endLine p s6 else s6) s

/-- LINE_TIMEOUT: a line in progress is closed as short (R156). -/
def execLineTimeout (p : Fin 32) (s : State) : Out :=
  whenLive (fun s =>
    match (port s p).part with
    | some l => if l.firstNs + us (cf s 0x02 p 0x3A) ≤ s.clk.ns then endLine p s else s
    | none => s) s

/-- DROPPED_LINE_PERIOD: in mode 0 while the port is out, the next expected capture moment is reached (R158). That of the k-th
dropped line is k mean periods after the last line, rounded once with halves up (DESIGN CHOICE 106: R158 gives no rounding). -/
def execDroppedLinePeriod (p : Fin 32) (s : State) : Out :=
  whenLive (fun s =>
    let x := port s p
    match x.captures with
    | c :: rest =>
      match rest.getLast? with
      | some c0 =>
        let n : Int := rest.length
        let k : Int := x.dropK + 1
        -- the k-th expected capture moment since the last line counted otherwise, at the mean spacing of the captures held
        let t := x.capLast + (2 * k * (c - c0) + n) / (2 * n)
        if hbMode s p = 0 ∧ portOut s p ∧ t ≤ s.clk.tb then
          lineCount p { tb := t.toNat, start := .expected } s
        else s
      | none => s
    | [] => s) s

/-! ### Setting writes (R160) -/

/-- The outcome of the acknowledgement of a setting write. -/
def settingAck (p tag status : Nat) (s : State) : State :=
  match (port s p).writes.find? fun w => decide (w.seq = tag) && !w.acked && !w.failed with
  | none => s
  | some w =>
    if status ≠ 0 then settingFails p w 1 s
    else writesSweep p (updPort p (fun x => { x with writes := x.writes.map fun v => if v = w then { w with acked := true } else v }) s)

/-- REG_ACK: TAG and STATUS of its payload (Table 7.5). -/
def execRegAck (p : Fin 32) (pkt : BrynPacket) (payload : List Byte) (s : State) : Out :=
  whenLive (fun s =>
    if hbProto s p ≠ 2 ∨ (link s p).st ≠ 3 then s
    else
      let (a, s1) := packetIn p pkt 0x05 payload s
      if a = .taken then settingAck p (u16At payload 0) (u16At payload 2) s1 else s1) s

/-- No acknowledgement of a headbox's setting write within ACK_TIMEOUT (R160). -/
def setTimeout (p : Nat) (s : State) : State :=
  match (port s p).writes.find? fun w => !w.acked && !w.failed && decide (w.sentNs + us (cf s 0x02 p 0x32) ≤ s.clk.ns) with
  | some w => settingFails p w 2 s
  | none => s

/-! ### CoaXPress (R145, R146) -/

/-- Discovery fails (R145). -/
def discoveryFails (p d : Nat) (s : State) : State := raise (80 + p) 0x09 d s

/-- The headbox begins a discovery attempt: it reads the connections' IDs (R145). -/
def discover (p : Nat) (s : State) : State :=
  emit (.camera p camDiscover [hbWidth s p]) (updPort p (fun x => { x with discNs := s.clk.ns, discRetry := false, setup := false }) s)

/-- CXP_CONTROL_ACK: the answers of discovery (the IDs, then the set-up to WIDTH connections at the speed of the lanes'
RATE), the acknowledgement of a setting write, or that of a trigger. -/
def execCxpControlAck (p : Fin 32) (ack : CxpAck) (s : State) : Out :=
  whenLive (fun s =>
    if hbProto s p ≠ 1 then s
    else match ack with
      | .write tag status => settingAck p tag.toNat status.toNat s
      | .io => updPort p (fun x => { x with trigOut := x.trigOut - 1 }) s
      | .setup ok =>
        let x := port s p
        if !x.running || x.discovered || x.discRetry || !x.setup then s
        else if !ok then discoveryFails p 3 (updPort p (fun x => { x with discRetry := true }) s)
        else
          let w := hbWidth s p
          let s2 := updPort p (fun x => { x with discovered := true, link := { x.link with widthNow := w }, hbNs := s.clk.ns }) s
          portTryStart p (raise (80 + p) 0x03 (3 + at' 4 w) s2)
      | .discovery ids offered =>
        let x := port s p
        let w := hbWidth s p
        if !x.running || x.discovered || x.discRetry || x.setup || !((List.range w).all fun i => laneLocked s (hbBase s p + i)) then s
        else if offered < w then discoveryFails p 1 (updPort p (fun x => { x with discRetry := true }) s)
        else
          let pos := ids.take w
          let s1 := (List.range w).foldl (fun s i =>
            let n := hbBase s p + i
            setLane n { lane s n with position := (pos.getD i 0x3F) % 64 } s) s
          match (List.range w).find? fun i => decide (w ≤ pos.getD i 0x3F) || (pos.take i).contains (pos.getD i 0x3F) with
          | some i => updPort p (fun x => { x with discRetry := true }) (raise (hbBase s p + i) 0x05 p s1)
          | none => emit (.camera p camSetup (w :: (List.range w).map fun i => lnRate s1 (hbBase s1 p + i)))
              (updPort p (fun x => { x with setup := true }) s1)) s

/-- CXP_HEARTBEAT. -/
def execCxpHeartbeat (p : Fin 32) (s : State) : Out :=
  whenLive (fun s => if hbProto s p = 1 then updPort p (fun x => { x with hbNs := s.clk.ns, hbLost := false }) s else s) s

/-- HEARTBEAT_LOST (R146). Before the first heartbeat the 100 ms count from discovery, or from the first stripe where that begins
later (DESIGN CHOICE 109). -/
def execHeartbeatLost (p : Fin 32) (s : State) : Out :=
  whenLive (fun s =>
    let x := port s p
    if hbProto s p = 1 ∧ x.running ∧ x.discovered ∧ !x.hbLost ∧ x.hbNs + ms 100 ≤ s.clk.ns then
      raise (80 + p) 0x08 0 (setPort p { x with hbLost := true } s)
    else s) s

/-- DISCOVERY_FAIL: no answer within 1 s, or the repetition 1 s after a failed attempt. -/
def execDiscoveryFail (p : Fin 32) (s : State) : Out :=
  whenLive (fun s =>
    let x := port s p
    if hbProto s p = 1 ∧ x.running ∧ !x.discovered ∧ x.discNs + sec 1 ≤ s.clk.ns then
      if x.discRetry then discover p s else discoveryFails p 2 (discover p s)
    else s) s

/-! ### Triggers (R153, R154) -/

/-- TRIGGER_ENCODER: the reading has reached the next trigger position while moving forward. -/
def execTriggerEncoder (p : Fin 32) (s : State) : Out :=
  whenLive (fun s =>
    match (port s p).trigNext with
    | some t =>
      if hbMode s p = 1 ∧ (port s p).running ∧ t ≤ encE s (hbEnc s p) ∧ !encBackward s (hbEnc s p) then
        issueTrigger p (updPort p (fun x => { x with trigNext := some (t + (max 1 (hbPitch s p) : Int)) }) s)
      else s
    | none => s) s

/-- TRIGGER_TIMER: TRIG_PITCH ns have passed. -/
def execTriggerTimer (p : Fin 32) (s : State) : Out :=
  whenLive (fun s =>
    let x := port s p
    if hbMode s p = 3 ∧ x.running ∧ x.cur.isSome ∧ x.trigTimerNs + hbPitch s p ≤ s.clk.ns then
      issueTrigger p (setPort p { x with trigTimerNs := x.trigTimerNs + hbPitch s p } s)
    else s) s

/-- TRIG_LOST: the oldest unpaired trigger is retired. -/
def execTrigLost (p : Fin 32) (s : State) : Out :=
  whenLive (fun s =>
    let x := port s p
    match x.trigs with
    | t :: rest =>
      if t.ns + us (cf s 0x02 p 0x3C) ≤ s.clk.ns then
        let noted := (x.cur.map Stripe.trigLostNoted).getD true
        let s1 := setPort p { x with trigs := rest, trigLost := satAdd 32 x.trigLost 1
                                     cur := x.cur.map fun t => { t with trigLostNoted := true } } s
        if noted then s1 else raise (80 + p) 0x06 t.seq s1
      else s
    | [] => s) s

/-! ### Encoders (R336 to R339) -/

/-- ENCODER_EDGE: the levels of A and B after an edge (R336). Before ready they are taken, and nothing counts. -/
def execEncoderEdge (e : Fin 4) (a b : Bool) (s : State) : Out :=
  .next (if s.boot.phase = .ready then encEdgeBody e a b s else setEnc e { enc s e with aIn := a, bIn := b } s)
/-- ENCODER_Z. -/
def execEncoderZ (e : Fin 4) (s : State) : Out := whenReady (encZBody e) s
/-- ENCODER_SAMPLE. -/
def execEncoderSample (e : Fin 4) (s : State) : Out := whenReady (encSampleBody e) s

/-! ### PORT_START and PORT_STOP of a camera port: shared parts (R142) -/

/-- A headbox starts: its link comes up, or discovery begins anew (R142, R145), at which LINK returns to 0. TRIG_SEQ goes on
(DESIGN CHOICE 106). -/
def startHeadbox (p : Nat) (s : State) : State :=
  let s1 := updPort p (fun x => { x with
    running := true, waitStart := true, stopping := false, captures := [], capLast := 0, dropK := 0, trigs := [], part := none
    lastTrigNs := none, trigOut := 0, quiet := [] })
    { s with ing := { s.ing with awaiting := s.ing.awaiting.filter fun x => decide (x.1 ≠ p) } }
  if hbProto s p = 2 then
    let s2 := if (link s1 p).st = 0 then setLink p { link s1 p with widthNow := 0, laneOff := 0 } s1 else s1
    portTryStart p (linkPoll p (if (link s1 p).st = 0 then sendTrain p s2 else s2))
  else
    let s2 := updPort p (fun x => { x with discovered := false, link := { x.link with widthNow := 0 } }) s1
    discover p (if (port s1 p).discovered then raise (80 + p) 0x03 0 s2 else s2)

end Sys2Proof.Machine
end

