-- ==== Sys2Proof/Machine/Dryer.lean ====
section
/-! DEFINITION. The rows of the dryer ports (chapter 10) and of the thermal layer's mapping (R238). -/

namespace Sys2Proof.Machine

/-! ### Frame syncs -/

/-- A row period, ns. -/
def rowNs (s : State) (p : Nat) : Nat := dpClocks s p * 2 ^ dpc s p 0x03 * 1000000 / max 1 (dpc s p 0x10)

/-- The vertical blank that this sync ends (R362). -/
def blankEnds (p : Nat) (s : State) : State :=
  match (dry s p).rowEnd with
  | some t => updDry p (fun d => { d with rowEnd := none, blanks := (s.clk.tb - t) :: d.blanks.take 1 }) s
  | none => s

/-- Number of the last frame of a port; 0 before the first. -/
def lastFrame (s : State) (p : Nat) : Nat := (dry s p).frames - 1

/-- A waiting PORT_STOP stops the port at the end of its frame. -/
def dryStopWaiting (p : Nat) (s : State) : State :=
  if (dry s p).stopping then finishStops 0x05 p (lastFrame s p) (dryHalt p (updDry p (fun d => { d with stopping := false }) s)) else s

/-- T of the frame that this sync begins (R216). -/
def readFpaT (p : Nat) (s : State) : State :=
  match fpaNow s p with
  | some t => updDry p (fun d => { d with t := t, tStale := false }) s
  | none =>
    let s1 := updDry p (fun d => { d with tStale := true }) s
    if (dry s p).tStale then s1 else raise (121 + p) 0x09 0 s1

/-- A refinement that has finished is written to the active bank (R220); one of another geometry is discarded. -/
def refineApply (p : Nat) (s : State) : State :=
  match (dry s p).refine with
  | some r =>
    if r.coeffs.length ≠ tblP s p then updDry p (fun d => { d with refine := none, refineSkip := satAdd 32 d.refineSkip 1 }) s
    else if r.ready_ then
      let bs := r.coeffs.flatMap fun c => leBytes 2 (ofS 16 c)
      setDTab p (dBank s p) 2 2 (hbmWrite (tblAddr s p (dBank s p) 2) bs (updDry p (fun d => { d with refine := none }) s))
    else s
  | none => s

/-- The interval of a start from a profile ends at the port's first frame sync (R64). -/
def dryProfileEnds (p : Nat) (s : State) : State :=
  if (dry s p).profBlind then
    blindClose (32 + p) 2 0 (encE s (dpc s p 0x32) - toS 64 (dpc s p 0x18)) (updDry p (fun d => { d with profBlind := false }) s)
  else s

/-- A frame begins; with TIMING_MASTER 0 the device drives FSYNC and the LSYNC of row 0 (R200). -/
def frameBegin (p : Nat) (change : Bool) (s : State) : State :=
  let d := dry s p
  let avg := match d.closure with
    | some c => if c.step = 3 then some { c with tSum := c.tSum + d.t } else some c
    | none => none
  let f : DFrame := { number := d.frames, syncTb := s.clk.tb, syncNs := s.clk.ns, t := d.t, stale := d.tStale
                      deliver := d.closure.isNone && !d.startDue, setChange := change
                      lsyncTbs := if dpc s p 0x0E = 0 then [s.clk.tb] else [] }
  let s := if dpc s p 0x0E = 0 then emit (.dryerLsync p 0) (emit (.dryerFsync p) s) else s
  updDry p (fun d => { d with frame := some f, frames := d.frames + 1, closure := avg, pred := min 65535 (dryPred s p / 10000000000000)
                              tRef := tRefOf s p d.t }) s

/-- The settings and commit boundaries of a sync that no closure holds back (R214). -/
def syncBoundary (p num : Nat) (s : State) : Bool × State :=
  if dryShut s p then (false, s) else drySettings p num (dryBoundary p (some num) s)

/-- Requests are evaluated, and a set request tries to start its closure (R217, R221). -/
def syncRequests (p : Nat) (s : State) : State :=
  if dryShut s p then s
  else closureTry p (updDry p (fun d => { d with req := joinReason d.req (autoReason s p) }) s)

/-- A frame sync of a port that times its frames. -/
def syncRun (p : Nat) (s : State) : State :=
  let s1 := dryProfileEnds p (refineApply p s)
  let s2 := match (dry s1 p).closure with
    | some c => closureSync p c s1
    | none => s1
  let r := syncBoundary p (dry s2 p).frames s2
  frameBegin p r.1 (syncRequests p (readFpaT p r.2))

/-- FRAME_SYNC. -/
def frameSyncBody (p : Nat) (s : State) : State :=
  if !(dry s p).running ∨ (dry s p).st ≠ 3 ∨ syncEarly s p then s
  else
    let s1 := dryStopWaiting p (frameClose p true (blankEnds p s))
    if (dry s1 p).running then syncRun p s1 else s1

/-- FRAME_SYNC: R216, R217. -/
def execFrameSync (p : Fin 4) (s : State) : Out := whenLive (frameSyncBody p.val) s

/-- FRAME_TIMEOUT: with TIMING_MASTER 1 the frame is closed without a further FSYNC (R225). -/
def frameTimeoutBody (p : Nat) (s : State) : State :=
  match (dry s p).frame with
  | none => s
  | some f =>
    if dpc s p 0x0E = 1 ∧ f.syncNs + us (dpc s p 0x70) ≤ s.clk.ns then dryStopWaiting p (frameClose p true s) else s

/-- FRAME_TIMEOUT: R225. -/
def execFrameTimeout (p : Fin 4) (s : State) : Out := whenLive (frameTimeoutBody p.val) s

/-- No acknowledgement of a dryer port's setting write within ACK_TIMEOUT (R160, R227). -/
def drySetTimeout (p : Nat) (s : State) : State :=
  match (dry s p).writes.find? fun w => !w.acked && !w.failed && decide (w.sentNs + us w.ackUs ≤ s.clk.ns) with
  | some w => drySettingFails p w 2 s
  | none => s

/-- SET_ACK_TIMEOUT: R160, R227. -/
def execSetAckTimeout (p : Fin 36) (s : State) : Out :=
  whenLive (fun s => if p.val < 32 then setTimeout p.val s else drySetTimeout (p.val - 32) s) s

/-! ### Rows -/

/-- Bytes of the rows in the FIFO of R226: 2 per pixel. -/
def dryFifoBytes (s : State) (p : Nat) : Nat := ((dry s p).fifo.map fun r => 2 * r.px.length).sum

/-- The estimates after a row, for the inputs in use (R206). -/
def rowEstimates (s : State) (p tl : Nat) (taps : List TapRow) : List DcEst :=
  (List.range (dpTaps s p)).map fun t =>
    estStep s p tl (tblGet {} (dry s p).est t)
      (((taps.getD t ⟨[], []⟩).blind.take (dpc s p 0x08)).map fun x => (outValue x, outSat x))

/-- The channels whose forced calibration, or the unsettled outputs after it, a row meets whose LSYNC came at `tl` (R363). -/
def rowForced (s : State) (p tl : Nat) : List Nat :=
  ((dry s p).forced.filter fun x => decide (tl < x.2.1) && decide (x.1 < tl + rowNs s p)).map fun x => x.2.2

/-- The output of column x of a row: value after DC blocking, saturated, unsettled; every output of a channel whose forced
calibration the row meets is unsettled (R363). An output that the link did not carry reads as saturated. -/
def rowPixel (s : State) (p tl : Nat) (taps : List TapRow) (est : List DcEst) (x : Nat) : Int × Bool × Bool :=
  let n := dpTaps s p
  let w := max 1 (dpW s p)
  let t := if dpc s p 0x02 = 0 then x % n else x / w
  let j := if dpc s p 0x02 = 0 then x / n else x % w
  let v := (taps.getD t ⟨[], []⟩).active.getD j ⟨[-8192], 0⟩
  let e := est.getD t {}
  (blocked e (outValue v), outSat v, unsettledAt s p e tl (dpc s p 0x08 + j) || (rowForced s p tl).contains t)

/-- REF_SAT: counts its channel-rows, and raises the first of a frame (R207, R228). -/
def refSatNote (p : Nat) (f : DFrame) (est : List DcEst) (s : State) : DFrame × State :=
  let hits := (List.range est.length).filter fun t => (est.getD t {}).refSat
  let s1 := updDry p (fun d => { d with refSat := satAdd 32 d.refSat hits.length }) s
  match hits with
  | c :: _ => if f.refNoted then (f, s1) else ({ f with refNoted := true }, raise (121 + p) 0x0A c s1)
  | [] => (f, s1)

/-- A list of flags with those of a row's pixels from `o` on joined by or. -/
def joinFlags (o : Nat) (old new : List Bool) : List Bool :=
  old.take o ++ List.zipWith (fun a b => a || b) (old.drop o) new ++ old.drop (o + new.length)

/-- The sums of the averaged frames take a row (R219). -/
def averageRow (p row : Nat) (px : List (Int × Bool × Bool)) (s : State) : State :=
  match (dry s p).closure with
  | some c =>
    if c.step = 3 then
      let o := row * dpCols s p
      let sums := c.sums.take o ++ List.zipWith (fun a v => a + v.1) (c.sums.drop o) px ++ c.sums.drop (o + px.length)
      updDry p (fun d => { d with closure := some { c with
        sums := sums, sat := joinFlags o c.sat (px.map fun v => v.2.1), unset := joinFlags o c.unset (px.map fun v => v.2.2) } }) s
    else s
  | none => s

/-- The first row of a frame, stamped at `t`: the intervals of closures that ended or began at the latest syncs, and the end
of an overflow-blind interval (R223, R224, R226). -/
def firstRow (p t : Nat) (deliver : Bool) (s : State) : State :=
  let ms := (dry s p).due ++ (if deliver then [.viewed] else [])
  ms.foldl (fun s m => dryMarkAt p t m s) (updDry p (fun d => { d with due := [] }) s)

/-- A row enters the FIFO, or is dropped with the rest of its frame (R226). -/
def rowEnters (p : Nat) (f : DFrame) (r : DRow) (s : State) : DFrame × State :=
  if dryFifoBytes s p + 2 * r.px.length ≤ 524288 then
    ({ f with rows := f.rows + 1 }, updDry p (fun d => { d with fifo := d.fifo ++ [r] }) s)
  else
    let s1 := dryMarkAt p r.tb .overflow (updDry p (fun d => { d with ovf := satAdd 32 d.ovf 1 }) s)
    ({ f with cut := true }, raise (121 + p) 0x01 (f.number % 2 ^ 32) s1)

/-- A row as it comes off the AFE die, stamped once its moment has come (R206 to R208), with what its frame has in force. -/
def dryRowOf (s : State) (p tl : Nat) (f : DFrame) (est : List DcEst) (px : List (Int × Bool × Bool)) : DRow :=
  let t := ((tl : Int) + toS 32 (dpc s p 0x14)).toNat
  let flags := at' 1 (b2n (px.any (fun v => v.2.2) || !(rowForced s p tl).isEmpty)) + at' 2 (b2n (est.any DcEst.refSat)) + at' 3 (b2n !(rowForced s p tl).isEmpty)
    + at' 4 (b2n f.stale) + at' 5 (b2n (f.setChange && decide (f.got = 0)))
  { frame := f.number, row := f.got, md := 0, tb := t, flags := flags, px := px.map Prod.fst
    bad := px.map fun v => v.2.1 || v.2.2, t := f.t, syncTb := f.syncTb, last := decide (f.got + 1 = dpRows s p)
    stamped := false, enc := dpc s p 0x32, mdOfs := toS 64 (dpc s p 0x18)
    tabs := (List.range px.length).map fun x => pixTab s p (f.got * dpCols s p + x)
    tref := tRefOf s p f.t, lut := lutList s p }

/-- A row of a frame in progress: the DC-blocking stage takes every row that is read; rows beyond ROWS are discarded then
(R225), and so are those of a frame that has been cut (R226). -/
def rowRun (p : Nat) (f : DFrame) (tl : Nat) (taps : List TapRow) (s : State) : State :=
  let est := rowEstimates s p tl taps
  let s1 := updDry p (fun d => { d with est := (List.range est.length).foldl (fun t i => tblSet t i (est.getD i {})) d.est }) s
  let r1 := refSatNote p f est s1
  let px := (List.range (dpCols s p)).map (rowPixel s p tl taps est)
  let row := dryRowOf s p tl f est px
  let r2 : DFrame × State :=
    if dpRows s p ≤ f.got then ({ r1.1 with long_ := f.long_ + 1 }, r1.2)
    else
      let s2 := if f.got ≠ 0 then r1.2 else firstRow p row.tb f.deliver r1.2
      let s3 := averageRow p f.got px (updDry p (fun d => { d with rowEnd := if row.last then some (tl + rowNs s p) else d.rowEnd }) s2)
      let f' := { r1.1 with got := f.got + 1 }
      if f.cut then (f', s3) else if f.deliver then rowEnters p f' row s3 else ({ f' with rows := f.rows + 1 }, s3)
  dryStamps p (updDry p (fun d => { d with frame := some r2.1 }) r2.2)

/-- TB_NOW of a row's LSYNC (R11): the device drove it (R200), or it is the FPA's. -/
def rowLsync (f : DFrame) (tl : Nat) : Nat := f.lsyncTbs.getD f.got tl

/-- DRYER_ROW. -/
def dryerRowBody (p tl : Nat) (taps : List TapRow) (s : State) : State :=
  match (dry s p).frame with
  | none => s
  | some f => rowRun p f (rowLsync f tl) taps s

/-- The LSYNC pulses that the device drives up to now (R200): one for each active row, a row period apart. -/
def lsyncStep (p : Nat) (s : State) : State :=
  match (dry s p).frame with
  | none => s
  | some f =>
    if dpc s p 0x0E = 0 ∧ f.lsync < dpRows s p
        ∧ f.lsync * dpClocks s p * 2 ^ dpc s p 0x03 * 1000000 ≤ (s.clk.ns - f.syncNs) * dpc s p 0x10 then
      emit (.dryerLsync p f.lsync) (updDry p (fun d => { d with frame := some { f with lsync := f.lsync + 1, lsyncTbs := f.lsyncTbs ++ [s.clk.tb] } }) s)
    else s

/-- What a tick does at the dryer ports: LSYNC pulses, and the stamps whose moment has come (R200, R208). -/
def dryerTick (s : State) : State :=
  let s1 := (List.range 4).foldl (fun s p => lsyncStep p s) s
  if stampsWait s1 then (List.range 4).foldl (fun s p => dryStamps p s) s1 else s1

/-- DRYER_ROW: R206. -/
def execDryerRow (p : Fin 4) (tl : W64) (taps : List TapRow) (s : State) : Out := whenLive (dryerRowBody p.val tl.toNat taps) s

/-- THERMAL_PIPE_ROW: R209. -/
def execThermalPipeRow (p : Fin 4) (s : State) : Out := whenLive (pipeRow p.val) s

/-! ### Mapping (R238) -/

/-- A corrected row reaches the couch. -/
def thermalMapRow (p : Nat) (r : DRow) (s : State) : State :=
  let missing := bitOf r.flags 0
  let lm := if missing then (dry s p).leastMd else match (dry s p).leastMd with
    | some m => some (min m r.md)
    | none => some r.md
  let s0 := updDry p (fun d => { d with leastMd := if r.last then none else lm }) s
  let views := dryViews s0 p r.syncTb
  let s1 := if missing ∨ bitOf r.flags 6 then s0
    else (List.range r.px.length).foldl (fun s x =>
      let v := (r.px.getD x 0).toNat
      if v = 0 then s else thermPixel views p x r.row v r.md (bits r.flags 1 4) r.syncTb s) s0
  match r.last, lm with
  | true, some m => match thermReach p m views with
    | some k => thermClose p k s1
    | none => s1
  | _, _ => s1

/-- The couch takes the port's next corrected row; its dryer port fields change with the first thermal row built only from frames after T_v
(R245). -/
def thermalMapBody (p : Nat) (s : State) : State :=
  match (dry s p).out with
  | [] => s
  | r :: rest =>
    let s1 := updDry p (fun d => { d with out := rest }) s
    couchDryerIdle (thermalMapRow p r (if r.row = 0 then thermSeen p r.syncTb s1 else s1))

/-- THERMAL_ROW_MAP: R238. -/
def execThermalRowMap (p : Fin 4) (s : State) : Out := whenLive (thermalMapBody p.val) s

/-! ### Refinement and biases -/

/-- DRIFT_REFINE: tender T2 finishes; the coefficients are written at the next frame sync (R220). -/
def driftRefineBody (p : Nat) (s : State) : State :=
  if s.cmds.paused.contains 2 then s
  else updDry p (fun d => { d with refine := d.refine.map fun r => { r with ready_ := true } }) s

/-- DRIFT_REFINE: R220. -/
def execDriftRefine (p : Fin 4) (s : State) : Out := whenReady (driftRefineBody p.val) s

/-- BIAS_RAMP_END: R201, R202. -/
def execBiasRampEnd (p : Fin 4) (s : State) : Out := whenReady (biasReached p.val) s

/-! ### SHUTTER (R223) -/

/-- A SHUTTER command runs on. -/
def shutterWaits (c : Cmd) (s : State) : State := putCmd { c with started := true, startNs := s.clk.ns } s

/-- Action 0: join the closure in progress, or set a request with reason HOST. -/
def shutterClose (c : Cmd) (p : Nat) (s : State) : State :=
  let s1 := shutterWaits c s
  updDry p (fun d => match d.closure with
    | some k => { d with closure := some { k with cids := k.cids ++ [c.cid] } }
    | none => { d with req := joinReason d.req (some 4), reqCids := d.reqCids ++ [c.cid] }) s1

/-- Action 1: the closure holds once it has settled. One that has already settled, and is not reopening, holds at once. -/
def shutterHold (c : Cmd) (p : Nat) (s : State) : State :=
  let wait (d : Dry) : Dry := { d with req := joinReason d.req (some 4), reqHold := true, reqHoldCids := d.reqHoldCids ++ [c.cid] }
  match (dry s p).closure with
  | some k =>
    if k.step = 1 ∨ k.step = 2 then
      updDry p (fun d => { d with closure := some { k with hold := true, holdCids := k.holdCids ++ [c.cid] } }) (shutterWaits c s)
    else if k.step = 3 ∨ k.step = 5 then
      finishOk c s.clk.tb 0 (updDry p (fun d => { d with closure := some { k with hold := true } }) s)
    else updDry p wait (shutterWaits c s)
  | none => updDry p wait (shutterWaits c s)

/-- Action 2: end a hold, and complete with the closure in progress. -/
def shutterRelease (c : Cmd) (p : Nat) (s : State) : State :=
  match (dry s p).closure with
  | some k =>
    updDry p (fun d => { d with closure := some { k with cids := k.cids ++ [c.cid], hold := k.hold && decide (k.step ≠ 5) } }) (shutterWaits c s)
  | none => finishOk c 0 0 s

/-- Action 3 clears a pending automatic request; a host's request stays. -/
def shutterInhibit (p : Nat) (s : State) : State :=
  updDry p (fun d => { d with
    inhibit := true
    req := match d.req with
      | some r => if r ≤ 3 then (if !(d.reqCids.isEmpty && d.reqHoldCids.isEmpty) then some 4 else if d.startDue then some 5 else none) else some r
      | none => none
    reqNoted := d.reqNoted && (!(d.reqCids.isEmpty && d.reqHoldCids.isEmpty) || d.startDue || decide (d.req = some 4)) }) s

/-- SHUTTER runs. -/
def shutterStart (c : Cmd) (s : State) : State :=
  let p := pkInst c.packet
  let action := pm8 c.packet 0x18
  if !(dry s p).running then finishCheck c stBadParam s
  else if (chan s (shutChan s p)).inhibit then finishCheck c stTempInhibit s
  else match action with
    | 0 => shutterClose c p s
    | 1 => shutterHold c p s
    | 2 => shutterRelease c p s
    | 3 => finishOk c 0 0 (shutterInhibit p s)
    | _ => finishOk c 0 0 (updDry p (fun d => { d with inhibit := false }) s)

/-- SHUTTER: R223. -/
def execShutter (sq : Fin 1024) (tag : W32) (s : State) : Out := opcodeRow sq tag 0x0050 shutterStart (fun _ s => s) s

/-! ### PORT_START and PORT_STOP (R142, R202) -/

/-- Is a preset armed on the encoder (R338)? -/
def presetArmed (s : State) (e : Nat) : Bool := (enc s e).armed.isSome

/-- PORT_START on a headbox. -/
def startCameraPort (c : Cmd) (p : Nat) (s : State) : State :=
  let bank := cf s 0x02 p 0x12
  let st (i : Nat) : Nat := (tab s p bank i).st
  let kinds := List.range 9
  if (port s p).running ∨ underTest s 0x02 p ∨ presetArmed s (hbEnc s p) ∨ kinds.any (fun k => decide (st k = 1)) then finishCheck c stBusy s
  else if hbProto s p = 0 ∨ kinds.any (fun k => decide (st k = 3)) then finishCheck c stBadParam s
  else finishOk c 0 0 (startHeadbox p s)

/-- PORT_START on a dryer port. -/
def startDryerPort (c : Cmd) (p : Nat) (s : State) : State :=
  let st (i : Nat) : Nat := dTab s p (dBank s p) i
  if (dry s p).running ∨ underTest s 0x05 p ∨ presetArmed s (dpc s p 0x32) ∨ (List.range 5).any (fun i => decide (st i = 1)) then finishCheck c stBusy s
  else if dpc s p 0x00 = 0 ∨ (List.range 5).any (fun i => decide (st i = 3)) then finishCheck c stBadParam s
  else finishOk c 0 0 (startDryer p s)

/-- PORT_START runs. -/
def portStartStart (c : Cmd) (s : State) : State :=
  if addrBlk (pkTarget c.packet) = 0x02 then startCameraPort c (pkInst c.packet) s else startDryerPort c (pkInst c.packet) s

/-- PORT_START: R142, R202. -/
def execPortStart (sq : Fin 1024) (tag : W32) (s : State) : Out := opcodeRow sq tag 0x0030 portStartStart (fun _ s => s) s

/-- PORT_STOP on a headbox: it completes at the stop point. -/
def stopCameraPort (c : Cmd) (p mode : Nat) (s : State) : State :=
  if !(port s p).running then finishOk c (lastStripe s p) 0 s
  else
    let s1 := putCmd { c with started := true, startNs := s.clk.ns } s
    if (port s p).cur.isNone then portHalt p s1
    else if mode = 1 then closeStripe p true s1
    else updPort p (fun x => { x with stopping := true }) s1

/-- PORT_STOP on a dryer port. -/
def stopDryerPort (c : Cmd) (p mode : Nat) (s : State) : State :=
  if !(dry s p).running then finishOk c (lastFrame s p) 0 s
  else
    let s1 := putCmd { c with started := true, startNs := s.clk.ns } s
    if mode = 1 ∨ (dry s p).frame.isNone then
      let s2 := dryStopNow p (updDry p (fun d => { d with stopping := false }) s1)
      finishStops 0x05 p (lastFrame s2 p) s2
    else updDry p (fun d => { d with stopping := true }) s1

/-- PORT_STOP runs. -/
def portStopStart (c : Cmd) (s : State) : State :=
  let p := pkInst c.packet
  let mode := pm8 c.packet 0x18
  if addrBlk (pkTarget c.packet) = 0x02 then stopCameraPort c p mode s else stopDryerPort c p mode s

/-- PORT_STOP: R142, R202. -/
def execPortStop (sq : Fin 1024) (tag : W32) (s : State) : Out := opcodeRow sq tag 0x0031 portStopStart (fun _ s => s) s

end Sys2Proof.Machine
end

