-- ==== Sys2Proof/Machine/CalOps.lean ====
section
/-! DEFINITION. Calibration elements and housekeeping units: attempts, plausibility, CALIBRATE, injected and regular
sequences, self-calibration (chapters 15 and 18). -/

namespace Sys2Proof.Machine

/-! ### Elements (R356) -/

/-- The key of element `i` of a class. -/
def elKey (c i : Nat) : Nat := 64 * c + i
/-- An element. -/
def calEl (s : State) (c i : Nat) : CalEl := tblGet {} s.afe.cal.els (elKey c i)
/-- Change an element. -/
def updEl (c i : Nat) (f : CalEl → CalEl) (s : State) : State :=
  { s with afe := { s.afe with cal := { s.afe.cal with els := tblUpd {} s.afe.cal.els (elKey c i) f } } }
/-- Change the engine. -/
def updCal (f : Cal → Cal) (s : State) : State := { s with afe := { s.afe with cal := f s.afe.cal } }

/-- Elements of a class (Table 18.1). -/
def elCount (c : Nat) : Nat := if c = 1 then 64 else if c = 2 then 4 else if c = 3 then 16 else 0
/-- The sensor of an element (Table 18.1). -/
def elSensor (c i : Nat) : Nat :=
  if c = 1 then (if i < 32 then 32 else 33) else if c = 2 then 36 else if i < 8 then 34 else 35
/-- The effective value of a sensor (R344). -/
def effOf (s : State) (k : Nat) : Int := s.afe.therm.eff.getD k 0

/-- An element as a DETAIL names it (R371). -/
def elDetail (c i : Nat) : Nat := i + 256 * c

/-- |a − b| × 1,000 ≤ b × m: a change of at most m thousandths. -/
def within (a b m : Nat) : Bool := decide (((a : Int) - b).natAbs * 1000 ≤ b * m)

/-- A CALIBRATE completes: a store may begin (R381). -/
def calDone (s : State) : State := { s with nvm := { s.nvm with calCmdDone := true } }

/-- The sense segments within ±2 % of the median of all (Table 18.3). -/
def soundSegments (parts : List Nat) : List Nat :=
  let m := median2 (parts.map fun (x : Nat) => (x : Int))
  (List.range parts.length).filter fun k => decide ((2 * (parts.getD k 0 : Int) - m).natAbs * 100 ≤ 2 * m.natAbs)

/-- The slice and segment limits of Table 18.3: `parts` are, for class 1, each stage's slices that fail, bit by bit, of which its two
spares replace two; for class 3 the measures of the 12 segments. -/
def partsSound (c : Nat) (parts : List Nat) : Bool :=
  match c with
  | 1 => parts.all fun m => decide (((List.range 16).filter (bitOf m)).length ≤ 2)
  | 3 => decide (parts.length = 12 ∧ 10 ≤ (soundSegments parts).length)
  | _ => true

/-- The set that is chosen: of the sound segments the ten lowest (DESIGN CHOICE 95). -/
def chosenSet (c : Nat) (parts : List Nat) : Nat :=
  match c with
  | 1 => parts.foldr (fun m a => m % 65536 + 65536 * a) 0
  | 3 => (((soundSegments parts).take 10).map fun k => 2 ^ k).sum
  | _ => 0

/-- The plausibility limits of Table 18.3: offset in 1/16 LSB, gain as unsigned 1.15. -/
def plausible (c : Nat) (e : CalEl) (ofs : Int) (gain : Nat) (parts : List Nat) : Bool :=
  match c with
  | 1 => partsSound 1 parts && decide (ofs.natAbs ≤ 1024 ∧ (ofs - e.ofs).natAbs ≤ 128) && within gain 32768 20 && within gain e.gain 3
  | 2 => decide (ofs.natAbs ≤ 128 ∧ (ofs - e.ofs).natAbs ≤ 32) && within gain 32768 10 && within gain e.gain 1
  | _ => partsSound c parts && within gain 32768 50 && within gain e.gain 10

/-! ### Attempts (R367) -/

/-- A running CALIBRATE takes the outcome of an element that it waits for, and completes with the last. -/
def calCmdTakes (key : Nat) (ok : Bool) (k : CalCmd) (s : State) : State :=
  if !k.left.contains key then s
  else
    let k' := { k with left := k.left.erase key, accepted := k.accepted + b2n ok, rejected := k.rejected + b2n (!ok) }
    let rest := s.afe.cal.cmds.filter fun x => x.cid ≠ k.cid
    match s.cmds.flight.find? fun c => decide (c.cid = k.cid) with
    | none => updCal (fun x => { x with cmds := rest }) s
    | some c =>
      let r := progressTo c (c.position + 1) s
      if k'.left.isEmpty then
        let s1 := updCal (fun x => { x with cmds := rest }) r.2
        let s2 := calDone s1
        let result := k'.accepted + k'.rejected * 2 ^ 32
        if k'.rejected = 0 then finishOk r.1 result r.1.position s2 else finish r.1 stCalRejected (percentOf r.1) result r.1.position s2
      else updCal (fun x => { x with cmds := x.cmds.map fun y => if y.cid = k.cid then k' else y }) r.2

/-- The outcome of an element reaches every CALIBRATE. -/
def calOutcome (key : Nat) (ok : Bool) (s : State) : State := s.afe.cal.cmds.foldl (fun s k => calCmdTakes key ok k s) s

/-- Accepted values come into force, and are due for storage (R367, R368, R381). -/
def elLand (c i : Nat) (v : Int × Nat × Nat) (s : State) : State :=
  let s1 := updEl c i (fun e => { e with ofs := v.1, gain := v.2.1, chosen := v.2.2, passed := none }) s
  { s1 with nvm := { s1.nvm with calUnstored := true } }

/-- Acceptance (R367). -/
def elPass (c i : Nat) (s : State) : State :=
  calOutcome (elKey c i) true (updEl c i (fun e => { e with
    due := false, attempted := true, stale := false, degraded := false, rejects := 0, held := none
    tAtt := some (effOf s (elSensor c i)) }) s)

/-- Rejection: the old values stay. -/
def elReject (c i : Nat) (s : State) : State :=
  let n := (calEl s c i).rejects + 1
  let s1 := updEl c i (fun e => { e with due := false, attempted := true, stale := true, rejects := n, held := none
                                         degraded := e.degraded || decide (n = 3), tAtt := some (effOf s (elSensor c i)) }) s
  let s2 := raise 327 0x01 (elDetail c i) s1
  calOutcome (elKey c i) false (if n = 3 then raise 327 0x02 (elDetail c i) s2 else s2)

/-- A measurement is judged and applied. -/
def elJudge (c i : Nat) (ofs : Int) (gain : Nat) (parts : List Nat) (s : State) : Bool × State :=
  if plausible c (calEl s c i) ofs gain parts then (true, elPass c i (elLand c i (ofs, gain, chosenSet c parts) s))
  else (false, elReject c i s)

/-- Does tender T2 restart now (R369)? -/
def t2Paused (s : State) : Bool := s.cmds.paused.contains 2

/-- A CALIBRATE that runs has named the element and waits for it. -/
def calNamed (s : State) (c i : Nat) : Bool := s.afe.cal.cmds.any fun k => k.left.contains (elKey c i)

/-- Is an attempt at the element wanted: due, or named by a command; and not running or waiting for its check? -/
def elWanted (s : State) (c i : Nat) : Bool :=
  ((calEl s c i).due || calNamed s c i) && (calEl s c i).run.isNone && (calEl s c i).held.isNone

/-- When the element became due, or was named. -/
def elSince (s : State) (c i : Nat) : Nat :=
  let named := (s.afe.cal.cmds.filter fun k => k.left.contains (elKey c i)).map CalCmd.ns
  if (calEl s c i).due then named.foldl min (calEl s c i).dueNs else named.foldl min s.clk.ns

/-- May any calibration start (R357, R369)? -/
def calMay (s : State) : Bool := s.clk.traceable && !t2Paused s && !s.boot.tripped && s.afe.linkOk

/-! ### Housekeeping units (R313 to R318) -/

/-- The regular sequence resumes, at entry 0 after a restart (R311, R315, R318). -/
def hkResume (u : Nat) (s : State) : State :=
  updHk u (fun x =>
    let e := if x.restart ∨ hkLen s u ≤ x.entry then 0 else x.entry
    { x with restart := false, entry := e, convNs := s.clk.ns, cin := hkc s u (0x10 + e), slow := decide (hkMode s u = 2), fixed := none
             st := if hkMode s u = 0 then 0 else if hkLen s u = 0 then 4 else 1 }) s

/-- A self-calibration starts (R317, R318). -/
def selfcalStart (u : Nat) (s : State) : State :=
  let lost := (List.range 7).filter fun k => (hk s u).pending.contains k
  lost.foldl (fun s k => hkLose u k s)
    (updHk u (fun x => { x with st := 3, calNs := s.clk.ns, calWait := false, pending := [], restart := true }) s)

/-- A self-calibration is asked for: it joins one that runs, and waits for an injected sequence and until one may start. -/
def selfcalRequest (u : Nat) (s : State) : State :=
  if (hk s u).st = 3 then s
  else if (hk s u).st = 2 ∨ !calMay s then updHk u (fun x => { x with calWait := true }) s
  else selfcalStart u s

/-- A self-calibration that waited for the crystal, the AFE link or T2 starts. -/
def selfcalWaited (u : Nat) (s : State) : State :=
  if (hk s u).calWait ∧ calMay s ∧ (hk s u).st ≠ 2 ∧ (hk s u).st ≠ 3 then selfcalStart u s else s

/-- An injected sequence starts with the lowest pending source (R315). -/
def injStart (u : Nat) (s : State) : State :=
  match (List.range 7).find? fun k => (hk s u).pending.contains k with
  | none => s
  | some k =>
    let ins := (List.range (hkc s u 2)).map fun j => hkc s u (0x20 + j)
    updHk u (fun x => { x with st := 2, src := k, injIn := ins, inj := 0, pending := x.pending.filter fun j => j ≠ k
                               chan := if k < 4 then 4 * u + k else x.chan, convNs := s.clk.ns, cin := ins.getD 0 0, slow := false, fixed := none }) s

/-- What follows an injected sequence: a waiting self-calibration, the next trigger, or the regular sequence; a sequence that a
commit emptied or whose MODE is 0 takes no trigger (R314). -/
def injEnds (u : Nat) (s : State) : State :=
  let s1 := updHk u (fun x => { x with lostNoted := false }) s
  if (hk s1 u).calWait ∧ calMay s1 then selfcalStart u s1
  else if (hk s1 u).pending.isEmpty ∨ hkMode s1 u = 0 ∨ hkc s1 u 2 = 0 then hkResume u s1
  else injStart u s1

/-- The divider of an input at the converter (Table 15.1): a signal of `hkDiv` V, at input 30 of `hkDiv` A, gives 1 V. -/
def hkDiv (i : Nat) : Nat := if i = 26 then 2 else if i = 28 then 4 else if i = 29 ∨ i = 31 then 40 else if i = 30 then 5 else 1

/-- RAW of a signal in µV or µA (R309, R310). -/
def hkCode (i signal : Nat) : Nat := min 4095 ((2 * signal * 4096 + 1200000 * hkDiv i) / (2 * 1200000 * hkDiv i))

/-- TEST_CODE of the one test DAC: of the unit whose TEST_IN names an input, else of the unit itself (R312, R319; DEDUCED 91). -/
def dacCode (s : State) (u : Nat) : Nat :=
  hkc s (((List.range 4).find? fun v => decide (hkc s v 6 ≠ 0xFF)).getD u) 8

/-- The factors of a conversion of input `i` (R311, R319). -/
def hkFactors (s : State) (u i : Nat) : Int × Nat × Bool × Nat :=
  (toS 16 (hkc s u (0x40 + 4 * i)), hkc s u (0x42 + 4 * i), decide (hkc s u 6 = i), dacCode s u)

/-- RAW of a conversion (R309, R310, R319): input 24 and the input that TEST_IN names read the test DAC, `err` − 4 LSB beside
4 × TEST_CODE on a sound path, any code on another; input 29 reads VVALVE. -/
def hkRaw (s : State) (i : Nat) (f : Int × Nat × Bool × Nat) (x : HkSignal) : Nat :=
  if i = 24 ∨ f.2.2.1 then
    match x.err with
    | some e => (clampI 0 4095 (4 * (f.2.2.2 : Int) + e.val - 4)).toNat
    | none => x.signal.toNat % 4096
  else if i = 29 then hkCode 29 (1000 * s.afe.vmv)
  else hkCode i x.signal.toNat

/-- The result of a conversion (R316). -/
def hkResult (s : State) (u : Nat) (x : HkSignal) (trig sampledTb : Nat) : HkRes :=
  let i := (hk s u).cin
  let f := (hk s u).fixed.getD (hkFactors s u i)
  let raw := hkRaw s i f x
  let v := (2 * ((raw : Int) - f.1) * (f.2.1 : Int) + 32768) / 65536
  { value := (clampI 0 4095 v).toNat, clamp := decide (v < 0 ∨ 4095 < v), test := f.2.2.1, raw := raw, trig := trig
    stamp := sampledTb / 1000 % 2 ^ 32, goodNs := none }

/-- Keep the time and the value of the last result without TEST (R319). -/
def stampGood (s : State) (old new : HkRes) : HkRes :=
  if new.test then { new with goodNs := old.goodNs, goodVal := old.goodVal } else { new with goodNs := some s.clk.ns, goodVal := new.value }

/-- A regular conversion ends (R313). -/
def regularEnds (u : Nat) (sig : HkSignal) (s : State) : State :=
  let x := hk s u
  let conv := if x.slow then 3200 else 800
  let r := hkResult s u sig 0 (s.clk.tb - conv)
  let s1 := updHk u (fun x => { x with res := tblSet x.res x.entry (stampGood s (tblGet {} x.res x.entry) r)
                                       entry := if x.entry + 1 < hkLen s u then x.entry + 1 else 0 }) s
  if x.restart then hkResume u s1
  else updHk u (fun x => { x with convNs := s.clk.ns, cin := hkc s u (0x10 + x.entry), slow := decide (hkMode s u = 2), fixed := none }) s1

/-- The coil measurement of a valve source is whole (R297, R316); results with TEST count for nothing (R319). -/
def coilResult (u : Nat) (s : State) : State :=
  let x := hk s u
  let a := tblGet {} x.injRes 0
  let b := tblGet {} x.injRes 1
  if x.src < 4 ∧ x.inj = 1 ∧ x.injIn.take 2 = [30, 31] ∧ !a.test ∧ !b.test then coilMeasured (4 * u + x.src) a.value b.value s else s

/-- An injected conversion ends (R315). -/
def injectedEnds (u : Nat) (sig : HkSignal) (s : State) : State :=
  let x := hk s u
  let r := hkResult s u sig x.src (s.clk.tb - 800)
  let s1 := updHk u (fun x => { x with injRes := tblSet x.injRes x.inj (stampGood s (tblGet {} x.injRes x.inj) r) }) s
  let s2 := coilResult u s1
  if x.injIn.length ≤ x.inj + 1 then injEnds u s2
  else updHk u (fun x => { x with inj := x.inj + 1, convNs := s.clk.ns, cin := x.injIn.getD (x.inj + 1) 0, fixed := none }) s2

/-- Values accepted late come into force (R369). -/
def elPassed (c i : Nat) (s : State) : State :=
  match (calEl s c i).passed with
  | some v => elLand c i v s
  | none => s

/-- A conversion ends; between two conversions the unit takes values that T2 accepted late (R369). -/
def conversionEnds (u : Nat) (sig : HkSignal) (s : State) : State :=
  let x := hk s u
  if s.clk.ns < x.convNs + (if x.slow then us 4 else us 1) then s
  else if x.st = 1 then elPassed 2 u (regularEnds u sig s)
  else if x.st = 2 then elPassed 2 u (injectedEnds u sig s)
  else s

/-- The check of a self-calibration's measurement has ended: CAL_TEMP, SELFCAL_DONE and the commands that wait for it (R318,
R321). -/
def selfcalJudged (u : Nat) (ok : Bool) (s : State) : State :=
  let cids := (hk s u).cids
  let s1 := raise (218 + u) 0x02 (b2n ok) (updHk u (fun x => { x with cids := [], temp := if ok then effOf s 36 else x.temp }) s)
  if ok then finishCids cids stOk 1 0 s1 else finishCids cids stCalRejected 0 0 s1

/-- A self-calibration ends with a measurement (R317, R318). While T2 restarts, its check waits (R369). -/
def selfcalEnds (u : Nat) (ofs : Int) (gain : Nat) (s : State) : State :=
  if (hk s u).st ≠ 3 ∨ s.clk.ns < (hk s u).calNs + 1600000 then s
  else
    let s1 := hkResume u s
    if t2Paused s then updEl 2 u (fun e => { e with held := some (ofs, gain, []) }) s1
    else
      let r := elJudge 2 u ofs gain [] s1
      selfcalJudged u r.1 r.2

/-- A commit has brought fields of a unit into force: a conversion whose sampling has ended keeps the factors it had (R311). -/
def hkTook (old : State) (u : Nat) (s : State) : State :=
  let x := hk s u
  let i := x.cin
  if (x.st = 1 ∨ x.st = 2) ∧ x.fixed.isNone ∧ x.convNs + (if x.slow then 800 else 200) ≤ s.clk.ns then
    updHk u (fun y => { y with fixed := some (hkFactors old u i) }) s
  else s

/-- A commit has changed MODE, REG_LEN or a REG_IN (R311). -/
def hkChanged (u : Nat) (s : State) : State :=
  let x := hk s u
  let s1 := updHk u (fun x => { x with restart := true }) s
  if x.st = 0 ∨ x.st = 4 then hkResume u s1 else s1

/-! ### Starting calibrations (R362 to R364) -/

/-- A class 1 calibration runs: its outputs are unsettled until the chain restarts at its end. -/
def adcCalStart (i : Nat) (forced : Bool) (s : State) : State :=
  let s1 := updEl 1 i (fun e => { e with run := some s.clk.ns, forced := forced }) s
  updDry (i / 16) (fun d => { d with est := tblUpd {} d.est (i % 16) fun e => { e with restart := some (s.clk.tb + 240000) } }) s1

/-- Does the present vertical blank of a port last for 240 µs and the unsettled outputs (R362)? Times over SAMPLE_KHZ. -/
def blankFits (s : State) (p : Nat) : Bool :=
  let d := dry s p
  let k := dpc s p 0x10
  let need := 240000 * k + unsettledCount (dpc s p 0x03) * 2 ^ dpc s p 0x03 * 1000000
  match d.frame with
  | none => false
  | some f =>
    if dpc s p 0x0E = 0 then
      let rows := dpRows s p * dpClocks s p * 2 ^ dpc s p 0x03 * 1000000
      decide (f.syncNs * k + rows ≤ s.clk.ns * k) && decide (s.clk.ns * k + need ≤ f.syncNs * k + dpFrameSamples s p * 1000000)
    else match d.rowEnd, d.blanks with
      | some t, [a, b] => decide (dpRows s p ≤ f.got) && decide ((s.clk.tb - t) * k + need ≤ min a b * k)
      | _, _ => false

/-- The wanted channels of a port. -/
def wantedOf (s : State) (p : Nat) : List Nat := ((List.range 16).map fun c => 16 * p + c).filter fun i => elWanted s 1 i

/-- A class 1 start: at once while the port is stopped; otherwise all wanted channels of the port together, in a blank. -/
def adcTry (i : Nat) (s : State) : State :=
  let p := i / 16
  if !elWanted s 1 i then s
  else if !(dry s p).running ∨ (dry s p).st ≠ 3 then adcCalStart i false s
  else if blankFits s p then (wantedOf s p).foldl (fun s i => adcCalStart i false s) s
  else s

/-- May the current sense of a channel calibrate now (R364)? -/
def valveMay (s : State) (n : Nat) : Bool :=
  let m := n / 4
  elWanted s 3 n && decide ((chan s n).phase = 0)
    && ((allJobs (chan s n)).all fun j => j.now_ || decide (mkE s n + runK (mkV s n) 200000 < j.fOpen * mkK))
    && ((List.range 4).all fun p => !(dryShut s p && decide (shutChan s p = n)))
    && ((List.range 4).all fun k => (calEl s 3 (4 * m + k)).run.isNone)

/-- A class 3 start, in ascending order on a switch. -/
def valveTry (n : Nat) (s : State) : State :=
  let m := n / 4
  if (List.range 4).any fun k => decide (4 * m + k < n) && valveMay s (4 * m + k) then s
  else if valveMay s n then
    updChan n (fun c => { c with calEndNs := some (s.clk.ns + 80000) }) (updEl 3 n (fun e => { e with run := some s.clk.ns }) s)
  else s

/-- A wanted element starts when its conditions hold. -/
def calStart (c i : Nat) (s : State) : State :=
  if !calMay s then s
  else match c with
    | 1 => adcTry i s
    | 2 => if elWanted s 2 i then selfcalRequest i s else s
    | _ => valveTry i s

/-! ### Ends (R367 to R369) -/

/-- A class 1 calibration has ended: the chain restarts (R205). -/
def adcRestart (i : Nat) (s : State) : State :=
  updDry (i / 16) (fun d => { d with est := tblUpd {} d.est (i % 16) (restartEst s) }) s

/-- A port that waits for its channels' attempts may begin timing (R360). -/
def adcAttempted (c i : Nat) (s : State) : State := if c = 1 then dryTiming (i / 16) s else s

/-- Has the attempt's time run out? -/
def elOver (s : State) (c i : Nat) : Bool :=
  match (calEl s c i).run with
  | some t => decide (t + (if c = 1 then 240000 else 80000) ≤ s.clk.ns)
  | none => false

/-- The latest forced calibration of a channel, with the unsettled outputs after it, ends at `tb` (R363). -/
def forcedEnds (c tb : Nat) (d : Dry) : Dry :=
  let last := ((d.forced.filter fun x => decide (x.2.2 = c)).map Prod.fst).foldl max 0
  { d with forced := d.forced.map fun x => if x.2.2 = c ∧ x.1 = last then (x.1, tb, c) else x }

/-- The element returns to service. -/
def elBack (c i : Nat) (s : State) : State :=
  let s1 := updEl c i (fun e => { e with run := none, forced := false }) s
  let p := i / 16
  if c = 1 then dryCalOver p (adcRestart i (if (calEl s 1 i).forced then updDry p (forcedEnds (i % 16) (s.clk.tb + unsettledNs s p)) s1 else s1))
  else updChan i (fun k => { k with calEndNs := none }) s1

/-- An idle instant at which values that T2 accepts late are applied (R369). -/
def elIdle (s : State) (c i : Nat) : Bool :=
  if c = 1 then !(dry s (i / 16)).running || decide ((dry s (i / 16)).st ≠ 3) || blankFits s (i / 16)
  else if c = 2 then decide ((hk s i).st ≠ 1 ∧ (hk s i).st ≠ 2) else decide ((chan s i).phase = 0)

/-- Values that T2 accepted late come into force at an idle instant; for a channel as the end of a calibration (R369). -/
def heldApply (c i : Nat) (s : State) : State :=
  if (calEl s c i).passed.isNone ∨ !elIdle s c i then s
  else if c = 1 then adcRestart i (elPassed c i s) else elPassed c i s

/-- T2 runs again: a measurement that ended meanwhile is checked (R369). -/
def heldCheck (c i : Nat) (s : State) : State :=
  match (calEl s c i).held with
  | none => s
  | some (ofs, gain, parts) =>
    let ok := plausible c (calEl s c i) ofs gain parts
    let s1 := if ok then heldApply c i (elPass c i (updEl c i (fun e => { e with passed := some (ofs, gain, chosenSet c parts) }) s))
      else elReject c i s
    adcAttempted c i (if c = 2 then selfcalJudged i ok s1 else s1)

/-- A calibration of class 1 or 3 ends with a measurement. -/
def calEnds (c i : Nat) (ofs : Int) (gain : Nat) (parts : List Nat) (s : State) : State :=
  if !elOver s c i then heldApply c i s
  else if t2Paused s then updEl c i (fun e => { e with held := some (ofs, gain, parts) }) (elBack c i s)
  else adcAttempted c i (elJudge c i ofs gain parts (elBack c i s)).2

/-- An abandoned element stays due (R357). -/
def elDue (c i : Nat) (s : State) : State :=
  updEl c i (fun e => { e with due := true, dueNs := if e.due then e.dueNs else s.clk.ns }) s

/-- Every running calibration is abandoned (R357, R370): its element stays due. -/
def calAbandon (s : State) : State :=
  let s1 := (List.range 64).foldl (fun s i => if (calEl s 1 i).run.isSome then elDue 1 i (elBack 1 i s) else s) s
  let s2 := (List.range 16).foldl (fun s i => if (calEl s 3 i).run.isSome then elDue 3 i (elBack 3 i s) else s) s1
  (List.range 4).foldl (fun s u =>
    if (hk s u).st = 3 then hkResume u (updHk u (fun x => { x with calWait := !x.cids.isEmpty }) (elDue 2 u s)) else s) s2

/-! ### SRAM rows (R366) -/

/-- Spare rows of the main die's SRAM. -/
def spareRows : Nat := 1024

/-- The outcome of a spare row's test: the next of `tests`, and a free value where the row in hand gives none. -/
def spareTest (tests : List Bool) (s : State) : Bool × List Bool × State :=
  match tests with
  | ok :: ts => (ok, ts, s)
  | [] => (decide (Config.freeValue s.free % 2 = 1), [], { s with free := s.free + 1 })

/-- A pending row is repaired with the next of `n` free spares that passes its test; one that fails is retired. With none left
the row stays in use, which is raised once. -/
def sramRepairFrom (row : Nat) : Nat → List Bool → State → Bool × List Bool × State
  | 0, tests, s =>
    let s1 := updCal (fun c => { c with exhausted := true }) s
    (false, tests, if s.afe.cal.exhausted then s1 else raise 327 0x08 0 s1)
  | n + 1, tests, s =>
    let t := spareTest tests s
    if t.1 then
      let i := s.afe.cal.sramUsed + s.afe.cal.sramRetired
      (true, t.2.1, raise 327 0x07 i (updCal (fun c => { c with sramUsed := c.sramUsed + 1, sramPending := c.sramPending.erase row
                                                                sramErrs := tblErase c.sramErrs row }) t.2.2))
    else sramRepairFrom row n t.2.1 (updCal (fun c => { c with sramRetired := c.sramRetired + 1 }) t.2.2)

/-- The key of an SRAM row that a CALIBRATE names. -/
def rowKey (row : Nat) : Nat := elKey 6 0 + row

/-- The same with all the spares that are free; a CALIBRATE that named the row takes the outcome (R361). -/
def sramRepair (row : Nat) (tests : List Bool) (s : State) : Bool × List Bool × State :=
  let x := sramRepairFrom row (spareRows - s.afe.cal.sramUsed - s.afe.cal.sramRetired) tests s
  (x.1, x.2.1, calOutcome (rowKey row) x.1 x.2.2)

/-- The pending rows that `named` picks. -/
def sramRepairAll (named : Nat → Bool) (tests : List Bool) (s : State) : State :=
  ((s.afe.cal.sramPending.filter named).foldl (fun (a : List Bool × State) row => (sramRepair row a.1 a.2).2) (tests, s)).2

/-- May an SRAM row be repaired (R357, R369)? -/
def sramMay (s : State) : Bool := s.clk.traceable && !t2Paused s

/-- With class 4 in AUTO every pending row is repaired: when one becomes pending, when a commit sets AUTO, and when a restart of T2
or an outage of the crystal ends (R357, R366, R369). -/
def sramAuto (tests : List Bool) (s : State) : State :=
  if bitOf (cf s 0x0E 0 1) 3 ∧ sramMay s then sramRepairAll (fun _ => true) tests s else s

/-- T2 runs again (R369). -/
def calResumes (s : State) : State :=
  let s1 := [1, 2, 3].foldl (fun s c => (List.range (elCount c)).foldl (fun s i => heldCheck c i s) s) s
  sramAuto [] ((List.range 4).foldl (fun s u => selfcalWaited u s) s1)

end Sys2Proof.Machine
end

