-- ==== Sys2Proof/Machine/HostData.lean ====
section
/-! DEFINITION. Commands that write or read host memory (R102, R75). -/

namespace Sys2Proof.Machine

/-- A command writes bytes to its host buffer, then goes on as `fin` says. A failed access ends it with the progress
reached in POSITION, which `pos` gives from the bytes written (R102, R116). While Bus Master Enable is 0 no request can be issued and the command waits (R75). -/
def hostOutAt (pos : Nat → Nat) (c : Cmd) (bs : List Byte) (io : HostIo) (fin : Cmd → State → State) (s : State) : State :=
  if !mayRequest s then s
  else match io with
    | .ok => fin c (hostWrite (pkAddr c.packet) bs s)
    | .fail n =>
      let k := min n bs.length
      finishHostFail c (pos k) (hostWrite (pkAddr c.packet) (bs.take k) s)

/-- As above for a command whose POSITION counts bytes. -/
def hostOut (c : Cmd) (bs : List Byte) (io : HostIo) (fin : Cmd → State → State) (s : State) : State :=
  hostOutAt (fun k => k) c bs io fin s

/-- A chained device asks the head for host data, in HRD requests of at most 4,096 bytes (Table 21.3). -/
def hrdSend : Nat → Nat → Nat → State → State
  | 0, _, _, s => s
  | k + 1, a, n, s => if n = 0 then s
    else hrdSend k (a + min n 4096) (n - min n 4096) (feltTo 0 0x1C (leBytes 8 a ++ leBytes 4 (min n 4096)) s)

/-- The requests of a chained device for the next host data of a command. -/
def hrdAsk (c : Cmd) (d : HostRead) (s : State) : State :=
  let want := match d with
    | .data bs => bs.length
    | .fail => pkLen c.packet - c.buf.length
  if s.chain.head then s else hrdSend (want / 4096 + 1) (pkAddr c.packet + c.buf.length) want s

/-- A command reads its host data. -/
def hostIn (c : Cmd) (d : HostRead) (pos : Nat) (go : List Byte → State → State) (s : State) : State :=
  match d with
  | .data bs => go bs (hrdAsk c d s)
  | .fail => finishHostFail c pos (hrdAsk c d s)

/-- A command that reads host data does not run while Bus Master Enable is 0 (R75). -/
def needHost (f : Cmd → State → State) (c : Cmd) (s : State) : State := if mayRequest s then f c s else s

end Sys2Proof.Machine
end

