-- ==== Sys2Proof/Machine/NvmOps.lean ====
section
/-! DEFINITION. Non-volatile storage: the page writes and their jobs, calibration banks, the counter ring, the event log
and what the device reads at ready (chapter 19). -/

namespace Sys2Proof.Machine

/-- Change the NVM state. -/
def updNvm (f : Nvm → Nvm) (s : State) : State := { s with nvm := f s.nvm }

/-! ### Images -/

/-- A slot of the counter ring (Table 19.6). -/
def slotImage (seq : Nat) (count : Nat → Nat) (complete : Nat) : List Byte :=
  let h := leBytes 4 seq ++ zeros 4 ++ (List.range 27).flatMap (fun i => leBytes 8 (count i)) ++ zeros 24
  h ++ leBytes 4 (crc32 h) ++ zeros 3 ++ leBytes 1 complete

/-- The address of a slot of the counter ring. -/
def slotAddr (k : Nat) : Nat := 0xC000 + 256 * k

/-- A log entry (Table 19.7). -/
def logBytes (seq : Nat) (e : LogEntry) : List Byte :=
  let h := leBytes 4 seq ++ leBytes 2 e.source ++ leBytes 1 e.cause ++ leBytes 1 e.severity ++ leBytes 4 e.detail
    ++ leBytes 4 e.boot ++ leBytes 8 e.time ++ leBytes 4 e.opsec ++ leBytes 2 e.suppressed
  h ++ leBytes 2 (crc16 h)

/-- The address of a log slot. -/
def logAddr (k : Nat) : Nat := 0x20000 + 32 * k

/-- Consecutive log entries. -/
def logPage : Nat → List LogEntry → List Byte
  | _, [] => []
  | seq, e :: es => logBytes seq e ++ logPage ((seq + 1) % 2 ^ 32) es

/-- The address of a calibration bank: 0 A, 1 B. -/
def bankAddr (b : Nat) : Nat := if b = 0 then 0x4000 else 0x8000

/-- The image of a calibration bank (R381). -/
def bankImage (seq : Nat) (vals : Tbl Int) : List Byte :=
  let len := min 16368 Config.calLength
  let body := (List.range 16368).map (Config.calBody vals)
  let h := leBytes 4 seq ++ leBytes 2 1 ++ zeros 2 ++ leBytes 4 len
  h ++ leBytes 4 (crc32 (h ++ body.take len)) ++ body

/-- STORE_SEQ of a bank. -/
def bankSeq (s : State) (b : Nat) : Nat := leNat (nvmRead s (bankAddr b) 4)

/-- Are a bank's header and CRC valid (R383)? -/
def bankValid (s : State) (b : Nat) : Bool :=
  let a := bankAddr b
  let len := leNat (nvmRead s (a + 8) 4)
  decide (leNat (nvmRead s (a + 4) 2) = 1 ∧ len ≤ 16368)
    && decide (leNat (nvmRead s (a + 12) 4) = crc32 (nvmRead s a 12 ++ nvmRead s (a + 16) len))

/-- Keys of the elements whose values a bank holds: classes 1 to 3 (Table 18.1). -/
def calKeys : List (Nat × Nat) := [1, 2, 3].flatMap fun c => (List.range (elCount c)).map fun i => (c, i)

/-- The values in force: offset, gain and chosen set of each element. -/
def calVals (s : State) : Tbl Int :=
  calKeys.flatMap fun x => let e := calEl s x.1 x.2
    [(3 * elKey x.1 x.2, e.ofs), (3 * elKey x.1 x.2 + 1, (e.gain : Int)), (3 * elKey x.1 x.2 + 2, (e.chosen : Int))]

/-- Bring stored values into force. -/
def calLoad (vals : Tbl Int) (s : State) : State :=
  calKeys.foldl (fun s x => updEl x.1 x.2 (fun e =>
    { e with ofs := tblGet e.ofs vals (3 * elKey x.1 x.2), gain := (tblGet (e.gain : Int) vals (3 * elKey x.1 x.2 + 1)).toNat
             chosen := (tblGet (e.chosen : Int) vals (3 * elKey x.1 x.2 + 2)).toNat }) s) s

/-! ### Page writes (R373 to R375) -/

/-- A page write begins. -/
def startPage (job : PageJob) (addr : Nat) (bs : List Byte) (s : State) : State :=
  updNvm (fun n => { n with page := some { job := job, addr := addr, bytes := bs, startNs := s.clk.ns } }) s

/-- Address and bytes of page `k` of a write of `bs` from `dest`: only the bytes within one page (R373, R112). -/
def pageCut (dest : Nat) (bs : List Byte) (k : Nat) : Nat × List Byte :=
  let lo := max dest ((dest / 128 + k) * 128)
  let hi := min (dest + bs.length) ((dest / 128 + k + 1) * 128)
  (lo, slice bs (lo - dest) (hi - lo))

/-- Pages that a write of `n` bytes from `dest` touches (R112). -/
def pageCount (dest n : Nat) : Nat := if n = 0 then 0 else (dest + n - 1) / 128 - dest / 128 + 1

/-- The next page of a counter batch (R384): step 0 takes the values from RAM (R375). -/
def batchPage (step : Nat) (s : State) : State :=
  let s1 := if step = 0 then
      updNvm (fun n => { n with batchDue := false, batchSlot := (n.newestSlot + 1) % 64
                                batchImage := slotImage ((n.slotSeq + 1) % 2 ^ 32) (counter s) 0xA5 }) s else s
  let a := slotAddr s1.nvm.batchSlot
  let im := s1.nvm.batchImage
  let s2 := updNvm (fun n => { n with batchNext := some step }) s1
  match step with
  | 0 => startPage (.batch 0) (a + 0xFF) [0] s2
  | 1 => startPage (.batch 1) a (slice im 0 0x80) s2
  | 2 => startPage (.batch 2) (a + 0x80) (slice im 0x80 0x7F) s2
  | _ => startPage (.batch 3) (a + 0xFF) [0xA5] s2

/-- May an event-log page write start (R435)? -/
def logMay (s : State) : Bool :=
  !s.nvm.logQueue.isEmpty && match s.nvm.lastLogPageNs with
    | some t => decide (t + sec 1 ≤ s.clk.ns)
    | none => true

/-- The page of the queue's leading entries that share it (R387). -/
def logStart (s : State) : State :=
  let n := min (4 - s.nvm.nextSlot % 4) s.nvm.logQueue.length
  startPage (.log n) (logAddr s.nvm.nextSlot) (logPage s.nvm.nextSeq (s.nvm.logQueue.take n))
    (updNvm (fun n => { n with lastLogPageNs := some s.clk.ns }) s)

/-- The next page of the calibration store, or its selector (R381, R382). -/
def storePage (j : CalStoreJob) (s : State) : State :=
  if j.verified then startPage .selector 0x3000 [if j.bank = 0 then 0x5A else 0xA5] s
  else
    let x := pageCut (bankAddr j.bank) j.image j.page
    startPage (.store j.page) x.1 x.2 s

/-- The next page of a record that the device itself writes: the first fixes the copy and its SEQ (R377). -/
def recordPage (r : RecWrite) (rs : List RecWrite) (s : State) : State :=
  let d := r.dest.getD (let n := recordNext s r.id; (n.1, recordImage r.id n.2 r.payload))
  let x := pageCut d.1 d.2 r.page
  startPage (.record r.id r.page) x.1 x.2 (updNvm (fun n => { n with records := { r with dest := some d } :: rs }) s)

/-- The record of a RECORD write. -/
def writerRecord (c : Cmd) : Nat := (recordAt (pkTarget c.packet)).getD 0

/-- The next page of an NVM_WRITE. `aux` is 0 until the first page fixes the destination, then the destination plus 1. -/
def writerPage (c : Cmd) (s : State) : State :=
  let d : Nat × List Byte :=
    if c.aux ≠ 0 then (c.aux - 1, c.buf)
    else if pkOpt8 c.packet then
      let n := recordNext s (writerRecord c)
      (n.1, recordImage (writerRecord c) n.2 c.buf)
    else (pkTarget c.packet, c.buf)
  let x := pageCut d.1 d.2 c.position
  startPage (.command c.cid c.position) x.1 x.2 (putCmd { c with aux := d.1 + 1, buf := d.2 } s)

/-- The command with a fetch number. -/
def cmdById (s : State) (cid : Nat) : Option Cmd := s.cmds.flight.find? fun c => decide (c.cid = cid)

/-- The NVM_WRITE whose turn it is. -/
def writerNow (s : State) : Option Cmd := s.nvm.writers.findSome? (cmdById s)

/-- The device takes the next page from the first job that has one (R374), unless the window is closed or T3 restarts
(R375). -/
def nvmPump (s : State) : State :=
  if s.nvm.page.isSome ∨ s.nvm.window = false ∨ s.cmds.paused.contains 3 then s
  else match s.nvm.batchNext with
    | some k => batchPage k s
    | none =>
      if s.nvm.batchDue then batchPage 0 s
      else if logMay s then logStart s
      else match s.nvm.store with
        | some j => storePage j s
        | none => match s.nvm.records with
          | r :: rs => recordPage r rs s
          | [] => match writerNow s with
            | some c => writerPage c s
            | none => s

/-! ### Jobs that begin -/

/-- May a store begin (R381)? -/
def storeDue (s : State) : Bool :=
  s.nvm.calUnstored && s.nvm.store.isNone && (s.nvm.calCmdDone || match s.nvm.lastStoreNs with
    | none => true
    | some t => decide (t + sec 3600 ≤ s.clk.ns))

/-- A store begins: the values in force now go into the inactive bank. -/
def storeBegin (s : State) : State :=
  if !storeDue s then s
  else
    let b := 1 - s.nvm.calBank
    let q := (bankSeq s s.nvm.calBank + 1) % 2 ^ 32
    let v := calVals s
    nvmPump (updNvm (fun n => { n with store := some { bank := b, seq := q, image := bankImage q v, vals := v }
                                       lastStoreNs := some s.clk.ns, calCmdDone := false }) s)

/-- A counter batch falls due every 600 s after ready. -/
def batchBegin (s : State) : State :=
  if s.clk.ns < s.nvm.lastBatchNs + sec 600 then s
  else nvmPump (updNvm (fun n => { n with batchDue := true, lastBatchNs := n.lastBatchNs + sec 600 }) s)

/-- The device starts writing one of its own records. -/
def recordWrite (id : Nat) (payload : List Byte) (s : State) : State :=
  nvmPump (updNvm (fun n => { n with records := n.records ++ [{ id := id, payload := payload }] }) s)

/-! ### A page write ends -/

/-- An NVM_WRITE leaves the list. -/
def writerDone (cid : Nat) (s : State) : State := updNvm (fun n => { n with writers := n.writers.erase cid }) s

/-- The copy of a record that holds an address. -/
def copyAt (id addr : Nat) : Nat :=
  match recordPlace id with
  | some (a, b, _) => if addr < b then a else b
  | none => 0

/-- A record write stopped with its last page under way leaves a copy that is not valid, so that the record reads as before
(R377): the ID of its header is cleared with the end of that page (DESIGN CHOICE 78). -/
def recordSpoil (id addr : Nat) (s : State) : State :=
  match recordPlace id with
  | some (_, _, m) => if copyValid s id m (copyAt id addr) then nvmStore (copyAt id addr + 4) (zeros 2) s else s
  | none => s

/-- A page of an NVM_WRITE ends (R112). With the write window closed the command ends with TEMP_INHIBIT, and a record reads as
before (R377). -/
def writerEnds (cid addr : Nat) (s : State) : State :=
  match cmdById s cid with
  | none => writerDone cid s
  | some c =>
    let r := progressTo c (c.position + 1) s
    if r.2.nvm.window = false then
      finishErr r.1 stTempInhibit 0 (writerDone cid (if pkOpt8 c.packet then recordSpoil (writerRecord c) addr r.2 else r.2))
    else if r.1.total ≤ r.1.position then finishOk r.1 0 r.1.position (writerDone cid r.2)
    else r.2

/-- The counter batch goes on, or its slot is complete (R384). -/
def batchEnds (k : Nat) (s : State) : State :=
  if k < 3 then updNvm (fun n => { n with batchNext := some (k + 1) }) s
  else updNvm (fun n => { n with batchNext := none, batchImage := [], newestSlot := n.batchSlot, slotSeq := (n.slotSeq + 1) % 2 ^ 32 }) s

/-- Entries leave the queue for the log. -/
def logEnds (k : Nat) (s : State) : State :=
  updNvm (fun n => { n with logQueue := n.logQueue.drop k, nextSlot := (n.nextSlot + k) % 4096, nextSeq := (n.nextSeq + k) % 2 ^ 32 }) s

/-- A page of the store ends; after the last the device reads the bank back, with the outcome `sound` (R382). -/
def storeEnds (sound : Bool) (s : State) : State :=
  match s.nvm.store with
  | none => s
  | some j =>
    if j.page < 127 then updNvm (fun n => { n with store := some { j with page := j.page + 1 } }) s
    else if sound ∧ bankValid s j.bank then
      updNvm (fun n => { n with store := some { j with verified := true }, bankVals := tblSet n.bankVals j.bank j.vals }) s
    else raise 325 0x04 j.seq (updNvm (fun n => { n with store := none }) s)

/-- The selector names the new bank: it is active (R382). -/
def selectorEnds (s : State) : State :=
  match s.nvm.store with
  | none => s
  | some j => updNvm (fun n => { n with store := none, calBank := j.bank, calUnstored := decide (j.vals ≠ calVals s) }) s

/-- The FW_STAGE that enrols an owner. -/
def enrolment (s : State) : Option Cmd := s.cmds.flight.find? fun c => decide (pkOp c.packet = 0x00C1 ∧ c.aux = 2) && c.started

/-- An enrolment whose record is not yet written when the write window is closed ends with TEMP_INHIBIT and changes nothing
(R397). -/
def enrolInhibit (s : State) : State :=
  let s1 := updNvm (fun n => { n with records := n.records.filter fun r => decide (r.id ≠ 4) }) s
  match enrolment s with
  | some c => finishErr c stTempInhibit 0 s1
  | none => s1

/-- A page of a record ends. -/
def recordEnds (id addr : Nat) (s : State) : State :=
  match s.nvm.records with
  | [] => s
  | r :: rs =>
    let len := ((r.dest.map Prod.snd).getD []).length
    if id = 4 ∧ s.nvm.window = false then enrolInhibit (recordSpoil 4 addr s)
    else if r.page + 1 < pageCount 0 len then updNvm (fun n => { n with records := { r with page := r.page + 1 } :: rs }) s
    else updNvm (fun n => { n with records := rs }) s

/-- The effect of a page write that ends, on its job. -/
def jobEnds (j : PageJob) (addr : Nat) (sound : Bool) (s : State) : State :=
  match j with
  | .batch k => batchEnds k s
  | .log k => logEnds k s
  | .store _ => storeEnds sound s
  | .selector => selectorEnds s
  | .command cid _ => writerEnds cid addr s
  | .record id _ => recordEnds id addr s
  | .withdrawn id => recordSpoil id addr s

/-! ### NVM_READ (R374, R378, R379) -/

/-- What an NVM_READ returns; none for an absent record. -/
def readBytes (c : Cmd) (s : State) : Option (List Byte) :=
  let t := pkTarget c.packet
  let n := pkLen c.packet
  if pkOpt8 c.packet then
    if t = 0xC000 then some ((slotImage s.nvm.slotSeq (counter s) 0xA5).take n)
    else match (recordAt t).bind (recordWinner s) with
      | some a => some ((nvmRead s a (16 + copyLen s a)).take n)
      | none => none
  else some (nvmRead s t n)

/-- An NVM_READ is served. -/
def readServe (io : HostIo) (c : Cmd) (s : State) : State :=
  match readBytes c s with
  | none => finishErr c stBadParam 0 s
  | some bs => hostOut c bs io (fun c s => finishOk c 0 bs.length s) s

/-- The outcome of the host writes of a read that waits, as its `aux` holds it. -/
def auxIo (n : Nat) : HostIo := if n = 0 then .ok else .fail (n - 1)
/-- That `aux`. -/
def ioAux (io : HostIo) : Nat := match io with | .ok => 0 | .fail n => n + 1

/-- The reads that waited for a page write are served. -/
def readsServe (s : State) : State :=
  (s.cmds.flight.filter fun c => c.started && decide (pkOp c.packet = 0x00B0) && c.sentTo.isNone).foldl
    (fun s c => readServe (auxIo c.aux) c s) s

/-! ### The write window closes (R112, R353) -/

/-- The NVM_WRITE commands and the enrolment without a page in progress complete with TEMP_INHIBIT. -/
def writersInhibit (s : State) : State :=
  let busy : Option Nat := match s.nvm.page with
    | some p => (match p.job with | .command cid _ => some cid | _ => none)
    | none => none
  let enrols : Bool := s.nvm.page.any fun p => match p.job with
    | .record id _ => decide (id = 4)
    | _ => false
  let s1 := if enrols ∨ !(s.nvm.records.any fun r => decide (r.id = 4)) then s else enrolInhibit s
  (s1.nvm.writers.filter fun i => some i ≠ busy).foldl (fun s i => match cmdById s i with
    | some c => finishErr c stTempInhibit 0 (writerDone i s)
    | none => writerDone i s) s1

/-! ### At ready (R376, R383, R385 to R387) -/

/-- Is a slot of the counter ring valid (R385)? -/
def slotValid (s : State) (k : Nat) : Bool :=
  let a := slotAddr k
  decide (leNat (nvmRead s (a + 0xFF) 1) = 0xA5) && decide (leNat (nvmRead s (a + 0xF8) 4) = crc32 (nvmRead s a 0xF8))

/-- SLOT_SEQ of a slot. -/
def slotSeqAt (s : State) (k : Nat) : Nat := leNat (nvmRead s (slotAddr k) 4)

/-- The newest of the valid slots. -/
def newestOf (s : State) (ks : List Nat) : Option Nat :=
  ks.foldl (fun b k => match b with
    | none => some k
    | some j => if 0 < toS 32 (slotSeqAt s k + 2 ^ 32 - slotSeqAt s j) then some k else some j) none

/-- The counters are loaded from the newest slot. -/
def countersLoad (s : State) : State :=
  match newestOf s ((List.range 64).filter (slotValid s)) with
  | none => updNvm (fun n => { n with counters := [], newestSlot := 63, slotSeq := 0 }) s
  | some k =>
    let cs := (List.range 27).map fun i => (i, leNat (nvmRead s (slotAddr k + 8 + 8 * i) 8))
    updNvm (fun n => { n with counters := cs, newestSlot := k, slotSeq := slotSeqAt s k }) s

/-- COUNTER_TORN: the slot after the newest holds a write that was begun (R385). -/
def tornCheck (s : State) : State :=
  match newestOf s ((List.range 64).filter (slotValid s)) with
  | none => s
  | some k => if leNat (nvmRead s (slotAddr ((k + 1) % 64) + 0xFF) 1) = 0 then raise 325 0x05 ((k + 1) % 64) s else s

/-- LOG_SEQ of a slot of the log, when its entry is valid (R387). -/
def logSeqAt (s : State) (k : Nat) : Option Nat :=
  let bs := nvmRead s (logAddr k) 32
  if u16At bs 0x1E = crc16 (bs.take 0x1E) ∧ u32At bs 0 % 4096 = k then some (u32At bs 0) else none

/-- Where writing of the log continues. -/
def logLoad (s : State) : State :=
  let newest := (List.range 4096).find? fun k => match logSeqAt s k with
    | some q => decide (logSeqAt s ((k + 1) % 4096) ≠ some ((q + 1) % 2 ^ 32))
    | none => false
  match newest with
  | some k => updNvm (fun n => { n with nextSlot := (k + 1) % 4096, nextSeq := (((logSeqAt s k).getD 0) + 1) % 2 ^ 32 }) s
  | none => updNvm (fun n => { n with nextSlot := 0, nextSeq := 0 }) s

/-- The bank in use at ready (R383): the bank, or none for the factory values; and whether it is the one selected. -/
def bankChoice (s : State) : Option Nat × Bool :=
  let sel := leNat (nvmRead s 0x3000 1)
  let named : Option Nat := if sel = 0x5A then some 0 else if sel = 0xA5 then some 1 else none
  let va := bankValid s 0
  let vb := bankValid s 1
  let other : Option Nat :=
    if va && vb then (if bankSeq s 0 < bankSeq s 1 then some 1 else some 0)
    else if va then some 0 else if vb then some 1 else none
  match named with
  | some 0 => if va then (some 0, true) else (other, false)
  | some _ => if vb then (some 1, true) else (other, false)
  | none => (other, false)

/-- The calibration values at ready. -/
def bankLoad (s : State) : State :=
  match (bankChoice s).1 with
  | some b => calLoad (tblGet [] s.nvm.bankVals b) (updNvm (fun n => { n with calBank := b }) s)
  | none => s

/-- CAL_FALLBACK at ready: the other bank, or the factory values (R383). -/
def bankCheck (s : State) : State :=
  match bankChoice s with
  | (some _, true) => s
  | (some _, false) => raise 325 0x03 0 s
  | (none, _) => raise 325 0x03 1 s

/-- The records at ready: ties and absences (R376, R391, R410, Table 19.8). -/
def recordsCheck (s : State) : State :=
  [1, 2, 3, 4, 5, 6].foldl (fun s id =>
    if recordTie s id then raise 325 0x01 id s
    else if (recordWinner s id).isNone then raise 325 0x02 id s else s) s

/-- GLB_BOOT. -/
def glbBoot (s : State) : Nat :=
  s.boot.source + 4 * b2n s.boot.profApplied + 8 * b2n s.boot.profRejected + 16 * s.boot.cause
    + 256 * b2n s.boot.thermHold + 65536 * (s.boot.readyTime % 65536)

/-- What the device reads at ready; the start is counted. -/
def nvmReady (s : State) : State :=
  countLife 1 (updNvm (fun n => { n with lastBatchNs := s.clk.ns }) (logLoad (countersLoad (bankLoad s))))

/-- What the device reports of its NVM at ready, once the BOOT entry is logged: of source 325 the log takes one entry in 1 s,
and it takes GLB_BOOT at each ready (R386, DEDUCED 88). -/
def nvmNotes (s : State) : State := tornCheck (bankCheck (recordsCheck s))

/-- The BOOT entry of the log, which is never raised (R386). With PROFILE_REJECTED in its DETAIL it is the entry that R63 asks
for, since Table 19.8 names no other cause (DESIGN CHOICE 76). -/
def bootEntry (s : State) : State := logRaise 325 0x10 (glbBoot s) 1 s

/-! ### A page write cut by a reset (R373) -/

/-- The bytes that the cut page was writing hold free values: old, new or undefined. -/
def pageTorn (s : State) : State :=
  match s.nvm.page with
  | none => s
  | some p =>
    let bs := (List.range p.bytes.length).map fun i => BitVec.ofNat 8 (Config.freeValue (s.free + i))
    nvmStore p.addr bs { s with free := s.free + p.bytes.length, nvm := { s.nvm with page := none } }

end Sys2Proof.Machine
end

