-- ==== Sys2Proof/Machine/SecOps.lean ====
section
/-! DEFINITION. Certificates, images, staging, fuse steps, the attestation report and the debug unlock (chapter 20). -/

namespace Sys2Proof.Machine

/-- Change the security state. -/
def updSec (f : Sec → Sec) (s : State) : State := { s with sec := f s.sec }

/-- The serial number of IDENTIFY. -/
def ownSerial : List Byte := (List.range 16).map Config.serialByte

/-! ### Certificates and keys (R390 to R392) -/

/-- The certificate in an area of Table 20.1: a u16 length, then the DER. -/
def certArea (s : State) (a : Nat) : List Byte := nvmRead s (a + 2) (leNat (nvmRead s a 2))

/-- The owner certificate, while an owner is enrolled (R391). -/
def ownerCert (s : State) : Option (List Byte) :=
  match recordPayload s 4 with
  | some (b :: bs) => some (b :: bs)
  | _ => none

/-- Does the stored product CA certificate match its fuse hash (R390)? -/
def pcaMatches (s : State) : Bool := decide (sha384 (Config.certKey (certArea s 0x1800)) = Config.pcaFuseHash)

/-- The product CA public key, which the device uses only while the check of R390 holds. -/
def pcaKey (s : State) : Option (List Byte) := if s.sec.pcaOk then some (Config.certKey (certArea s 0x1800)) else none

/-- Does a signature verify under an optional key? -/
def signed (key : Option (List Byte)) (msg sig : List Byte) : Bool :=
  match key with
  | some k => Config.ecdsaVerify k msg sig
  | none => false

/-! ### Images (Table 20.3, R394, R397) -/

/-- TYPE. -/
def imType (im : List Byte) : Nat := u8At im 0x06
/-- ROLLBACK. -/
def imRollback (im : List Byte) : Nat := u8At im 0x07
/-- VERSION. -/
def imVersion (im : List Byte) : Nat := u32At im 0x08
/-- LENGTH of the body. -/
def imLength (im : List Byte) : Nat := u32At im 0x0C
/-- BODY_HASH. -/
def imHash (im : List Byte) : List Byte := slice im 0x10 48
/-- The signed bytes. -/
def imSigned (im : List Byte) : List Byte := im.take 0x40
/-- VENDOR_SIG. -/
def imVendor (im : List Byte) : List Byte := slice im 0x40 96
/-- OWNER_SIG. -/
def imOwner (im : List Byte) : List Byte := slice im 0xA0 96
/-- The body. -/
def imBody (im : List Byte) : List Byte := im.drop 0x100

/-- MAGIC matches: the slot is not empty (R396). -/
def imMagic (im : List Byte) : Bool := decide (u32At im 0 = 0x4B53574D)

/-- MAGIC, FORMAT, length and body hash hold. -/
def imSound (im : List Byte) : Bool :=
  imMagic im && decide (u16At im 4 = 1 ∧ im.length = 256 + imLength im) && decide (imHash im = sha384 (imBody im))

/-- A TYPE 1 image verifies (R394). -/
def fwVerifies (s : State) (im : List Byte) : Bool :=
  imSound im && decide (imType im = 1 ∧ imRollback im ≤ 64 ∧ imLength im ≤ 1048320) && signed (pcaKey s) (imSigned im) (imVendor im)
    && (match ownerCert s with
      | some c => Config.ecdsaVerify (Config.certKey c) (imSigned im) (imOwner im)
      | none => true)

/-- The rollback check (R394). -/
def rollbackOk (s : State) (im : List Byte) : Bool := decide (s.sec.fuseSteps ≤ imRollback im)

/-- A TYPE 2 image verifies (R397): under its own certificate while no owner is enrolled, else under the owner key. -/
def ownerVerifies (s : State) (im : List Byte) : Bool :=
  imSound im && match ownerCert s with
    | some c => Config.ecdsaVerify (Config.certKey c) (imSigned im) (imOwner im)
    | none => decide (imBody im ≠ []) && Config.ecdsaVerify (Config.certKey (imBody im)) (imSigned im) (imOwner im)

/-- The image that a slot of flash holds. -/
def slotImageOf (content : List Byte) : List Byte := content.take (256 + min (imLength content) 1048320)

/-- The slot of the running image, if it came from flash. -/
def runningSlot (s : State) : Option Nat := if s.boot.source ≤ 1 then some s.boot.source else none

/-- Flash address of a slot. -/
def slotFlash (s : State) (k : Nat) : Nat := if k = 0 then s.sec.slotA else s.sec.slotB

/-- Does a slot overlap a table image of the power-on profile in force (R395)? -/
def slotOverlaps (s : State) (k : Nat) : Bool :=
  let p := s.boot.profile
  let a := slotFlash s k
  s.boot.profApplied && (List.range (u16At p 2)).any fun i =>
    let e := slice p (16 + 16 * i) 16
    let f := u32At p 4 + u32At e 8
    decide (u8At e 0 = 2) && decide (f < a + 1048576 ∧ a < f + 4 + u32At e 12)

/-! ### Frames to the boot flash (R322, R325, R393) -/

/-- A frame of the device's own on SP0, which waits for its turn (R326): command, address, dummy cycles, data out or bytes in;
`lanes` as HK_SPM_PHASE codes them. -/
def flashFrame (cmd : Nat) (addr : List Byte) (dummy lanes : Nat) (data : List Byte) (inLen : Nat) (s : State) : State :=
  spQueue 0 { kind := 4, cmd := leBytes 1 cmd, addr := addr, dummy := dummy, lanes := lanes, out := data, inLen := inLen
              buf := 0, div := some s.sec.flash.div } s

/-- Does a frame run on SP0? The flash answers only once the frames to it have had their turn. -/
def flashHeld (s : State) : Bool := (sp s 0).run.isSome

/-- An address in the form that the boot header sets. -/
def flashAddr (s : State) (a : Nat) : List Byte := beBytes s.sec.flash.addrBytes a

/-- `n` bytes from an address are read in the mode of the boot header; a frame moves at most 65,536. -/
def flashRead (a n : Nat) (s : State) : State :=
  let f := s.sec.flash
  (List.range ((n + 65535) / 65536)).foldl (fun s' i => flashFrame f.readCmd (flashAddr s (a + 65536 * i)) f.dummy
    (4 * Nat.log2 f.addrLanes + 16 * Nat.log2 f.dataLanes) [] (min 65536 (n - 65536 * i)) s') s

/-- A slot is read: its header, then, unless that shows the slot empty, the body. -/
def flashReadSlot (a : Nat) (im : List Byte) (s : State) : State :=
  let s1 := flashRead a 256 s
  if imMagic im then flashRead (a + 256) (im.length - 256) s1 else s1

/-- Write enable, a command with its data, and the status read that finds the flash no longer busy. -/
def flashWrite (cmd a : Nat) (data : List Byte) (s : State) : State :=
  flashFrame 5 [] 0 0 [] 1 (flashFrame cmd (flashAddr s a) 0 0 data 0 (flashFrame 6 [] 0 0 [] 0 s))

/-- The 64 KiB blocks that `n` bytes from an address lie in are erased. -/
def flashErase (a n : Nat) (s : State) : State :=
  (List.range ((a + n + 65535) / 65536 - a / 65536)).foldl (fun s i => flashWrite s.sec.flash.eraseCmd (a / 65536 * 65536 + 65536 * i) [] s) s

/-- The pages of an image as they are programmed, the body and then the header (R396): POSITION at a page's end, and the
page's offset in the image. -/
def imagePages (len : Nat) : List (Nat × Nat) :=
  ((List.range ((len - 1) / 256)).map fun i => (min (256 * (i + 1)) (len - 256), 256 * (i + 1))) ++ [(len, 0)]

/-- The pages that end after POSITION `p` and by POSITION `q` are programmed. -/
def flashProgram (a p q : Nat) (im : List Byte) (s : State) : State :=
  ((imagePages im.length).filter fun x => decide (p < x.1 ∧ x.1 ≤ q)).foldl (fun s x =>
    flashWrite s.sec.flash.progCmd (a + x.2) (slice im x.2 256) s) s

/-! ### FW_STAGE (R395 to R397) -/

/-- The slot that a command names. -/
def fwSlot (c : Cmd) : Nat := pm8 c.packet 0x18

/-- The first check of R395: the form of LENGTH, TYPE and slot. -/
def stageForm (c : Cmd) (im : List Byte) : Bool :=
  decide (pkLen c.packet = 256 + imLength im) &&
  (decide (imType im = 1 ∧ imLength im ≤ 1048320) || decide (imType im = 2 ∧ imLength im ≤ 752 ∧ fwSlot c = 0))

/-- Does another FW_STAGE run (R111)? It does once the header of its image has passed the first check (DESIGN CHOICE 52). -/
def stageRuns (s : State) (c : Cmd) : Bool :=
  s.cmds.flight.any fun d => decide (pkOp d.packet = 0x00C1) && d.started && decide (d.cid ≠ c.cid) && d.sentTo.isNone
    && decide (16 ≤ d.buf.length)

/-- BUSY of R111: another FW_STAGE runs, or the slot is that of the running image, of whatever TYPE the image is. -/
def stageTaken (c : Cmd) (s : State) : Bool := decide (runningSlot s = some (fwSlot c)) || stageRuns s c

/-- The staged image has been read whole: the checks of R395, then the writing begins. The command started with its first
read, and its 10 ms of R117 run from there. -/
def stageChecked (c : Cmd) (im : List Byte) (s : State) : State :=
  if !stageForm c im then finishCheck c stBadParam s
  else if stageTaken c s then finishCheck c stBusy s
  else if slotOverlaps s (fwSlot c) then finishCheck c stBadParam s
  else
    let b := beginWork c (pkLen c.packet) s
    let c1 := if c.started then { b.1 with startNs := c.startNs } else b.1
    let r := (c1, putCmd c1 b.2)
    if imType im = 1 then
      if !fwVerifies s im then finishErr r.1 stAuthFail 0 r.2
      else if !rollbackOk s im then finishErr r.1 stRollback 0 r.2
      else flashErase (slotFlash s (fwSlot c)) im.length
        (updSec (fun x => { x with slotHash := tblErase x.slotHash (fwSlot c) }) (putCmd { r.1 with aux := 1, buf := im } r.2))
    else if !ownerVerifies s im then finishErr r.1 stAuthFail 0 r.2
    else if s.nvm.window = false then finishErr r.1 stTempInhibit 0 r.2
    else recordWrite 4 (imBody im) (putCmd { r.1 with aux := 2, buf := im } r.2)

/-- HBM address of the staging buffer: the spec places it in the reserved range and gives no address (DESIGN CHOICE 52). -/
def stagingBase : Nat := 0

/-- More bytes of the image arrive in the staging buffer (R78, R395). BUSY is given as soon as the header's form, which goes before
it, is known: the buffer is then another's (log entry 52). -/
def stageRead (d : HostRead) (c : Cmd) (s : State) : State :=
  hostIn c d 0 (fun bs s =>
    let im := (c.buf ++ bs).take (pkLen c.packet)
    if 16 ≤ im.length ∧ !stageForm c im then finishCheck c stBadParam s
    else if 16 ≤ im.length ∧ stageTaken c s then finishCheck c stBusy s
    else
      let s1 := hbmWrite (stagingBase + c.buf.length) (im.drop c.buf.length) s
      if im.length < pkLen c.packet then
        putCmd { c with started := true, buf := im, total := pkLen c.packet, startNs := if c.started then c.startNs else s.clk.ns } s1
      else stageChecked c im s1) s

/-- FW_STAGE starts: it reads its image. -/
def startFwStage (d : HostRead) (c : Cmd) (s : State) : State := stageRead d c s

/-- Bytes are programmed; with the last one the image is read back as `back`, and its SHA-384 is compared with that of the staged
copy: a mismatch erases the slot's first block (R396). -/
def stageProgram (n : Nat) (back : List Byte) (c : Cmd) (s : State) : State :=
  let a := slotFlash s (fwSlot c)
  let q := min c.total (c.position + n)
  let r := progressTo c q (flashProgram a c.position q c.buf s)
  if r.1.position < r.1.total then r.2
  else
    let s1 := flashRead a c.buf.length r.2
    if sha384 back = sha384 c.buf then
      finishOk r.1 (imVersion c.buf) r.1.position (updSec (fun x => { x with slotHash := tblSet x.slotHash (fwSlot c) (imHash c.buf) }) s1)
    else finishErr r.1 stAuthFail 0 (flashErase a 1 s1)

/-- FW_STAGE goes on. -/
def contFwStage (d : HostRead) (n : Nat) (back : List Byte) (c : Cmd) (s : State) : State :=
  if c.aux = 0 then needHost (stageRead d) c s else if c.aux = 1 ∧ !flashHeld s then stageProgram n back c s else s

/-- The owner record has been written: the change is in force (R397). -/
def ownerWritten (s : State) : State :=
  match enrolment s with
  | none => s
  | some c =>
    if s.nvm.records.any fun r => decide (r.id = 4) then s
    else finishOk c (imVersion c.buf) (pkLen c.packet) (raise 326 0x04 (b2n (!(imBody c.buf).isEmpty)) s)

/-! ### Attestation (R401, R402) -/

/-- The configuration hash. -/
def configHash (s : State) : List Byte :=
  sha384 (allFields.flatMap fun x => leBytes 4 x.1 ++ leBytes x.2.width (cfAt s x.1))

/-- The slot other than that of the running image. -/
def otherSlot (s : State) : Nat := if s.boot.source = 0 then 1 else 0

/-- GLB_ID. -/
def glbId : Nat := 0x6408B010

/-- Bytes 0x000 to 0x21F of the report (Table 20.4). -/
def reportBody (s : State) (nonce : List Byte) : List Byte :=
  let owner := ownerCert s
  leBytes 4 0x5441574D ++ leBytes 2 1 ++ leBytes 2 640 ++ padTo 32 nonce ++ leBytes 4 glbId
    ++ leBytes 1 s.chain.devId ++ leBytes 1 s.boot.source ++ leBytes 1 s.sec.fuseSteps
    ++ leBytes 1 (b2n owner.isSome + 2 * b2n (decide (s.sec.debug ≠ 0)) + 4 * b2n s.boot.profApplied)
    ++ ownSerial ++ leBytes 4 s.sec.fwVersion ++ leBytes 4 (cfgApplied s).toNat ++ leBytes 8 s.clk.tb
    ++ padTo 48 s.sec.fwHash ++ padTo 48 (tblGet [] s.sec.slotHash (otherSlot s)) ++ padTo 48 Config.recoveryHash
    ++ configHash s ++ (match owner with | some c => sha384 (Config.certKey c) | none => zeros 48)
    ++ (List.range 27).flatMap (fun i => leBytes 8 (counter s i)) ++ zeros 8

/-- The report. -/
def report (s : State) (nonce : List Byte) : List Byte :=
  let b := reportBody s nonce
  b ++ padTo 96 (Config.deviceSign b)

/-! ### Fuse steps (R400) -/

/-- One step is blown. -/
def fuseBlow (s : State) : State :=
  if s.sec.fuseSteps < s.sec.fuseTarget then updSec (fun x => { x with fuseSteps := x.fuseSteps + 1 }) s else s

/-- An FW_ACTIVATE completes under the new firmware, once the tenders run and the fuses stand (R398). -/
def activateEnds (s : State) : State :=
  match s.cmds.flight.find? fun c => decide (pkOp c.packet = 0x00C2 ∧ c.aux = 2) && c.started with
  | none => s
  | some c =>
    if s.cmds.paused.isEmpty ∧ s.sec.fuseTarget ≤ s.sec.fuseSteps then countLife 26 (finishOk c s.sec.fwVersion 0 s) else s

end Sys2Proof.Machine
end

