-- ==== Sys2Proof/Machine/Security.lean ====
section
/-! DEFINITION. The rows of identity, firmware and attestation that leave the tenders running (chapter 20). -/

namespace Sys2Proof.Machine

/-- CERT_READ. -/
def startCertRead (io : HostIo) (c : Cmd) (s : State) : State :=
  let cert : Option (List Byte) := match pm8 c.packet 0x18 with
    | 0 => some (certArea s 0x1000)
    | 1 => some (certArea s 0x1800)
    | 2 => some (certArea s 0x2000)
    | _ => ownerCert s
  match cert with
  | none => finishErr c stBadParam 0 s
  | some bs =>
    if pkLen c.packet < bs.length then finishErr c stBadParam bs.length s
    else hostOut c bs io (fun c s => finishOk c bs.length bs.length s) s

/-- CERT_READ: R392. -/
def execCertRead (sq : Fin 1024) (tag : W32) (io : HostIo) (s : State) : Out :=
  opcodeRow sq tag 0x00C3 (startCertRead io) (fun _ s => s) s

/-- ATTEST: the report is taken at one instant. -/
def startAttest (io : HostIo) (c : Cmd) (s : State) : State :=
  let r := report s (slice c.packet 0x18 32)
  hostOut c r io (fun c s => finishOk c 640 640 s) s

/-- ATTEST: R401, R402. -/
def execAttest (sq : Fin 1024) (tag : W32) (io : HostIo) (s : State) : Out :=
  opcodeRow sq tag 0x00C0 (startAttest io) (fun _ s => s) s

/-- FW_STAGE: R395 to R397; `n` bytes programmed, and after the last of them what the flash gives at the read-back. -/
def execFwStage (sq : Fin 1024) (tag : W32) (d : HostRead) (n : Nat) (back : List Byte) (s : State) : Out :=
  opcodeRow sq tag 0x00C1 (needHost (startFwStage d)) (contFwStage d n back) s

/-- FUSE_STEP while the device runs, and during a start, where the event waits for ready. -/
def fuseBody (s : State) : State :=
  if s.sec.fuseTarget ≤ s.sec.fuseSteps then s
  else
    let s1 := fuseBlow s
    if s.boot.phase = .ready then activateEnds (raise 326 0x03 s1.sec.fuseSteps s1)
    else { s1 with boot := { s1.boot with notes := s1.boot.notes ++ [(0x03, s1.sec.fuseSteps)] } }

/-- FUSE_STEP: R400. -/
def execFuseStep (s : State) : Out := .next (if s.boot.phase = .ready ∨ s.boot.phase = .starting then fuseBody s else s)

/-- The 16 bytes of the next challenge (R404). -/
def challengeOf (s : State) : List Byte := (List.range 16).map (Config.challengeByte s.sec.challenges)

/-- Is a failed response less than 1 s old (R404)? -/
def lockedOut (s : State) : Bool :=
  match s.sec.lockoutNs with
  | some t => decide (s.clk.ns < t + sec 1)
  | none => false

/-- DBG_CHAL: not accepted for 1 s after a failed response. -/
def chalBody (s : State) : State :=
  if lockedOut s then s
  else
    let c := challengeOf s
    emit (.jtag (c ++ ownSerial)) (updSec (fun x => { x with challenge := some c, challenges := x.challenges + 1 }) s)

/-- The key that a debug response must verify under (R404). -/
def debugKey (s : State) : Option (List Byte) :=
  match ownerCert s with
  | some c => some (Config.certKey c)
  | none => pcaKey s

/-- DBG_RESP: each challenge serves one response. -/
def respBody (scope : Byte) (sig : List Byte) (s : State) : State :=
  let ok : Bool := match s.sec.challenge with
    | some c => signed (debugKey s) (sha384 (c ++ [scope])) (padTo 96 sig)
    | none => false
  let s1 := updSec (fun x => { x with challenge := none }) s
  if ok then raise 326 0x05 scope.toNat (updSec (fun x => { x with debug := x.debug ||| (scope.toNat % 4) }) s1)
  else raise 326 0x06 0 (updSec (fun x => { x with lockoutNs := some s.clk.ns }) s1)

/-- DEBUG_LOCKOUT_END. -/
def lockoutBody (s : State) : State :=
  match s.sec.lockoutNs with
  | some t => if t + sec 1 ≤ s.clk.ns then updSec (fun x => { x with lockoutNs := none }) s else s
  | none => s

/-- DEBUG_LOCKOUT_END: R404. -/
def execDebugLockoutEnd (s : State) : Out := whenReady lockoutBody s

end Sys2Proof.Machine
end

