-- ==== Sys2Proof/Machine/Corrections.lean ====
section
/-! DEFINITION. The correction stages of the wires (chapter 9). A line unit is a list of columns, each the list of
its samples by field number; every stage computes exactly, rounds once with halves up and clamps to U16 (R183). -/

namespace Sys2Proof.Machine

/-- A line unit: per column, its samples by field number (R182). -/
abbrev Unit' := List (List Nat)

/-- The exact value n / d rounded once and clamped (R183). -/
def rc (n : Int) (d : Nat) : Nat := clampU16 (rhuI n d)

/-- Columns of a line of samples in wire order (Table 7.2). -/
def toUnit (spp : Nat) (xs : List Nat) : Unit' :=
  if spp = 2 then
    let n := xs.length / 2
    List.zipWith (fun a b => [a, b]) (xs.take n) (xs.drop n)
  else if spp = 3 then (List.range (xs.length / 3)).map fun j => (xs.drop (3 * j)).take 3
  else xs.map fun v => [v]

/-- Change every column with its index. -/
def mapCols (f : Nat → List Nat → List Nat) (u : Unit') : Unit' := (List.range u.length).zipWith f u

/-! ### Table words -/

/-- Colour of a mosaic sample: 0 R, 1 G, 2 B, for a phase, a row (0 A, 1 B) and a column (Table 9.2). -/
def mosaic (phase row col : Nat) : Nat :=
  match phase, row, col % 2 with
  | 0, 0, 0 => 0 | 0, 0, _ => 1 | 0, _, 0 => 1 | 0, _, _ => 2
  | 1, 0, 0 => 1 | 1, 0, _ => 0 | 1, _, 0 => 2 | 1, _, _ => 1
  | 2, 0, 0 => 1 | 2, 0, _ => 2 | 2, _, 0 => 0 | 2, _, _ => 1
  | _, 0, 0 => 2 | _, 0, _ => 1 | _, _, 0 => 1 | _, _, _ => 0

/-- One tap group: first column, pedestals and cross-talk matrix (Table 9.5). -/
structure Tap where
  start : Nat
  ped : List Nat
  m : List Int
deriving DecidableEq, Repr

/-- Kind 0x01 as the stages use it. -/
structure XTalk where
  phase : Nat
  gr : Nat
  gb : Nat
  taps : List Tap
deriving DecidableEq, Repr

/-- The identity matrix in units of 1/4,096. -/
def unity : List Int := [4096, 0, 0, 0, 4096, 0, 0, 0, 4096]

/-- A signed 16-bit value of an image. -/
def s16At (im : List Byte) (o : Nat) : Int := toS 16 (u16At im o)

/-- The cross-talk table; EMPTY acts as identity (R194). -/
def xtalkOf : Option (List Byte) → XTalk
  | none => ⟨0, 16384, 16384, [⟨0, [0, 0, 0], unity⟩]⟩
  | some im =>
    ⟨u8At im 1, u16At im 4, u16At im 6, (List.range (u8At im 0)).map fun g =>
      let b := 0x10 + 32 * g
      ⟨u16At im b, (List.range 3).map fun i => u16At im (b + 2 + 2 * i), (List.range 9).map fun i => s16At im (b + 8 + 2 * i)⟩⟩

/-- The tap group of a column. -/
def tapOf (x : XTalk) (j : Nat) : Tap :=
  ((x.taps.filter fun t => decide (t.start ≤ j)).getLast?).getD ⟨0, [0, 0, 0], unity⟩

/-- Row i of a 3 × 3 matrix applied to three values. -/
def mrow (m : List Int) (i : Nat) (a b c : Int) : Int :=
  m.getD (3 * i) 0 * a + m.getD (3 * i + 1) 0 * b + m.getD (3 * i + 2) 0 * c

/-- Stage 1 of a Mono or TriRGB column (R185). -/
def stage1Col (x : XTalk) (j : Nat) (v : List Nat) : List Nat :=
  let t := tapOf x j
  let p (i : Nat) : Int := t.ped.getD i 0
  match v with
  | [a] => [rc ((a : Int) - p 0) 1]
  | [a, b, c] =>
    let r := (a : Int) - p 0
    let g := (b : Int) - p 1
    let bl := (c : Int) - p 2
    (List.range 3).map fun i => rc (mrow t.m i r g bl) 4096
  | _ => v

/-- Stage 1 of a BiBayer cell: columns 2k and 2k + 1 (R185). -/
def stage1Cell (x : XTalk) (j : Nat) (v w : List Nat) : List (List Nat) :=
  let t := tapOf x j
  let p (i : Nat) : Int := t.ped.getD i 0
  let at_ (row col : Nat) : Int := ((if col = 0 then v else w).getD row 0 : Nat)
  let cells := [(0, 0), (0, 1), (1, 0), (1, 1)]
  let colour (c : Nat × Nat) : Nat := mosaic x.phase c.1 c.2
  let rRow := if mosaic x.phase 0 0 = 0 ∨ mosaic x.phase 0 1 = 0 then 0 else 1
  let find (k : Nat) : Int := match cells.find? fun c => decide (colour c = k) with
    | some c => at_ c.1 c.2
    | none => 0
  let green (row : Nat) : Int := match cells.find? fun c => decide (colour c = 1 ∧ c.1 = row) with
    | some c => at_ c.1 c.2
    | none => 0
  let r := find 0 - p 0
  let b := find 2 - p 2
  -- gr and gb over 16,384; g over 32,768
  let gr := (green rRow - p 1) * (x.gr : Int)
  let gb := (green (1 - rRow) - p 1) * (x.gb : Int)
  let g := gr + gb
  let mixed (i : Nat) : Int := mrow t.m i (r * 32768) g (b * 32768)
  -- g2 − g over 4,096 · 32,768
  let d := mixed 1 - g * 4096
  let out (c : Nat × Nat) : Nat :=
    match colour c with
    | 0 => rc (mixed 0) (4096 * 32768)
    | 2 => rc (mixed 2) (4096 * 32768)
    | _ => rc ((if c.1 = rRow then gr else gb) * 8192 + d) (4096 * 32768)
  [[out (0, 0), out (1, 0)], [out (0, 1), out (1, 1)]]

/-- Stage 1 of BiBayer columns. -/
def stage1Bayer (x : XTalk) : Nat → Unit' → Unit'
  | j, v :: w :: rest => stage1Cell x j v w ++ stage1Bayer x (j + 2) rest
  | _, u => u

/-- Stage 1. -/
def stage1 (x : XTalk) (spp : Nat) (u : Unit') : Unit' :=
  if spp = 2 then stage1Bayer x 0 u else mapCols (stage1Col x) u

/-- Field f of a 10-bit triple. -/
def tenBits (w f : Nat) : Nat := bits w (10 * f) 10

/-- The words of a per-column table, or the identity word. -/
def colWord (im : Option (List Byte)) (identity j : Nat) : Nat :=
  match im with
  | some bs => u32At bs (4 * j)
  | none => identity

/-- Stage 2 (R186). -/
def stage2 (dark : Option (List Byte)) (u : Unit') : Unit' :=
  mapCols (fun j v =>
    let w := colWord dark 0 j
    (List.range v.length).map fun f => rc ((v.getD f 0 : Int) - 4 * toS 10 (tenBits w f)) 1) u

/-- Stage 3 (R187). -/
def stage3 (gain : Option (List Byte)) (u : Unit') : Unit' :=
  mapCols (fun j v =>
    let w := colWord gain (512 + 512 * 1024 + 512 * 1048576) j
    (List.range v.length).map fun f => rc ((v.getD f 0 : Int) * (1536 + (tenBits w f : Int))) 2048) u

/-- An entry of the defective-pixel map (Table 9.7). -/
structure Dead where
  col : Nat
  fld : Nat
  method : Nat
deriving DecidableEq, Repr

/-- The entries of a map up to its terminator. -/
def deadList : Nat → List Byte → List Dead
  | 0, _ => []
  | n + 1, bs =>
    match bs with
    | a :: b :: c :: d :: rest =>
      let w := leNat [a, b, c, d]
      if w = 0xFFFFFFFF then [] else ⟨bits w 0 16, bits w 16 2, bits w 18 2⟩ :: deadList n rest
    | _ => []

/-- The listed samples of a bank. -/
def deadOf (im : Option (List Byte)) : List Dead := (im.map (deadList 1024)).getD []

/-- A replacement value, if its source is usable (R188). -/
def deadTry (dead : List Dead) (spp : Nat) (u3 : Unit') (prev4 : Option Unit') (d : Dead) (method : Nat) : Option Nat :=
  let st := if spp = 2 then 2 else 1
  let use (j : Nat) : Option Nat :=
    if j < u3.length ∧ !(dead.any fun e => decide (e.col = j ∧ e.fld = d.fld)) then some ((u3.getD j []).getD d.fld 0) else none
  let left := if st ≤ d.col then use (d.col - st) else none
  let right := use (d.col + st)
  match method with
  | 0 => match left, right with
    | some a, some b => some (rc (a + b : Nat) 2)
    | some a, none => some a
    | none, r => r
  | 1 => left
  | 2 => right
  | _ => some (((prev4.getD u3).getD d.col []).getD d.fld 0)

/-- The value of a listed sample: its METHOD, then 0, then 3. -/
def deadValue (dead : List Dead) (spp : Nat) (u3 : Unit') (prev4 : Option Unit') (d : Dead) : Nat :=
  match ([d.method, 0, 3].findSome? fun m => deadTry dead spp u3 prev4 d m) with
  | some v => v
  | none => (u3.getD d.col []).getD d.fld 0

/-- Stage 4 (R188). -/
def stage4 (dead : List Dead) (spp : Nat) (prev4 : Option Unit') (u : Unit') : Unit' :=
  if dead.isEmpty then u
  else mapCols (fun j v =>
    (List.range v.length).map fun f =>
      match dead.find? fun e => decide (e.col = j ∧ e.fld = f) with
      | some d => deadValue dead spp u prev4 d
      | none => v.getD f 0) u

/-- A column index mirrored about the edges (R189). -/
def mirrorCol (n : Nat) (j : Int) : Nat :=
  if j < 0 then (-j).toNat else if (n : Int) ≤ j then (2 * ((n : Int) - 1) - j).toNat else j.toNat

/-- Stage 5 of one column (R189): R, G and B. -/
def stage5Col (phase : Nat) (prev cur next : Unit') (j : Nat) : List Nat :=
  let n := cur.length
  let row := if mosaic phase 0 j = 1 then 0 else 1
  let px (u : Unit') (i : Int) (r : Nat) : Int := (((u.getD (mirrorCol n i) []).getD r 0 : Nat) : Int)
  let rowAt (i : Int) : Nat := if mosaic phase 0 (mirrorCol n i) = 1 then 0 else 1
  let g (u : Unit') (i : Int) : Int := px u i (rowAt i)
  let jj : Int := j
  let c := px cur jj (1 - row)
  -- X lies in the row of G(j), at columns j − 1 and j + 1
  let x (u : Unit') (i : Int) : Int := px u i row
  let k (i : Int) : Int := x cur i - g cur i
  let gj := g cur jj
  let dh := (g cur (jj - 2) - gj).natAbs + (gj - g cur (jj + 2)).natAbs + (k (jj - 1) - k (jj + 1)).natAbs
  let gp := px prev jj row
  let gn := px next jj row
  let dv := (gp - gj).natAbs + (gj - gn).natAbs
  -- over 4
  let xh := 4 * gj + 2 * (k (jj - 1) + k (jj + 1))
  let ku2 (u : Unit') (gu : Int) : Int := x u (jj - 1) + x u (jj + 1) - 2 * gu
  let xv := 4 * gj + (ku2 prev gp + ku2 next gn)
  let xo := if dh < dv then rc xh 4 else if dv < dh then rc xv 4 else rc (xh + xv) 8
  let cc := mosaic phase (1 - row) j
  let cv := c.toNat
  if cc = 0 then [cv, gj.toNat, xo] else [xo, gj.toNat, cv]

/-- Stage 5. -/
def stage5 (phase : Nat) (prev cur next : Unit') : Unit' := (List.range cur.length).map (stage5Col phase prev cur next)

/-- Stage 6 (R190). -/
def stage6 (im : Option (List Byte)) (u : Unit') : Unit' :=
  match im with
  | none => u
  | some bs => u.map fun v =>
    match v with
    | [r, g, b] =>
      let w (i x : Nat) : Int := ((u16At bs (2 * i) * x : Nat) : Int)
      let m := (List.range 9).map fun i => s16At bs (8 + 2 * i)
      (List.range 3).map fun i => rc (mrow m i (w 0 r) (w 1 g) (w 2 b)) (4096 * 4096)
    | _ => v

/-- Stage 7 (R191). -/
def stage7 (im : Option (List Byte)) (u : Unit') : Unit' :=
  match im with
  | none => u
  | some bs => mapCols (fun j v =>
    (List.range v.length).map fun f =>
      let a : Int := u16At bs (8 * (j / 16) + 2 * f)
      let b : Int := u16At bs (8 * (j / 16 + 1) + 2 * f)
      rc ((v.getD f 0 : Int) * (16 * a + (b - a) * ((j % 16 : Nat) : Int))) 65536) u

/-! ### The tables of a line -/

/-- Does a line of `spp` samples a pixel read the store word at a byte offset of the table of kind 0x01 (Table 9.5): GROUPS and
PHASE, the green factors under BiBayer, and of each group its START and pedestals, with the matrix under colour? -/
def readsTap (spp : Nat) (im : List Byte) (off : Nat) : Bool :=
  let w := off / 4 * 4
  decide (w = 0) || (decide (w = 4) && decide (spp = 2))
    || (decide (0x10 ≤ w ∧ (w - 0x10) / 32 < u8At im 0) && decide ((w - 0x10) % 32 < (if spp = 1 then 4 else 28)))

/-- The map's words up to its terminator (Table 9.7). -/
def readsMap (im : List Byte) (off : Nat) : Bool := decide (off / 4 ≤ (deadList 1024 im).length)

/-- Does an item hold a word in uncorrectable error that the line reads (R198)? An item that is not VALID is not read. -/
def itemBad (x : TabItem) (reads : List Byte → Nat → Bool) : Bool :=
  match x.used with
  | some im => x.errs.any (reads im)
  | none => false

/-- A word in error that stages 1 to 4 of a line read. -/
def bad14 (t : Tables) (spp : Nat) : Bool :=
  itemBad t.xtalk (readsTap spp) || itemBad t.dark (fun _ _ => true) || itemBad t.gain (fun _ _ => true) || itemBad t.dead readsMap

/-- A word in error that stages 5 to 7 read: PHASE under BiBayer, the matrix under colour, the shading knots, of which Mono
reads field 0. -/
def bad57 (t : Tables) (spp : Nat) : Bool :=
  (decide (spp = 2) && itemBad t.xtalk fun _ off => decide (off < 4))
    || (decide (spp ≠ 1) && itemBad t.matrix fun _ off => decide (off < 28))
    || itemBad t.shade fun _ off => decide (spp ≠ 1) || decide (off % 8 < 4)

/-- Stages 1 to 4 of a unit. -/
def stages14 (t : Tables) (spp : Nat) (prev4 : Option Unit') (u : Unit') : Unit' :=
  stage4 (deadOf t.dead.used) spp prev4 (stage3 t.gain.used (stage2 t.dark.used (stage1 (xtalkOf t.xtalk.used) spp u)))

/-- Stages 6 and 7 of a unit. -/
def stages67 (t : Tables) (spp : Nat) (u : Unit') : Unit' :=
  stage7 t.shade.used (if spp = 1 then u else stage6 t.matrix.used u)

/-- Stages 5 to 7 of a BiBayer unit. -/
def stages57 (t : Tables) (prev cur next : Unit') : Unit' :=
  stages67 t 2 (stage5 (xtalkOf t.xtalk.used).phase prev cur next)

end Sys2Proof.Machine
end

