-- ==== Sys2Proof/Machine/WireOps.lean ====
section
/-! DEFINITION. Shared operations of the wires (chapter 8): service, deadlines, REPROCESS and the swap. -/

namespace Sys2Proof.Machine

/-- Wire `w`. -/
def wire (s : State) (w : Nat) : Wire := tblGet {} s.ing.wires w
/-- Change wire `w`. -/
def updWire (w : Nat) (f : Wire → Wire) (s : State) : State :=
  { s with ing := { s.ing with wires := tblUpd {} s.ing.wires w f } }

/-- WIRE ROLE. -/
def wireRole (s : State) (w : Nat) : Nat := cf s 0x03 w 0
/-- INLINE. -/
def wireInline (s : State) (w : Nat) : Nat := cf s 0x03 w 1

/-- A line that waits in a chest slot. -/
def inChest (it : Item) : Bool := match it.st with
  | .chest _ => true
  | _ => false

/-- Replace a line of a port's pipe by its number. -/
def putItem (p : Nat) (it : Item) (s : State) : State :=
  updPort p (fun x => { x with pipe := x.pipe.map fun i => if i.num = it.num then it else i }) s

/-- Lines of a stripe that the wire does not take are dropped: the stripe has delivered fewer, and CP_STRIPE says so where
it is the last that closed (R162, R173). -/
def dropItems (p sid : Nat) (which : Item → Bool) (s : State) : State :=
  let x := port s p
  let mine (i : Item) : Bool := decide (i.sid = sid) && which i
  let n := x.pipe.countP mine
  let x1 := { x with pipe := x.pipe.map fun i => if mine i then { i with st := .dropped, samples := [] } else i }
  rawStops p (match stripeOf x sid with
  | none => setPort p x1 s
  | some t =>
    let x2 := putStripe { t with delivered := t.delivered - n } x1
    rawSettle p sid (setPort p { x2 with delivered := if t.closed && lastClosed x sid then t.delivered - n else x2.delivered } s))

/-- The rest of a stripe that waits for its wire is dropped (R173). -/
def dropRest (p sid : Nat) (s : State) : State := dropItems p sid isWaiting s

/-- The samples of a corrected unit, column by column. -/
def unitSamples (u : Unit') : List Nat := u.flatten

/-- Samples per pixel that a format leaves the wire with. -/
def outSpp (f : Nat) : Nat := if fmtSpp f = 1 then 1 else 3

/-- A line becomes BAD inside the wire (R198). Where its stripe has closed before, STRIPE_FLAGGED is raised at once, unless a BAD
line was seen in the stripe already; CP_BAD counts the lines of R156 alone (DESIGN CHOICE 107). -/
def flagBad (p : Nat) (it : Item) (s : State) : State :=
  let x := port s p
  match stripeOf x it.sid with
  | none => s
  | some t =>
    let s1 := setPort p (putStripe { t with flagsSeen := t.flagsSeen ||| 4 } x) s
    if t.closed ∧ !bitOf t.flagsSeen 2 then raise (80 + p) 0x02 (t.flagsSeen ||| 4) s1 else s1

/-- A line as it leaves the wire BAD: every sample PAD_VALUE, the flag set. -/
def badItem (it : Item) : Item :=
  { it with st := .done, flags := it.flags ||| 4, samples := List.replicate (it.pixels * outSpp it.format) it.pad }

/-- The unit that waits for its successor leaves stage 7 under its own tables (R184, R189, R196); a bad word of those that its
last stages read makes it BAD (R198). -/
def finishWait (w p : Nat) (next : Option Unit') (s : State) : State :=
  match tblFind (wire s w).ctx p with
  | none => s
  | some c =>
    match c.wait with
    | none => s
    | some (num, u) =>
      let s1 := updWire w (fun x => { x with ctx := tblSet x.ctx p { c with wait := none, waitPrev := none } }) s
      match (port s1 p).pipe.find? fun i => decide (i.num = num) with
      | none => s1
      | some it =>
        if bad57 it.tabs 2 then putItem p (badItem it) (flagBad p it s1)
        else putItem p { it with st := .done, samples := unitSamples (stages57 it.tabs (c.waitPrev.getD u) u (next.getD u)) } s1

/-- A BiBayer unit that no successor follows any more: its stripe has no line left that waits for the wire, and is
closed or truncated (R184). -/
def flushWait (w p : Nat) (s : State) : State :=
  match tblFind (wire s w).ctx p with
  | none => s
  | some c =>
    if c.wait.isNone then s
    else
      let x := port s p
      let more := x.pipe.any fun i => decide (i.sid = c.sid) && isWaiting i
      let isOver : Bool := match stripeOf x c.sid with
        | some t => t.closed || t.truncated
        | none => true
      if !more ∧ isOver then finishWait w p none s else s

/-- The raw area takes a line as its wire does (R287). -/
def rawTake (p : Nat) (it : Item) (raw : List Nat) (s : State) : State :=
  match (stripeOf (port s p) it.sid).bind Stripe.rawAddr with
  | some b => rawLine b it.num it.md it.tb it.flags raw s
  | none => s

/-- Did the unit before the one that waits leave the wire BAD: stage 5 of the waiting one then has no neighbour there (R184,
R198)? -/
def waitSpoilt (s : State) (p : Nat) (c : WireCtx) : Bool :=
  match c.wait with
  | none => false
  | some (num, _) => (port s p).pipe.any fun i => decide (i.num = num) && bad57 i.tabs 2

/-- A wire takes a line and corrects it (R182, R184); the first of a stripe brings what is not tied to a port into force
(Table 2.6). -/
def takeItem (w p : Nat) (it : Item) (s0 : State) : State :=
  let fresh := (tblFind (wire s0 w).ctx p).all fun c => decide (c.sid ≠ it.sid)
  let s := if fresh then wireUntied w s0 else s0
  let spp := fmtSpp it.format
  let raw := match it.st with
    | .chest a => (List.range (it.pixels * spp)).map fun i => leNat (hbmRead s (a + 2 * i) 2)
    | _ => it.samples
  let s0 := passTokens w (it.pixels * spp)
    (rawTake p it raw (if inChest it then s else reelRaw p it.num it.md it.flags spp it.stripeTb raw s))
  let t := it.tabs
  let bad := bitOf it.flags 2 || bad14 t spp || (decide (spp ≠ 2) && bad57 t spp)
  let c := match tblFind (wire s0 w).ctx p with
    | some c => if c.sid = it.sid then c else { sid := it.sid }
    | none => { sid := it.sid }
  if bad then
    let s1 := if bitOf it.flags 2 then finishWait w p none s0 else flagBad p it (finishWait w p none s0)
    let s2 := updWire w (fun x => { x with ctx := tblSet x.ctx p { sid := it.sid } }) s1
    rawSettle p it.sid (putItem p { badItem it with wire := some w } s2)
  else
    let u4 := stages14 t spp c.last4 (toUnit spp raw)
    if spp = 2 then
      let s1 := finishWait w p (if c.wait.isSome then some u4 else none) s0
      let s2 := updWire w (fun x => { x with ctx := tblSet x.ctx p { sid := it.sid, last4 := some u4, wait := some (it.num, u4),
                                                                        waitPrev := if waitSpoilt s0 p c then none else c.last4 } }) s1
      let s3 := rawSettle p it.sid (putItem p { it with st := .wire, samples := [], wire := some w } s2)
      if it.lastOfStripe then finishWait w p none s3 else s3
    else
      let s1 := updWire w (fun x => { x with ctx := tblSet x.ctx p { sid := it.sid, last4 := some u4 } }) s0
      rawSettle p it.sid (putItem p { it with st := .done, samples := unitSamples (stages67 t spp u4), wire := some w } s1)

/-! ### Deadlines (R173) -/

/-- The closed stripe of a port that a wire serves, if any: the first whose lines still wait. -/
def closedWaiting (s : State) (w p : Nat) : Option Stripe :=
  (port s p).old.find? fun t => decide (t.wire = some w) && (port s p).pipe.any fun i => decide (i.sid = t.sid) && isWaiting i

/-- Crystal time at which the DEADLINE of a closed stripe passes: the one in force when it began (R44). -/
def deadlineNs (t : Stripe) : Nat := t.closeNs + us t.deadline

/-- DEADLINE passes during a stripe: the rest is dropped, WIRE_LATE counts. -/
def passDeadline (w p : Nat) (t : Stripe) (s : State) : State :=
  let s1 := truncate p t.sid (dropRest p t.sid (updWire w (fun x => { x with late := satAdd 32 x.late 1 }) s))
  let s2 := updWire w (fun x => { x with serving := if x.serving = some (p, t.sid) then none else x.serving }) s1
  stripeSweep p (flushWait w p s2)

/-- Is a closed stripe in service: in-line, or the buffered stripe that the wire runs? -/
def inService (s : State) (w p : Nat) (t : Stripe) : Bool := !t.buffered || decide ((wire s w).serving = some (p, t.sid))

/-- Enforce the DEADLINE of a stripe in service. -/
def enforceDeadline (w p : Nat) (s : State) : State :=
  match closedWaiting s w p with
  | none => s
  | some t => if inService s w p t ∧ deadlineNs t ≤ s.clk.ns then passDeadline w p t s else s

/-! ### Service (R171, R173) -/

/-- Does a line wait at the wire's output for an alignment slot that only the couch's own work can free (R237)? -/
def wireHeld (s : State) (w : Nat) : Bool :=
  (List.range 32).any fun p =>
    match (port s p).pipe with
    | it :: _ =>
      decide (it.st = .out) && decide (it.wire = some w) && cpWant s p && !bitOf it.flags 3 && (alignFree s p (2 * it.samples.length)).isNone
        && !lineLate s (rowOf s it.md) && (match nextRow s with
          | some k => rowComplete s k
          | none => false)
    | [] => false

/-- The first in-line line that waits for the wire. -/
def nextInline (s : State) (w : Nat) : Option (Nat × Item) :=
  (List.range 32).findSome? fun p =>
    ((port s p).pipe.find? fun i => decide (i.st = .fifo) && decide (i.wire = some w)).map fun i => (p, i)

/-- The next line of a buffered stripe in service. -/
def nextServing (s : State) (w : Nat) : Option (Nat × Item) :=
  match (wire s w).serving with
  | none => none
  | some (p, sid) => ((port s p).pipe.find? fun i => decide (i.sid = sid) && inChest i).map fun i => (p, i)

/-- Eligible stripes of a wire: closed, with lines in their slots. -/
def eligible (s : State) (w : Nat) : List (Nat × Stripe) :=
  (List.range 32).flatMap fun p =>
    ((port s p).old.filter fun t => t.buffered && decide (t.wire = some w) &&
      (port s p).pipe.any fun i => decide (i.sid = t.sid) && inChest i).map fun t => (p, t)

/-- The eligible stripe that closed first; the lower port at one TB_NOW. -/
def firstEligible (s : State) (w : Nat) : Option (Nat × Stripe) :=
  (eligible s w).foldl (fun b x => match b with
    | none => some x
    | some y => if x.2.closeTb < y.2.closeTb then some x else some y) none

/-- Pixel-times of a stripe's lines and of the context load (R169). -/
def stripeCost (s : State) (w p : Nat) (t : Stripe) : Nat :=
  let ls := (port s p).pipe.filter fun i => decide (i.sid = t.sid) && inChest i
  (ls.map fun i => i.pixels * fmtSpp i.format).sum + (if (wire s w).ctxPort = some p then 0 else 1024)

/-- Would the stripe miss its DEADLINE if it started now (R173)? -/
def wouldMiss (s : State) (w p : Nat) (t : Stripe) : Bool :=
  let cap := (wire s w).cap
  decide (deadlineNs t * cap < s.clk.ns * cap + stripeCost s w p t * 1000)

/-- Drop a whole stripe unstarted. -/
def shedStripe (w p : Nat) (t : Stripe) (s : State) : State :=
  let s1 := truncate p t.sid (dropRest p t.sid (updWire w (fun x => { x with shed := satAdd 32 x.shed 1 }) s))
  pipePump p ((port s1 p).pipe.length) (stripeSweep p s1)

/-- Choose the next buffered stripe, shedding those that would be late. -/
def chooseStripe (w : Nat) : Nat → State → State
  | 0, s => s
  | n + 1, s =>
    match firstEligible s w with
    | none => s
    | some (p, t) =>
      if wouldMiss s w p t then chooseStripe w n (shedStripe w p t s)
      else updWire w (fun x => { x with serving := some (p, t.sid), ctxPort := some p }) s

/-! ### The swap (R176, R177) -/

/-- Offsets of Table 8.1. -/
def wireOffsets : List Nat := (wireFields 0).map Field.off

/-- The configuration in force of the wire taken out becomes that of the wire put in; the wire taken out takes the reset
values of Table 8.1 with ROLE 1. -/
def swapConfig (out into : Nat) (s : State) : State :=
  let step (t : Tbl Nat) (o : Nat) : Tbl Nat :=
    tblSet (tblSet t (cfgAddr 0x03 into o) (cf s 0x03 out o)) (cfgAddr 0x03 out o)
      (if o = 0 then 1 else fieldReset (cfgAddr 0x03 out o))
  { s with cfg := { s.cfg with vals := wireOffsets.foldl step s.cfg.vals } }

/-- Has a wire taken a line of a stripe? -/
def wireBegan (s : State) (w p sid : Nat) : Bool :=
  (port s p).pipe.any fun i => decide (i.sid = sid) && decide (i.wire = some w) && !isWaiting i

/-- What a port hands back when a swap is undone: the stripes of the wire put in that it has not begun. -/
def portBack (out into p : Nat) (s : State) : State :=
  let back (sid : Nat) : Bool := !wireBegan s into p sid
  let stripe (t : Stripe) : Stripe := if t.wire = some into ∧ back t.sid then { t with wire := some out } else t
  updPort p (fun x => { x with
    cur := x.cur.map stripe
    old := x.old.map stripe
    pipe := x.pipe.map fun i => if i.wire = some into ∧ back i.sid then { i with wire := some out } else i }) s

/-- A swap that was handed over is undone: the wires have the roles and values that they had, and the wire put in keeps only
the stripes that it has begun (Table 5.10, R20; DESIGN CHOICE 59). -/
def swapUndo (x : Swap) (s : State) : State :=
  let s1 := swapConfig x.into x.out s
  let s2 := { s1 with cfg := { s1.cfg with vals := x.kept.foldl (fun t v => tblSet t (cfgAddr 0x03 x.into v.1) v.2) s1.cfg.vals } }
  let s3 := (List.range 32).foldl (fun s p => portBack x.out x.into p s) s2
  updWire x.out (fun y => { y with draining := false }) { s3 with ing := { s3.ing with swap := none } }

/-! ### REPROCESS (R179, R180) -/

/-- A raw stripe by its first block. -/
def rawOf (s : State) (b : Nat) : Option RawStripe := s.web.hist.raw.find? fun r => decide (r.block = b)

/-- Read bytes of a raw stripe, wrapping at the end of the area. -/
def rawRead (s : State) (block off n : Nat) : List Byte :=
  let size := max 1 (rawBlocks s * 4096)
  let base := hsBase s + hsView s + hsTile s
  (List.range n).map fun i => memRead hbmUnlisted s.hbm (base + (block * 4096 + off + i) % size)

/-- A row of a REPROCESS is complete: it goes to the slices of its context and to its reel (R180, R270). -/
def repEmit (w : Nat) (s : State) : State :=
  match tblFind s.web.couch.reps w with
  | none => s
  | some r =>
    match r.row with
    | none => s
    | some k =>
      let prs : List PortRow := if r.count = 0 then [] else [⟨r.port, r.sums, r.count⟩]
      let row : GridRow := { k := k, cells := (List.range (gCols s)).map (cellOf s prs []), forced := false, therm := none
                             reproc := some r.cid, todo := slicesOn s, ns := s.clk.ns, minTb := 0 }
      let s1 := couchUpd (fun c => { c with reps := tblSet c.reps w { r with row := none, sums := [], count := 0 } }) s
      let s2 := if row.todo.isEmpty then s1 else knotUpd (fun x => { x with rows := x.rows ++ [row] }) s1
      if r.reel < 64 then
        let s3 := reelBoundary r.reel (some s2.web.couch.minTb) s2
        if rlSource s3 r.reel = 5 then reelPush r.reel { reelRow s3 row with absent := false } s3 else s3
      else s2

/-- A reprocessed line reaches the couch mapping of its camera (R180, R230). -/
def repLine (w : Nat) (md : Int) (flags : Nat) (samples : List Nat) (s : State) : State :=
  if bitOf flags 3 then s
  else
    let row := rowOf s md
    let s1 := match (tblFind s.web.couch.reps w).bind RepCouch.row with
      | some k => if k = row then s else repEmit w s
      | none => s
    let add (e : RepCouch) : RepCouch :=
      if bitOf flags 2 then { e with row := some row }
      else { e with row := some row, count := e.count + 1
                    sums := if e.count = 0 then samples else List.zipWith (· + ·) e.sums samples }
    couchUpd (fun c => { c with reps := c.reps.map fun e => if e.1 = w then (e.1, add e.2) else e }) s1

/-- The command of a running REPROCESS. -/
def reprocCmd (s : State) (r : Reproc) : Option Cmd := s.cmds.flight.find? fun c => decide (c.cid = r.cid)

/-- The stripe in progress closes: it raises STRIPE_FLAGGED with the line flags seen, where a store word made one of its lines
BAD (R198, Table 7.11). -/
def repFlagged (w : Nat) (s : State) : State :=
  match (wire s w).reproc with
  | some r =>
    if r.flagged then raise (80 + r.port) 0x02 r.seen (updWire w (fun x => { x with reproc := some { r with flagged := false } }) s) else s
  | none => s

/-- A REPROCESS ends: its last row passes, and its reel, which no longer runs, closes its unit and brings what waits into
force (R45, R283). -/
def reprocClose (w : Nat) (s : State) : State :=
  match (wire s w).reproc with
  | none => s
  | some r =>
    let s1 := repEmit w (updWire w (fun x => { x with reproc := none }) (repFlagged w s))
    let s2 := couchUpd (fun c => { c with reps := tblErase c.reps w }) s1
    if r.reel < 64 then reelBoundary r.reel none (reelFlush r.reel s2) else s2

/-- It completes. -/
def reprocEnd (w status : Nat) (s : State) : State :=
  match (wire s w).reproc with
  | none => s
  | some r =>
    let s1 := reprocClose w s
    match reprocCmd s1 r with
    | none => s1
    | some c => if status = stOk then finishOk c c.position c.position s1 else finishErr c status c.position s1

/-- The tables of a REPROCESS: the bank that it names, and the gain set in force (R197). -/
def repTables (s : State) (r : Reproc) : Tables := tablesOf s r.port r.bank (cf s 0x02 r.port 0x13)

/-- A store word makes a reprocessed line BAD: every sample is PAD_VALUE (R198). -/
def repSpoil (w : Nat) (r : Reproc) (md : Int) (flags n : Nat) (s : State) : State :=
  let mark (y : Reproc) : Reproc := if bitOf flags 2 then y else { y with flagged := true, seen := y.seen ||| 4 }
  repLine w md (flags ||| 4) (List.replicate n (hbPad s r.port)) (updWire w (fun x => { x with reproc := x.reproc.map mark }) s)

/-- A line that waits in a REPROCESS leaves stage 7, under the tables of its stripe (R196), and goes to the couch mapping. -/
def repFlush (w : Nat) (r : Reproc) (next : Option Unit') (s : State) : State :=
  match r.ctx.wait with
  | none => s
  | some (_, u) =>
    let t := r.tabs
    let (md, flags) := r.before
    if bad57 t 2 then repSpoil w r md flags (3 * u.length) s
    else repLine w md flags (unitSamples (stages57 t (r.ctx.waitPrev.getD u) u (next.getD u))) s

/-- The record of line `i` of a raw stripe: MD, flags and samples (R287). -/
def rawRecord (s : State) (q : RawStripe) (i : Nat) : RawLine :=
  let n := q.pixels * fmtSpp q.format
  let bs := rawRead s q.block (64 + i * rawLineBytes n) (32 + 2 * n)
  ⟨toS 64 (u64At bs 8), u8At bs 24, (List.range n).map fun j => u16At bs (32 + 2 * j)⟩

/-- A reprocessed line passes the stages (R197); the last of its stripe draws what waits after it. -/
def repPass (w : Nat) (r : Reproc) (x : RawLine) (last : Bool) (s : State) : State :=
  let t := r.tabs
  let spp := r.spp
  let s0 := passTokens w (x.samples.length) s
  let put (f : Reproc → Reproc) (s : State) : State := updWire w (fun y => { y with reproc := y.reproc.map f }) s
  if bitOf x.flags 2 || bad14 t spp || (decide (spp ≠ 2) && bad57 t spp) then
    repSpoil w r x.md x.flags (x.samples.length / spp * (if spp = 1 then 1 else 3))
      (put (fun y => { y with ctx := { sid := r.ctx.sid } }) (repFlush w r none s0))
  else
    let u4 := stages14 t spp r.ctx.last4 (toUnit spp x.samples)
    if spp = 2 then
      let s1 := repFlush w r (some u4) s0
      let c : WireCtx := { sid := r.ctx.sid, last4 := some u4, wait := some (r.line, u4), waitPrev := if r.ctx.wait.isSome ∧ bad57 t 2 then none else r.ctx.last4 }
      let q : Reproc := { r with ctx := c, before := (x.md, x.flags) }
      let s2 := put (fun y => { y with ctx := if last then { c with wait := none } else c }) s1
      if last then repFlush w q none s2 else s2
    else repLine w x.md x.flags (unitSamples (stages67 t spp u4)) (put (fun y => { y with ctx := { sid := r.ctx.sid, last4 := some u4 } }) s0)

/-- The stripe in progress is over: a unit that waits was the last of it (R184), and the next stripe is to be read, or the
REPROCESS ends. -/
def repNext (w : Nat) (r : Reproc) (s : State) : State :=
  let rest := r.todo.drop 1
  let s1 := updWire w (fun x => { x with reproc := some { r with todo := rest, reading := false, left := [], line := 0, flagged := false, ctx := { sid := r.ctx.sid + 1 } } })
    (repFlagged w (repFlush w r none s))
  if rest.isEmpty then reprocEnd w stOk s1 else s1

/-- A REPROCESS reads its next stripe whole before any of its lines passes: one that is gone ends the run at the last whole
stripe read (R113). -/
def repRead (w : Nat) (r : Reproc) (b : Nat) (s : State) : State :=
  match rawOf s b with
  | none => reprocEnd w stTileGone s
  | some q =>
    updWire w (fun x => { x with reproc := some { r with reading := true, spp := fmtSpp q.format, line := 0, flagged := false, seen := 0
                                                         tabs := repTables s r, ff := cf s 0x02 r.port 0x13
                                                         left := (List.range q.lines).map (rawRecord s q) } }) s

/-- The wire serves one line of its REPROCESS. -/
def reprocServe (w : Nat) (s : State) : State :=
  match (wire s w).reproc with
  | none => s
  | some r0 =>
    let s0 := match r0.todo with
      | b :: _ => if r0.reading then s else repRead w r0 b s
      | [] => s
    match (wire s0 w).reproc with
    | none => s0
    | some r =>
      match r.left with
      | [] => repNext w r s0
      | x :: more =>
        let s1 := repPass w r x more.isEmpty s0
        let y := (wire s1 w).reproc.getD r
        let r' : Reproc := { y with left := more, line := r.line + 1, before := (x.md, x.flags), seen := y.seen ||| x.flags }
        let s2 := updWire w (fun y => { y with reproc := some r' }) s1
        let s3 := match reprocCmd s2 r with
          | some c => (progressTo c (c.position + 1) s2).2
          | none => s2
        if more.isEmpty then repNext w r' s3 else s3

end Sys2Proof.Machine
end

