-- ==== Sys2Proof/Machine/KnotOps.lean ====
section
/-! DEFINITION. The knotter: backgrounds, tests, labelling, the seam merger, features, classes and tiles (chapter 12), and
the tile area of the history ring (R285). -/

namespace Sys2Proof.Machine

/-- A field of Table 12.1. -/
def knf (s : State) (k o : Nat) : Nat := cf s 0x07 k o

/-! ### Backgrounds and tests (R248 to R252) -/

/-- The detection value of a cell in 1/4 count (R248). -/
def detect4 (s : State) (k : Nat) (v : List Nat) : Nat :=
  match v with
  | [a] => 4 * a
  | r :: g :: b :: _ => (match knf s k 1 with
    | 0 => 4 * r | 1 => 4 * g | 2 => 4 * b | _ => r + 2 * g + b)
  | [a, _] => 4 * a
  | [] => 0

/-- One update of R249 with a value in 1/256 unit. -/
def backUpdate (shift x : Nat) (b : Back) : Back :=
  let n := min (b.n + 1) 65535
  let d := min n (2 ^ shift)
  if b.n = 0 then { n := 1, mu := x, sg := 0 }
  else
    let a := ((x : Int) - b.mu).natAbs
    { n := n, mu := (rhuI ((b.mu : Int) * d + ((x : Int) - b.mu)) d).toNat
      sg := (rhuI ((b.sg : Int) * d + ((a : Int) - b.sg)) d).toNat }

/-- The highest level whose test holds (R250); `dev` is ±d in 1/256 count, `o` the offset of the multipliers. -/
def levelOf (s : State) (k o : Nat) (dev : Int) (sg : Nat) : Nat :=
  let sig := max sg (knf s k 0x0E * 256)
  let holds (i : Nat) : Bool :=
    let m := knf s k (o + 2 * i)
    decide (m ≠ 0) && decide ((max (knf s k (o + 8 + 2 * i) * 4096) (m * sig) : Nat) ≤ 16 * dev)
  ((List.range 4).filter holds).foldl (fun a i => max a (i + 1)) 0

/-- The thermal test of a cell with value t ≠ 0 (R251). -/
def thermTest (s : State) (k t : Nat) (b : Back) : ThermTest :=
  let d : Int := (t : Int) * 256 - b.mu
  let warm := decide (knf s k 0x0C ≤ b.n)
  let hd := knf s k 0x30
  let cd := knf s k 0x32
  let ha := knf s k 0x34
  let ca := knf s k 0x36
  { hot := (warm && decide (hd ≠ 0) && decide ((hd : Int) * 256 ≤ d)) || (decide (ha ≠ 0) && decide (ha ≤ t))
    cold := (warm && decide (cd ≠ 0) && decide (d ≤ -((cd : Int) * 256))) || (decide (ca ≠ 0) && decide (t ≤ ca))
    delta := d }

/-- First and last local column of a slice. -/
def slFirst (s : State) (k : Nat) : Nat := knf s k 4
def slLast (s : State) (k : Nat) : Nat := min (knf s k 8) (gCols s - 1)

/-- The slice that owns a local column (R247). -/
def ownerOf (s : State) (c : Nat) : Option Nat := (slicesOn s).find? fun k => decide (slFirst s k ≤ c ∧ c ≤ slLast s k)

/-- The context of a row: the live slices, or a REPROCESS's copies. -/
def sliceCtx (s : State) (rep : Option Nat) (k : Nat) : Slice :=
  match rep with
  | none => tblGet {} s.web.knot.slices k
  | some c => tblGet {} s.web.knot.repSlices (c * 8 + k)
/-- Replace it. -/
def putSlice (rep : Option Nat) (k : Nat) (x : Slice) (s : State) : State :=
  match rep with
  | none => knotUpd (fun y => { y with slices := tblSet y.slices k x }) s
  | some c => knotUpd (fun y => { y with repSlices := tblSet y.repSlices (c * 8 + k) x }) s

/-- The thermal cells whose first visible column a slice owns (R251). -/
def ownTherm (s : State) (k : Nat) : List Nat :=
  (List.range (gTCells s)).filter fun t => decide (slFirst s k ≤ tcFirst s t ∧ tcFirst s t ≤ slLast s k)

/-- Test the thermal cells that a slice owns, and update their background once per thermal row (R251). -/
def thermStep (s : State) (k : Nat) (r : GridRow) (x : Slice) : Slice × Tbl ThermTest :=
  match r.therm with
  | none => (x, r.tres)
  | some (tr, cells) =>
    let first := decide (x.tlast ≠ some tr)
    let one (acc : Tbl Back × Tbl ThermTest) (j : Nat) : Tbl Back × Tbl ThermTest :=
      let (t, fl) := cells.getD j (0, 0)
      if t = 0 then acc
      else
        let b := tblGet {} acc.1 j
        let v := thermTest s k t b
        let up := first && decide (fl % 16 = 0) && !v.hot && !v.cold
        (if up then tblSet acc.1 j (backUpdate (knf s k 2) (t * 256) b) else acc.1, tblSet acc.2 j v)
    let out := (ownTherm s k).foldl one (x.tback, r.tres)
    ({ x with tback := out.1, tlast := some tr }, out.2)

/-- What a slice finds at a column of a row. -/
structure CellTest where
  valid : Bool
  learning : Bool
  cell : Option KCell
deriving DecidableEq, Repr

/-- Test a cell (R248 to R251) and update its column. -/
def cellStep (s : State) (k : Nat) (r : GridRow) (tres : Tbl ThermTest) (back : Tbl Back) (c : Nat) :
    Tbl Back × CellTest :=
  match (r.cells.getD c none) with
  | none => (back, ⟨false, false, none⟩)
  | some v =>
    let x4 := detect4 s k v
    let b := tblGet {} back c
    let learn := decide (b.n < knf s k 0x0C)
    let dev : Int := (x4 * 64 : Nat) - (b.mu : Int)
    let br := if learn then 0 else levelOf s k 0x10 dev b.sg
    let dk := if learn then 0 else levelOf s k 0x20 (-dev) b.sg
    let th := if r.therm.isSome then tblFind tres (tcOf s c) else none
    let hot := (th.map ThermTest.hot).getD false
    let cold := (th.map ThermTest.cold).getD false
    if br ≠ 0 ∨ dk ≠ 0 ∨ hot ∨ cold then
      (back, ⟨true, learn, some ⟨r.k, c, x4, b.mu, v, br, dk, hot, cold, th.map ThermTest.delta⟩⟩)
    else (tblSet back c (backUpdate (knf s k 2) (x4 * 64) b), ⟨true, learn, none⟩)

/-- Every column of a slice. -/
def rowCells (s : State) (k : Nat) (r : GridRow) (tres : Tbl ThermTest) (back : Tbl Back) : Tbl Back × List CellTest :=
  (List.range (slLast s k + 1 - slFirst s k)).foldl (fun acc i =>
    let o := cellStep s k r tres acc.1 (slFirst s k + i)
    (o.1, acc.2 ++ [o.2])) (back, [])

/-! ### Labelling (R253 to R255) -/

/-- Runs of cells in neighbouring columns. -/
def runsOf : List KCell → List (List KCell)
  | [] => []
  | c :: cs =>
    match runsOf cs with
    | (d :: ds) :: rest => if d.col = c.col + 1 then (c :: d :: ds) :: rest else [c] :: (d :: ds) :: rest
    | rest => [c] :: rest

/-- Is the cell at a column of a row invalid? -/
def invalidAt (r : GridRow) (c : Int) : Bool :=
  decide (0 ≤ c) && decide (c < r.cells.length) && (r.cells.getD c.toNat none).isNone
/-- Does a cell at a column touch an invalid cell of a row? -/
def nearInvalid (r : GridRow) (c : Nat) : Bool := invalidAt r ((c : Int) - 1) || invalidAt r c || invalidAt r ((c : Int) + 1)

/-- Has a component a cell on row `k` that a run touches? -/
def runTouches (k : Int) (run : List KCell) (m : Comp) : Bool :=
  m.cells.any fun d => decide (d.row = k) && run.any fun c => decide (c.col ≤ d.col + 1 ∧ d.col ≤ c.col + 1)

/-- Is it an open component of the slice and context? -/
def openHere (k : Nat) (rep : Option Nat) (m : Comp) : Bool := decide (m.slice = k) && decide (m.reproc = rep) && m.closed.isNone

/-- Components that count against the limit of R255 or R270. -/
def compCount (k : Nat) (rep : Option Nat) (cs : List Comp) : Nat :=
  match rep with
  | none => (cs.filter fun m => decide (m.slice = k) && m.reproc.isNone).length
  | some _ => (cs.filter fun m => m.reproc.isSome).length
/-- The limit. -/
def compLimit (rep : Option Nat) : Nat := if rep.isSome then 4096 else 8192

/-- What labelling a row leaves: the components, the cells that stay unlabelled, and whether a component was opened. -/
structure Labels where
  comps : List Comp
  lost : Nat := 0
  opened : Bool := false
deriving DecidableEq, Repr

/-- A run joins the components it touches, or opens one, or its cells stay unlabelled. -/
def labelRun (k : Nat) (r : GridRow) (cs : List Comp) (run : List KCell) (part : Bool) : Labels :=
  let hit (m : Comp) : Bool := openHere k r.reproc m && runTouches (r.k - 1) run m
  match cs.find? hit with
  | some a =>
    let joined := cs.filter hit
    let rest := cs.filter fun m => !hit m
    ⟨rest ++ [{ a with cells := joined.flatMap Comp.cells ++ run, partial_ := part || joined.any Comp.partial_ }], 0, false⟩
  | none =>
    if compLimit r.reproc ≤ compCount k r.reproc cs then ⟨cs, run.length, false⟩
    else ⟨cs ++ [{ slice := k, cells := run, partial_ := part, reproc := r.reproc }], 0, true⟩

/-- A run of the row: runs that share a component with it have its cells of this row already. -/
def labelRuns (k : Nat) (r : GridRow) (prev : Option GridRow) (runs : List (List KCell)) (cs : List Comp) : Labels :=
  runs.foldl (fun acc run =>
    let part := r.forced || run.any fun c => nearInvalid r c.col || (match prev with
      | some q => decide (q.k + 1 = r.k) && nearInvalid q c.col
      | none => false)
    let o := labelRun k r acc.comps run part
    ⟨o.comps, acc.lost + o.lost, acc.opened || o.opened⟩) ⟨cs, 0, false⟩

/-- Components of the row before that touch an invalid cell of this row are PARTIAL. -/
def markPartial (k : Nat) (r : GridRow) (m : Comp) : Comp :=
  if openHere k r.reproc m && m.cells.any fun d => decide (d.row = r.k - 1) && nearInvalid r d.col then { m with partial_ := true } else m

/-- First row of a component. -/
def compFirst (m : Comp) : Int := match m.cells with
  | [] => 0
  | c :: cs => cs.foldl (fun a d => min a d.row) c.row

/-- Last row of a component. -/
def compLast (m : Comp) : Int := match m.cells with
  | [] => 0
  | c :: cs => cs.foldl (fun a d => max a d.row) c.row

/-- Close what has no cell on the row (R254). -/
def closeComp (s : State) (k : Nat) (r : GridRow) (m : Comp) : Comp :=
  if openHere k r.reproc m && !(m.cells.any fun d => decide (d.row = r.k)) then
    { m with closed := some (r.k, r.ns, r.minTb), waitNs := s.clk.ns }
  else m

/-- The stretch in which a slice is full ends at a row. -/
def fullEnd (k : Nat) (r : GridRow) (s : State) : State :=
  let x := sliceCtx s none k
  blindClose (96 + k) 7 0 (rowLo s r.k) (raise (125 + k) 0x02 x.fullCells (putSlice none k { x with full := false } s))

/-- One begins at a row that leaves `lost` cells unlabelled. -/
def fullBegin (k : Nat) (r : GridRow) (lost : Nat) (s : State) : State :=
  let x := sliceCtx s none k
  blindOpen 1 (96 + k) 7 0 (rowLo s r.k)
    (raise (125 + k) 0x01 (ofS 32 r.k) (putSlice none k { x with full := true, fullMd := rowLo s r.k, fullCells := satU 32 lost } s))

/-- FULL of a slice after a row: a stretch ends where the slice opens a component again or leaves no cell unlabelled, and
one begins where it leaves some (R255). -/
def fullStep (k : Nat) (r : GridRow) (lb : Labels) (s : State) : State :=
  -- of a REPROCESS, counted in WIRE_KNOT_FULL of the slice only (R270)
  let l := sliceCtx s none k
  let s1 := putSlice none k { l with unlabelled := satAdd 32 l.unlabelled lb.lost } s
  if r.reproc.isSome then s1
  else
    let ends := l.full && (lb.opened || decide (lb.lost = 0))
    let s2 := if ends then fullEnd k r s1 else s1
    if lb.lost = 0 then s2
    else if l.full && !ends then
      let x := sliceCtx s2 none k
      putSlice none k { x with fullCells := satAdd 32 x.fullCells lb.lost } s2
    else fullBegin k r lb.lost s2

/-- The learning stretch of a slice (R252). -/
def learnStep (k : Nat) (r : GridRow) (learn : Bool) (s : State) : State :=
  let x := sliceCtx s r.reproc k
  if r.reproc.isSome then putSlice r.reproc k { x with learning := learn } s
  else if learn ∧ !x.learning then
    blindOpen 3 (96 + k) 6 0 (rowLo s r.k)
      (raise (125 + k) 0x03 (ofS 32 r.k) (putSlice none k { x with learning := true, learnMd := rowLo s r.k } s))
  else if !learn ∧ x.learning then
    blindClose (96 + k) 6 0 (rowLo s r.k) (raise (125 + k) 0x04 (ofS 32 r.k) (putSlice none k { x with learning := false } s))
  else s

/-! ### The merger: groups (R256, R257) -/

/-- Do two cells touch (R253)? -/
def cellsTouch (a b : KCell) : Bool :=
  decide (a.row ≤ b.row + 1 ∧ b.row ≤ a.row + 1 ∧ a.col ≤ b.col + 1 ∧ b.col ≤ a.col + 1)
/-- Do two lists of cells touch? -/
def listsTouch (a b : List KCell) : Bool := a.any fun x => b.any fun y => cellsTouch x y

/-- The cells that another part may touch: a part split under R254 touches nothing past its closing row. -/
def cellsUpTo (a b : Comp) : List KCell :=
  match b.split, b.closed with
  | true, some c => a.cells.filter fun d => decide (d.row ≤ c.1)
  | _, _ => a.cells

/-- Do two parts join (R256)? Those of one slice do where a split between them has been made elsewhere instead. -/
def partsJoin (a b : Comp) : Bool :=
  decide (a.reproc = b.reproc) && listsTouch (cellsUpTo a b) (cellsUpTo b a)

/-- Split a list by whether it joins some member of a group. -/
def growGroup (g rest : List Comp) : List Comp × List Comp :=
  (g ++ rest.filter fun m => g.any (partsJoin m), rest.filter fun m => !(g.any (partsJoin m)))
/-- The group of a part: everything that joins it, directly or through others. -/
def groupFrom : Nat → List Comp → List Comp → List Comp × List Comp
  | 0, g, rest => (g, rest)
  | n + 1, g, rest =>
    let (g1, r1) := growGroup g rest
    if g1.length = g.length then (g, rest) else groupFrom n g1 r1

/-- The groups of components, in the order of the list. -/
def groupsOf : Nat → List Comp → List (List Comp)
  | 0, _ => []
  | n + 1, cs =>
    match cs with
    | [] => []
    | m :: ms =>
      let (g, rest) := groupFrom ms.length [m] ms
      g :: groupsOf n rest

/-- Every group of the merger. -/
def allGroups (s : State) : List (List Comp) := groupsOf s.web.knot.comps.length s.web.knot.comps

/-- MAX_ROWS as the rows taken so far have it: each row from the merger's boundary row on is held to the new value, whatever
components still wait to be classified (R273). -/
def maxRows (s : State) : Nat := mgf (takeSel (ofInst 0x07 8) (0x07, 8) (before (some s.web.knot.lastMin)) s) 0x08

/-- MAX_ROWS in force from a live row on. -/
def maxNote (r : GridRow) (s : State) : State :=
  if r.reproc.isSome ∨ (s.web.knot.maxFrom.head?.map Prod.snd) = some (maxRows s) then s
  else knotUpd (fun y => { y with maxFrom := (r.k, maxRows s) :: y.maxFrom }) s

/-- The row at which a component of first row `a` comes to span MAX_ROWS; each value is in force from a row of its own on, the
newest first (R254, R273). -/
def fullRow (now : Nat) (a : Int) : List (Int × Nat) → Int
  | [] => a + now - 1
  | (b, v) :: rest =>
    if rest.isEmpty ∨ b ≤ a then a + v - 1
    else
      let old := fullRow now a rest
      if old < b then old else max b (a + v - 1)

/-- The same in a context: rows of a REPROCESS are held to the value now. -/
def fullAt (s : State) (rep : Bool) (a : Int) : Int := fullRow (maxRows s) a (if rep then [] else s.web.knot.maxFrom)

/-- Does a group come to span MAX_ROWS at a row with a part still open (R254)? -/
def groupFull (s : State) (r : GridRow) (g : List Comp) : Bool :=
  g.any (fun m => decide (m.reproc = r.reproc) && m.closed.isNone)
    && g.any fun m => decide ((maxRows s : Int) ≤ r.k - compFirst m + 1)

/-- Every slice has taken a row: the components that come to span MAX_ROWS at it close there, with SPLIT (R254). -/
def splitRow (r : GridRow) (s : State) : State :=
  let full := ((allGroups s).filter (groupFull s r)).flatten
  let cut (m : Comp) : Comp := if full.contains m && m.closed.isNone then
      { m with closed := some (r.k, r.ns, r.minTb), split := true, waitNs := s.clk.ns } else m
  knotUpd (fun y => { y with comps := y.comps.map cut }) (maxNote r s)

/-- Is a part a fragment: a cell in its slice's first or last column (R256)? -/
def isFragment (s : State) (m : Comp) : Bool :=
  m.cells.any fun c => decide (c.col = slFirst s m.slice ∨ c.col = slLast s m.slice)

/-- The row that a group closes at: its latest closing row, its emission time and `minTb`. -/
def groupClosed : List Comp → Option (Int × Nat × Nat)
  | [] => none
  | [m] => m.closed
  | m :: ms =>
    match m.closed, groupClosed ms with
    | some a, some b => some (if b.1 < a.1 then a else b)
    | _, _ => none

/-- Is every part closed, and can no slice still add one? -/
def groupReady (s : State) (g : List Comp) : Bool :=
  match groupClosed g with
  | none => false
  | some (k, _, _) =>
    !(g.any (isFragment s)) ||
      !(s.web.knot.rows.any fun r => decide (r.k ≤ k) && g.any fun m => decide (m.reproc = r.reproc))

/-- The device edges that a group reaches where a neighbour is joined: 0 FELT_LO, 1 FELT_HI. -/
def groupSides (s : State) (g : List Comp) : List Nat :=
  let has (c : Nat) : Bool := g.any fun m => m.cells.any fun d => decide (d.col = c)
  ((List.range 2).filter fun d => decide (gFelt s d ≠ 0xFF)).filter fun d => has (if d = 0 then 0 else gCols s - 1)

/-- The cells of a group in global columns. -/
def groupCells (s : State) (g : List Comp) : List KCell :=
  g.flatMap fun m => m.cells.map fun c => { c with col := c.col + gBase s }

/-! ### Features (R258) -/

/-- The least and greatest of a projection. -/
def minBy (f : KCell → Int) (c : KCell) (cs : List KCell) : Int := cs.foldl (fun a d => min a (f d)) (f c)
def maxBy (f : KCell → Int) (c : KCell) (cs : List KCell) : Int := cs.foldl (fun a d => max a (f d)) (f c)

/-- |x − μ| in 1/256 count. -/
def cellDev (c : KCell) : Nat := ((c.x4 * 64 : Nat) - (c.mu : Int)).natAbs

/-- Is `a` before `b` in row order, then column order? -/
def cellBefore (a b : KCell) : Bool := decide (a.row < b.row) || (decide (a.row = b.row) && decide (a.col < b.col))

/-- The cell of the greatest key; the first in row and column order among equals. -/
def bestCell (key : KCell → Nat) (c : KCell) (cs : List KCell) : KCell :=
  cs.foldl (fun a d => if key a < key d ∨ (key a = key d ∧ cellBefore d a) then d else a) c

/-- Hexcone hue of sums of R, G and B, 1/100°. -/
def hueOf (r g b : Nat) : Nat :=
  let mx := max r (max g b)
  let mn := min r (min g b)
  let d := mx - mn
  if d = 0 then 0xFFFF
  else
    let h : Int := if r = mx then 6000 * ((g : Int) - b) else if g = mx then 6000 * ((b : Int) - r) + 12000 * d
      else 6000 * ((r : Int) - g) + 24000 * d
    let v := rhuI (if h < 0 then h + 36000 * d else h) d
    min 35999 v.toNat

/-- 12 n² times the covariance of the cell centres in (1/256 µm)²: MD variance, CD variance and covariance, each variance
with its uniform term. -/
def moments (s : State) (cells : List KCell) : Int × Int × Int :=
  let n : Int := cells.length
  let sum (f : KCell → Int) : Int := (cells.map f).sum
  let sk := sum fun c => c.row
  let sg := sum fun c => (c.col : Int)
  let kk := n * sum (fun c => c.row * c.row) - sk * sk
  let gg := n * sum (fun c => (c.col : Int) * c.col) - sg * sg
  let gk := n * sum (fun c => c.row * c.col) - sg * sk
  let m : Int := 16 * gMdPitch s
  let p : Int := gPitch s
  (m * m * (12 * kk + n * n), p * p * (12 * gg + n * n), 12 * m * p * gk)

/-- The exact sums as binary64: a + b, a − b, 2c and √((a − b)² + (2c)²) (R258; DESIGN CHOICE 30 for the operations and their
order). -/
def axes (a b c : Int) : Option (Dy × Dy × Dy × Dy) := do
  let a ← dyRound a 0
  let b ← dyRound b 0
  let e ← dyRound (2 * c) 0
  let t ← dyAdd a b
  let d ← dyAdd a (dyNeg b)
  let r ← dySqrt (← dyAdd (← dyMul d d) (← dyMul e e))
  some (t, d, e, r)

/-- ELONGATION: 256 × √((t + r) ÷ (t − r)). -/
def elongation (a b c : Int) : Nat :=
  let v : Option Dy := do
    let (t, _, _, r) ← axes a b c
    let low ← dyAdd t (dyNeg r)
    if dyPos low then dyMul (dyOfNat 256) (← dySqrt (← dyDiv (← dyAdd t r) low)) else none
  match v with
  | some x => min 65535 (max 256 (dyToInt x).toNat)
  | none => 65535

/-- ORIENTATION, 1/100°: 9,000 ÷ π × atan2(e, d), in a half turn. -/
def orientation (a b c : Int) : Nat :=
  if a = b ∧ c = 0 then 0
  else
    let v : Option Dy := do
      let (_, d, e, _) ← axes a b c
      dyDiv (← dyMul (← dyAtan2 e d) (dyOfNat 9000)) dyPi
    ((v.map dyToInt).getD 0 % 18000).toNat

/-- The features of a component, before BAND, class and tile. -/
def features (s : State) (c : KCell) (cs : List KCell) (flags : Nat) : RecFields :=
  let all := c :: cs
  let n := all.length
  let r0 := minBy (fun d => d.row) c cs
  let r1 := maxBy (fun d => d.row) c cs
  let lo := rowLo s r0
  let g0 := minBy (fun d => (d.col : Int)) c cs
  let g1 := maxBy (fun d => (d.col : Int)) c cs
  let m := moments s all
  let ch (i : Nat) : Nat := (all.map fun d => d.samples.getD i 0).sum
  let th := all.filter fun d => d.therm.isSome
  let td : Int := match th with
    | [] => 0
    | t :: ts => rhuI (((bestCell (fun d => (d.therm.getD 0).natAbs) t ts).therm).getD 0) 256
  { cls := 0, flags := flags + 2 * b2n (!th.isEmpty), md := lo, len := satU 32 (rowHi s r1 - lo).toNat
    left := clampI (-2 ^ 31) (2 ^ 31 - 1) (colLeft s g0), right := clampI (-2 ^ 31) (2 ^ 31 - 1) (colRight s g1), area := satU 32 n
    mean := min 65535 (rhu (all.map KCell.x4).sum (4 * n))
    peak := min 65535 (rhu (bestCell cellDev c cs).x4 4)
    contrast := min 65535 (rhu (all.map cellDev).sum (256 * n))
    elong := elongation m.1 m.2.1 m.2.2, orient := orientation m.1 m.2.1 m.2.2
    hue := if gSamples s = 3 then hueOf (ch 0) (ch 1) (ch 2) else 0xFFFF
    therm := clampI (-32768) 32767 td }

/-- The bits of Table 12.5. -/
def compBits (all : List KCell) (f : RecFields) : Nat :=
  b2n (all.any fun d => decide (d.bright ≠ 0)) + 2 * b2n (all.any fun d => decide (d.dark ≠ 0)) + 4 * b2n (all.any KCell.hot)
    + 8 * b2n (all.any KCell.cold) + 16 * b2n (bitOf f.flags 1) + 32 * b2n (bitOf f.flags 5) + 64 * b2n (bitOf f.flags 3)
    + 128 * b2n (bitOf f.flags 4)

/-- A feature by its code of Table 12.6. -/
def featureValue (all : List KCell) (f : RecFields) (code : Nat) : Int :=
  match code with
  | 1 => f.area | 2 => f.len | 3 => f.right - f.left | 4 => f.mean | 5 => f.peak | 6 => f.contrast | 7 => f.elong
  | 8 => f.orient | 9 => f.hue | 10 => f.therm
  | 11 => ((all.map KCell.bright).foldl max 0 : Nat) | 12 => ((all.map KCell.dark).foldl max 0 : Nat)
  | 13 => f.band | _ => 0

/-! ### Classification (R260, R261) -/

/-- The rule images in force; an EMPTY, LOADING or INVALID bank holds none. -/
def ruleImage (s : State) : List Byte :=
  let it := tblGet {} s.web.knot.rules (mgf s 0x00)
  if it.st = 2 then it.image else []

/-- Does a rule's condition hold? -/
def condHolds (all : List KCell) (f : RecFields) (rule : List Byte) (c : Nat) : Bool :=
  let code := u8At rule (8 + 12 * c)
  let v := featureValue all f code
  decide (code = 0) || (decide (toS 32 (u32At rule (0x0C + 12 * c)) ≤ v)
    && (decide (u32At rule (0x10 + 12 * c) = 0x7FFFFFFF) || decide (v ≤ toS 32 (u32At rule (0x10 + 12 * c)))))

/-- Does a rule hold (R261)? -/
def ruleHolds (all : List KCell) (f : RecFields) (rule : List Byte) : Bool :=
  let b := compBits all f
  decide (b &&& u8At rule 2 = u8At rule 2) && decide (b &&& u8At rule 3 = 0) && (List.range 4).all (condHolds all f rule)

/-- The class, or none when a rule discards the component. -/
def classify (s : State) (all : List KCell) (f : RecFields) : Option Nat :=
  let im := ruleImage s
  match ((List.range (im.length / 64)).map fun i => slice im (64 * i) 64).find? (ruleHolds all f) with
  | some r => if u8At r 0 = 0 then some (u8At r 1) else none
  | none => some (mgf s 0x02)

/-! ### Tiles (R266, R267, R285) -/

/-- Blocks of the tile area. -/
def tileN (s : State) : Nat := hsTile s / 256
/-- HBM address of a tile block. -/
def tileAddr (s : State) (h : Nat) : Nat := hsBase s + hsView s + 256 * h

/-- The bounds of a component's tile: first row and its rows, first local column and its columns. -/
def tileBox (s : State) (r0 r1 : Int) (c0 c1 : Int) : Int × Nat × Nat × Nat :=
  let mg : Int := mgf s 0x04
  let first := max (r0 - mg) (r1 - 255)
  let (a, b) := if c1 - c0 + 1 + 2 * mg ≤ 256 then (c0 - mg, c1 + mg)
    else ((c0 + c1 + 1) / 2 - 128, (c0 + c1 + 1) / 2 + 127)
  let lo := max a 0
  let hi := min b ((gCols s : Int) - 1)
  (first, (r1 - first + 1).toNat, lo.toNat, (hi - lo + 1).toNat)

/-- The samples of one row of a tile from the tile source ring; a row never emitted reads as invalid cells. -/
def tileRow (s : State) (k : Int) (c n : Nat) : List Byte :=
  let ns := gSamples s
  if inRuns k s.web.hist.srcRuns then hbmRead s (srcAddr s k + c * ns * 2) (n * ns * 2)
  else (List.replicate (n * ns) (gGap s)).flatMap (leBytes 2)

/-- The thermal cells of one thermal row of a tile; a row never emitted reads as 0. -/
def tileTherm (s : State) (k : Int) (c n : Nat) : List Byte :=
  if inRuns k s.web.hist.tsrcRuns then hbmRead s (srcThermAddr s k + c * 2) (n * 2) else zeros (n * 2)

/-- Table 13.6. -/
def tileHeader (h gen state dev : Nat) (r0 : Int) (c0 rows cols : Nat) (t0 : Int) (tc0 trows tcols blocks : Nat) : List Byte :=
  leBytes 4 h ++ leBytes 2 gen ++ leBytes 1 state ++ zeros 1 ++ leBytes 8 dev ++ leBytes 8 (ofS 64 r0) ++ leBytes 4 c0
    ++ leBytes 2 rows ++ leBytes 2 cols ++ leBytes 8 (ofS 64 t0) ++ leBytes 4 tc0 ++ leBytes 2 trows ++ leBytes 2 tcols
    ++ leBytes 4 blocks ++ zeros 12

/-- Has a row or a thermal row of the tile left the tile source ring (R267)? -/
def tileGone (s : State) (first last t0 t1 : Int) : Bool :=
  s.web.hist.srcRuns.isEmpty || meetsRuns first last s.web.hist.srcOld || meetsRuns t0 t1 s.web.hist.tsrcOld || ringLeft (mgf s 0x18) first last s.web.hist.srcRuns || ringLeft (srcTherm s) t0 t1 s.web.hist.tsrcRuns

/-- A tile is taken by the history ring: its blocks are begun, its header reads STATE 0, and its bytes wait to be
written; none when it cannot be taken. -/
def tileTake (dev : Nat) (r0 r1 c0 c1 : Int) (s : State) : Option Nat × State :=
  let (first, rows, col, cols) := tileBox s r0 r1 c0 c1
  let tm := max 1 (gTherm s)
  let t0 := first / (tm : Int)
  let t1 := r1 / (tm : Int)
  let trows := (t1 - t0 + 1).toNat
  let tc0 := tcOf s col
  let tcols := min (tcOf s (col + cols - 1) - tc0 + 1) (gTCols s - tc0)
  let vis := (List.range rows).flatMap fun (i : Nat) => tileRow s (first + (i : Int)) col cols
  let thr := (List.range trows).flatMap fun (i : Nat) => tileTherm s (t0 + (i : Int)) tc0 tcols
  let blocks := (64 + vis.length + thr.length + 255) / 256
  let n := tileN s
  if mgf s 0x10 = 0 ∨ tileGone s first r1 t0 t1 ∨ n < blocks ∨ 4096 ≤ s.web.hist.tiles.length then (none, s)
  else
    let w := s.web.hist.w
    let pad := if n < w % n + blocks then n - w % n else 0
    let s1 := if pad = 0 then s
      else hbmWrite (tileAddr s (w % n)) (tileHeader (w % n) (w / n % 65536) 2 0 0 0 0 0 0 0 0 0 pad) s
    let w0 := w + pad
    let h := w0 % n
    let head (st : Nat) : List Byte := tileHeader h (w0 / n % 65536) st dev first col rows cols t0 tc0 trows tcols blocks
    let job : TileJob := ⟨w0, padTo (blocks * 256) (head 1 ++ vis ++ thr)⟩
    (some w0, histUpd (fun x => { x with w := w0 + blocks, tiles := x.tiles ++ [job] }) (hbmWrite (tileAddr s1 h) (head 0) s1))

/-! ### Records (R259, R264, R265, R271) -/

/-- The bound of R271 in ns: 2 ms with the governor at step 0 and no Tj above 60 °C, else 3 ms as R22 multiplies it
(DESIGN CHOICE 72). -/
def latBound (s : State) (edge : Bool) : Nat :=
  let g := govStep s
  (if g = 0 ∧ s.afe.therm.max_ ≤ 240 then ms 2 else ms 3 * 64 / (if g < 5 then 64 else 80 - 4 * g))
    + (if edge then us (mgf s 0x0C) else 0)

/-- Does the bound hold: at most 2,000 records in the last 1 ms, this one among them (R271)? -/
def latApplies (s : State) : Bool :=
  decide ((s.web.knot.recTimes.filter fun t => decide (s.clk.ns < t + ms 1)).length < 2000)

/-- LATENCY and WIRE_KNOT_LATMAX. -/
def latencyNote (ns : Nat) (edge : Bool) (s : State) : State :=
  let lat := s.clk.ns - ns
  let inUs := (lat + 999) / 1000
  let was := s.web.knot.onTime
  let late := latApplies s && decide (latBound s edge < lat)
  let s1 := knotUpd (fun k => { k with latMax := max k.latMax (satU 32 inUs), onTime := !late }) s
  if late ∧ was then raise 133 0x01 (satU 32 inUs) s1 else s1

/-- A component's record (R259 to R267): too small, discarded by a rule, or formed. -/
def formComp (cells : List KCell) (flags : Nat) (live : Bool) (ns : Nat) (edge : Bool) (s : State) : State :=
  match cells with
  | [] => s
  | c :: cs =>
    let f := features s c cs flags
    if f.area < mgf s 0x06 then knotUpd (fun k => { k with small := satAdd 32 k.small 1 }) s
    else
      let f1 := { f with band := bandOf s ((f.left + f.right) / 2) }
      match classify s (c :: cs) f1 with
      | none => knotUpd (fun k => { k with ruleDrop := satAdd 32 k.ruleDrop 1 }) s
      | some cls =>
        let dev := s.web.knot.devSeq
        let f2 := { f1 with cls := cls }
        let s1 := if live then recordJobs f2 dev (latencyNote ns edge s) else s
        if mgf s 0x03 = 1 then
          let base : Int := gBase s
          let (w, s2) := tileTake dev (minBy (fun d => d.row) c cs) (maxBy (fun d => d.row) c cs)
            (minBy (fun d => (d.col : Int)) c cs - base) (maxBy (fun d => (d.col : Int)) c cs - base) s1
          match w with
          | some w0 =>
            formRec { f2 with tile := w0 % max 1 (tileN s), gen := w0 / max 1 (tileN s) % 65536 } (some w0)
              (knotUpd (fun k => { k with tileHad := true }) s2)
          | none =>
            let had := s2.web.knot.tileHad
            let s3 := knotUpd (fun k => { k with tileHad := false, tileMiss := satAdd 32 k.tileMiss 1 }) s2
            formRec f2 none (if had then raise 133 0x02 (dev % 2 ^ 32) s3 else s3)
        else formRec f2 none s1

/-! ### Fragments (R257) -/

/-- The bytes of a fragment: flags, cell count, cells (DESIGN CHOICE 25 for their order). -/
def fragPayload (part split rep : Bool) (cells : List KCell) : List Byte :=
  leBytes 1 (b2n part + 2 * b2n split + 4 * b2n rep) ++ leBytes 2 cells.length ++ cells.flatMap fun c =>
    leBytes 8 (ofS 64 c.row) ++ leBytes 4 c.col ++ leBytes 4 c.x4 ++ leBytes 4 c.mu
      ++ leBytes 1 (c.bright + 8 * c.dark + 64 * b2n c.hot + 128 * b2n c.cold)
      ++ leBytes 1 (b2n c.therm.isSome) ++ leBytes 4 (ofS 32 (c.therm.getD 0)) ++ leBytes 1 c.samples.length ++ c.samples.flatMap (leBytes 2)

/-- Is a group one of a REPROCESS? -/
def isRep (g : List Comp) : Bool := g.any fun m => m.reproc.isSome

/-- Send parts of a component, in global columns, to the neighbour of a side. -/
def fragSend (side : Nat) (part split rep : Bool) (cells : List KCell) (s : State) : State :=
  feltNeighbour (gFelt s side) 0x14 (fragPayload part split rep cells) s

/-- Remove a group from the merger, which has passed its parts (R23). -/
def consume (g : List Comp) (s : State) : State :=
  passTokens 18 g.length (knotUpd (fun k => { k with comps := k.comps.filter fun m => !g.contains m
                                                     splits := if g.any Comp.split then satAdd 32 k.splits 1 else k.splits }) s)

/-- The FLAGS of a group's record (R263); THERMAL is set with the features. -/
def groupFlags (g : List Comp) (more part split : Bool) : Nat :=
  b2n (isRep g) + 8 * b2n (more || g.any fun m => g.any fun n => decide (m.slice ≠ n.slice)) + 16 * b2n (split || g.any Comp.split)
    + 32 * b2n (part || g.any Comp.partial_)

/-- A group that no neighbour shares forms its record. -/
def formGroup (g : List Comp) (s : State) : State :=
  let ns := ((groupClosed g).map fun x => x.2.1).getD s.clk.ns
  formComp (groupCells s g) (groupFlags g false false false) (!isRep g) ns false (consume g s)

/-- The device edges at which a group has still to be sent. -/
def unsent (side : Nat) (g : List Comp) : Bool := !(g.any fun m => if side = 0 then m.sentLo else m.sentHi)

/-- A component across the device edges, as far as this device holds it: its groups, and the fragments received. -/
structure EdgeComp where
  groups : List (List Comp)
  frags : List FragIn := []
deriving DecidableEq, Repr

/-- The last row of cells; none of no cell. -/
def lastRowOf (cells : List KCell) : Option Int := match cells with
  | [] => none
  | c :: cs => some (cs.foldl (fun a d => max a d.row) c.row)

/-- The row at which a group, or a fragment, was split under MAX_ROWS: it touches nothing past it (R254). -/
def groupSplit (g : List Comp) : Option Int := if g.any Comp.split then lastRowOf (g.flatMap Comp.cells) else none
def fragSplit (f : FragIn) : Option Int := if f.split then lastRowOf f.cells else none

/-- Cells up to a row, where one is given. -/
def cellsTo (lim : Option Int) (cells : List KCell) : List KCell := cells.filter fun c => lim.all fun k => decide (c.row ≤ k)

/-- Does a received fragment touch a group? -/
def fragTouches (s : State) (f : FragIn) (g : List Comp) : Bool :=
  decide (f.reproc = isRep g) && (groupSides s g).contains f.side
    && listsTouch (cellsTo (groupSplit g) f.cells) (cellsTo (fragSplit f) (groupCells s g))

/-- Does a fragment touch another of its side, or a part that this device has passed on? -/
def fragsTouch (a b : FragIn) : Bool :=
  decide (a.reproc = b.reproc) && (decide (a.side = b.side) || decide (a.side = 2) || decide (b.side = 2))
    && listsTouch (cellsTo (fragSplit b) a.cells) (cellsTo (fragSplit a) b.cells)

/-- One step of collecting what touches: fragments that touch the groups or the fragments, and groups that touch the
fragments. -/
def edgeGrow (s : State) (c : EdgeComp) : EdgeComp :=
  let fs := s.web.knot.frags.filter fun f => c.frags.contains f || c.groups.any (fragTouches s f) || c.frags.any (fragsTouch f)
  ⟨(allGroups s).filter fun g => c.groups.contains g || fs.any fun f => fragTouches s f g, fs⟩

/-- The component across the device edges that a group belongs to (R257). -/
def edgeCompFrom (s : State) : Nat → EdgeComp → EdgeComp
  | 0, c => c
  | n + 1, c =>
    let d := edgeGrow s c
    if d.groups.length = c.groups.length ∧ d.frags.length = c.frags.length then c else edgeCompFrom s n d
/-- The steps that collecting may take. -/
def edgeFuel (s : State) : Nat := s.web.knot.comps.length + s.web.knot.frags.length + 1
/-- The same, from its group. -/
def edgeComp (s : State) (g : List Comp) : EdgeComp := edgeCompFrom s (edgeFuel s) ⟨[g], []⟩

/-- The received fragments of a component at a side. -/
def sideFrags (side : Nat) (c : EdgeComp) : List FragIn := c.frags.filter fun f => decide (f.side = side)

/-- Are cells among those of a fragment? -/
def coveredBy (cells : List KCell) (f : FragIn) : Bool := cells.all fun c => f.cells.any fun d => decide (d.row = c.row ∧ d.col = c.col)

/-- Is a group done with a side: at the lower one a part that touches it has come; the higher one has answered with the group
itself and all that touches it there, so that no part is missing (R256, DESIGN CHOICE 25)? -/
def sideDone (s : State) (c : EdgeComp) (g : List Comp) (d : Nat) : Bool :=
  (sideFrags d c).any fun f => if d = 0 then fragTouches s f g else coveredBy (groupCells s g) f

/-- Has each group of the component got what every side of `sides` that it reaches holds? -/
def edgeHas (s : State) (sides : List Nat) (c : EdgeComp) : Bool :=
  c.groups.all fun g => ((groupSides s g).filter sides.contains).all (sideDone s c g)

/-- Has every slice of a context taken all rows up to `k`, or will no such row come any more? -/
def rowsPast (s : State) (rep : Option Nat) (k : Int) : Bool :=
  let ended := match rep with
    | none => !couchRuns s
    | some c => !((List.range 9).any fun w => (wire s w).reproc.any fun r => decide (r.cid = c))
  !(s.web.knot.rows.any fun r => decide (r.reproc = rep ∧ r.k ≤ k))
    && (ended || (slicesOn s).any fun j => (sliceCtx s rep j).prev.any fun q => decide (k ≤ q.k))

/-- The contexts whose parts a fragment may touch. -/
def fragCtxs (s : State) (f : FragIn) : List (Option Nat) :=
  if f.reproc then (s.web.knot.comps.filterMap Comp.reproc).eraseDups.map some else [none]

/-- No part of this device that touches a fragment can still come: the rows it spans, and the next, have been taken. -/
def fragPast (s : State) (f : FragIn) : Bool :=
  (lastRowOf f.cells).all fun k => (fragCtxs s f).all fun x => rowsPast s x (if f.split then k else k + 1)

/-- Is every group of the component closed and ready, and can nothing more join it here? -/
def edgeReady (s : State) (c : EdgeComp) : Bool := c.groups.all (groupReady s) && c.frags.all (fragPast s)

/-- All parts at hand: the record is formed, here or at a lower neighbour. -/
def edgeWhole (s : State) (c : EdgeComp) : Bool := edgeReady s c && edgeHas s [0, 1] c

/-- The part for the lower neighbour may leave: it holds what the higher devices have sent. It leaves again with what the
lower neighbour has sent since. -/
def edgeLoDue (s : State) (c : EdgeComp) : Bool :=
  edgeReady s c && edgeHas s [1] c
    && (c.groups.any (fun g => (groupSides s g).contains 0 && unsent 0 g) || (sideFrags 0 c).any fun f => !f.echoed)

/-- Cells, each place once. -/
def onceEach (cells : List KCell) : List KCell :=
  cells.foldl (fun a c => if a.any fun d => decide (d.row = c.row ∧ d.col = c.col) then a else a ++ [c]) []

/-- All the cells of a component that this device holds, in global columns. -/
def edgeCells (s : State) (c : EdgeComp) : List KCell := onceEach (groupCells s c.groups.flatten ++ c.frags.flatMap FragIn.cells)

/-- PARTIAL, SPLIT and REPROCESSED of what is held. -/
def edgePartial (c : EdgeComp) : Bool := c.groups.flatten.any Comp.partial_ || c.frags.any FragIn.partial_
def edgeSplit (c : EdgeComp) : Bool := c.groups.flatten.any Comp.split || c.frags.any FragIn.split
def edgeRep (c : EdgeComp) : Bool := isRep c.groups.flatten || c.frags.any FragIn.reproc

/-- What the merger sends for a component: to the higher neighbour each ready group's own cells at once; to the lower one
all the cells of the component together. -/
def edgeSends (c : EdgeComp) (s : State) : State :=
  let hi := c.groups.filter fun g => groupReady s g && (groupSides s g).contains 1 && unsent 1 g
  let s1 := hi.foldl (fun s g => fragSend 1 (g.any Comp.partial_) (g.any Comp.split) (isRep g) (groupCells s g) s) s
  if edgeLoDue s c then fragSend 0 (edgePartial c) (edgeSplit c) (edgeRep c) (edgeCells s c) s1 else s1

/-- The marks of those sends. -/
def edgeMarks (c : EdgeComp) (s : State) : State :=
  let hi := (c.groups.filter fun g => groupReady s g && (groupSides s g).contains 1).flatten
  let due := edgeLoDue s c
  let lo := if due then c.groups.flatten else []
  let mark (m : Comp) : Comp := { m with sentHi := m.sentHi || hi.contains m, sentLo := m.sentLo || lo.contains m }
  let echo (f : FragIn) : FragIn := if due ∧ f.side = 0 ∧ c.frags.contains f then { f with echoed := true } else f
  knotUpd (fun k => { k with comps := k.comps.map mark, frags := k.frags.map echo }) s

/-! ### MAX_ROWS across a device edge (R254) -/

/-- The cells that are joined to some of a list, directly or through others, and the rest. -/
def cellsGrow : Nat → List KCell → List KCell → List KCell × List KCell
  | 0, g, rest => (g, rest)
  | n + 1, g, rest =>
    let g1 := rest.filter fun c => g.any (cellsTouch c)
    if g1.isEmpty then (g, rest) else cellsGrow n (g ++ g1) (rest.filter fun c => !g.any (cellsTouch c))

/-- The components of cells. -/
def cellComps : Nat → List KCell → List (List KCell)
  | 0, _ => []
  | _ + 1, [] => []
  | n + 1, c :: cs =>
    let (g, rest) := cellsGrow cs.length [c] cs
    g :: cellComps n rest

/-- A joined component cut where it comes to span MAX_ROWS rows, which `full` gives from its first row: its parts, and whether
each was split (R254). -/
def rowCuts (full : Int → Int) : Nat → List KCell → List (List KCell × Bool)
  | 0, _ => []
  | _ + 1, [] => []
  | n + 1, c :: cs =>
    let k := full (cs.foldl (fun a d => min a d.row) c.row)
    let later := (c :: cs).filter fun d => decide (k < d.row)
    if later.isEmpty then [(c :: cs, false)]
    else ((c :: cs).filter (fun d => decide (d.row ≤ k)), true) :: (cellComps later.length later).flatMap (rowCuts full n)

/-- Cells past row `k`: each piece of them that touches is a component of its own. -/
def laterParts (k : Int) (cells : List KCell) : List (List KCell) :=
  let later := cells.filter fun c => decide (k < c.row)
  cellComps later.length later

/-- A fragment cut after row `k`: what follows has not been split yet. -/
def cutFragAt (f : FragIn) (k : Int) : List FragIn :=
  let first := cellsTo (some k) f.cells
  let later := laterParts k f.cells
  let head : FragIn := if later.isEmpty && !(first.any fun c => decide (c.row = k)) then f else { f with cells := first, split := true }
  (if first.isEmpty then [] else [head]) ++ later.map fun cs => { f with cells := cs, split := false }

/-- A closed part cut after row `k`. -/
def cutCompAt (m : Comp) (k : Int) : List Comp :=
  let first := cellsTo (some k) m.cells
  let later := laterParts k m.cells
  let head : Comp := if later.isEmpty && !(first.any fun c => decide (c.row = k)) then m
    else { m with cells := first, split := true, closed := m.closed.map fun x => (k, x.2) }
  (if first.isEmpty then [] else [head]) ++ later.map fun cs => { m with cells := cs, split := false }

/-- A fragment that touches a split group is split with it. -/
def cutFrag (s : State) (f : FragIn) : List FragIn :=
  match leastRow (((allGroups s).filter fun g => fragTouches s f g).filterMap groupSplit) with
  | some k => cutFragAt f k
  | none => [f]

/-- Does a group hold parts of one slice, joined again since a split between them has been made elsewhere instead? -/
def rejoined (g : List Comp) : Bool := decide ((g.map Comp.slice).eraseDups.length < g.length)

/-- The row after which a group has to be cut: where a fragment that touches it was split, or where a group joined again comes
to span MAX_ROWS. -/
def groupCut (s : State) (g : List Comp) : Option Int :=
  let fs := s.web.knot.frags.filter fun f => fragTouches s f g
  let first := leastRow ((g.flatMap Comp.cells ++ fs.flatMap FragIn.cells).map KCell.row)
  let own := if rejoined g then first.map (fullAt s (isRep g)) else none
  leastRow (own.toList ++ fs.filterMap fragSplit)

/-- A closed part is cut with its group. -/
def cutComp (s : State) (m : Comp) : List Comp :=
  match (allGroups s).find? fun g => g.contains m && groupReady s g with
  | none => [m]
  | some g =>
    match groupCut s g with
    | none => [m]
    | some k => cutCompAt m k

/-- Splits that one device made are made in what it touches across the edge; a cut may call for another further on. -/
def edgeCuts : Nat → State → State
  | 0, s => s
  | n + 1, s =>
    let s1 := knotUpd (fun k => { k with frags := k.frags.flatMap (cutFrag s) }) s
    let s2 := knotUpd (fun k => { k with comps := k.comps.flatMap (cutComp s1) }) s1
    if s2.web.knot.comps = s.web.knot.comps ∧ s2.web.knot.frags = s.web.knot.frags then s else edgeCuts n s2

/-- All of them: no cut is made past the last cell. -/
def edgeCut (s : State) : State :=
  if s.web.knot.frags.isEmpty && !((allGroups s).any rejoined) then s
  else edgeCuts ((s.web.knot.comps.flatMap Comp.cells).length + (s.web.knot.frags.flatMap FragIn.cells).length + 1) s

/-- What becomes of the fragments of a component that is done with: those received are used up, and a part that a lower device
forms the record of is kept for what may still touch it. -/
def edgeSpent (c : EdgeComp) (passed : Bool) (s : State) : State :=
  let own : FragIn := ⟨2, groupCells s c.groups.flatten, edgePartial c, edgeSplit c, s.clk.ns, edgeRep c, true⟩
  knotUpd (fun k => { k with frags := (k.frags.filter fun f => !c.frags.contains f || (passed && decide (f.side = 2)))
                                        ++ (if passed then [own] else []) }) s

/-- A fragment of the lower neighbour that touches no part here but such as have been passed on is answered with them as
soon as no further part can touch it. -/
def fragAnswer (f : FragIn) (s : State) : State :=
  let c := edgeCompFrom s (edgeFuel s) ⟨[], [f]⟩
  if f.side = 0 ∧ c.groups.isEmpty ∧ 1 < c.frags.length then edgeMarks c (edgeSends c s) else s

/-- Fragments that still wait for that answer. -/
def fragsAnswer (s : State) : State := (s.web.knot.frags.filter fun f => !f.echoed).foldl (fun s f => fragAnswer f s) s

/-- A component with all its parts, or what is held of it at the timeout: the device of the lowest global column forms the
record; at a timeout each device does (R257). -/
def formEdge (c : EdgeComp) (timeout : Bool) (s : State) : State :=
  let g := c.groups.flatten
  let ns := ((groupClosed g).map fun x => x.2.1).getD s.clk.ns
  let passed := !timeout && c.frags.any fun f => decide (f.side = 0)
  let s1 := edgeSpent c passed (consume g s)
  if passed then s1
  else
    let cells := edgeCells s c
    (rowCuts (fullAt s (edgeRep c)) cells.length cells).foldl (fun s x =>
      let s2 := if x.2 then knotUpd (fun k => { k with splits := satAdd 32 k.splits 1 }) s else s
      formComp x.1 (groupFlags g (!c.frags.isEmpty) (timeout || c.frags.any FragIn.partial_) (x.2 || c.frags.any FragIn.split))
        (!edgeRep c) ns true s2) s1

/-- The crystal time at which a group's own part closed. -/
def groupNs (g : List Comp) : Nat := g.foldl (fun a m => max a m.waitNs) 0

/-- The closing row of a group, for the order of the merger. -/
def closingRow (g : List Comp) : Int := ((groupClosed g).map fun x => x.1).getD 0

/-- Can the merger do something for a group: form its record, or send a part of it? -/
def groupDue (s : State) (g : List Comp) : Bool :=
  groupReady s g && ((groupSides s g).isEmpty || (decide (1 ∈ groupSides s g) && unsent 1 g)
    || edgeLoDue s (edgeComp s g) || edgeWhole s (edgeComp s g))

/-- The group that the merger takes next: the one with the lowest closing row. -/
def nextGroup (s : State) : Option (List Comp) :=
  ((allGroups s).filter (groupDue s)).foldl (fun a g => match a with
    | none => some g
    | some b => if closingRow g < closingRow b then some g else some b) none

/-- Does a live group that closed by TB_NOW `t` still wait for its record (R273)? -/
def mergerOwes (s : State) (t : Nat) : Bool :=
  (allGroups s).any fun g => g.all (fun m => m.reproc.isNone) && (match groupClosed g with
    | some c => decide (c.2.2 ≤ t)
    | none => false)

/-- A later group waits while an earlier closed one has not been classified under the values before a boundary (R273). -/
def mergerHeld (s : State) (g : List Comp) : Bool :=
  match groupClosed g with
  | none => true
  | some (_, _, tb) =>
    g.all (fun m => m.reproc.isNone)
      && s.cfg.accepted.any fun a => a.parts.contains (0x07, 8) && decide (a.tv < tb) && mergerOwes s a.tv

/-- The merger's part at its boundary: for the groups handed over before `lim`, once nothing closed before waits any more
(R273). -/
def mergerBoundary (lim : Option Nat) (s : State) : State :=
  mergerLay (fun g => !mergerOwes s g.tv && before lim g) s

end Sys2Proof.Machine
end

