-- ==== Sys2Proof/Machine/Wires.lean ====
section
/-! DEFINITION. The rows of the wires (chapter 8): service, exit, deadline, WIRE_SWAP and REPROCESS. -/

namespace Sys2Proof.Machine

/-- A wire takes its next line: in-line first, then the buffered stripe in service or the next one, then REPROCESS
(R171, R173, R179). -/
def wireServeBody (w : Nat) (s : State) : State :=
  if wireHeld s w then s
  else
    let s1 := (List.range 32).foldl (fun s p => flushWait w p (enforceDeadline w p s)) s
    match nextInline s1 w with
    | some (p, it) => rawStops p (takeItem w p it s1)
    | none =>
      let s2 := match nextServing s1 w with
        | some _ => s1
        | none => chooseStripe w (eligible s1 w).length.succ (updWire w (fun x => { x with serving := none }) s1)
      match nextServing s2 w with
      | some (p, it) => rawStops p (takeItem w p it s2)
      | none => reprocServe w s2

/-- WIRE_SERVE. -/
def execWireServe (w : Fin 9) (s : State) : Out := whenLive (wireServeBody w.val) s

/-- The first line of a port that has not left its wire. -/
def firstLive (x : Port) : Option Item := x.pipe.find? liveItem

/-- A corrected line leaves the wire, in the order of its port (R171, R177); a stripe's last line frees its chest slot
(R172). -/
def wireExitBody (w : Nat) (s : State) : State :=
  let s0 := (List.range 32).foldl (fun s p => flushWait w p s) s
  match (List.range 32).findSome? fun p =>
      (firstLive (port s0 p)).bind fun i => if i.st = .done ∧ i.wire = some w then some (p, i) else none with
  | none => s0
  | some (p, it) =>
    let s1 := stripeSweep p (putItem p { it with st := .out } s0)
    pipePump p ((port s1 p).pipe.length) s1

/-- WIRE_LINE_EXIT. -/
def execWireLineExit (w : Fin 9) (s : State) : Out := whenLive (wireExitBody w.val) s

/-- The DEADLINE of a stripe in service passes (R173). -/
def deadlineBody (w p : Nat) (s : State) : State :=
  let s1 := enforceDeadline w p s
  pipePump p ((port s1 p).pipe.length) s1

/-- DEADLINE. -/
def execDeadline (w : Fin 9) (p : Fin 32) (s : State) : Out := whenLive (deadlineBody w.val p.val) s

/-! ### WIRE_SWAP (R176, R177) -/

/-- DETAIL of SWAP_HANDOVER and SWAP_DONE. -/
def swapDetail (x : Swap) : Nat := x.out + at' 4 x.into

/-- Hand-over. -/
def swapHandover (x : Swap) (s : State) : State :=
  let p := wireInline s x.out
  let s1 := swapConfig x.out x.into s
  let s2 := if p < 32 then
      updPort p (fun y => { y with cur := y.cur.map fun t => if t.counted = 0 ∧ t.wire = some x.out then { t with wire := some x.into } else t }) s1
    else s1
  let s3 := { s2 with ing := { s2.ing with swap := some { x with handed := true, tb := s.clk.tb
                                                                 kept := wireOffsets.map fun o => (o, cf s 0x03 x.into o) } } }
  let s4 := updWire x.out (fun y => { y with draining := true }) s3
  raise (112 + x.into) 0x03 (swapDetail x) (raise (112 + x.out) 0x03 (swapDetail x) s4)

/-- Has the in-line port begun its next stripe, and no line of it yet? -/
def handoverDue (s : State) (x : Swap) : Bool :=
  let p := wireInline s x.out
  !x.handed && match (port s p).cur with
    | some t => decide (p < 32 ∧ x.sid ≤ t.sid ∧ t.counted = 0)
    | none => false

/-- SWAP_HANDOVER. -/
def execSwapHandover (s : State) : Out :=
  whenLive (fun s => match s.ing.swap with
    | some x => if handoverDue s x then swapHandover x s else s
    | none => s) s

/-- Does a wire still hold work of stripes that it took? A REPROCESS that runs on it is none (R177; DESIGN CHOICE 97). -/
def wireBusy (s : State) (w : Nat) : Bool :=
  (List.range 32).any fun p =>
    let x := port s p
    (x.pipe.any fun i => liveItem i && decide (i.wire = some w)) || (match x.cur with
      | some t => decide (t.wire = some w)
      | none => false)

/-- The drain ends (R177). A wire at STATE 3 keeps it, since R178 names what clears it (DESIGN CHOICE 98). Its further context
slot holds no port any more (DESIGN CHOICE 110). -/
def swapDoneBody (s : State) : State :=
  match s.ing.swap with
  | none => s
  | some x =>
    if !x.handed ∨ wireBusy s x.out then s
    else
      let s1 := updWire x.out (fun y => { y with draining := false, serving := none, ctxPort := none, ctx := [] }) { s with ing := { s.ing with swap := none } }
      let s2 := raise (112 + x.out) 0x04 (swapDetail x) s1
      match s2.cmds.flight.find? fun c => decide (c.cid = x.cid) with
      | some c => finishOk c x.tb 0 s2
      | none => s2

/-- SWAP_DONE. -/
def execSwapDone (s : State) : Out := whenLive swapDoneBody s

/-- Does an accepted group not yet wholly in force touch a wire? -/
def groupTouchesWire (s : State) (w : Nat) : Bool :=
  s.cfg.accepted.any fun g => g.vals.any fun v => decide (addrBlk v.1 = 0x03 ∧ addrInst v.1 = w)

/-- Is a wire under test (R178)? -/
def wireTested (s : State) (w : Nat) : Bool := decide ((wire s w).state = 2)

/-- WIRE_SWAP starts (R176). -/
def wireSwapStart (c : Cmd) (s : State) : State :=
  let out := pm8 c.packet 0x18
  let into := pm8 c.packet 0x19
  if s.ing.swap.isSome ∨ (wire s into).reproc.isSome ∨ wireTested s into ∨ groupTouchesWire s out ∨ groupTouchesWire s into then
    finishCheck c stBusy s
  else if wireRole s out = 1 ∨ wireRole s into = 0 ∨ (wire s into).state = 3 then finishCheck c stBadParam s
  else
    let p := wireInline s out
    let run := decide (p < 32) && (port s p).running
    let x : Swap := { out := out, into := into, cid := c.cid, sid := (port s p).nextSid }
    let s1 := (beginWork c 0 { s with ing := { s.ing with swap := some x } }).2
    if run then s1 else swapDoneBody (swapHandover x s1)

/-- WIRE_SWAP. -/
def execWireSwap (sq : Fin 1024) (tag : W32) (s : State) : Out := opcodeRow sq tag 0x00E0 wireSwapStart (fun _ s => s) s

/-! ### REPROCESS (R113, R179) -/

/-- The raw stripes of a port that the ring holds and whose MD span meets a range, in stripe order. MD end is outside the range,
MD start in it (R179; DESIGN CHOICE 99). -/
def rawSelected (s : State) (p : Nat) (a b : Int) : List RawStripe :=
  s.web.hist.raw.filter fun r => decide (r.port = p) && r.closed && decide (0 < r.lines) && decide (r.mdMin < b) && decide (a ≤ r.mdMax)

/-- The raw stripes that cover MD start are gone (R113): lost ones do, and none that is left. -/
def rawGone (s : State) (p : Nat) (a : Int) : Bool :=
  (s.web.hist.rawLost.any fun x => decide (x.1 = p ∧ x.2.1 ≤ a ∧ a ≤ x.2.2))
    && !(s.web.hist.raw.any fun r => decide (r.port = p) && decide (0 < r.lines) && decide (r.mdMin ≤ a ∧ a ≤ r.mdMax))

/-- Has a bank of a port's table set an item LOADING or INVALID? -/
def bankUnready (s : State) (p bank : Nat) : Bool := (List.range 9).any fun i => let t := (tab s p bank i).st; t = 1 || t = 3

/-- Is a REPROCESS context over: its command runs on no wire, and none of its rows waits for a slice? -/
def repOver (s : State) (cid : Nat) : Bool :=
  !((List.range 9).any fun w => (wire s w).reproc.any fun r => decide (r.cid = cid))
    && !(s.web.knot.rows.any fun r => decide (r.reproc = some cid))

/-- A new REPROCESS drops what contexts that are over left open: no later row closes their components (DESIGN CHOICE 89). -/
def repSweep (s : State) : State :=
  let gone (m : Comp) : Bool := m.closed.isNone && m.reproc.any (repOver s)
  let lost := ((allGroups s).filter fun g => g.any gone).flatten
  knotUpd (fun x => { x with comps := x.comps.filter fun m => !lost.contains m
                             repSlices := x.repSlices.filter fun y => !repOver s (y.1 / 8) }) s

/-- REPROCESS starts. -/
def reprocStart (c : Cmd) (s : State) : State :=
  let w := pkInst c.packet
  let p := pm8 c.packet 0x18
  let bank := pm8 c.packet 0x19
  let reel := pm8 c.packet 0x1A
  let a := pmS64 c.packet 0x20
  let b := pmS64 c.packet 0x28
  let sel := rawSelected s p a b
  let swapped : Bool := match s.ing.swap with
    | some x => decide (x.out = w ∨ x.into = w)
    | none => false
  let fed : Bool := (List.range 9).any fun v => match (wire s v).reproc with
    | some r => decide (reel < 64 ∧ r.reel = reel)
    | none => false
  if (wire s w).state = 2 ∨ (wire s w).state = 3 ∨ swapped ∨ (wire s w).reproc.isSome ∨ fed then finishCheck c stBusy s
  else if (reel < 64 ∧ rlSource s reel ≠ 5) ∨ bankUnready s p bank ∨ sel.any fun r => decide (r.pixels ≠ cf s 0x04 p 0) then
    finishCheck c stBadParam s
  else if rawGone s p a then finishCheck c stTileGone s
  else
    let s1 := (beginWork c (sel.map RawStripe.lines).sum s).2
    let r : Reproc := { cid := c.cid, port := p, bank := bank, reel := reel, todo := sel.map RawStripe.block, ctx := { sid := 0 } }
    let s2 := updWire w (fun x => { x with reproc := some r }) s1
    let s3 := couchUpd (fun x => { x with reps := tblSet x.reps w { cid := c.cid, port := p, reel := reel } }) s2
    let s4 := knotUpd (fun x => { x with
      repSlices := (List.range 8).foldl (fun t k => let l := tblGet {} x.slices k
                                                    tblSet t (c.cid * 8 + k) { back := l.back, tback := l.tback }) x.repSlices })
      (repSweep s3)
    if sel.isEmpty then reprocEnd w stOk s4 else s4

/-- REPROCESS. -/
def execReprocess (sq : Fin 1024) (tag : W32) (s : State) : Out := opcodeRow sq tag 0x0041 reprocStart (fun _ s => s) s

/-! ### Stopped instances (R45) -/

/-- Is a reel stopped: off, or its source does not run (R45)? -/
def reelStopped (s : State) (r : Nat) : Bool :=
  match rlSource s r with
  | 0 => true
  | 4 => !(port s (cf s 0x08 r 2)).running && !(port s (cf s 0x08 r 2)).pipe.any fun i => decide (i.st = .fifo)
  | 5 => !((List.range 9).any fun w => (wire s w).reproc.any fun x => decide (x.reel = r))
  | _ => !couchRuns s

/-- Every stopped streaming instance brings its waiting parts into force (R45). -/
def stoppedTake (s : State) : State :=
  let s1 := (List.range 32).foldl (fun s p => if (port s p).running then s else portBoundary p s) s
  let s2 := (List.range 4).foldl (fun s p => if (dry s p).running then s else dryBoundary p none s) (wiresTake s1)
  let s3 := couchDryerIdle (webStopped s2)
  (List.range 64).foldl (fun s r => if reelStopped s r || underTest s 0x08 r then reelBoundary r none s else s) s3

end Sys2Proof.Machine
end

