-- ==== Sys2Proof/Machine/Calibration.lean ====
section
/-! DEFINITION. The rows of the housekeeping converters and of calibration (chapters 15 and 18), and ECC errors (R9, R366). -/

namespace Sys2Proof.Machine

/-! ### Housekeeping converters -/

/-- HK_SWTRIG: R314. -/
def execHkSwtrig (u : Fin 4) (v : W32) (s : State) : Out :=
  whenHost (swTrigger u v.toNat) s

/-- Does the port of a shutter channel release it within `us_` µs: at the sync that ends the last averaged frame, or a hold
that SHUTTER has ended, as far as the device times the syncs itself (R218; DESIGN CHOICE 113)? -/
def shutEndIn (s : State) (n us_ : Nat) : Bool :=
  (List.range 4).any fun p => decide (shutChan s p = n) && decide (dpc s p 0x0E = 0)
    && (dry s p).closure.any (fun c => !c.hold && (decide (c.step = 3 ∧ c.left ≤ 1) || decide (c.step = 5)))
    && (dry s p).frame.any fun f =>
        decide (f.syncNs * dpc s p 0x10 + dpFrameSamples s p * 1000000 ≤ (s.clk.ns + us us_) * dpc s p 0x10)

/-- Is the drive end at most `us_` µs away, as the device sees it now? -/
def endIn (s : State) (n us_ : Nat) (d : MDrive) : Bool :=
  decide (d.minEndNs ≤ s.clk.ns + us us_)
    && (if d.shutter then shutEndIn s n us_ else d.closeMet || d.closeK.all (closeIn s n us_))

/-- Is the drive end 20 µs away, with a hold phase that has lasted 200 µs 20 µs before that end (R297)? -/
def endNears (s : State) (n : Nat) (d : MDrive) : Bool :=
  let left := ((chan s n).holdNs + us 220 - s.clk.ns + 999) / 1000
  endIn s n 20 d && (decide (left = 0) || !endIn s n (left - 1) d)

/-- SENSE_INSTANT: 20 µs before drive end, once, when the hold phase has then lasted 200 µs, and every 100 ms of it. The
channel triggers its unit; one in current-sense calibration skips the instant (R297, R314). -/
def senseBody (n : Nat) (s : State) : State :=
  let c := chan s n
  match c.drive with
  | none => s
  | some d =>
    if c.phase ≠ 2 then s
    else
      let each := decide (c.holdNs + ms 100 * (d.senses + 1) ≤ s.clk.ns)
      let last := !d.endSensed && decide (c.holdNs + us 200 ≤ s.clk.ns) && endNears s n d
      if !each && !last then s
      else
        let d1 := if last then { d with endSensed := true } else { d with senses := d.senses + 1 }
        let s1 := updChan n (fun c => { c with drive := some d1 }) s
        if c.calEndNs.isNone then hkTrigger (n / 4) (n % 4) s1 else s1

/-- SENSE_INSTANT: R297. -/
def execSenseInstant (n : Fin 16) (s : State) : Out := whenReady (senseBody n.val) s

/-- HK_CONVERSION_END: R313. -/
def execHkConversionEnd (u : Fin 4) (sig : HkSignal) (s : State) : Out := whenReady (conversionEnds u sig) s

/-- INJECTED_START: R315. -/
def execInjectedStart (u : Fin 4) (s : State) : Out :=
  whenReady (fun s => if (hk s u).st = 2 ∨ (hk s u).st = 3 ∨ hkMode s u = 0 ∨ hkc s u 2 = 0 then s else injStart u s) s

/-- SELFCAL_DONE: R317. -/
def execSelfcalDone (u : Fin 4) (ofs gain : BitVec 16) (s : State) : Out :=
  whenReady (selfcalEnds u ofs.toInt gain.toNat) s

/-- ADC_SELFCAL runs: it completes when the calibration that it starts or joins ends (R318). -/
def adcSelfcalStart (c : Cmd) (s : State) : State :=
  let u := pkInst c.packet
  let s1 := putCmd { c with started := true, startNs := s.clk.ns } s
  selfcalRequest u (updHk u (fun x => { x with cids := x.cids ++ [c.cid] }) s1)

/-- ADC_SELFCAL: R318. -/
def execAdcSelfcal (sq : Fin 1024) (tag : W32) (s : State) : Out := opcodeRow sq tag 0x0090 adcSelfcalStart (fun _ s => s) s

/-! ### Reference check (R358) -/

/-- Is a reference check due: at ready, every REF_PERIOD, and on command? -/
def refDue (s : State) : Bool :=
  calNamed s 5 0 || (match s.afe.cal.refNs with
    | none => true
    | some t => decide (cf s 0x0E 0 2 ≠ 0) && decide (t + sec (cf s 0x0E 0 2) ≤ s.clk.ns))

/-- RATIO from N2. -/
def refRatio (n2 : Nat) : Int := divRound ((200000 - (n2 : Int)) * 1000000) n2

/-- The check has run: `n2` is the count at the zero crossing less 1, none without a crossing. -/
def refChecked (n2 : Option Nat) (s : State) : State :=
  let ratio : Int := match n2 with
    | some n => refRatio (n + 1)
    | none => -2147483648
  let st := if n2.isNone ∨ 100000 < ratio.natAbs then 3 else if 1000 < ratio.natAbs then 2 else 1
  let was := s.afe.cal.refState
  let s1 := updCal (fun c => { c with refState := st, refRatio := ratio, refNs := some s.clk.ns }) s
  let s2 := if st = 2 then raise 327 0x04 (ofS 32 ratio) s1
    else if st = 3 then raise 327 0x05 (ofS 32 ratio) s1
    else if was = 2 ∨ was = 3 then raise 327 0x06 (ofS 32 ratio) s1 else s1
  calOutcome (elKey 5 0) true s2

/-- REF_CHECK: R358. -/
def execRefCheck (n2 : Option (Fin 440000)) (s : State) : Out :=
  whenReady (fun s => if calMay s && refDue s then refChecked (n2.map Fin.val) s else s) s

/-! ### Elements -/

/-- Class and number of a target. -/
def targetEl : CalTarget → Nat × Nat
  | .adc i => (1, i.val)
  | .unit u => (2, u.val)
  | .valve n => (3, n.val)

/-- CALIBRATION_START: R362, R364, R365. -/
def execCalibrationStart (t : CalTarget) (s : State) : Out :=
  whenReady (calStart (targetEl t).1 (targetEl t).2) s

/-- Has a channel waited two frame periods for a blank (R363)? -/
def forceDue (s : State) (p i : Nat) : Bool :=
  elWanted s 1 i && decide (elSince s 1 i * dpc s p 0x10 + 2 * dpFrameSamples s p * 1000000 ≤ s.clk.ns * dpc s p 0x10)

/-- Does a row of a running frame start now (R363)? With TIMING_MASTER 0 each a row period after the one before (R200); else
the FPA's LSYNC is the outside's. -/
def rowStarts (s : State) (p : Nat) : Bool :=
  match (dry s p).frame with
  | none => false
  | some f =>
    let k := dpc s p 0x10
    let period := max 1 (dpClocks s p * 2 ^ dpc s p 0x03 * 1000000)
    let t := (s.clk.ns - f.syncNs) * k
    decide (dpc s p 0x0E ≠ 0) || (decide (t % period < k) && decide (t / period < dpRows s p))

/-- FORCED: the waiting channels of a running port calibrate at a row start (R363). -/
def forcedBody (p : Nat) (s : State) : State :=
  let is := ((List.range 16).map fun c => 16 * p + c).filter (forceDue s p)
  if !calMay s ∨ !(dry s p).running ∨ (dry s p).st ≠ 3 ∨ is.isEmpty ∨ !rowStarts s p then s
  else
    let s1 := updDry p (fun d => { d with forced := d.forced ++ is.map fun i => (s.clk.tb, s.clk.tb + 240000 + unsettledNs s p, i % 16) }) s
    is.foldl (fun s i => raise 327 0x03 i (adcCalStart i true s)) s1

/-- FORCED: R363. -/
def execForced (p : Fin 4) (s : State) : Out := whenReady (forcedBody p.val) s

/-- The end of a calibration of any class. -/
def calibrationEndBody (c i : Nat) (ofs : Int) (gain : Nat) (parts : List Nat) (s : State) : State :=
  if c = 2 then (if (hk s i).st = 3 then selfcalEnds i ofs gain s else heldApply 2 i s) else calEnds c i ofs gain parts s

/-- CALIBRATION_END: R367 to R369. -/
def execCalibrationEnd (t : CalTarget) (ofs gain : BitVec 16) (parts : List (BitVec 16)) (s : State) : Out :=
  whenReady (calibrationEndBody (targetEl t).1 (targetEl t).2 ofs.toInt gain.toNat (parts.map BitVec.toNat)) s

/-! ### CALIBRATE (R361) -/

/-- The elements that a CALIBRATE names. -/
def calibrateNames (s : State) (cls mask : Nat) : List Nat :=
  let all (c : Nat) : List (Nat × Nat) := (List.range (elCount c)).map fun i => (c, i)
  if cls = 0 then
    ((all 1 ++ all 2 ++ all 3).filter fun x => let e := calEl s x.1 x.2; e.due || e.stale || e.degraded).map fun x => elKey x.1 x.2
  else if cls = 4 then s.afe.cal.sramPending.map rowKey
  else if cls = 5 then [elKey 5 0]
  else ((all cls).filter fun x => decide (mask = 0) || bitOf mask x.2).map fun x => elKey x.1 x.2

/-- A CALIBRATE of class 4 repairs the rows that it names once that may start (R357; DESIGN CHOICE 103). -/
def calibrateRows (tests : List Bool) (c : Cmd) (s : State) : State :=
  let named (row : Nat) : Bool := s.afe.cal.cmds.any fun k => decide (k.cid = c.cid) && k.left.contains (rowKey row)
  if sramMay s then sramRepairAll named tests s else s

/-- CALIBRATE runs. -/
def calibrateStart (tests : List Bool) (c : Cmd) (s : State) : State :=
  let cls := pm8 c.packet 0x18
  let names := calibrateNames s cls (pm64 c.packet 0x20)
  let r := beginWork c names.length s
  if names.isEmpty then finishOk r.1 0 0 (calDone r.2)
  else
    let s1 := updCal (fun k => { k with cmds := k.cmds ++ [{ cid := c.cid, ns := s.clk.ns, left := names }] }) r.2
    if cls = 4 then calibrateRows tests c s1 else s1

/-- CALIBRATE: R361. -/
def execCalibrate (sq : Fin 1024) (tag : W32) (tests : List Bool) (s : State) : Out :=
  opcodeRow sq tag 0x00A0 (calibrateStart tests) (fun c s => if pm8 c.packet 0x18 = 4 then calibrateRows tests c s else s) s

/-! ### ECC -/

/-- An item with a word in error. -/
def wordFails (off : Nat) (x : TabItem) : TabItem := { x with errs := if x.errs.contains off then x.errs else x.errs ++ [off] }
/-- The same for the tables of a line, by the item's number in Table 9.10 and the line's gain set. -/
def tablesFail (item set_ off : Nat) (t : Tables) : Tables :=
  if item = 0 then { t with xtalk := wordFails off t.xtalk }
  else if item = 1 then { t with dark := wordFails off t.dark }
  else if item = 2 + set_ then { t with gain := wordFails off t.gain }
  else if item = 6 then { t with dead := wordFails off t.dead }
  else if item = 7 then { t with matrix := wordFails off t.matrix }
  else if item = 8 then { t with shade := wordFails off t.shade }
  else t

/-- A store word stays in error until its item is loaded again (R198): for the lines to come, and for those begun that have
still to read it. -/
def storeWordFails (w : StoreWord) (s : State) : State :=
  let hit (i : Item) : Item := if i.bank = w.bank.val then { i with tabs := tablesFail w.item i.ffSet w.offset i.tabs } else i
  let waits (r : Reproc) : Reproc := if r.port = w.port.val ∧ r.bank = w.bank.val then
    { r with tabs := tablesFail w.item r.ff w.offset r.tabs } else r
  (List.range 9).foldl (fun s v => updWire v (fun y => { y with reproc := y.reproc.map waits }) s)
   <| updPort w.port (fun x => { x with pipe := x.pipe.map hit })
    (setTab w.port w.bank w.item (wordFails w.offset (tab s w.port w.bank w.item)) s)

/-- An SRAM row logs an error: it is pending repair from an uncorrectable one, or from the 16th correctable one since
ready; with class 4 in AUTO every pending row is repaired (R366). -/
def sramEccBody (row : Nat) (uncorr : Bool) (word : Option StoreWord) (tests : List Bool) (s : State) : State :=
  let n := if uncorr then tblGet 0 s.afe.cal.sramErrs row else tblGet 0 s.afe.cal.sramErrs row + 1
  let pend := uncorr || decide (16 ≤ n)
  let s1 := updCal (fun c => { c with
    sramErrs := tblSet c.sramErrs row n
    sramPending := if pend ∧ !c.sramPending.contains row then c.sramPending ++ [row] else c.sramPending }) s
  let s2 := match uncorr, word with
    | true, some w => storeWordFails w s1
    | _, _ => s1
  if pend then sramAuto tests s2 else s2

/-- SRAM_ECC_ERROR: R366. -/
def execSramEccError (row : W32) (uncorr : Bool) (word : Option StoreWord) (tests : List Bool) (s : State) : Out :=
  whenReady (sramEccBody row.toNat uncorr word tests) s

/-- A buffered line whose samples cover an address, as its port and the line. -/
def chestLine (s : State) (a : Nat) : Option (Nat × Item) :=
  (List.range 32).findSome? fun p => ((port s p).pipe.find? fun it => match it.st with
    | .chest b => decide (b ≤ a) && decide (a < b + 2 * it.pixels * fmtSpp it.format)
    | _ => false).map fun it => (p, it)

/-- The stripe is truncated at the line, as by an overflow of the port's FIFO (R9, R163). -/
def chestFails (a : Nat) (s : State) : State :=
  match chestLine s a with
  | none => s
  | some (p, it) =>
    truncate p it.sid (dropItems p it.sid (fun x => liveItem x && decide (it.num ≤ x.num)) s)

/-- Does a raw stripe hold the address? -/
def rawHolds (s : State) (q : RawStripe) (a : Nat) : Bool :=
  let base := hsBase s + hsView s + hsTile s
  let n := max 1 (rawBlocks s)
  decide (base ≤ a) && decide (a < base + rawBlocks s * 4096)
    && decide (((a - base) / 4096 + n - q.block % n) % n < q.blocks)

/-- The line of a raw stripe that holds an address; none for its header. -/
def rawLineAt (s : State) (q : RawStripe) (a : Nat) : Option Nat :=
  let n := max 1 (rawBlocks s)
  let at_ := a - (hsBase s + hsView s + hsTile s)
  let off := (at_ / 4096 + n - q.block % n) % n * 4096 + at_ % 4096
  if off < 64 then none else some ((off - 64) / rawLineBytes (q.pixels * fmtSpp q.format))

/-- The stripe that a REPROCESS reads is treated as by an overflow of its port's FIFO at the line (R9, R162, R163): the line
and those after it do not pass, the loss is counted and raised, and a blind interval runs from the first of them to the next
stripe that passes, or to the end of the stripe's span where none does. -/
def rawFails (a : Nat) (s : State) : State :=
  (List.range 9).foldl (fun s w =>
    match (wire s w).reproc with
    | some r => match r.todo with
      | b :: rest => match r.reading, rawOf s b with
        | true, some q =>
          let from_ := max r.line ((rawLineAt s q a).getD 0)
          let lost := r.left.drop (from_ - r.line)
          match rawHolds s q a, lost.head? with
          | true, some x =>
            let stop := ((rest.findSome? (rawOf s)).map RawStripe.mdFirst).getD (q.mdMax + 1)
            let s1 := updWire w (fun y => { y with reproc := some { r with left := r.left.take (from_ - r.line) } }) s
            let s2 := raise (80 + r.port) 0x01 q.number (updPort r.port (fun y => { y with ovf := satAdd 32 y.ovf 1 }) s1)
            blindWhole 1 r.port 1 x.md stop { s2 with ing := { s2.ing with truncAll := satAdd 32 s2.ing.truncAll 1 } }
          | _, _ => s
        | _, _ => s
      | [] => s
    | none => s) s

/-- HBM_ECC_UNCORR (R9, R440). The stack is that of the 4 KiB interleave. -/
def execHbmEccUncorr (addr : BitVec 37) (s : State) : Out :=
  let a := addr.toNat
  whenReady (fun s => raise (320 + a / 4096 % 4) 0x01 (a / 32) (rawFails a (chestFails a s))) s

end Sys2Proof.Machine
end

