-- ==== Sys2Proof/Machine/Nvm.lean ====
section
/-! DEFINITION. The rows of non-volatile storage (chapter 19). -/

namespace Sys2Proof.Machine

/-- PAGE_WRITE_END: 2 ms after its start. The bytes are written, the reads that waited are served, and the next page
starts. -/
def pageEndBody (sound : Bool) (s : State) : State :=
  match s.nvm.page with
  | none => s
  | some p =>
    if s.clk.ns < p.startNs + ms 2 then s
    else
      let s1 := countLife 24 (nvmStore p.addr p.bytes { s with nvm := { s.nvm with page := none } })
      nvmPump (readsServe (ownerWritten (jobEnds p.job p.addr sound s1)))

/-- PAGE_WRITE_END: R373, R374, R382. -/
def execPageWriteEnd (sound : Bool) (s : State) : Out := whenReady (pageEndBody sound) s

/-- COUNTER_BATCH: R384. -/
def execCounterBatch (s : State) : Out := whenReady batchBegin s

/-- CAL_STORE: R381. -/
def execCalStore (s : State) : Out := whenReady storeBegin s

/-- EVENT_LOG_WRITE_INTERVAL: R435. -/
def execEventLogWriteInterval (s : State) : Out := whenReady nvmPump s

/-- NVM_READ starts: served at once, or after the page write in progress (R374). -/
def startNvmRead (io : HostIo) (c : Cmd) (s : State) : State :=
  let r := beginWork c 0 s
  if r.2.nvm.page.isNone then readServe io r.1 r.2 else putCmd { r.1 with aux := ioAux io } r.2

/-- NVM_READ: R378, R379. -/
def execNvmRead (sq : Fin 1024) (tag : W32) (io : HostIo) (s : State) : Out :=
  opcodeRow sq tag 0x00B0 (startNvmRead io) (fun c s => if s.nvm.page.isNone then readServe io c s else s) s

/-- NVM_WRITE starts: all its host data is read, and its pages follow in their turn (R112, R377). -/
def startNvmWrite (d : HostRead) (c : Cmd) (s : State) : State :=
  if s.nvm.window = false then finishErr c stTempInhibit 0 s
  else
    let n := pkLen c.packet
    let total := if pkOpt8 c.packet then pageCount 0 (16 + n) else pageCount (pkTarget c.packet) n
    let r := beginWork c total s
    hostIn r.1 d 0 (fun bs s =>
      if total = 0 then finishOk r.1 0 0 s
      else
        let c1 := { r.1 with buf := padTo n bs, aux := if pkOpt8 c.packet then 0 else pkTarget c.packet + 1 }
        nvmPump (updNvm (fun x => { x with writers := x.writers ++ [c.cid] }) (putCmd c1 s))) r.2

/-- NVM_WRITE: R112, R377, R379. -/
def execNvmWrite (sq : Fin 1024) (tag : W32) (d : HostRead) (s : State) : Out :=
  opcodeRow sq tag 0x00B1 (needHost (startNvmWrite d)) (fun _ s => s) s

end Sys2Proof.Machine
end

