-- ==== Sys2Proof/Machine/Tables.lean ====
section
/-! DEFINITION. Table images: TABLE_LOAD, RULES_LOAD, the item states of R194 and the content faults (R109, R192 to R194,
R213, R231, R260, R262). -/

namespace Sys2Proof.Machine

/-- A table item: KIND (0x40 for a rule image), owner instance, SET and BANK. -/
structure ItemId where
  kind : Nat
  owner : Nat
  set_ : Nat
  bank : Nat
deriving DecidableEq, Repr

/-- The item number of Table 9.10 within a bank of a table set. -/
def corrItem (k : ItemId) : Nat :=
  if k.kind ≤ 2 then k.kind - 1 else if k.kind = 3 then 2 + k.set_ else k.kind + 2

/-- The state of an item. -/
def itemState (s : State) (k : ItemId) : Nat :=
  if k.kind < 0x10 then (tab s k.owner k.bank (corrItem k)).st
  else if k.kind < 0x20 then dTab s k.owner k.bank (k.kind - 0x10)
  else if k.kind = 0x20 then tblGet 0 s.web.couch.resSt (k.set_ * 2 + k.bank)
  else if k.kind = 0x30 then (tblGet {} s.web.knot.bands k.bank).st
  else (tblGet {} s.web.knot.rules k.bank).st

/-- LENGTH of an image under the configuration in force (Table 9.3, Table 10.4, R231, R262); a rule image of `n` rules. -/
def itemLength (s : State) (k : ItemId) (n : Nat) : Nat :=
  let c := cf s 0x04 k.owner 0
  let p := tblP s k.owner
  match k.kind with
  | 0x01 => 528
  | 0x02 => 4 * c
  | 0x03 => 4 * c
  | 0x04 => 4096
  | 0x05 => 32
  | 0x06 => 8 * (c / 16 + 1)
  | 0x10 => 2 * p
  | 0x11 => 2 * p + 8
  | 0x12 => 2 * p
  | 0x13 => (p + 7) / 8
  | 0x14 => 8196
  | 0x20 => 2 * hbPixels s k.set_
  | 0x30 => 65536
  | _ => 64 * n

/-- Words of the table store that an item holds (Table 9.3). -/
def itemWords (s : State) (k : ItemId) : Nat := if k.kind < 0x10 then itemLength s k 0 / 4 else 0

/-! ### Content faults -/

/-- Is every byte of a run 0? -/
def zeroAt (im : List Byte) (o n : Nat) : Bool := (slice im o n).all fun b => decide (b = 0)

/-- Kind 0x01 (Table 9.5). -/
def xtalkOk (n : Nat) (im : List Byte) : Bool :=
  let g := u8At im 0
  let start (i : Nat) : Nat := u16At im (0x10 + 32 * i)
  decide (1 ≤ g ∧ g ≤ 16 ∧ u8At im 1 ≤ 3 ∧ start 0 = 0) && zeroAt im 2 2 && zeroAt im 8 8
    && (List.range g).all fun i => zeroAt im (0x2A + 32 * i) 6 && decide (start i < n)
      && (decide (i = 0) || decide (start (i - 1) < start i))

/-- Every word of an image keeps bits [31:30] at 0 (R186, R187). -/
def wordsOk : Nat → List Byte → Bool
  | 0, _ => true
  | n + 1, im => decide (u8At im 3 < 64) && wordsOk n (im.drop 4)

/-- The entries of a defective-pixel map with their reserved bits, up to the terminator (Table 9.7). -/
def deadWords : Nat → List Byte → List Nat
  | 0, _ => []
  | n + 1, im =>
    let w := u32At im 0
    if w = 0xFFFFFFFF then [] else w :: deadWords n (im.drop 4)

/-- Strictly ascending numbers. -/
def ascending : List Nat → Bool
  | a :: b :: r => decide (a < b) && ascending (b :: r)
  | _ => true

/-- Kind 0x04. -/
def deadOk (n : Nat) (im : List Byte) : Bool :=
  let ws := deadWords 1024 im
  (ws.all fun w => decide (bits w 0 16 < n ∧ bits w 16 2 ≤ 2 ∧ w < 2 ^ 20))
    && ascending (ws.map fun w => bits w 0 16 * 4 + bits w 16 2)

/-- Kind 0x06 (Table 9.9). -/
def shadeOk : Nat → List Byte → Bool
  | 0, _ => true
  | n + 1, im => zeroAt im 6 2 && shadeOk n (im.drop 8)

/-- Numbers that never fall: a LUT of u16 entries (Table 10.4). -/
def lutOk : Nat → List Byte → Bool
  | 0, _ => true
  | n + 1, im => decide (u16At im 0 ≤ u16At im 2) && lutOk n (im.drop 2)

/-- s32 entries that never decrease (R262). -/
def edgesOk : Nat → List Byte → Bool
  | 0, _ => true
  | n + 1, im => decide (toS 32 (u32At im 0) ≤ toS 32 (u32At im 4)) && edgesOk n (im.drop 4)

/-- One rule (Table 12.4, R260). -/
def ruleOk (r : List Byte) : Bool :=
  decide (u8At r 0 ≤ 1 ∧ u8At r 1 ≤ 14 ∧ (u8At r 0 = 1 → u8At r 1 = 0)) && zeroAt r 4 4 && zeroAt r 0x38 8
    && (List.range 4).all fun c => decide (u8At r (8 + 12 * c) ≤ 13) && zeroAt r (9 + 12 * c) 3
      && decide (toS 32 (u32At r (0x0C + 12 * c)) ≤ toS 32 (u32At r (0x10 + 12 * c)))

/-- Every rule of an image. -/
def rulesOk : Nat → List Byte → Bool
  | 0, _ => true
  | n + 1, im => ruleOk (im.take 64) && rulesOk n (im.drop 64)

/-- Has an image no content fault (R194, R213, R231, R260, R262)? -/
def contentOk (s : State) (k : ItemId) (im : List Byte) : Bool :=
  let n := cf s 0x04 k.owner 0
  let p := tblP s k.owner
  match k.kind with
  | 0x01 => xtalkOk n im
  | 0x02 => wordsOk n im
  | 0x03 => wordsOk n im
  | 0x04 => deadOk n im
  | 0x05 => zeroAt im 6 2 && zeroAt im 0x1A 6
  | 0x06 => shadeOk (n / 16 + 1) im
  | 0x11 => zeroAt im 4 4
  | 0x13 => decide (p % 8 = 0) || decide (u8At im (p / 8) < 2 ^ (p % 8))
  | 0x14 => lutOk 4096 im && zeroAt im 8194 2
  | 0x30 => edgesOk 16383 im
  | 0x40 => rulesOk (im.length / 64) im
  | _ => true

/-! ### Item states (R194) -/

/-- An item takes a state and an image. A LOADING item of the table store holds its words. -/
def setItem (k : ItemId) (st : Nat) (im : List Byte) (s : State) : State :=
  if k.kind < 0x10 then setTab k.owner k.bank (corrItem k) { st := st, words := itemWords s k, image := im } s
  else if k.kind < 0x20 then
    -- offsets that a load replaces are no closure's (R219)
    let s0 := if k.kind = 0x11 then updDry k.owner (fun d => { d with closed := d.closed.filter (· ≠ k.bank) }) s else s
    let s1 := setDTab k.owner k.bank (k.kind - 0x10) st s0
    if st = 2 ∧ k.kind = 0x11 then updDry k.owner (fun d => { d with tabRef := tblSet d.tabRef k.bank (toS 32 (u32At im 0)) }) s1 else s1
  else if k.kind = 0x20 then
    couchUpd (fun c => { c with resSt := tblSet c.resSt (k.set_ * 2 + k.bank) st
                                resImg := if st = 2 then tblSet c.resImg (k.set_ * 2 + k.bank) im else c.resImg }) s
  else if k.kind = 0x30 then knotUpd (fun x => { x with bands := tblSet x.bands k.bank { st := st, image := im } }) s
  else knotUpd (fun x => { x with rules := tblSet x.rules k.bank { st := st, image := im } }) s

/-- Bytes of an image at an offset reach their place: those of a dryer table lie in HBM (R213). -/
def putImage (k : ItemId) (off : Nat) (bs : List Byte) (s : State) : State :=
  if 0x10 ≤ k.kind ∧ k.kind < 0x20 then
    let a := tblAddr s k.owner k.bank (k.kind - 0x10)
    if k.kind = 0x11 then hbmWrite (a + (off - 8)) (bs.drop (8 - off)) s else hbmWrite (a + off) bs s
  else s

/-! ### Banks in use (R109) -/

/-- The configuration address that selects the bank of an item's owner. -/
def bankField (k : ItemId) : Nat :=
  if k.kind < 0x10 then cfgAddr 0x02 k.owner 0x12
  else if k.kind < 0x20 then cfgAddr 0x05 k.owner 0x35
  else if k.kind = 0x20 then cfgAddr 0x06 0 (0x101 + 0x40 * k.set_)
  else if k.kind = 0x30 then cfgAddr 0x07 8 1 else cfgAddr 0x07 8 0

/-- Does the owner run? -/
def ownerRuns (s : State) (k : ItemId) : Bool :=
  if k.kind < 0x10 then (port s k.owner).running else if k.kind < 0x20 then (dry s k.owner).running
  else couchPortRuns s

/-- Does a REPROCESS use the bank: the one it names of its port's tables, and those in force of the port's couch residuals,
of the depth bands and of the rules, which its lines pass (R109, R180)? -/
def reprocUses (s : State) (k : ItemId) : Bool :=
  (List.range 9).any fun w => match (wire s w).reproc with
    | some r =>
      if k.kind < 0x10 then decide (r.port = k.owner ∧ r.bank = k.bank)
      else if k.kind < 0x20 then false
      else decide (cfAt s (bankField k) = k.bank) && (decide (k.kind ≠ 0x20) || decide (r.port = k.set_))
    | none => false

/-- Is the bank in use? -/
def bankInUse (s : State) (k : ItemId) : Bool :=
  (s.cfg.accepted.any fun g => decide (tblFind g.vals (bankField k) = some k.bank)) || reprocUses s k
    || (decide (cfAt s (bankField k) = k.bank) && ownerRuns s k)

/-! ### TABLE_LOAD and RULES_LOAD -/

/-- The item that a load names. -/
def loadItem (c : Cmd) : ItemId :=
  if pkOp c.packet = 0x0060 then ⟨0x40, 8, 0, pm8 c.packet 0x18⟩
  else ⟨pm8 c.packet 0x18, pkInst c.packet, pm8 c.packet 0x1A, pm8 c.packet 0x19⟩

/-- The store words in error of an item of the table store (R198). -/
def itemErrs (s : State) (k : ItemId) : List Nat := if k.kind < 0x10 then (tab s k.owner k.bank (corrItem k)).errs else []
/-- Set them. -/
def setErrs (k : ItemId) (es : List Nat) (s : State) : State :=
  if k.kind < 0x10 then setTab k.owner k.bank (corrItem k) { tab s k.owner k.bank (corrItem k) with errs := es } s else s

/-- Bytes that a load writes: a word written again is in error no longer (R198). -/
def putLoaded (k : ItemId) (off : Nat) (bs : List Byte) (s : State) : State :=
  setErrs k ((itemErrs s k).filter fun o => !decide (off ≤ o ∧ o < off + bs.length)) (putImage k off bs s)
/-- A load that passed makes its item VALID (R194); its words in error stay so. -/
def itemValid (k : ItemId) (im : List Byte) (s : State) : State := setErrs k (itemErrs s k) (setItem k 2 im s)

/-- A load ends: VALID, or INVALID with BAD_PARAM and the CRC-32 computed (R109, R194). An item whose bank was released
during the load stays EMPTY. -/
def loadEnds (c : Cmd) (s : State) : State :=
  let k := loadItem c
  let crc := crc32 c.buf
  let pos := c.buf.length
  if itemState s k = 0 then finishErr c stBadParam crc s
  else if crc = pm32 c.packet 0x1C ∧ c.buf.length = itemLength s k (pm16 c.packet 0x1A) ∧ contentOk s k c.buf then
    finishOk c crc pos (itemValid k c.buf s)
  else finishErr c stBadParam crc (setItem k 3 [] s)

/-- More bytes of the image are read (R102). -/
def loadRead (d : HostRead) (c : Cmd) (s0 : State) : State :=
  let s := hrdAsk c d s0
  match d with
  | .fail => finishHostFail c c.position (if itemState s (loadItem c) = 0 then s else setItem (loadItem c) 3 [] s)
  | .data bs =>
    let n := c.buf.length
    let new := bs.take (pkLen c.packet - n)
    let k := loadItem c
    let r := progressTo { c with buf := c.buf ++ new } (n + new.length) (putLoaded k n new s)
    if n + new.length < pkLen c.packet then r.2 else loadEnds r.1 r.2

/-- Has a dryer port a table region (Table 10.1)? -/
def regionOk (s : State) (k : ItemId) : Bool := !decide (0x10 ≤ k.kind ∧ k.kind < 0x20) || decide (dpc s k.owner 0x78 ≠ 0)

/-- A load starts: the item becomes LOADING at acceptance (R194), and takes its words of the store (R192). An item
that loads already is in use (Table 5.14). -/
def startLoad (d : HostRead) (c : Cmd) (s : State) : State :=
  let k := loadItem c
  let held := if k.kind < 0x10 then (tab s k.owner k.bank (corrItem k)).words else 0
  if bankInUse s k ∨ itemState s k = 1 ∨ (held = 0 ∧ storeFree s < itemWords s k) then finishCheck c stBusy s
  else if pkLen c.packet ≠ itemLength s k (pm16 c.packet 0x1A) ∨ !regionOk s k then finishCheck c stBadParam s
  else
    let r := beginWork c (pkLen c.packet) s
    loadRead d r.1 (setItem k 1 [] r.2)

/-- TABLE_LOAD: R109, R192 to R194. -/
def execTableLoad (sq : Fin 1024) (tag : W32) (d : HostRead) (s : State) : Out :=
  opcodeRow sq tag 0x0040 (needHost (startLoad d)) (needHost (loadRead d)) s

/-- RULES_LOAD: R109, R260. -/
def execRulesLoad (sq : Fin 1024) (tag : W32) (d : HostRead) (s : State) : Out :=
  opcodeRow sq tag 0x0060 (needHost (startLoad d)) (needHost (loadRead d)) s

end Sys2Proof.Machine
end

