-- ==== Sys2Proof/Machine/Checks.lean ====
section
/-! DEFINITION. The checks of CFG_COMMIT (R41): every rule that yields INCONSISTENT_GROUP. Each check gives the
configuration address of the field that it reports, and its rule number. `s` is the state, `o` the state with the values
of accepted groups laid over those in force, `n` the same with the group laid over them, `g` the group. -/

namespace Sys2Proof.Machine

/-- The part that a configuration address belongs to: an instance, but for the dryer port fields of the couch, the fields of
a wire that are not tied to a port, and those tied to one port alone (Table 2.6). -/
def partOf (a : Nat) : Nat × Nat :=
  if couchDryerSel a then dryerPart (couchDryerOf a) else if untiedField a then (untiedBlk, addrInst a)
  else if planField a then planPart a else (addrBlk a, addrInst a)

/-- The parts that a value of an accepted group may still wait in: its own, the deferred fields of a setting write (R159, R227),
and those that wait for the end of a forced calibration (R370). -/
def partsOf (a : Nat) : List (Nat × Nat) :=
  partOf a :: (match addrBlk a with
    | 0x02 => if ([0x12, 0x13] : List Nat).contains (addrOff a) then [(deferBlk, addrInst a)] else []
    | 0x04 => [(deferBlk, addrInst a)]
    | 0x05 => if ([0x35, 0x36] : List Nat).contains (addrOff a) then [(dryDefer, addrInst a)]
        else if dryCalField a then [(dryCalPart, addrInst a)] else []
    | _ => [])

/-- The values of an accepted group that are not yet in force. A deferred field that a failed write has cancelled is not among
them (R160). -/
def waitingVals (g : Accepted) : Tbl Nat := g.vals.filter fun v => (partsOf v.1).any g.parts.contains

/-- Lay values over those in force. -/
def layOver (g : Tbl Nat) (s : State) : State := { s with cfg := { s.cfg with vals := g.foldl (fun t v => tblSet t v.1 v.2) s.cfg.vals } }

/-- The values in force with those that every accepted group has still to bring (R41). -/
def withAccepted (s : State) : State := s.cfg.accepted.foldl (fun s g =>
  let s1 := layOver (waitingVals g) s
  match g.maps with
  | some m => if g.parts.contains (0x06, 0) then couchUpd (fun c => { c with resMap := m }) s1 else s1
  | none => s1) s

/-- The column maps that a validation builds, where the group touches the grid part of the couch (R231). -/
def buildMaps (g : Tbl Nat) (n : State) : State :=
  if g.any fun v => decide (partOf v.1 = (0x06, 0)) then couchUpd (fun c => { c with resMap := mapResiduals n }) n else n

/-- A failed check: address and rule number. -/
abbrev Fail := Nat × Nat

/-- What a group is checked against. -/
structure Commit where
  s : State
  o : State
  n : State
  g : Tbl Nat
  /-- What a power-on profile loads: its items count as VALID, whatever the group empties (R380). -/
  loads : List ItemId := []

/-- One check. -/
def chk (bad : Bool) (addr rule : Nat) : List Fail := if bad then [(addr, rule)] else []

/-- Does the group change a field? -/
def Commit.chg (x : Commit) (b i off : Nat) : Bool := decide (cf x.o b i off ≠ cf x.n b i off)

/-- Changes of listed fields, each reported by itself. -/
def Commit.chgs (x : Commit) (b i rule : Nat) (offs : List Nat) : List Fail :=
  offs.flatMap fun o => chk (x.chg b i o) (cfgAddr b i o) rule

/-- Ports, wires, slices and so on. -/
def upto (n : Nat) (f : Nat → List Fail) : List Fail := (List.range n).flatMap f

/-! ### Regions of HBM -/

/-- A region: base and size. A region of base 0 or size 0 is none. -/
abbrev Region := Nat × Nat

/-- Do two regions overlap? -/
def meets (a b : Region) : Bool :=
  decide (a.1 ≠ 0 ∧ b.1 ≠ 0 ∧ a.2 ≠ 0 ∧ b.2 ≠ 0) && decide (a.1 < b.1 + b.2 ∧ b.1 < a.1 + a.2)

/-- The range of R78 as a region that anything below 256 MiB meets. -/
def inReserved (a : Region) : Bool := decide (a.1 ≠ 0 ∧ a.2 ≠ 0 ∧ a.1 < 0x10000000)

/-- The chest region of a wire. -/
def chestRegion (n : State) (w : Nat) : Region := (cf n 0x03 w 0x10, cf n 0x03 w 0x18)
/-- The history ring. -/
def histRegion (n : State) : Region := (hsBase n, hsView n + hsTile n + hsRaw n)
/-- The table region of a dryer port. -/
def tableRegion (n : State) (p : Nat) : Region := (dpc n p 0x78, dpc n p 0x80)
/-- The alignment region. -/
def alignRegion (n : State) : Region := (cf n 0x06 0 0x28, cf n 0x06 0 0x30)
/-- The thermal layer region (R244). -/
def thermRegion (n : State) : Region := (cf n 0x06 0 0x38, (cf n 0x06 0 0x40 * gTCols n * 8 + 4095) / 4096 * 4096)
/-- The tile source ring: grid rows, then thermal rows, rounded up to 4 KiB (R267). -/
def tileRegion (n : State) : Region :=
  (mgf n 0x10, (mgf n 0x18 * srcRowBytes n + srcTherm n * gTCols n * 2 + 4095) / 4096 * 4096)

/-- Every chest region. -/
def chests (n : State) : List Region := (List.range 9).map (chestRegion n)
/-- Every dryer table region. -/
def dryTables (n : State) : List Region := (List.range 4).map (tableRegion n)

/-! ### Shared encoders and R14 -/

/-- R14: what shares the grid names the couch's encoder. -/
def check14 (x : Commit) : List Fail :=
  if gCols x.n = 0 then []
  else
    let e := gEnc x.n
    (upto 32 fun p => chk (cpOn x.n p && decide (hbEnc x.n p ≠ e)) (cfgAddr 0x02 p 7) 14)
      ++ (upto 4 fun p => chk (dpOn x.n p && decide (dpc x.n p 0x32 ≠ e)) (cfgAddr 0x05 p 0x32) 14)
      ++ (upto 16 fun c => chk (decide (mkFunction x.n c = 1) && decide (mkEnc x.n c ≠ e)) (cfgAddr 0x09 c 2) 14)

/-- The fields that name encoder 0xFF. -/
def sharedFields (n : State) : List Nat :=
  (if cf n 0x06 0 0x14 = 0xFF then [cfgAddr 0x06 0 0x14] else [])
    ++ ((List.range 16).filter fun c => decide (mkf n c 2 = 0xFF)).map fun c => cfgAddr 0x09 c 2

/-- Does the group arm a preset of an encoder (R338)? -/
def armsPreset (x : Commit) (e : Nat) : Bool := x.chg 0x0C e 0x14 && decide (cf x.n 0x0C e 1 ≠ 0)

/-- What R338 and R420 refuse on an encoder: arming a preset, a change of SCALE or INVERT. -/
def encChanges (x : Commit) (e rule : Nat) : List Fail :=
  chk (armsPreset x e) (cfgAddr 0x0C e 0x14) rule ++ chk (x.chg 0x0C e 4) (cfgAddr 0x0C e 4) rule
    ++ chk (x.chg 0x0C e 0) (cfgAddr 0x0C e 0) rule

/-- R420, rule 417. -/
def check417 (x : Commit) : List Fail :=
  let src := shareSrc x.n
  let here := decide (src = x.s.chain.devId)
  let as_ := shareAs x.n
  (if src = 0xFF ∨ (!here ∧ as_ = 0xFF) then (sharedFields x.n).map fun a => (a, 417) else [])
    ++ chk (here && decide (as_ ≠ 0xFF ∧ as_ ≠ shareEnc x.n)) (cfgAddr 0x11 4 2) 417
    ++ (if src ≠ 0xFF ∧ !here ∧ as_ < 4 then encChanges x as_ 417 else [])

/-- Is anything that runs bound to an encoder (R338)? -/
def encBound (s : State) (e : Nat) : Bool :=
  ((List.range 32).any fun p => (port s p).running && decide (hbEnc s p = e))
    || ((List.range 4).any fun p => (dry s p).running && decide (dpc s p 0x32 = e))
    || (decide (gCols s ≠ 0 ∧ gEnc s = e) && couchRuns s)
    || ((List.range 16).any fun c => decide (mkFunction s c = 1 ∧ mkEnc s c = e) && decide (jobCount (chan s c) ≠ 0))

/-- R338, rule 335. -/
def check335 (x : Commit) : List Fail := upto 4 fun e => if encBound x.s e then encChanges x e 335 else []

/-! ### Ranges that name another field (R37) -/

/-- R37. -/
def check37 (x : Commit) : List Fail :=
  let n := x.n
  (upto 32 fun p => chk (decide (hbMode n p = 3 ∧ hbPitch n p < cf n 0x02 p 0x34)) (cfgAddr 0x02 p 0x14) 37)
    ++ (upto 4 fun p => chk (decide (dpCols n p % dpTaps n p ≠ 0)) (cfgAddr 0x05 p 4) 37)
    ++ (upto 32 fun p => chk (decide (cpf n p 8 < cpf n p 4)) (cfgAddr 0x06 0 (cpOff p 8)) 37
          ++ chk (decide (cpf n p 0x22 < cpf n p 0x20)) (cfgAddr 0x06 0 (cpOff p 0x22)) 37)
    ++ (upto 8 fun k => chk (decide (cf n 0x07 k 8 < cf n 0x07 k 4)) (cfgAddr 0x07 k 8) 37)

/-! ### Lanes and headboxes -/

/-- The lanes that a headbox binds. -/
def boundLanes (n : State) (p : Nat) : List Nat :=
  if hbProto n p = 0 then [] else (List.range (hbWidth n p)).map (hbBase n p + ·)

/-- R122, rule 120. -/
def check120 (x : Commit) : List Fail :=
  (upto 16 fun k => chk (decide (lnRate x.n (64 + k) ≠ 0 ∧ lnRate x.n (64 + k) ≠ 8)) (cfgAddr 0x01 (64 + k) 1) 120)
    ++ (upto 32 fun p => (boundLanes x.n p).flatMap fun l =>
      chk (if hbProto x.n p = 1 then decide (lnRate x.n l < 1 ∨ 7 < lnRate x.n l) else decide (lnRate x.n l ≠ 8)) (cfgAddr 0x01 l 1) 120)

/-- R141, rule 139. -/
def check139 (x : Commit) : List Fail :=
  upto 32 fun p =>
    let base := chk (decide (hbBase x.n p % hbWidth x.n p ≠ 0)) (cfgAddr 0x02 p 2) 139
    if hbProto x.n p = 0 then base
    else
      let others := (List.range 32).filter fun q => q ≠ p
      chk (decide (hbProto x.n p = 1 ∧ hbWidth x.n p = 8)) (cfgAddr 0x02 p 1) 139
        ++ base
        ++ chk (others.any fun q => (boundLanes x.n q).any fun l => (boundLanes x.n p).contains l) (cfgAddr 0x02 p 0) 139

/-- R142, rule 140. -/
def check140 (x : Commit) : List Fail :=
  upto 32 fun p => if (port x.s p).running then x.chgs 0x02 p 140 [0x00, 0x01, 0x02, 0x07, 0x03, 0x10, 0x37] else []

/-- Setting writes that the accepted groups of an instance have still to send: one for each that changes SET_SEQ from what
it is before that group (R159). -/
def writesToCome (s : State) (b i off : Nat) : Nat :=
  let a := cfgAddr b i off
  ((s.cfg.accepted.filter fun g => g.parts.contains (b, i)).foldl (fun (x : Nat × Nat) g => match tblFind g.vals a with
    | some v => (v, if v = x.1 then x.2 else x.2 + 1)
    | none => x) (cfAt s a, 0)).2

/-- R161, rule 158. -/
def check158 (x : Commit) : List Fail :=
  upto 32 fun p =>
    let pend := (writesPending (port x.s p)).length
    chk ((port x.s p).running && x.chg 0x02 p 0x30 && decide (4 ≤ pend + writesToCome x.s 0x02 p 0x30)) (cfgAddr 0x02 p 0) 158
      ++ chk (x.chg 0x02 p 0x24 && decide (0 < pend)) (cfgAddr 0x02 p 0x24) 158

/-- R227, rule 224. -/
def check224 (x : Commit) : List Fail :=
  upto 4 fun p =>
    let pend := (dryPending (dry x.s p)).length
    chk ((dry x.s p).running && x.chg 0x05 p 0x6C && decide (4 ≤ pend + writesToCome x.s 0x05 p 0x6C)) (cfgAddr 0x05 p 0) 224
      ++ chk (x.chg 0x05 p 0x60 && decide (0 < pend)) (cfgAddr 0x05 p 0x60) 224

/-! ### Wires and tables -/

/-- How often a wire names a port. -/
def wireNames (n : State) (w p : Nat) : Nat :=
  b2n (decide (cf n 0x03 w 1 = p)) + b2n (bitOf (cf n 0x03 w 4) p) + b2n (bitOf (cf n 0x03 w 8) p)

/-- How a port is served: wire and mode. -/
def servedBy (n : State) (p : Nat) : List (Nat × Nat) :=
  ((List.range 9).filter fun w => wireServes n w p).map fun w =>
    (w, if cf n 0x03 w 1 = p then 0 else if bitOf (cf n 0x03 w 4) p then 1 else 2)

/-- The wires of ROLE 1. -/
def spareWires (n : State) : List Nat := (List.range 9).filter fun w => decide (cf n 0x03 w 0 = 1)

/-- Does a wire run REPROCESS or a self-test? -/
def wireWorks (s : State) (w : Nat) : Bool := (wire s w).reproc.isSome || underTest s 0x03 w || wireTested s w

/-- R167, rule 164. -/
def check164 (x : Commit) : List Fail :=
  let role (w : Nat) : Nat := cfgAddr 0x03 w 0
  (upto 32 fun p =>
    let ws := (List.range 9).filter fun w => 0 < wireNames x.n w p
    chk (decide (1 < ((List.range 9).map fun w => wireNames x.n w p).sum)) (cfgAddr 0x03 (ws.headD 0) 1) 164)
    ++ (upto 9 fun w => chk (decide (cf x.n 0x03 w 8 ≠ 0 ∧ (cf x.n 0x03 w 1 ≠ 0xFF ∨ cf x.n 0x03 w 4 ≠ 0))) (cfgAddr 0x03 w 8) 164)
    ++ ((spareWires x.n).flatMap fun w => chk ((List.range 32).any fun p => wireServes x.n w p) (role w) 164)
    ++ chk (decide ((spareWires x.n).length ≠ 1)) (role ((spareWires x.n).headD 0)) 164
    ++ (upto 9 fun w => upto 32 fun p =>
          chk (decide (wireServes x.n w p = decide (cf x.n 0x03 w (0x40 + 4 * p) = 0))) (cfgAddr 0x03 w (0x40 + 4 * p)) 164)
    ++ (upto 32 fun p => if (port x.s p).running ∧ servedBy x.o p ≠ servedBy x.n p then
          (servedBy x.o p ++ servedBy x.n p).map (fun y => (role y.1, 164)) else [])
    ++ (upto 9 fun w => chk (x.chg 0x03 w 0
          && (wireWorks x.s w || (List.range 32).any fun p => wireServes x.o w p && (port x.s p).running)) (role w) 164)
    ++ (match x.s.ing.swap with
        | some sw => [sw.out, sw.into].flatMap fun w => chk (x.g.any fun v => ofInst 0x03 w v.1) (role w) 164
        | none => [])

/-- Buffered ports of a wire. -/
def bufferedPorts (n : State) (w : Nat) : List Nat := (List.range 32).filter fun p => wireBuffers n w p

/-- R168, rule 165. -/
def check165 (x : Commit) : List Fail :=
  upto 9 fun w =>
    let bs := bufferedPorts x.n w
    let need := (bs.map fun p => cf x.n 0x03 w 3 * slotBytes x.n p).sum
    let others := (List.range 9).filter fun v => v ≠ w
    chk (!bs.isEmpty && decide (cf x.n 0x03 w 0x10 = 0)) (cfgAddr 0x03 w 0x10) 165
      ++ chk (decide (cf x.n 0x03 w 0x18 < need)) (cfgAddr 0x03 w 0x18) 165
      ++ chk (others.any fun v => meets (chestRegion x.n w) (chestRegion x.n v)) (cfgAddr 0x03 w 0) 165
      ++ chk (meets (chestRegion x.n w) (histRegion x.n)) (cfgAddr 0x03 w 0) 165

/-- The planned load of a wire, pixels per second (R170). -/
def planOf (n : State) (w : Nat) : Nat :=
  (((List.range 32).filter fun p => wireServes n w p).map fun p =>
    let r := cf n 0x03 w (0x40 + 4 * p)
    r * hbSamples n p + (if wireBuffers n w p then (r * 1024 + hbHeight n p - 1) / hbHeight n p else 0)).sum

/-- R170, rule 167. -/
def check167 (x : Commit) : List Fail :=
  upto 9 fun w => chk (decide ((if cf x.n 0x03 w 2 = 1 then 17000000000 else 13500000000) < planOf x.n w)) (cfgAddr 0x03 w 2) 167

/-- The banks of a table set that values release. -/
def releases (g : Tbl Nat) (p : Nat) : List Nat :=
  let r := (tblFind g (cfgAddr 0x04 p 2)).getD 0
  (List.range 2).filter fun b => bitOf r b

/-- The banks of a table set that the group releases. -/
def released (x : Commit) (p : Nat) : List Nat := releases x.g p

/-- The banks that are EMPTY once the group is in force: those that it or an accepted group still to come releases, and both
where COLUMNS changes on the way (R41, R193). -/
def emptied (x : Commit) (p : Nat) : List Nat :=
  if cf x.s 0x04 p 0 ≠ cf x.o 0x04 p 0 ∨ x.chg 0x04 p 0 then [0, 1]
  else released x p ++ x.s.cfg.accepted.flatMap fun g => releases (waitingVals g) p

/-- Is a bank in force, selected by an accepted group, or used by a REPROCESS (R195)? -/
def bankHeld (x : Commit) (p b : Nat) : Bool :=
  decide (cf x.s 0x02 p 0x12 = b) || decide (cf x.n 0x02 p 0x12 = b)
    || (x.s.cfg.accepted.any fun g => decide (tblFind g.vals (cfgAddr 0x02 p 0x12) = some b)) || reprocUses x.s ⟨1, p, 0, b⟩

/-- R195, rule 192. -/
def check192 (x : Commit) : List Fail :=
  upto 32 fun p =>
    if hbProto x.n p = 0 then []
    else
      let b := cf x.n 0x02 p 0x12
      let s := x.loads.foldl (fun s k => setItem k 2 [] s) ((emptied x p).foldl (fun s k => releaseBank p k s) x.s)
      let im (i : Nat) : Option (List Byte) := tabImage s p b i
      let spp := fmtSpp (hbFormat x.n p)
      let starts := match im 0 with
        | some t => (List.range (u8At t 0)).map fun g => u16At t (0x10 + 32 * g)
        | none => []
      let sets := (List.range 4).filter fun f => decide ((tab s p b (2 + f)).st ≠ 0)
      let corr := cfgAddr 0x02 p 0x12
      let cols := cfgAddr 0x04 p 0
      chk (decide (cf x.n 0x04 p 0 ≠ hbPixels x.n p)) cols 192
        ++ chk (bankUnready s p b) corr 192
        ++ chk (!sets.isEmpty && !sets.contains (cf x.n 0x02 p 0x13)) (cfgAddr 0x02 p 0x13) 192
        ++ chk (decide (spp = 2) && starts.any fun v => decide (v % 2 = 1)) corr 192
        ++ chk ((deadOf (im 6)).any fun d => decide (spp ≤ d.fld)) corr 192
        ++ chk ((port x.s p).running && x.chg 0x04 p 0) cols 192
        ++ chk ((released x p).any fun b => bankHeld x p b) (cfgAddr 0x04 p 2) 192

/-! ### Dryer ports -/

/-- R215, rule 212, for one port. -/
def dryChecks (x : Commit) (p : Nat) : List Fail :=
  let n := x.n
  let a (o : Nat) : Nat := cfgAddr 0x05 p o
  let m := dpc n p 0
  if m = 0 then []
  else
    let rate := dpc n p 0x10 * 1000
    let per := dpFrameSamples n p
    let others := (List.range 4).filter fun q => q ≠ p
    let live (q : Nat) : Bool := decide (dpc n q 0 ≠ 0)
    let st (i : Nat) : Nat := dTab x.s p (dBank n p) i
    let mask := dpc n p 0x3A
    chk (decide (m = 1 ∧ 2048 < dpCols n p)) (a 0) 212
      ++ chk (decide (m = 2 ∧ (dpRows n p ≠ 1 ∨ 10000 * per < rate))) (a 0) 212
      ++ chk (decide (300000000 * per < tblP n p * rate)) (a 0) 212
      ++ chk (decide (dpc n p 0x78 = 0)) (a 0x78) 212
      ++ chk (decide (dpc n p 0x80 < 2 * tblB n p + tblG n p)) (a 0) 212
      ++ chk ((others.any fun q => meets (tableRegion n p) (tableRegion n q)) || (chests n).any (meets (tableRegion n p))
              || meets (tableRegion n p) (histRegion n) || inReserved (tableRegion n p)) (a 0) 212
      ++ chk (((List.range 5).any fun i => st i = 1 || st i = 3) || decide (st 4 = 0)) (a 0x35) 212
      ++ chk (decide (mkFunction n (dpc n p 0x37) ≠ 2) || others.any fun q => decide (dpc n q 0x37 = dpc n p 0x37)) (a 0x37) 212
      ++ chk (bitOf mask p || others.any fun q => bitOf mask q && !bitOf (dpc n q 0x3A) p) (a 0x3A) 212
      ++ chk (others.any fun q => live q && decide (dpc n q 0x5E = dpc n p 0x5E ∧ dpc n q 0x5F = dpc n p 0x5F)) (a 0x5E) 212

/-- R215, rule 212. -/
def check212 (x : Commit) : List Fail :=
  upto 4 fun p => dryChecks x p ++ (if (dry x.s p).running then
    x.chgs 0x05 p 212 [0x00, 0x01, 0x02, 0x04, 0x06, 0x08, 0x0E, 0x32, 0x78, 0x80, 0x5E, 0x5F, 0x37] else [])

/-! ### The couch (R244) -/

/-- Camera ports with ENABLE 1. -/
def enabledPorts (n : State) : List Nat := (List.range 32).filter fun p => decide (cpf n p 0 = 1)

/-- Are CDs strictly monotonic? -/
def strictly (lt : Int → Int → Bool) : List Int → Bool
  | a :: b :: r => lt a b && strictly lt (b :: r)
  | _ => true

/-- Item 3: the column map of a port. -/
def mapOk (n : State) (p : Nat) : Bool :=
  let lo := cpf n p 0x20
  let hi := cpf n p 0x22
  let cds := (List.range (hi + 1 - lo)).map fun i => cdAt n p (lo + i)
  let span := (cdAt n p hi - cdAt n p lo).natAbs
  let unit_ := gPitch n * 2 ^ 44 * (hi - lo)
  (strictly (fun a b => decide (a < b)) cds || strictly (fun a b => decide (b < a)) cds)
    && decide (unit_ ≤ 2 * span ∧ span ≤ 2 * unit_ ∧ lo < hi)
    && (List.range (cpf n p 8 + 1 - cpf n p 4)).all fun i => (mapPos n p ((cpf n p 4 + i : Nat) : Int)).isSome

/-- Item 2: coverage beyond the owned range. -/
def coverChecks (n : State) (p : Nat) : List Fail :=
  let lo := gBase n
  let hi := gBase n + gCols n
  let a := cpf n p 4
  let b := cpf n p 8
  chk (decide (a < lo ∧ (gFelt n 0 = 0xFF ∨ gEdge n < lo - a))) (cfgAddr 0x06 0 (cpOff p 4)) 241
    ++ chk (decide (hi ≤ b ∧ (gFelt n 1 = 0xFF ∨ gEdge n < b + 1 - hi))) (cfgAddr 0x06 0 (cpOff p 8)) 241

/-- Item 6: is every owned column covered, or close enough to an edge with a felt port? -/
def coveredAll (n : State) : Bool :=
  let ps := enabledPorts n
  (List.range (gCols n)).all fun c =>
    let g := ((gBase n + c : Nat) : Int)
    (ps.any fun p => covers n p g) || decide (gFelt n 0 ≠ 0xFF ∧ c < gEdge n) || decide (gFelt n 1 ≠ 0xFF ∧ gCols n ≤ c + gEdge n)

/-- Does the group change a column map? -/
def changesMap (before after : State) : Bool :=
  decide (mapFields before ≠ mapFields after) || decide (before.web.couch.resMap ≠ after.web.couch.resMap)

/-- Item 12: an accepted group changed a column map and is not yet wholly in force. -/
def mapPending (x : Commit) : Bool := x.s.cfg.accepted.any Accepted.map

/-- The lowest-addressed field of a block that the group holds. -/
def lowestHeld (x : Commit) (b : Nat) : Nat :=
  ((x.g.filter fun v => decide (addrBlk v.1 = b)).map Prod.fst).foldl min (cfgAddr b 0xFF 0xFFFF)

/-- Does any port with ENABLE 1 run, a camera or a dryer port (item 13 of R244)? -/
def gridHeld (x : Commit) : Bool :=
  ((List.range 32).any fun p => (port x.s p).running && (decide (cpf x.n p 0 = 1) || decide (cpf x.s p 0 = 1)))
    || (List.range 4).any fun p => (dry x.s p).running && (decide (dpf x.n p 0 = 1) || decide (dpf x.s p 0 = 1))

/-- R244, rule 241: the fields that the whole couch shares. -/
def couchChecks (x : Commit) : List Fail :=
  let n := x.n
  let a (o : Nat) : Nat := cfgAddr 0x06 0 o
  let ps := enabledPorts n
  let top : Int := (2 ^ 31 - 1) * 16
  let out (i : Nat) : Bool := let c := colCentre n ((gBase n + i : Nat) : Int); decide (c < -(2 ^ 31) * 16 ∨ top < c)
  let entries := (ps.map fun p => cpf n p 8 + 1 - cpf n p 4).sum
  let rest (r : Region) : Bool :=
    (chests n).any (meets r) || (dryTables n).any (meets r) || meets r (histRegion n) || inReserved r
  chk (decide (16777216 < gBase n + gCols n) || (decide (gCols n ≠ 0) && (out 0 || out (gCols n - 1)))) (a 8) 241
    ++ chk (!coveredAll n) (a 4) 241
    ++ chk (decide (524288 < entries)) (a (cpOff (ps.getLastD 0) 0)) 241
    ++ chk (!ps.isEmpty && decide (cf n 0x06 0 0x28 = 0)) (a 0x28) 241
    ++ chk (decide (cf n 0x06 0 0x28 ≠ 0 ∧ cf n 0x06 0 0x30 < (ps.map fun p => alignPart n p).sum)) (a 0x30) 241
    ++ chk (meets (alignRegion n) (thermRegion n) || rest (alignRegion n)) (a 0x28) 241
    ++ chk (meets (alignRegion n) (thermRegion n) || rest (thermRegion n)) (a 0x38) 241
    ++ chk (changesMap x.o n && mapPending x) (lowestHeld x 0x06) 241
    ++ (if gridHeld x then
          (upto 32 fun p => chk ((port x.s p).running && x.chg 0x06 0 (cpOff p 0x1C)) (a (cpOff p 0x1C)) 241) ++ x.chgs 0x06 0 241 [0x00, 0x04, 0x08, 0x0C, 0x10, 0x18, 0x14, 0x16, 0x17, 0x28, 0x30, 0x38, 0x40] else [])

/-- R244, rule 241: the fields of camera and dryer ports. -/
def couchPortChecks (x : Commit) : List Fail :=
  let n := x.n
  let a (o : Nat) : Nat := cfgAddr 0x06 0 o
  ((enabledPorts n).flatMap fun p =>
    let st := itemState x.s ⟨0x20, 0, p, cpf n p 1⟩
    coverChecks n p
      ++ chk (!mapOk n p) (a (cpOff p 0x10)) 241
      ++ chk (decide (hbPixels n p ≤ cpf n p 0x22)) (a (cpOff p 0x22)) 241
      ++ chk (decide ((if fmtSpp (hbFormat n p) = 1 then 1 else 3) ≠ gSamples n)) (a 0x16) 241
      ++ chk (decide (st = 1 ∨ st = 3)) (a (cpOff p 1)) 241)
    ++ (upto 4 fun p =>
      if dpf n p 0 ≠ 1 then []
      else
        let h := 0x900 + 0x80 * p + 8
        chk ((dpCorners n p).any fun c => (homogPos n p c.1 c.2).isNone) (a h) 241
          ++ chk (decide (cf n 0x06 0 0x38 = 0)) (a 0x38) 241
          -- the region has no size of its own: it must hold THERM_ROWS rows below the end of the HBM (DEDUCED 69)
          ++ chk (decide (0x2000000000 < (thermRegion n).1 + (thermRegion n).2)) (a 0x40) 241)

/-- R244, rule 241. -/
def check241 (x : Commit) : List Fail := couchChecks x ++ couchPortChecks x

/-! ### Knotter, reels, history -/

/-- The first slice that breaks R247, from the column `at_` that the next slice must start at. -/
def sliceFault (n : State) (at_ last : Nat) : List Nat → Option Nat
  | [] => if at_ = gCols n then none else some last
  | k :: ks => if cf n 0x07 k 4 = at_ ∧ at_ ≤ cf n 0x07 k 8 then sliceFault n (cf n 0x07 k 8 + 1) k ks else some k

/-- R272, rule 269. -/
def check269 (x : Commit) : List Fail :=
  let n := x.n
  if gCols n = 0 then []
  else
    let on := (List.range 8).filter fun k => decide (cf n 0x07 k 0 = 1)
    let a (o : Nat) : Nat := cfgAddr 0x07 8 o
    let bad (kind bank : Nat) : Bool := let st := itemState x.s ⟨kind, 8, 0, bank⟩; decide (st = 1 ∨ st = 3)
    let r := tileRegion n
    (match sliceFault n 0 (on.headD 0) on with
      | some k => [(cfgAddr 0x07 k 0, 269)]
      | none => [])
      ++ (upto 8 fun k => chk (decide (cf n 0x07 k 1 ≠ 0 ∧ gSamples n = 1)) (cfgAddr 0x07 k 1) 269)
      ++ chk (decide (0xFFFFFFFF < (mgf n 8 + 1) * gMdPitch n)) (a 8) 269
      ++ chk (bad 0x40 (mgf n 0)) (a 0) 269 ++ chk (bad 0x30 (mgf n 1)) (a 1) 269
      ++ chk (decide (mgf n 3 = 1 ∧ mgf n 0x10 = 0)) (a 3) 269
      ++ chk ((chests n).any (meets r) || meets r (alignRegion n) || meets r (thermRegion n) || (dryTables n).any (meets r)
              || meets r (histRegion n) || inReserved r) (a 0) 269
      ++ (if couchPortRuns x.s then (upto 8 fun k => x.chgs 0x07 k 269 [0, 4, 8]) ++ x.chgs 0x07 8 269 [0x10, 0x18] else [])

/-- Columns that a reel's source gives (Table 13.2). -/
def reelColumns (n : State) (r : Nat) : Nat :=
  match rlSource n r with
  | 2 => gTCols n
  | 4 => hbPixels n (rlf n r 2)
  | _ => gCols n

/-- R282, rule 279, for one reel. -/
def reelChecks (x : Commit) (r : Nat) : List Fail :=
  let n := x.n
  let a (o : Nat) : Nat := cfgAddr 0x08 r o
  let src := rlSource n r
  let f := rlf n r 1
  chk (decide (reelColumns n r < rlf n r 4 + rlf n r 8)) (a 4) 279
    ++ chk (decide (rlf n r 8 % rlDownX n r ≠ 0)) (a 8) 279
    ++ chk (decide (1 < rlf n r 0x0C ∧ 1 < rlf n r 0x10)) (a 0x0C) 279
    ++ chk (decide (1 < rlf n r 0x0E ∧ 1 < rlf n r 0x11)) (a 0x0E) 279
    ++ chk (decide (262144 < rlWidth n r)) (a 0) 279
    ++ chk (decide (16777216 < 64 + rlf n r 0x12 * rlStride n r)) (a 0x12) 279
    ++ chk (decide (f = 5 ∧ src ≠ 2)) (a 1) 279 ++ chk (decide (src = 2 ∧ f ≠ 5)) (a 0) 279
    ++ chk (decide (f = 4 ∧ rlWidth n r % 2 = 1)) (a 1) 279
    ++ chk (decide (src = 3 ∧ (rlf n r 0x1A ≤ rlf n r 0x18 ∨ gSamples n ≠ 3))) (a 0) 279
    ++ chk (decide (src = 4 ∧ hbProto n (rlf n r 2) = 0)) (a 0) 279

/-- R282, rule 279. -/
def check279 (x : Commit) : List Fail :=
  let live := (List.range 64).filter fun r => decide (rlSource x.n r ≠ 0)
  (live.flatMap fun r => reelChecks x r
    ++ chk (live.any fun q => decide (q ≠ r ∧ rlf x.n q 0x14 = rlf x.n r 0x14)) (cfgAddr 0x08 r 0x14) 279)
    ++ chk (decide (25000000 < (live.map fun r => rlf x.n r 0x1C).sum)) (cfgAddr 0x08 (live.headD 0) 0x1C) 279

/-- R289, rule 286. -/
def check286 (x : Commit) : List Fail :=
  let n := x.n
  let a (o : Nat) : Nat := cfgAddr 0x13 0 o
  let r := histRegion n
  let largest := (((List.range 32).filter fun p => bitOf (cf n 0x13 0 0x28) p).map fun p =>
    rawStripeBlocks (hbHeight n p) (hbSamples n p) * 4096).foldl max 0
  chk (decide (hsBase n = 0 ∧ r.2 ≠ 0)) (a 0) 286
    ++ chk ((chests n).any (meets r) || (dryTables n).any (meets r) || meets r (alignRegion n) || meets r (thermRegion n)
            || meets r (tileRegion n) || inReserved r) (a 0) 286
    ++ chk (decide (mgf n 3 = 1 ∧ hsTile n < 1048576)) (a 0x10) 286
    ++ chk (decide (hsView n ≠ 0 ∧ hsView n < 2 * viewRowBytes n)) (a 0) 286
    ++ chk (decide (hsRaw n < 2 * largest)) (a 0x28) 286
    ++ (if couchPortRuns x.s then x.chgs 0x13 0 286 [0x00, 0x08, 0x10, 0x18, 0x20, 0x22, 0x24] else [])

/-! ### The AFE -/

/-- Is a channel the odd partner of a pair (R293)? -/
def oddOfPair (n : State) (c : Nat) : Bool := decide (c % 2 = 1) && decide (mkf n (c - 1) 1 = 1)

/-- R293, rule 290. -/
def check290 (x : Commit) : List Fail :=
  upto 16 fun c =>
    let n := x.n
    let a (o : Nat) : Nat := cfgAddr 0x09 c o
    let pair := decide (mkf n c 1 = 1)
    let named := (List.range 4).any fun p => (dry x.s p).running && decide (dpc x.s p 0x37 = c)
    (if oddOfPair n c then []
     else
      chk (pair && (decide (c % 2 = 1) || decide (mkFunction n (c + 1) ≠ 0))) (a 1) 290
        ++ chk (decide (mkPeak n c < mkHold n c)) (a 6) 290
        ++ chk (!pair && decide (3000 < mkPeak n c)) (a 4) 290
        ++ chk (!pair && decide (1500 < mkHold n c)) (a 6) 290
        ++ chk (decide (cf n 0x09 (16 + c / 4) 0 < mkPeak n c)) (a 4) 290
        ++ chk (decide (mkFunction n c = 1 ∧ cfS n 0x09 c 0x1C 4 < cfS n 0x09 c 0x18 4)) (a 0) 290
        ++ chk (decide (cfS n 0x09 c 0x3A 2 - mkf n c 0x2B ≤ cfS n 0x09 c 0x38 2)) (a 0x3A) 290)
      ++ (if named then x.chgs 0x09 c 290 [0, 1] else [])

/-- R312, rule 309. -/
def check309 (x : Commit) : List Fail :=
  let n := x.n
  let tests := (List.range 4).filter fun u => decide (hkc n u 6 ≠ 0xFF)
  (upto 4 fun u =>
    let a (o : Nat) : Nat := cfgAddr 0x0A u o
    if (List.range 4).all fun k => decide (mkFunction n (4 * u + k) = 0) then []
    else chk (decide (hkMode n u = 0)) (a 0) 309 ++ chk (decide (hkc n u 2 < 2)) (a 2) 309
      ++ chk (decide (hkc n u 0x20 ≠ 30)) (a 0x20) 309 ++ chk (decide (hkc n u 0x21 ≠ 31)) (a 0x21) 309)
    ++ (upto 4 fun p =>
      if dpc n p 0 = 0 then []
      else
        let u := dpc n p 0x5C
        if hkMode n u = 0 then [(cfgAddr 0x05 p 0x5C, 309)] else chk (decide (hkLen n u ≤ dpc n p 0x5D)) (cfgAddr 0x05 p 0x5D) 309)
    ++ chk (decide (1 < tests.length)) (cfgAddr 0x0A (tests.getLastD 0) 6) 309

/-- R324, rule 321. -/
def check321 (x : Commit) : List Fail :=
  upto 4 fun i =>
    let a := cfgAddr 0x0B i 0
    let roic := (List.range 4).any fun p => decide (dpc x.n p 0 ≠ 0 ∧ dpc x.n p 0x5E = i)
    chk (decide (spf x.n i 0 = 1) && (decide (i = 0) || roic)) a 321
      ++ chk (x.chg 0x0B i 0 && decide (spf x.o i 0 = 1) && decide ((sp x.s i).inhibit ≠ 0 ∨ (sp x.s i).override ≠ 0)) a 321

/-- The pins that input fields in use name (R335). -/
def inputPins (n : State) : List Nat :=
  ((List.range 32).filter fun p => decide (hbProto n p ≠ 0 ∧ hbMode n p = 2)).map (fun p => cf n 0x02 p 0x11)
    ++ ((List.range 16).filter fun c => decide (mkFunction n c = 1 ∧ mkf n c 0x2A ≠ 0xFF)).map (fun c => mkf n c 0x2A)
    ++ ((List.range 4).filter fun p => decide (dpc n p 0 ≠ 0 ∧ dpc n p 0x38 ≠ 0xFF)).map (fun p => dpc n p 0x38)
    ++ ((List.range 4).filter fun u => bitOf (hkc n u 3) 1).map (fun u => hkc n u 4)
    ++ ((List.range 4).filter fun e => decide (cf n 0x0C e 1 = 3)).map (fun e => cf n 0x0C e 2)

/-- R335, rule 332. -/
def check332 (x : Commit) : List Fail :=
  ((inputPins x.n).flatMap fun k => chk (decide (pinf x.n k 0 ≠ 0)) (cfgAddr 0x0C 4 (0x100 + 8 * k)) 332)
    ++ (upto 4 fun p =>
      let k := dpc x.n p 0x5F
      chk (decide (k ≠ 0xFF) && decide (pinf x.n k 0 ≠ 2)) (cfgAddr 0x05 p 0x5F) 332)

/-- R354, rule 351. -/
def check351 (x : Commit) : List Fail := chk (decide (cf x.n 0x0D 0 1 ≤ cf x.n 0x0D 0 0)) (cfgAddr 0x0D 0 1) 351

/-! ### All of them -/

/-- The failed checks of a group. -/
def checksOf (x : Commit) : List Fail :=
  check14 x ++ check37 x ++ check120 x ++ check139 x ++ check140 x ++ check158 x ++ check164 x ++ check165 x ++ check167 x
    ++ check192 x ++ check212 x ++ check224 x ++ check241 x ++ check269 x ++ check279 x ++ check286 x ++ check290 x ++ check309 x
    ++ check321 x ++ check332 x ++ check335 x ++ check351 x ++ check417 x

/-- The lower of two failed checks: by address, then by rule number (R41). -/
def lowerFail (a b : Fail) : Fail := if b.1 < a.1 ∨ (b.1 = a.1 ∧ b.2 < a.2) then b else a

/-- The failed check that the result reports. -/
def reportFail : List Fail → Option Fail
  | [] => none
  | f :: fs => some (fs.foldl lowerFail f)

end Sys2Proof.Machine
end

