-- ==== Sys2Proof/Machine/HostRows.lean ====
section
/-! DEFINITION. The host rows of chapters 4 and 5: fetching commands, interim completions, command pair 0,
doorbells, the HBM window, queue groups, pending bits, tail mirrors, and the commands that create and delete
queues, report progress and abort. -/

namespace Sys2Proof.Machine

/-! ### Fetching commands (R91, R103 to R105) -/

/-- Is a device of the chain reachable from here (R96)? -/
def reachable (s : State) (d : Nat) : Bool :=
  match tblFind s.chain.routes d with
  | some k => feltUsable s k
  | none => false

/-- May the device fetch from a pair now (R75, R83, R88, R91)? -/
def mayFetch (s : State) (sq : Nat) (p : Pair) : Bool :=
  mayRequest s && s.chain.head && s.cmds.paused.isEmpty && !p.draining && !p.stopped && decide (p.fetch ≠ p.sqTail)
    && decide (outstanding s sq + cqUsed p + 1 ≤ 2 ^ p.cqLog2)

/-- Append a command to the list of those fetched. -/
def addCmd (c : Cmd) (s : State) : State :=
  { s with cmds := { s.cmds with flight := s.cmds.flight ++ [c], nextId := s.cmds.nextId + 1 } }

/-- Where an ABORT or PROGRESS goes on once it has started, when not here: to the device that runs the command that it names,
and from a chained device that does not know that command to the head, which knows those of every pair (R114). DEDUCED 57. -/
def namedElsewhere (s : State) (sq : Nat) (tag : W32) : Option Nat :=
  match cmdNamed s sq tag with
  | some d => d.sentTo
  | none => if s.chain.head then none else some 0

/-- The device that a pair's target selects. -/
def pairTarget (s : State) (sq : Nat) : Nat := ((tblFind s.host.pairs sq).map Pair.target).getD s.chain.devId

/-- A CFG_STAGE with host data for a device that cannot be reached: the ranges of its values, which go before
CHAIN_UNREACHABLE, are known once its row has read them (R37, R105). -/
def stageAway (s : State) (target : Nat) (bs : List Byte) : Bool :=
  decide (target ≠ s.chain.devId ∧ pkOp bs = 0x0010) && !stageInline bs && !reachable s target

/-- A command goes to the device that runs it (R96). -/
def forwardCmd (dev : Nat) (c : Cmd) (s : State) : State :=
  if reachable s dev then
    feltTo dev 0x15 (leBytes 2 c.sq ++ c.packet) (putCmd { c with sentTo := some dev, sentNs := s.clk.ns } s)
  else finishCheck c stUnreachable s

/-- What a packet for another device meets at the head: a device that can be reached checks it, on its own image; for one that
cannot, the checks of the packet come before CHAIN_UNREACHABLE, those of data that a row still has to read as well (R105). -/
def sendAway (target : Nat) (c : Cmd) (s : State) : State :=
  if reachable s target then forwardCmd target c s
  else if !packetOk c.packet ∨ pkOp c.packet = 0x00F0 then finishCheck c stBadParam s
  else if stageAway s target c.packet then s
  else forwardCmd target c s

/-- The first command of an SQ for another device that has not gone there. -/
def firstKept (s : State) (sq : Nat) : Option Cmd :=
  s.cmds.flight.find? fun c => decide (c.sq = sq) && decide (c.origin = .here) && c.sentTo.isNone && !c.started
    && decide (pairTarget s sq ≠ s.chain.devId)

/-- Does a command wait at the head for its row? -/
def keptHere (s : State) (c : Cmd) : Bool := packetOk c.packet && stageAway s (pairTarget s c.sq) c.packet

/-- Commands of an SQ that had to wait behind one at the head go on in index order (R91). -/
def awayPump (sq : Nat) : Nat → State → State
  | 0, s => s
  | n + 1, s =>
    match firstKept s sq with
    | some c => if keptHere s c then s else awayPump sq n (sendAway (pairTarget s sq) c s)
    | none => s

/-- A fetched packet is checked: steps 1 to 3 of R105. What fails completes at once; a command of another device is
forwarded (R96), where FENCE and the order of its SQ hold, behind one that waits at the head; any other waits for its row. -/
def takePacket (sq target : Nat) (bs : List Byte) (s : State) : State :=
  let c : Cmd := { cid := s.cmds.nextId, sq := sq, tag := pkTag bs, packet := bs }
  let here := decide (target = s.chain.devId)
  let s1 := addCmd c s
  if !(if here then opcodeAccepted s.boot.source (pkOp bs) else opcodeListed (pkOp bs)) then
    finishCheck c stBadOpcode s1
  else if here then (if packetOk bs then s1 else finishCheck c stBadParam s1)
  else if (firstKept s sq).isSome then s1
  else sendAway target c s1

/-- COMMAND_FETCH (R91). A failed read stops the pair (R88). -/
def fetchBody (sq : Nat) (f : Fetched) (s : State) : State :=
  match tblFind s.host.pairs sq with
  | none => s
  | some p =>
    if !mayFetch s sq p then s
    else match f with
      | .failed =>
        let s1 := { s with host := { s.host with
          pairs := tblSet s.host.pairs sq { p with stopped := true }
          q0Fault := s.host.q0Fault || decide (sq = 0) } }
        raise 339 0x02 sq s1
      | .packet bs =>
        let s1 := { s with host := { s.host with pairs := tblSet s.host.pairs sq { p with fetch := p.fetch + 1 } } }
        takePacket sq p.target (padTo 64 bs) s1

/-- COMMAND_FETCH: R91. -/
def execCommandFetch (sq : Fin 1024) (f : Fetched) (s : State) : Out := whenReady (fetchBody sq.val f) s

/-- Is there a free CQ entry beyond those held for final completions (R91), and no tender restart that pauses completions? -/
def interimRoom (s : State) (sq : Nat) : Bool :=
  match tblFind s.host.pairs sq with
  | none => false
  | some p => s.cmds.paused.isEmpty && mayRequest s && decide (outstanding s sq + cqUsed p + 1 ≤ 2 ^ p.cqLog2)

/-- The running command of an SQ and tag whose POSITION has changed when an interim was due: the earliest fetched. -/
def interimOf (s : State) (sq : Nat) (tag : W32) : Option Cmd :=
  s.cmds.flight.find? fun c => decide (c.sq = sq) && decide (c.tag = tag) && c.moved && c.started && c.sentTo.isNone

/-- INTERIM_COMPLETION (R117): written at a change of POSITION that was due, or skipped where no spare entry exists. A
chained device sends each to the head, which alone knows whether it is written and so keeps the 100 ms (log entry 57). -/
def interimBody (sq : Nat) (tag : W32) (s : State) : State :=
  match interimOf s sq tag with
  | none => s
  | some c =>
    match c.origin with
    | .here =>
      if interimRoom s sq then
        writeCqe sq tag stInProgress (percentOf c) 0 c.position true
          (putCmd { c with moved := false, interimNs := some s.clk.ns } s)
      else putCmd { c with moved := false } s
    | _ =>
      if s.cmds.paused.isEmpty then
        feltTo 0 0x16 (leBytes 2 sq ++ completionBytes tag stInProgress (percentOf c) 2 0 c.position 0)
          (putCmd { c with moved := false } s)
      else putCmd { c with moved := false } s

/-- INTERIM_COMPLETION: R117. -/
def execInterimCompletion (sq : Fin 1024) (tag : W32) (s : State) : Out := whenReady (interimBody sq.val tag) s

/-! ### Command pair 0 (R82) -/

/-- Create pair 0 from the registers. -/
def pair0Make (s : State) : State :=
  let g := if s.host.q0Group = 0xFF then none else some s.host.q0Group
  let p : Pair := { sqBase := s.host.q0SqBase, sqLog2 := s.host.q0SqLog2, cqBase := s.host.q0CqBase,
                    cqLog2 := s.host.q0CqLog2, group := g, target := s.chain.devId }
  { s with host := { s.host with pairs := tblSet s.host.pairs 0 p, q0Enable := true } }

/-- Delete pair 0: DRAINING holds until every fetched command has completed. -/
def pair0Drop (s : State) : State :=
  let s1 := { s with host := { s.host with q0Enable := false, q0Draining := true,
                                           pairs := match tblFind s.host.pairs 0 with
                                             | some p => tblSet s.host.pairs 0 { p with draining := true }
                                             | none => s.host.pairs } }
  settlePairs (s1.host.pairs.length + 1) s1

/-- Is a write that sets ENABLE ignored (R82)? DESIGN CHOICE 58: so is one on a chained device, where no pair may reside
(R96). -/
def q0Refused (s : State) (v : Nat) : Bool :=
  !s.chain.head || decide (s.host.q0SqBase = 0 ∨ s.host.q0CqBase = 0) || decide (bits v 0 5 < 4 ∨ 16 < bits v 0 5)
    || decide (bits v 5 5 < 4 ∨ 16 < bits v 5 5) || decide (160 ≤ bits v 16 8 ∧ bits v 16 8 ≤ 254) || s.host.q0Draining

/-- The size and group fields as written. -/
def q0Fields (v : Nat) (s : State) : State :=
  { s with host := { s.host with q0SqLog2 := bits v 0 5, q0CqLog2 := bits v 5 5, q0Group := bits v 16 8 } }

/-- FAULT is W1C. -/
def q0ClearFault (v : Nat) (s : State) : State :=
  { s with host := { s.host with q0Fault := s.host.q0Fault && !bitOf v 11 } }

/-- A write of GLB_Q0_CTRL. -/
def q0CtrlWrite (v : Nat) (s : State) : State :=
  if s.host.q0Enable then
    if bitOf v 10 then q0ClearFault v s else pair0Drop (q0ClearFault v s)
  else if bitOf v 10 then
    if q0Refused s v then s else pair0Make (q0Fields v (q0ClearFault v s))
  else q0Fields v (q0ClearFault v s)

/-- PAIR0_CREATE: R82; the written value has ENABLE 1. -/
def execPair0Create (v : W32) (s : State) : Out := whenHost (q0CtrlWrite (setBitN v.toNat 10 true)) s

/-- PAIR0_DELETE: R82; the written value has ENABLE 0. -/
def execPair0Delete (v : W32) (s : State) : Out := whenHost (q0CtrlWrite (setBitN v.toNat 10 false)) s

/-! ### Doorbells (R88) -/

/-- Raise a queue fault for a ring of a kind (Table 4.8). -/
def ringFault (cause kind n : Nat) (s : State) : State := raise 339 cause (n + kind * 2 ^ 18) s

/-- Does a doorbell of pair `q` find its ring? Pair 0 exists while ENABLE is 1. -/
def pairForDb (s : State) (q : Nat) : Option Pair :=
  if q = 0 ∧ s.host.q0Enable = false then none else tblFind s.host.pairs q

/-- The producer rule of R88. -/
def producerOk (old fetch v : W32) (log2 : Nat) : Bool :=
  decide ((old - fetch).toNat ≤ (v - fetch).toNat) && decide ((v - fetch).toNat ≤ 2 ^ log2)

/-- The consumer rule of R88. -/
def consumerOk (head tail v : W32) : Bool := decide ((v - head).toNat ≤ (tail - head).toNat)

/-- DB_SQ_TAIL. -/
def sqTailBody (q : Nat) (v : W32) (s : State) : State :=
  match pairForDb s q with
  | none => ringFault 0x03 0 q s
  | some p =>
    if producerOk p.sqTail p.fetch v p.sqLog2 then
      { s with host := { s.host with pairs := tblSet s.host.pairs q { p with sqTail := v } } }
    else ringFault 0x01 0 q s

/-- DB_CQ_HEAD. -/
def cqHeadBody (q : Nat) (v : W32) (s : State) : State :=
  match pairForDb s q with
  | none => ringFault 0x03 1 q s
  | some p =>
    if consumerOk p.cqHead p.cqTail v then
      { s with host := { s.host with pairs := tblSet s.host.pairs q { p with cqHead := v } } }
    else ringFault 0x01 1 q s

/-- DB_SR_HEAD. -/
def srHeadBody (r : Nat) (v : W32) (s : State) : State :=
  match tblFind s.host.srs r with
  | none => ringFault 0x03 3 r s
  | some x =>
    if consumerOk x.head x.tail v then { s with host := { s.host with srs := tblSet s.host.srs r { x with head := v } } }
    else ringFault 0x01 3 r s

/-- DB_EVT_HEAD. -/
def evtHeadBody (e : Nat) (v : W32) (s : State) : State :=
  match tblFind s.host.evts e with
  | none => ringFault 0x03 4 e s
  | some x =>
    if consumerOk x.head x.tail v then { s with host := { s.host with evts := tblSet s.host.evts e { x with head := v } } }
    else ringFault 0x01 4 e s

/-- DB_DQ_HEAD: the head is rebuilt from its 14 low bits. -/
def dqHeadBody (v : Nat) (s : State) : State :=
  let q := bits v 14 18
  match tblFind s.host.dqs q with
  | none => ringFault 0x03 2 q s
  | some x =>
    let d : W32 := BitVec.ofNat 32 ((bits v 0 14 + 2 ^ 14 - x.head.toNat % 2 ^ 14) % 2 ^ 14)
    if decide (d.toNat ≤ (x.tail - x.head).toNat) then
      { s with host := { s.host with dqs := tblSet s.host.dqs q { x with head := x.head + d } } }
    else ringFault 0x01 2 q s

/-- DB_SQ_TAIL: R88. -/
def execDbSqTail (q : Fin 1024) (v : W32) (s : State) : Out := whenHost (sqTailBody q.val v) s
/-- DB_CQ_HEAD: R88. -/
def execDbCqHead (q : Fin 1024) (v : W32) (s : State) : Out := whenHost (cqHeadBody q.val v) s
/-- DB_SR_HEAD: R88. -/
def execDbSrHead (r : Fin 256) (v : W32) (s : State) : Out := whenHost (srHeadBody r.val v) s
/-- DB_EVT_HEAD: R88. -/
def execDbEvtHead (e : Fin 64) (v : W32) (s : State) : Out := whenHost (evtHeadBody e.val v) s
/-- DB_DQ_HEAD: R88. -/
def execDbDqHead (v : W32) (s : State) : Out := whenHost (dqHeadBody v.toNat) s

/-- A write into the DB_ block at an offset within it (Table 4.6); `own` says that the device acts on SQ and CQ
doorbells here (R99). -/
def dbWrite (own : Bool) (off v : Nat) (s : State) : State :=
  let w : W32 := BitVec.ofNat 32 v
  if off % 4 ≠ 0 then s
  else if off < 0x2000 then
    if !own then s else if off % 8 = 0 then sqTailBody (off / 8) w s else cqHeadBody (off / 8) w s
  else if off < 0x2400 then srHeadBody ((off - 0x2000) / 4) w s
  else if off < 0x2500 then evtHeadBody ((off - 0x2400) / 4) w s
  else if off = 0x2800 then dqHeadBody v s
  else s

/-- DOORBELL_PAGE_WRITE (R99): the head's own page, a chained device's, or FORWARD_BAD. -/
def pageBody (dev off v : Nat) (s : State) : State :=
  if dev = s.chain.devId then dbWrite true off v s
  else if reachable s dev then feltTo dev 0x18 (leBytes 4 off ++ leBytes 4 v) s
  else raise 342 0x03 0 s

/-- DOORBELL_PAGE_WRITE: R99. -/
def execDoorbellPageWrite (dev : Fin 64) (off : BitVec 16) (v : W32) (s : State) : Out :=
  whenHost (pageBody dev.val off.toNat v.toNat) s

/-! ### The HBM window (R77 to R79) -/

/-- Is a device ID present: this device's own, or one in the map? -/
def devicePresent (s : State) (d : Nat) : Bool :=
  decide (d = s.chain.devId) || (tblGet {} s.chain.map d).present

/-- A write of GLB_BAR2_BASE (R77). -/
def bar2BaseBody (v : Nat) (s : State) : State :=
  if bits v 30 7 ≤ 64 ∧ devicePresent s (bits v 40 6) then
    { s with host := { s.host with bar2Base := bits v 30 7, bar2Dev := bits v 40 6 } }
  else raise 342 0x02 0 s

/-- GLB_BAR2_BASE: R77. -/
def execGlbBar2Base (v : W64) (s : State) : Out := whenHost (bar2BaseBody v.toNat) s

/-- All ones of `n` bytes. -/
def onesN (n : Nat) : Nat := 2 ^ (8 * n) - 1

/-- An access to this device's HBM from the window (R78). -/
def hbmWindow (off addr : Nat) (acc : Bar2) (s : State) : State :=
  match acc with
  | .read n =>
    if addr < 0x10000000 then raise 342 0x01 (bits off 4 32) (emit (.readData n (onesN n)) s)
    else emit (.readData n (hbmLe s addr n)) s
  | .write bs =>
    if addr < 0x10000000 then raise 342 0x01 (bits off 4 32) s else hbmWrite addr bs s

/-- The bytes an access touches. -/
def bar2Size : Bar2 → Nat
  | .read n => n
  | .write bs => bs.length

/-- A forwarded BAR2 access as the payload of a REG packet. -/
def bar2Payload (addr : Nat) : Bar2 → List Byte
  | .read n => leBytes 1 2 ++ leBytes 1 0 ++ leBytes 2 n ++ leBytes 8 addr
  | .write bs => leBytes 1 3 ++ leBytes 1 0 ++ leBytes 2 bs.length ++ leBytes 8 addr ++ bs

/-- A write on its way to another device's HBM, until that device confirms it (R79). -/
def bar2Sent (dev : Nat) (acc : Bar2) (s : State) : State :=
  match acc with
  | .read _ => s
  | .write _ => { s with host := { s.host with bar2Out := s.host.bar2Out ++ [dev] } }

/-- A window access to another device: carried there, or as R100 gives where it cannot be reached. -/
def bar2Remote (dev off addr : Nat) (acc : Bar2) (s : State) : State :=
  if addr < 0x10000000 then hbmWindow off addr acc s
  else if reachable s dev then feltTo dev 0x17 (bar2Payload addr acc) (bar2Sent dev acc s)
  else match acc with
    | .read n => raise 342 0x03 0 (emit (.readData n (onesN n)) s)
    | .write _ => raise 342 0x03 0 s

/-- BAR2_ACCESS: R77, R78. HBM ends at 128 GiB: what reaches the device beyond it faults (DESIGN CHOICE 114). -/
def execBar2Access (off : BitVec 36) (acc : Bar2) (s : State) : Out :=
  let addr := s.host.bar2Base * 2 ^ 30 + off.toNat
  if s.boot.phase = .ready ∧ s.pcie.perstLow = false ∧ hbmSize < addr + bar2Size acc then .fault .hbmAddress
  else whenHost (fun s => if s.host.bar2Dev = s.chain.devId then hbmWindow off.toNat addr acc s
    else bar2Remote s.host.bar2Dev off.toNat addr acc s) s

/-! ### Queue groups and pending bits -/

/-- A write of EVT_GRP[g]: it applies at once to the running period (R95). -/
def evtGrpBody (g v : Nat) (s : State) : State :=
  grpEval g { s with host := { s.host with grp := tblSet s.host.grp g v } }

/-- EVT_GRP: R95. -/
def execEvtGrp (g : Fin 160) (v : W32) (s : State) : Out := whenHost (evtGrpBody g.val v.toNat) s

/-- GROUP_TIMER: R95. -/
def execGroupTimer (g : Fin 160) (s : State) : Out := whenReady (grpEval g.val) s

/-- The word of pending bits `w`. -/
def pendWord (s : State) (w : Nat) : Nat := (s.host.pend.extractLsb' (32 * w) 32).toNat

/-- A W1C write of EVT_PEND[w]. -/
def pendClear (w : Nat) (v : W32) (s : State) : State :=
  { s with host := { s.host with pend := s.host.pend &&& ~~~ (v.setWidth 512 <<< (32 * w)) } }

/-- EVT_PEND (R94): the clear, and the raise that meets it in one arbitration, which leaves its bit 1 and sends its
message as if the bit had been 0. Sources 343 to 351 never raise (R439). -/
def evtPendBody (w : Nat) (v : W32) (met : Option (Fin 32 × BitVec 8 × W32)) (s : State) : State :=
  let s1 := pendClear w v s
  match met with
  | none => s1
  | some (b, cause, detail) =>
    let n := 32 * w + b.val
    if 343 ≤ n ∧ n ≤ 351 then s1 else raiseMet (v.getLsbD b.val) n cause.toNat detail.toNat s1

/-- EVT_PEND: R94. -/
def execEvtPend (w : Fin 16) (v : W32) (met : Option (Fin 32 × BitVec 8 × W32)) (s : State) : Out :=
  whenHost (evtPendBody w.val v met) s

/-! ### Tail mirrors (R87, R90) -/

/-- The 8 bytes of a tail mirror. -/
def mirrorBytes (r : Ring) : List Byte := leBytes 4 r.tail.toNat ++ leBytes 4 r.dropped

/-- Write a defect queue's mirror. -/
def mirrorDq (n : Nat) (s : State) : State :=
  match tblFind s.host.dqs n with
  | none => s
  | some r =>
    if (r.uncovered = 0 ∧ r.mirrorStale = false) ∨ mayRequest s = false then s
    else
      let s1 := hostWrite r.mirror (mirrorBytes r) s
      grpAdd r.group r.uncovered { s1 with host := { s1.host with
        dqs := tblSet s1.host.dqs n { r with uncovered := 0, mirrorStale := false } } }

/-- Write a stream ring's mirror. -/
def mirrorSr (n : Nat) (s : State) : State :=
  match tblFind s.host.srs n with
  | none => s
  | some r =>
    if (r.uncovered = 0 ∧ r.mirrorStale = false) ∨ mayRequest s = false then s
    else
      let s1 := hostWrite r.mirror (mirrorBytes r) s
      grpAdd r.group r.uncovered { s1 with host := { s1.host with
        srs := tblSet s1.host.srs n { r with uncovered := 0, mirrorStale := false } } }

/-- TAIL_MIRROR_WRITE of either kind of ring. -/
def mirrorBody : MirrorRing → State → State
  | .defect n, s => mirrorDq n.val s
  | .stream n, s => mirrorSr n.val s

/-- TAIL_MIRROR_WRITE: R87. -/
def execTailMirrorWrite (r : MirrorRing) (s : State) : Out := whenReady (mirrorBody r) s

/-! ### QUEUE_CREATE and QUEUE_DELETE (R80 to R84) -/

/-- The queue group of a creation; 0xFFFF for none. -/
def groupParam (p : List Byte) : Option Nat := if pm16 p 0x30 = 0xFFFF then none else some (pm16 p 0x30)

/-- Does the named ring exist? -/
def ringExists (s : State) (kind n : Nat) : Bool :=
  if kind = 0 then (tblFind s.host.pairs n).isSome else if kind = 1 then (tblFind s.host.dqs n).isSome
  else if kind = 2 then (tblFind s.host.srs n).isSome else (tblFind s.host.evts n).isSome

/-- The pair that QUEUE_CREATE describes. -/
def pairOf (p : List Byte) : Pair :=
  { sqBase := pm64 p 0x20, sqLog2 := pm8 p 0x19, cqBase := pm64 p 0x28, cqLog2 := pm8 p 0x1A, group := groupParam p,
    target := pm8 p 0x1B }

/-- The defect queue or stream ring that QUEUE_CREATE describes. -/
def ringOf (p : List Byte) (slot : Nat) : Ring :=
  { base := pm64 p 0x20, log2 := pm8 p 0x19, slotLog2 := slot, mirror := pm64 p 0x28, group := groupParam p }

/-- Make the ring, with every index at 0 (R80). -/
def makeRing (p : List Byte) (s : State) : State :=
  let n := pm32 p 0x1C
  match pm8 p 0x18 with
  | 0 => { s with host := { s.host with pairs := tblSet s.host.pairs n (pairOf p) } }
  | 1 => { s with host := { s.host with dqs := tblSet s.host.dqs n (ringOf p 6) } }
  | 2 => { s with host := { s.host with srs := tblSet s.host.srs n (ringOf p (pm8 p 0x1A)) } }
  | _ => { s with host := { s.host with evts := tblSet s.host.evts n (EvtRing.mk (pm64 p 0x20) (pm8 p 0x19) 0 0 false) } }

/-- QUEUE_CREATE runs: BUSY when the ring exists (R80). All pairs reside at the head (R96): a pair that a command of
another device would make completes with BAD_PARAM, as its QUEUE_DELETE does there (R83). DESIGN CHOICE 58. -/
def queueCreateStart (c : Cmd) (s : State) : State :=
  if ringExists s (pm8 c.packet 0x18) (pm32 c.packet 0x1C) then finishCheck c stBusy s
  else if pm8 c.packet 0x18 = 0 ∧ s.chain.head = false then finishCheck c stBadParam s
  else finishOk c 0 0 (makeRing c.packet s)

/-- QUEUE_CREATE: R80. -/
def execQueueCreate (sq : Fin 1024) (tag : W32) (s : State) : Out :=
  opcodeRow sq tag 0x0070 queueCreateStart (fun _ s => s) s

/-- The records that wait for a defect queue are discarded with it, and counted as R65 gives for a queue not created (R84). -/
def queueRecsGone (n : Nat) (s : State) : State :=
  let k := s.web.knot
  let mine := k.recs.filter fun r => decide (r.queue = n)
  { s with web := { s.web with knot := { k with recs := k.recs.filter fun r => decide (r.queue ≠ n), noQueue := satAdd 32 k.noQueue mine.length } } }

/-- Delete a ring that is no command pair (R84). -/
def dropRing (kind n : Nat) (s : State) : State :=
  match kind with
  | 1 => grpSettle ((tblFind s.host.dqs n).bind Ring.group) (queueRecsGone n { s with host := { s.host with dqs := tblErase s.host.dqs n } })
  | 2 => grpSettle ((tblFind s.host.srs n).bind Ring.group) { s with host := { s.host with srs := tblErase s.host.srs n } }
  | _ => { s with host := { s.host with evts := tblErase s.host.evts n } }

/-- QUEUE_DELETE runs (R83): a pair drains first, and the command completes when it is gone. -/
def queueDeleteStart (c : Cmd) (s : State) : State :=
  let kind := pm8 c.packet 0x18
  let n := pm32 c.packet 0x1C
  if kind = 0 then
    match tblFind s.host.pairs n with
    | none => finishCheck c stBadParam s
    | some p =>
      if p.draining then finishCheck c stBusy s
      else if decide (n = c.sq) && decide (c.origin = .here) then finishCheck c stBadParam s
      else
        let s1 := putCmd { c with started := true, startNs := s.clk.ns } s
        let s2 := { s1 with host := { s1.host with pairs := tblSet s1.host.pairs n { p with draining := true } } }
        settlePairs (s2.host.pairs.length + 1) s2
  else if ringExists s kind n then finishOk c 0 0 (dropRing kind n s)
  else finishCheck c stBadParam s

/-- QUEUE_DELETE: R83, R84. -/
def execQueueDelete (sq : Fin 1024) (tag : W32) (s : State) : Out :=
  opcodeRow sq tag 0x0071 queueDeleteStart (fun _ s => s) s

/-! ### ECHO and PROGRESS -/

/-- ECHO: RESULT is PARAM bytes 0x18 to 0x1F (Table 5.6). -/
def echoStart (c : Cmd) (s : State) : State := finishOk c (pm64 c.packet 0x18) 0 s

/-- ECHO: R104. -/
def execEcho (sq : Fin 1024) (tag : W32) (s : State) : Out := opcodeRow sq tag 0x0004 echoStart (fun _ s => s) s

/-- PROGRESS (R118): state, opcode, PERCENT and POSITION of the named command; one that another device runs is asked
there (log entry 57). -/
def progressStart (c : Cmd) (s : State) : State :=
  let sq := pm16 c.packet 0x18
  let tag : W32 := BitVec.ofNat 32 (pm32 c.packet 0x1C)
  match namedElsewhere s sq tag, cmdNamed s sq tag with
  | some e, _ => forwardCmd e c s
  | none, none => finish c stOk 0 0 0 s
  | none, some d =>
    let st := if d.started then 2 else 1
    finish c stOk (percentOf d) (st + 256 * pkOp d.packet) d.position s

/-- PROGRESS: R118. -/
def execProgress (sq : Fin 1024) (tag : W32) (s : State) : Out := opcodeRow sq tag 0x0002 progressStart (fun _ s => s) s

end Sys2Proof.Machine
end

