-- ==== Sys2Proof/Machine/Thermal.lean ====
section
/-! DEFINITION. Temperature sensing, substitution, the deckle governor, the warning, the thermal trip and the NVM write
window (chapter 17). Temperatures are in 1/4 °C. -/

namespace Sys2Proof.Machine

/-- Change the temperature state. -/
def updTherm (f : Therm → Therm) (s : State) : State := { s with afe := { s.afe with therm := f s.afe.therm } }

/-! ### Sensors and zones (R341, R342) -/

/-- The zone orders of Table 17.2. -/
def zoneOrder (z : Nat) : List Nat :=
  match z with
  | 0 => [0, 1, 2, 3, 4, 5, 6, 7, 8]
  | 1 => [9, 10, 11, 12, 13, 14, 15, 16, 17, 18]
  | 2 => [19, 20, 38, 21, 22, 39]
  | 3 => [23, 24, 25, 26, 27, 28, 29, 30, 31]
  | _ => [32, 33, 34, 35, 36, 37]

/-- The zone of a sensor (Table 17.1). -/
def zoneOf (i : Nat) : Nat := ((List.range 5).find? fun z => (zoneOrder z).contains i).getD 0

/-- The readings of the 40 sensors: 38 and 39 are each the greater readout of their two stacks (R341). -/
def readings (temps : List Int) : List Int :=
  let at_ (i : Nat) : Int := toS 16 (ofS 16 (temps.getD i 0))
  (List.range 40).map fun i => if i < 38 then at_ i else max (at_ (2 * i - 38)) (at_ (2 * i - 37))

/-- Neighbours of a sensor: those of its zone whose position differs by 1 or 2 (R342). -/
def neighbours (i : Nat) : List Nat :=
  let o := zoneOrder (zoneOf i)
  let p := o.idxOf i
  o.filter fun j => let q := o.idxOf j; decide (q ≠ p ∧ q ≤ p + 2 ∧ p ≤ q + 2)

/-! ### Tests (R343) -/

/-- The span of a sensor's readings over the last 60 s. -/
def span60 (hist : List (List Int)) (i : Nat) : Int :=
  let xs := hist.map fun r => r.getD i 0
  match xs with
  | [] => 0
  | x :: xs => xs.foldl max x - xs.foldl min x

/-- Crystal time of device ready. -/
def readyNs (s : State) : Nat := s.boot.readyNs

/-- The lowest-numbered test that fails: 1 deviation, 2 range, 3 stuck. `now` are the readings, `hist` those of 60 s. -/
def failedTest (s : State) (now : List Int) (hist : List (List Int)) (i : Nat) : Option Nat :=
  let x := now.getD i 0
  let good := (neighbours i).filter fun j => decide (s.afe.therm.cause.getD j 0 = 0)
  let dev := decide (2 ≤ good.length) && decide (96 < (2 * x - median2 (good.map fun j => now.getD j 0)).natAbs)
  let rng := decide (x < -200 ∨ 600 < x)
  let stuck := decide (readyNs s + sec 60 ≤ s.clk.ns) && decide (span60 hist i < 1)
    && decide (24 < median2 ((neighbours i).map (span60 hist)))
  if dev then some 1 else if rng then some 2 else if stuck then some 3 else none

/-- A sensor after an evaluation: its cause (0 while not suspect), its passes, and whether it became suspect or
recovered (R343, R345). -/
structure Verdict where
  cause : Nat
  passes : Nat
  became : Bool := false
  recovered : Bool := false
deriving DecidableEq, Repr

/-- The verdict of one sensor. -/
def judgeSensor (s : State) (now : List Int) (hist : List (List Int)) (i : Nat) : Verdict :=
  let old := s.afe.therm.cause.getD i 0
  match failedTest s now hist i with
  | some c => if old = 0 then ⟨c, 0, true, false⟩ else ⟨old, 0, false, false⟩
  | none =>
    let n := s.afe.therm.passes.getD i 0 + 1
    if old = 0 then ⟨0, 0, false, false⟩ else if 10000 ≤ n then ⟨0, 0, false, true⟩ else ⟨old, n, false, false⟩

/-! ### Effective values (R344, R346) -/

/-- The greatest of a list, if any. -/
def greatest (xs : List Int) : Option Int :=
  match xs with
  | [] => none
  | x :: xs => some (xs.foldl max x)

/-- Has a zone failed? -/
def zoneFails (v : List Verdict) (z : Nat) : Bool :=
  let o := zoneOrder z
  decide (o.length ≤ 2 * (o.filter fun i => decide (((v.map Verdict.cause).getD i 0) ≠ 0)).length)

/-- The effective value of a sensor. -/
def effective (now : List Int) (v : List Verdict) (i : Nat) : Int :=
  let ok (j : Nat) : Bool := decide (((v.map Verdict.cause).getD j 0) = 0)
  if zoneFails v (zoneOf i) then 460
  else if ok i then now.getD i 0
  else match greatest (((neighbours i).filter ok).map fun j => now.getD j 0) with
    | some t => t + 20
    | none => match greatest (((zoneOrder (zoneOf i)).filter ok).map fun j => now.getD j 0) with
      | some t => t + 20
      | none => 460

/-- The reported maximum and the lowest sensor that has it (R347). -/
def reported (eff : List Int) : Int × Nat :=
  let m := (greatest eff).getD 0
  (m, eff.idxOf m)

/-! ### Steps (R348 to R350) -/

/-- The step changes: counted, raised, and the count of cool evaluations starts afresh. -/
def stepChange (new : Nat) (s : State) : State :=
  let old := s.afe.step
  if new = old then s
  else
    let s1 := updTherm (fun t => { t with changes := satAdd 32 t.changes 1, low := 0 }) { s with afe := { s.afe with step := new } }
    raise 278 (if old < new then 0x01 else 0x02) new s1

/-- The governor at an evaluation. -/
def governor (s : State) : State :=
  let t := s.afe.therm
  let thr : Int := 4 * cf s 0x0D 0 0
  let low := if t.max_ ≤ thr - 20 then t.low + 1 else 0
  let s1 := updTherm (fun t => { t with low := low }) s
  if thr ≤ t.max_ then stepChange (min 15 (s.afe.step + 1)) s1
  else if cf s 0x0D 0 2 < s.afe.step ∧ 100 ≤ low ∧ t.holdNs ≤ s.clk.ns then stepChange (s.afe.step - 1) s1
  else s1

/-- A commit brings STEP_MIN into force (R349). -/
def stepMinTaken (s : State) : State := if s.afe.step < cf s 0x0D 0 2 ∧ !s.boot.tripped then stepChange (cf s 0x0D 0 2) s else s

/-! ### Warning and trip (R351, R352) -/

/-- WARN and WARN_END. -/
def warning (s : State) : State :=
  let t := s.afe.therm
  let w : Int := 4 * cf s 0x0D 0 1
  if !t.warn ∧ w ≤ t.max_ then raise 279 0x01 t.sensor (updTherm (fun t => { t with warn := true }) s)
  else if t.warn ∧ t.max_ ≤ w - 20 then raise 279 0x02 t.sensor (updTherm (fun t => { t with warn := false }) s)
  else s

/-- A headbox halts, and the data within it is discarded. -/
def haltPort (x : Port) : Port :=
  { x with running := false, stopping := false, cur := none, old := [], pipe := [], part := none, trigs := [], waitStart := false, blind := [] }

/-- The couch without the data within it. -/
def haltCouch (c : Couch) : Couch :=
  { c with lines := [], edges := [], kept := [], firstClose := [], therm := [], thermFirst := [], thermTb := [], reps := [] }

/-- The knotter without the data within it, the merger's record buffer included (R264). -/
def haltKnot (k : Knot) : Knot :=
  { k with rows := [], comps := [], frags := [], blinds := [], repSlices := [], recs := [] }

/-- A reel without the data within it. -/
def haltReel (r : Reel) : Reel := { r with inq := [], grp := [], down := none, unit := none, held := [] }

/-- A dryer port halts; its biases ramp down. -/
def haltDryer (p : Nat) (s0 : State) : State :=
  let s := dryLand p s0
  updDry p (fun d => { d with running := false, stopping := false, st := 0, frame := none, fifo := [], out := [], closure := none, startDue := false, due := []
                              marks := [], blindMd := none, reqNoted := false, req := none, reqCids := [], reqHoldCids := [], reqHold := false, waiting := false
                              refine := none, ovfBlind := false })
    (biasMove p [0, 0, 0, 0, 0, 0, 0, 0] s)

/-- The streaming path halts and discards what it holds; what waits for its instances comes into force (R45). Tiles under
way go on: R352 does not name the history ring. -/
def haltAll (s : State) : State :=
  let s1 := { s with
    ing := { s.ing with ports := s.ing.ports.map fun x => (x.1, haltPort x.2)
                        wires := s.ing.wires.map fun x => (x.1, { x.2 with ctx := [], serving := none, reproc := none }), swap := none }
    web := { s.web with couch := haltCouch s.web.couch, knot := haltKnot s.web.knot
                        reels := s.web.reels.map fun x => (x.1, haltReel x.2), hist := { s.web.hist with group := [] } } }
  stoppedTake ((List.range 4).foldl (fun s p => haltDryer p s) ((List.range 32).foldl (fun s p => landWrites p s) s1))

/-- The test of an instance is abandoned: it returns to service as before (R431). -/
def stopBist (s : State) : State :=
  match s.bist.run with
  | none => s
  | some r =>
    let s1 := { s with bist := { s.bist with run := none } }
    if r.blk = 0x03 then updWire r.inst (fun w => { w with state := if bitOf s.bist.failMask r.inst then 3 else 0 }) s1 else s1

/-- The commands that a trip completes: with TEMP_INHIBIT, a self-test with ABORTED (R352, R431). -/
def tripCommands (s : State) : State :=
  let s1 := { stopBist s with nvm := { s.nvm with writers := [] } }
  let s2 := if s.cmds.flight.any fun c => c.started && decide (pkOp c.packet = 0x00A0) then calDone s1 else s1
  let all := s.cmds.flight.filter fun c => c.started && !tripOpcodes.contains (pkOp c.packet)
  -- a QUEUE_DELETE first: the pair that it waits for may drain with the others, and it completes once
  let dels := all.filter fun c => decide (pkOp c.packet = 0x0071)
  let s3 := dels.foldl (fun s c => finishOnly c stTempInhibit (percentOf c) 0 c.position s) s2
  let s4 := (all.filter fun c => !dels.contains c).foldl
    (fun s c => finishErr c (if pkOp c.packet = 0x00D0 then stAborted else stTempInhibit) 0 s) s3
  settlePairs (s4.host.pairs.length + 1) s4

/-- The device trips. -/
def trip (s : State) : State :=
  let t := s.afe.therm
  let d := t.sensor + at' 31 (b2n (bitOf t.zones (zoneOf t.sensor)))
  let s1 := haltAll (discardAll false (tripCommands s))
  let s2 := countLife 22 (calAbandon { s1 with boot := { s1.boot with tripped := true, tripN := true, devReady := false } })
  stepChange 15 (updCal (fun c => { c with cmds := [] }) (raise 279 0x03 d s2))

/-! ### The NVM write window (R353) -/

/-- The window at an evaluation: 1 s runs from the first evaluation within range. -/
def nvmWindow (s : State) : State :=
  let out := (List.range 6).find? fun k => decide (effOf s (32 + k) < 0 ∨ 360 < effOf s (32 + k))
  match out with
  | some k =>
    let s1 := updTherm (fun t => { t with winGood := 0 }) { s with nvm := { s.nvm with window := false } }
    if s.nvm.window then writersInhibit (raise 279 0x04 (32 + k) s1) else s1
  | none =>
    if s.nvm.window then s
    else if 1000 ≤ s.afe.therm.winGood then
      nvmPump (raise 279 0x05 0 (updTherm (fun t => { t with winGood := 0 }) { s with nvm := { s.nvm with window := true } }))
    else updTherm (fun t => { t with winGood := t.winGood + 1 }) s

/-! ### Calibration marked due by temperature (R359) -/

/-- An element of a class at an evaluation. -/
def calDueEl (c i : Nat) (s : State) : State :=
  let e := calEl s c i
  let far : Bool := match e.tAtt with
    | some t => decide (4 * (cf s 0x0E 0 0 : Int) < (effOf s (elSensor c i) - t).natAbs)
    | none => false
  if bitOf (cf s 0x0E 0 1) (c - 1) ∧ far ∧ !e.degraded ∧ !e.due then updEl c i (fun e => { e with due := true, dueNs := s.clk.ns }) s else s

/-- Every element. -/
def calDue (s : State) : State :=
  [1, 2, 3].foldl (fun s c => (List.range (elCount c)).foldl (fun s i => calDueEl c i s) s) s

/-! ### The evaluation (R347) -/

/-- SUSPECT and RECOVERED of one sensor; a substitution bars lowering for 10 s (R350). -/
def sensorEvents (v : List Verdict) (i : Nat) (s : State) : State :=
  match v[i]? with
  | none => s
  | some x =>
    if x.became then raise (280 + i) 0x01 x.cause (updTherm (fun t => { t with holdNs := s.clk.ns + sec 10 }) s)
    else if x.recovered then raise (280 + i) 0x02 0 s else s

/-- The readings are taken, tested and formed into effective values and the reported maximum. -/
def senseAll (now : List Int) (s : State) : State :=
  let hist := (now :: s.afe.therm.hist).take 60000
  let v := (List.range 40).map (judgeSensor s now hist)
  let eff := (List.range 40).map (effective now v)
  let m := reported eff
  let s1 := updTherm (fun t => { t with
    hist := hist, eff := eff, cause := v.map Verdict.cause, passes := v.map Verdict.passes, max_ := m.1, sensor := m.2
    zones := ((List.range 5).map fun z => if zoneFails v z then 2 ^ z else 0).sum }) s
  (List.range 40).foldl (fun s i => sensorEvents v i s) s1

/-- What the maximum does. -/
def actThermal (s : State) : State :=
  if s.boot.tripped then warning s
  else if 460 ≤ s.afe.therm.max_ then warning (trip s)
  else governor (warning s)

/-- THERMAL_EVALUATION, every 1 ms. -/
def thermalBody (temps : List Int) (s : State) : State :=
  if s.clk.ns < s.afe.therm.evalNs + ms 1 then s
  else
    let s1 := senseAll (readings temps) (updTherm (fun t => { t with evalNs := t.evalNs + ms 1 }) s)
    calDue (nvmWindow (actThermal s1))

/-- THERMAL_EVALUATION: R347. -/
def execThermalEvaluation (temps : List Int) (s : State) : Out := whenReady (thermalBody temps) s

end Sys2Proof.Machine
end

