-- ==== Sys2Proof/Machine/Serial.lean ====
section
/-! DEFINITION. Serial ports, the slave register view and GPIO (chapter 16). -/

namespace Sys2Proof.Machine

/-! ### Master frames (R325 to R328) -/

/-- Is the port a slave? -/
def spSlave (s : State) (n : Nat) : Bool := decide (spf s n 0 = 1)

/-- ERR of a GO: 0 accepted, else the lowest cause that holds. -/
def goErr (s : State) (n : Nat) : Nat :=
  let x := sp s n
  let buf := bits x.data 0 48
  let len := bits x.data 48 16 + 1
  let lanes := bits x.phase 26 6
  let code := decide (bits x.phase 16 2 = 3 ∨ 5 ≤ bits x.phase 18 3 ∨ bits lanes 0 2 = 3 ∨ bits lanes 2 2 = 3 ∨ bits lanes 4 2 = 3)
  if spSlave s n then 1 else if code then 2 else if buf < 0x10000000 ∨ hbmSize < buf + len then 3 else 0

/-- The frame that the present descriptor describes. -/
def hostFrame (s : State) (n : Nat) : SpFrame :=
  let x := sp s n
  let len := bits x.data 48 16 + 1
  { kind := 0, cmd := msbBytes (bits x.phase 16 2) (bits x.phase 0 16), addr := msbBytes (bits x.phase 18 3) (bits x.phase 32 32)
    inLen := if x.dir then len else 0, outLen := if x.dir then 0 else len, buf := bits x.data 0 48
    select := x.useSel, dummy := bits x.phase 21 5, lanes := bits x.phase 26 6 }

/-- A write of HK_SPM_CTRL: DIR, USE_SEL, DONE and GO (R328). -/
def spmCtrlWrite (n v : Nat) (s : State) : State :=
  let s1 := updSp n (fun x => { x with dir := bitOf v 1, useSel := bitOf v 2, doneBit := x.doneBit && !bitOf v 9 }) s
  if !bitOf v 0 ∨ spBusy (sp s1 n) then s1
  else
    let e := goErr s1 n
    let s2 := updSp n (fun x => { x with err := e }) s1
    if e = 0 then spQueue n (hostFrame s2 n) s2 else raise (222 + n) 0x05 e s2

/-- MASTER_GO: R328; the written value has GO 1. -/
def execMasterGo (port : Fin 4) (v : W32) (s : State) : Out := whenHost (spmCtrlWrite port (setBitN v.toNat 0 true)) s

/-- A master frame has ended. -/
def masterDoneBody (n : Nat) (data : List Byte) (s : State) : State :=
  match (sp s n).run with
  | none => s
  | some f =>
    if s.clk.ns < (sp s n).endNs then s
    else
    let s1 := updSp n (fun x => { x with run := none, lastNs := s.clk.ns }) s
    let s2 := if f.kind = 0 then
        let s2 := if f.inLen = 0 then s1 else hbmWrite f.buf (padTo f.inLen data) s1
        raise (222 + n) 0x04 (f.inLen + f.outLen) (updSp n (fun x => { x with doneBit := true }) s2)
      else roicDone f data s1
    let s3 := spPump n s2
    if f.kind = 1 then dryTiming f.port s3 else s3

/-- MASTER_DONE: R328. -/
def execMasterDone (port : Fin 4) (data : List Byte) (s : State) : Out := whenReady (masterDoneBody port data) s

/-! ### The slave register view (R329 to R333) -/

/-- The effective marker inhibit and shutter override (R333). -/
def inhibitTake (s : State) : State :=
  let slaves := (List.range 4).filter (spSlave s)
  { s with afe := { s.afe with inhibit := slaves.foldl (fun v n => v ||| (sp s n).inhibit) 0
                               shutOvr := slaves.foldl (fun v n => v ||| (sp s n).override) 0 } }

/-- The view group of a source (Table 23.3). -/
def viewGroup (n : Nat) : Nat :=
  if n < 80 then 0 else if n < 112 then 1 else if n < 121 then 2 else if n < 125 then 3 else if n < 134 then 4
  else if n < 198 then 5 else if n < 214 then 6 else if n < 218 then 7 else if n < 222 then 8 else if n < 226 then 9
  else if n < 230 then 10 else if n < 278 then 11 else if n = 278 then 12 else if n = 279 then 13 else if n < 320 then 14
  else if n < 324 then 15 else if n = 324 then 16 else if n = 325 then 17 else if n = 326 then 18 else if n = 327 then 19
  else if n = 328 then 20 else if n = 329 then 21 else if n < 334 then 22 else if n = 334 then 23 else if n < 352 then 24 else 25

/-- EVENTS. -/
def viewEvents (s : State) : Nat :=
  ((List.range 26).map fun g => if (List.range 512).any fun n => decide (viewGroup n = g) && pendBit s n then 2 ^ g else 0).sum

/-- Does any port run? -/
def anyRunning (s : State) : Bool :=
  ((List.range 32).any fun p => (port s p).running) || (List.range 4).any fun p => (dry s p).running

/-- Sensors suspect. -/
def suspects (s : State) : Nat := (s.afe.therm.cause.filter fun c => decide (c ≠ 0)).length

/-- STATUS of the view. -/
def viewStatus (s : State) : Nat :=
  b2n (decide (s.boot.phase = .ready)) + 2 * b2n (anyRunning s) + 4 * b2n s.boot.tripped + 8 * b2n s.clk.xtalFail
    + 16 * b2n (decide (0 < s.afe.step)) + 32 * b2n (decide (0 < suspects s)) + 64 * b2n (decide (s.afe.inhibit ≠ 0))
    + 128 * b2n s.boot.profApplied

/-- SHUT_STATE of a dryer port. -/
def shutState (d : Dry) : Nat :=
  match d.closure with
  | some c => c.step
  | none => if d.waiting then 6 else 0

/-- The greatest latest reading of sensors `a` to `b`. -/
def groupMax (s : State) (a n : Nat) : Int :=
  let now := s.afe.therm.hist.headD s.afe.therm.eff
  (greatest ((List.range n).map fun i => now.getD (a + i) 0)).getD 0

/-- The view as a refresh fills it: Table 16.2, with the bytes of each port's own left 0. -/
def viewBytes (s : State) : List Byte :=
  let i16 (v : Int) : List Byte := leBytes 2 (ofS 16 v)
  let chans := List.range 16
  leBytes 1 (viewStatus s) ++ [0, 1] ++ leBytes 1 s.chain.devId ++ leBytes 4 (s.clk.tb / 1000000000)
  ++ i16 s.afe.therm.max_ ++ leBytes 1 s.afe.step ++ leBytes 1 (suspects s)
  ++ i16 (groupMax s 0 32) ++ i16 (groupMax s 32 6) ++ i16 (groupMax s 38 2) ++ zeros 2
  ++ leBytes 4 (viewEvents s) ++ leBytes 8 s.web.knot.devSeq
  ++ leBytes 8 (chans.map fun n => (chan s n).fires).sum ++ leBytes 4 s.afe.skips ++ leBytes 4 s.afe.lates
  ++ leBytes 4 s.web.knot.blindAll ++ leBytes 4 s.ing.truncAll
  ++ ((List.range 4).flatMap fun p => leBytes 1 (shutState (dry s p) + 128 * b2n (dry s p).running))
  ++ leBytes 2 ((chans.map fun n => if (chan s n).inhibit then 2 ^ n else 0).sum) ++ leBytes 2 s.afe.arm
  ++ ((List.range 4).flatMap fun e => leBytes 8 (ofS 64 (encE s e)))
  ++ zeros 4 ++ leBytes 2 s.afe.inhibit ++ leBytes 1 s.afe.shutOvr ++ zeros 25

/-- The view is filled. -/
def viewFill (s : State) : State := { s with afe := { s.afe with view := viewBytes s } }

/-- VIEW_REFRESH, every 100 µs from ready, where the view is filled first (DESIGN CHOICE 94). -/
def viewRefreshBody (s : State) : State :=
  if s.clk.ns < s.afe.viewNs + us 100 then s
  else { viewFill s with afe := { (viewFill s).afe with viewNs := s.afe.viewNs + us 100 } }

/-- VIEW_REFRESH: R330. -/
def execViewRefresh (s : State) : Out := whenReady viewRefreshBody s

/-- The snapshot of a port: the last refresh with its own FLAGS and writable bytes (R330). -/
def viewSnap (s : State) (n : Nat) : List Byte :=
  let x := sp s n
  overlay (overlay (overlay s.afe.view 0x01 (leBytes 1 x.flags)) 0x60 (leBytes 2 x.inhibit ++ leBytes 1 x.override)) 0x68 x.scratch

/-- A slave port's IO0 to IO3 (R323). -/
def slavePins (selected : Bool) : List SpPin := [.input, if selected then .output else .highZ, .highZ, .highZ]

/-- An aborted frame (R332, R340). -/
def frameAborts (n edges : Nat) (s : State) : State :=
  let s1 := updSp n (fun x => { x with flags := x.flags ||| 2, aborted := true, underran := false }) s
  if (sp s n).aborted then s1 else raise (222 + n) 0x01 edges s1

/-- A read frame: the bytes shifted out, STATUS first. `late` says that data byte 0 met a refresh and came late (R331). -/
def slaveReadBody (n reg edges : Nat) (late : Bool) (s : State) : State :=
  if !spSlave s n then s
  else
    let snap := viewSnap s n
    let status := leBytes 1 (viewStatus s)
    let slots := (edges + 7) / 8 - 1
    let data := (List.range slots).flatMap fun k => if k = 0 ∧ late then status else slice snap ((reg + k) % 128) 1
    let s1 := emit (.slaveOut n (slavePins true) (status ++ data)) s
    if edges = 0 ∨ edges % 8 ≠ 0 then frameAborts n edges s1
    else
      let under := late && decide (0 < slots)
      let s2 := updSp n (fun x => { x with flags := if under then x.flags ||| 1 else x.flags, aborted := false, underran := under }) s1
      if under ∧ !(sp s n).underran then raise (222 + n) 0x02 0 s2 else s2

/-- SLAVE_READ_FRAME: R330. -/
def execSlaveReadFrame (port : Fin 4) (reg : BitVec 7) (edges : Nat) (late : Bool) (s : State) : Out :=
  whenReady (slaveReadBody port reg.toNat edges late) s

/-- One data byte of a write frame: the port with it, and whether the register takes it (Table 16.2). -/
def slaveByte (x : Sp) (r v : Nat) : Sp × Bool :=
  if r = 0x01 then ({ x with flags := x.flags &&& (7 - v % 8) }, true)
  else if r = 0x60 then ({ x with inhibit := x.inhibit / 256 * 256 + v }, true)
  else if r = 0x61 then ({ x with inhibit := x.inhibit % 256 + 256 * v }, true)
  else if r = 0x62 then ({ x with override := v % 16 }, true)
  else if 0x68 ≤ r ∧ r < 0x70 then ({ x with scratch := overlay x.scratch (r - 0x68) (leBytes 1 v) }, true)
  else (x, false)

/-- The data bytes of a write frame, all in one step. -/
def slaveBytes (x : Sp) (reg : Nat) (vs : List Byte) : Sp × Bool :=
  ((List.range vs.length).zip vs).foldl (fun (a : Sp × Bool) kv =>
    let y := slaveByte a.1 ((reg + kv.1) % 128) kv.2.toNat
    (y.1, a.2 && y.2)) (x, true)

/-- A write frame at the release of select (R332, R333). -/
def slaveWriteBody (n reg edges : Nat) (vs : List Byte) (s : State) : State :=
  if !spSlave s n then s
  else
    -- during the command byte the device shifts out STATUS (R329)
    let s := emit (.slaveOut n (slavePins true) (leBytes 1 (viewStatus s))) s
    if edges % 8 ≠ 0 ∨ edges < 16 then frameAborts n edges s
    else
    let old := sp s n
    let y := slaveBytes old reg (padTo (edges / 8 - 1) vs)
    let s1 := updSp n (fun _ => { y.1 with flags := if y.2 then y.1.flags else y.1.flags ||| 4, aborted := false, underran := false }) s
    let s2 := inhibitTake s1
    if y.1.inhibit ≠ old.inhibit ∨ y.1.override ≠ old.override then
      raise (222 + n) 0x03 (y.1.inhibit + at' 16 y.1.override) s2
    else s2

/-- SLAVE_WRITE_FRAME: R332. -/
def execSlaveWriteFrame (port : Fin 4) (reg : BitVec 7) (edges : Nat) (data : List Byte) (s : State) : Out :=
  whenReady (slaveWriteBody port reg.toNat edges data) s

/-! ### GPIO (R334) -/

/-- A rising edge reaches the consumers that name the pin: triggers, converters and presets. -/
def gpioRises (n : Nat) (s : State) : State :=
  let s1 := (List.range 32).foldl (fun s p =>
    if hbMode s p = 2 ∧ cf s 0x02 p 0x11 = n ∧ (port s p).running ∧ (port s p).cur.isSome ∧ !s.boot.tripped then issueTrigger p s else s) s
  let s2 := (List.range 4).foldl (fun s u => if hkc s u 4 = n then hkTrigger u 5 s else s) s1
  (List.range 4).foldl (fun s e =>
    if (enc s e).armed = some 3 ∧ cf s 0x0C e 2 = n ∧ !sharedHere s e then encPreset e s else s) s2

/-- A change of a ball's level passes FILTER. -/
def gpioTake (n : Nat) (s : State) : State :=
    let inv := bitOf (pinf s n 1) 0
    let ball := !bitOf s.afe.gpio n
    let s1 := { s with afe := { s.afe with gpio := setBitN s.afe.gpio n ball, gpioNew := tblErase s.afe.gpioNew n } }
    if Bool.xor ball inv then
      let s2 := gpioRises n s1
      if bitOf (pinf s n 1) 1 then raise (230 + n) 0x01 0 s2 else s2
    else if bitOf (pinf s n 1) 2 then raise (230 + n) 0x02 0 s1 else s1

/-- A new level that a pin has held for FILTER × 5 ns is taken (R334). -/
def gpioSettle (n : Nat) (s : State) : State :=
  match tblFind s.afe.gpioNew n with
  | some t => if t + 5 * pinf s n 2 ≤ s.clk.ns then gpioTake n s else s
  | none => s

/-- The filters as the clock runs. -/
def gpioFilters (s : State) : State := s.afe.gpioNew.foldl (fun s x => gpioSettle x.1 s) s

/-- A change of the level at a ball. A pin that the device drives has the level that it drives. -/
def gpioEdgeBody (n : Nat) (level : Bool) (s : State) : State :=
  let ball := if gpioDrives s n then Bool.xor (gpioDriven s n) (bitOf (pinf s n 1) 0) else level
  if bitOf s.afe.gpio n = ball then { s with afe := { s.afe with gpioNew := tblErase s.afe.gpioNew n } }
  else if (tblFind s.afe.gpioNew n).isSome then gpioSettle n s
  else gpioSettle n { s with afe := { s.afe with gpioNew := tblSet s.afe.gpioNew n s.clk.ns } }

/-- GPIO_EDGE: R334. Before ready the level is taken, and reaches no consumer. -/
def execGpioEdge (n : Fin 48) (level : Bool) (s : State) : Out :=
  .next (if s.boot.phase = .ready then gpioEdgeBody n level s
    else { s with afe := { s.afe with gpio := setBitN s.afe.gpio n level } })

/-- STROBE_PULSE_END: STROBE_WIDTH after the trigger (R334). -/
def strobeEndBody (n : Nat) (s : State) : State :=
  match tblFind s.afe.strobes n with
  | none => s
  | some t =>
    if t + 100 * pinf s n 6 ≤ s.clk.ns then { s with afe := { s.afe with strobes := tblErase s.afe.strobes n } } else s

/-- STROBE_PULSE_END: R334. -/
def execStrobePulseEnd (n : Fin 48) (s : State) : Out := whenReady (strobeEndBody n) s

end Sys2Proof.Machine
end

