-- ==== Sys2Proof/Machine/Commit.lean ====
section
/-! DEFINITION. Configuration: staging, validation, hand-over, and how each instance takes its part (R36 to R46). -/

namespace Sys2Proof.Machine

/-! ### Hand-over (R42 to R45) -/

/-- The blocks whose parts come into force at T_v (Table 2.6). -/
def atOnce (blk : Nat) : Bool := decide (blk = 0x01 ∨ (0x09 ≤ blk ∧ blk ≤ 0x13))

/-- Changed SCALE restarts the highest reading; a changed PRESET_SEQ arms or disarms a preset (R338, R339). -/
def encoderTook (old : State) (e : Nat) (s : State) : State :=
  let s1 := if encScale old e ≠ encScale s e then encRestart e s else s
  if cf old 0x0C e 0x14 = cf s1 0x0C e 0x14 then s1
  else
    let m := cf s1 0x0C e 1
    let s2 := setEnc e { enc s1 e with armed := if m = 0 then none else some m } s1
    if m = 1 then encPreset e s2 else s2

/-- A layout commit restarts W and empties every area (R289). Tiles that wait are written first, where the old layout places
them: a record goes to its queue only after its tile is complete (R286). Logical raw blocks are numbered on, from the area's
start, so that no stripe to come bears the number of one that is gone. -/
def layoutTook (old s0 : State) : State :=
  let s := s0.web.hist.tiles.foldl (fun t j => hbmWrite (tileAddr old (j.block % max 1 (tileN old))) j.bytes t) s0
  let noRaw (t : Stripe) : Stripe := { t with rawAddr := none, rawLines := [] }
  let s1 := { s with ing := { s.ing with ports := s.ing.ports.map fun x => (x.1, { x.2 with cur := x.2.cur.map noRaw, old := x.2.old.map noRaw }) } }
  let s2 := histUpd (fun h => { rawLose h.raw h with w := 0, tiles := [], group := [], viewJobs := [], raw := [], rawPos := (h.rawPos + rawBlocks s0 - 1) / max 1 (rawBlocks s0) * max 1 (rawBlocks s0) }) s1
  knotUpd (fun k => { k with recs := k.recs.map fun r => { r with tile := none } }) s2

/-- Fields of a converter unit whose change restarts its sequence (R311). -/
def hkSequence (s : State) (u : Nat) : List Nat := (0 :: 1 :: (List.range 16).map (0x10 + ·)).map (hkc s u)

/-- What a part that comes into force at T_v changes besides the values. `g` are the group's values. -/
def tookAt (old : State) (g : Tbl Nat) (part : Nat × Nat) (s : State) : State :=
  match part.1 with
  | 0x01 => laneCommit old part.2 s
  | 0x09 => markTook part.2 (if part.2 < 16 then tblFind g (cfgAddr 0x09 part.2 0) else none) old s
  | 0x0A =>
    let s1 := (List.range 4).foldl (fun s u => hkTook old u s) s
    if hkSequence old part.2 ≠ hkSequence s part.2 then hkChanged part.2 s1 else s1
  | 0x0B => inhibitTake s
  | 0x0C => if part.2 < 4 then encoderTook old part.2 s else s
  | 0x0D => stepMinTaken s
  | 0x0E => sramAuto [] s
  | 0x11 =>
    let s1 := recompute ((List.range 4).foldl (fun s e => if sharedHere old e ≠ sharedHere s e then encRestart e s else s) s)
    if part.2 < 4 then feltCommit old part.2 s1 else s1
  | 0x12 => if cf old 0x12 0 0 ≠ cf s 0x12 0 0 then { s with bist := { s.bist with spareNs := s.clk.ns, spareRetryNs := none } } else s
  | 0x13 => if g.any fun v => decide (addrBlk v.1 = 0x13 ∧ addrOff v.1 ≠ 0x28) && decide (cfAt old v.1 ≠ cfAt s v.1) then layoutTook old s else s
  | _ => s

/-- A group that has passed validation is handed over with the next sequence number (R42); what need not wait for a
boundary comes into force. -/
def handOver (g : Tbl Nat) (s : State) : State :=
  let parts := (g.map fun v => partOf v.1).eraseDups
  let o := withAccepted s
  let n := buildMaps g (layOver g o)
  let a : Accepted := { seq := s.cfg.seq + 1, tv := s.clk.tb, parts := parts, vals := g, map := changesMap o n
                        maps := if parts.contains (0x06, 0) then some n.web.couch.resMap else none }
  let s1 := { s with cfg := { s.cfg with seq := s.cfg.seq + 1, accepted := s.cfg.accepted ++ [a] } }
  let now := parts.filter fun p => atOnce p.1
  let s2 := now.foldl (fun s p => takePart p.1 p.2 s) s1
  stoppedTake (now.foldl (fun s' p => tookAt s g p s') s2)

/-! ### Validation (R41) -/

/-- The failed check that a group reports, if any, with the items that it loads. -/
def validateWith (loads : List ItemId) (s : State) (g : Tbl Nat) : Option Fail :=
  let o := withAccepted s
  reportFail (checksOf { s := s, o := o, n := buildMaps g (layOver g o), g := g, loads := loads })
/-- The same for a group that loads nothing. -/
def validate (s : State) (g : Tbl Nat) : Option Fail := validateWith [] s g

/-- The result of a failed validation: the address, and the rule number in bits [47:32]. -/
def failResult (f : Fail) : Nat := f.1 + at' 32 f.2

/-! ### CFG_STAGE (R36 to R39) -/

/-- The open group of a number. -/
def openGroup (s : State) (g : Nat) : Option (Tbl Nat) := tblFind s.cfg.groups g

/-- The fields that a CFG_STAGE covers, by address. -/
def stagedAddrs (c : Cmd) : List Nat :=
  let t := pkTarget c.packet
  ((fieldsOf (addrBlk t) (addrInst t)).filter fun f =>
      decide (addrOff t ≤ f.off ∧ f.off + f.width ≤ addrOff t + pkLen c.packet) && !f.resv).map
    fun f => cfgAddr (addrBlk t) (addrInst t) f.off

/-- Bytes of staged fields. -/
def groupBytes (as : List Nat) : Nat := (as.map fun a => ((fieldAt a).map Field.width).getD 0).sum

/-- Does a CFG_COMMIT of the group validate now (R108)? -/
def validating (s : State) (g : Nat) : Bool :=
  s.cmds.flight.any fun d => decide (pkOp d.packet = 0x0011) && d.started && d.sentTo.isNone && decide (pm8 d.packet 0x18 = g)

/-- Is a CFG_COMMIT of the group validating (R108), a covered field staged in another open group, or would the group be
the seventeenth (R39)? -/
def stageBusy (c : Cmd) (s : State) : Bool :=
  let g := pm8 c.packet 0x18
  let as := stagedAddrs c
  validating s g || (s.cfg.groups.any fun x => decide (x.1 ≠ g) && x.2.any fun v => as.contains v.1)
    || ((openGroup s g).isNone && decide (16 ≤ s.cfg.groups.length))

/-- Would the group exceed 65,536 bytes (R39)? -/
def stageBig (c : Cmd) (s : State) : Bool :=
  let old := (((openGroup s (pm8 c.packet 0x18)).getD []).map Prod.fst)
  decide (65536 < groupBytes (old ++ (stagedAddrs c).filter fun a => !old.contains a))

/-- The data is at hand: the stated ranges of its fields are checked first (R37, step 2 of R105), then BUSY, then the size of
the group; then it is staged. -/
def stageData (c : Cmd) (bs : List Byte) (s : State) : State :=
  let t := pkTarget c.packet
  let data := padTo (pkLen c.packet) bs
  if !stageRangesOk (addrBlk t) (addrInst t) (addrOff t) data then finishCheck c stBadParam s
  else if stageBusy c s then finishCheck c stBusy s
  else if stageBig c s then finishCheck c stBadParam s
  else
    let old := (openGroup s (pm8 c.packet 0x18)).getD []
    let vals := (coveredFields (addrBlk t) (addrInst t) (addrOff t) data).foldl
      (fun v x => tblSet v (cfgAddr (addrBlk t) (addrInst t) x.1.off) x.2) old
    finishOk c 0 (pkLen c.packet) { s with cfg := { s.cfg with groups := tblSet s.cfg.groups (pm8 c.packet 0x18) vals } }

/-- The data of a CFG_STAGE for another device that could not be reached are at hand: their ranges (R37) go before
CHAIN_UNREACHABLE (R105). A target that can be reached by now takes the command. -/
def stageAwayData (c : Cmd) (bs : List Byte) (s : State) : State :=
  let t := pkTarget c.packet
  awayPump c.sq s.cmds.flight.length
    (if !stageRangesOk (addrBlk t) (addrInst t) (addrOff t) (padTo (pkLen c.packet) bs) then finishCheck c stBadParam s
    else forwardCmd (pairTarget s c.sq) c s)

/-- CFG_STAGE starts. -/
def cfgStageStart (d : HostRead) (c : Cmd) (s : State) : State :=
  if c.origin = .here ∧ pairTarget s c.sq ≠ s.chain.devId then needHost (fun c s => hostIn c d 0 (stageAwayData c) s) c s
  else if stageInline c.packet then stageData c (slice c.packet 0x20 (pkLen c.packet)) s
  else needHost (fun c s => hostIn c d 0 (stageData c) s) c s

/-- CFG_STAGE: R36 to R39, R108. -/
def execCfgStage (sq : Fin 1024) (tag : W32) (d : HostRead) (s : State) : Out :=
  opcodeRow sq tag 0x0010 (cfgStageStart d) (fun _ s => s) s

/-! ### CFG_COMMIT (R41, R42) -/

/-- Close an open group. -/
def closeGroup (g : Nat) (s : State) : State := { s with cfg := { s.cfg with groups := tblErase s.cfg.groups g } }

/-- CFG_COMMIT begins to validate its group (R108). -/
def commitStart (c : Cmd) (s : State) : State :=
  let n := pm8 c.packet 0x18
  if validating s n then finishCheck c stBusy s
  else if ((openGroup s n).getD []).isEmpty then finishCheck c stBadParam s
  else (beginWork c 0 s).2

/-- Validation ends: the group is handed over, or stays open (R41, R42). -/
def commitEnds (c : Cmd) (s : State) : State :=
  let n := pm8 c.packet 0x18
  let g := (openGroup s n).getD []
  if g.isEmpty then finishErr c stBadParam 0 s
  else match validate s g with
  | some f => finishErr c stInconsistent (failResult f) s
  | none => finishOk c (s.cfg.seq + 1).toNat 0 (handOver g (closeGroup n s))

/-- The discard variant. -/
def discardStart (c : Cmd) (s : State) : State :=
  let n := pm8 c.packet 0x18
  if validating s n then finishCheck c stBusy s
  else if (openGroup s n).isNone then finishCheck c stBadParam s else finishOk c 0 0 (closeGroup n s)

/-- CFG_COMMIT: R41, R42, R108; the row of a command without DISCARD. The first row of a command begins the validation and
the next ends it (log entry 7). -/
def execCfgCommit (sq : Fin 1024) (tag : W32) (s : State) : Out :=
  opcodeRow sq tag 0x0011 (fun c s => if pkOpt8 c.packet then s else commitStart c s) commitEnds s

/-- CFG_COMMIT_DISCARD: R41; the row of a command with DISCARD. -/
def execCfgCommitDiscard (sq : Fin 1024) (tag : W32) (s : State) : Out :=
  opcodeRow sq tag 0x0011 (fun c s => if pkOpt8 c.packet then discardStart c s else s) (fun _ s => s) s

/-! ### CFG_READ (R46) -/

/-- The bytes that CFG_READ returns: values in force, or the staged ones over them; reserved bytes read 0. -/
def readConfig (s : State) (g : Tbl Nat) (t len : Nat) : List Byte :=
  let off := addrOff t
  ((fieldsOf (addrBlk t) (addrInst t)).filter fun f => decide (off ≤ f.off ∧ f.off + f.width ≤ off + len) && !f.resv).foldl
    (fun bs f =>
      let a := cfgAddr (addrBlk t) (addrInst t) f.off
      -- RELEASE of a table set reads as 0, in force and staged (R193)
      let v := if addrBlk t = 0x04 ∧ f.off = 2 then 0 else (tblFind g a).getD (cfAt s a)
      overlay bs (f.off - off) (leBytes f.width v)) (zeros len)

/-- CFG_READ starts. -/
def cfgReadStart (io : HostIo) (c : Cmd) (s : State) : State :=
  let out (g : Tbl Nat) : State :=
    hostOut c (readConfig s g (pkTarget c.packet) (pkLen c.packet)) io (fun c s => finishOk c 0 (pkLen c.packet) s) s
  if pkOpt8 c.packet then
    (if validating s (pm8 c.packet 0x18) then finishCheck c stBusy s
    else match openGroup s (pm8 c.packet 0x18) with
      | none => finishCheck c stBadParam s
      | some g => out g)
  else out []

/-- CFG_READ: R46. -/
def execCfgRead (sq : Fin 1024) (tag : W32) (io : HostIo) (s : State) : Out :=
  opcodeRow sq tag 0x0012 (cfgReadStart io) (fun _ s => s) s

/-! ### COMMIT_BOUNDARY (R43) -/

/-- Were all groups with a waiting part handed over before TB_NOW `t`? -/
def allBefore (s : State) (part : Nat × Nat) (t : Nat) : Bool :=
  s.cfg.accepted.all fun g => !g.parts.contains part || decide (g.tv < t)

/-- The stripe in progress of a running port began after every hand-over of a part, and has counted no line. -/
def freshStripe (s : State) (p : Nat) (part : Nat × Nat) : Bool :=
  match (port s p).cur with
  | some t => decide (t.counted = 0) && allBefore s part t.beginTb
  | none => false

/-- A running instance at its boundary of Table 2.6 brings its part into force. -/
def boundaryTake (blk inst : Nat) (s : State) : State :=
  match blk with
  | 0x02 | 0x04 => if freshStripe s inst (blk, inst) then portBoundary inst s else s
  | 0x03 => let s1 := plansTake s
            takeSel (tiedWire inst) (0x03, inst) (wireDue s1 inst) s1
  | 0x05 => match (dry s inst).frame with
    | some f => if f.got = 0 ∧ !dryShut s inst ∧ allBefore s (0x05, inst) f.syncTb then dryBoundary inst (some f.number) s else s
    | none => s
  | 0x06 => couchTake (some s.web.couch.minTb) s
  | 0x07 => if inst < 8 then sliceTake inst (some s.web.knot.lastMin) s else mergerBoundary (some s.web.knot.lastMin) s
  | 0x08 => if 1 ≤ rlSource s inst ∧ rlSource s inst ≤ 3 then reelBoundary inst (some s.web.couch.minTb) s else s
  | _ => s

/-- COMMIT_BOUNDARY: stopped instances take what waits, and the named one does so at its boundary. -/
def execCommitBoundary (blk inst : BitVec 8) (s : State) : Out :=
  whenReady (fun s => boundaryTake blk.toNat inst.toNat (stoppedTake s)) s

end Sys2Proof.Machine
end

