-- ==== Sys2Proof/Machine/AbortOps.lean ====
section
/-! DEFINITION. Stopping a command that runs: what an aborted command leaves in force (Table 5.10), and when ABORT may
stop it (Table 5.3). -/

namespace Sys2Proof.Machine

/-- May ABORT stop the command now, once it has started (Table 5.3)? -/
def abortable (s : State) (c : Cmd) : Bool :=
  match pkOp c.packet with
  | 0x0011 | 0x0020 | 0x0031 | 0x0040 | 0x0041 | 0x00A0 | 0x00B1 | 0x00C1 | 0x00D0 | 0x00F0 => true
  | 0x0050 =>
    -- until shutter motion
    let d := dry s (pkInst c.packet)
    d.reqCids.contains c.cid || d.reqHoldCids.contains c.cid
  | 0x0080 => (List.range 16).any fun n => (allJobs (chan s n)).any fun j => decide (j.cid = some c.cid)
  | 0x00E0 => s.ing.swap.any fun x => decide (x.cid = c.cid) && !x.handed
  | _ => false

/-- A load stops: the item is INVALID (R109), but for one whose bank was released. -/
def stopLoad (c : Cmd) (s : State) : State :=
  if itemState s (loadItem c) = 0 then s else setItem (loadItem c) 3 [] s

/-- A PORT_STOP stops: the port keeps running while no other PORT_STOP waits. -/
def stopPortStop (c : Cmd) (s : State) : State :=
  let p := pkInst c.packet
  let blk := addrBlk (pkTarget c.packet)
  if (stopsOf s blk p).any fun d => decide (d.cid ≠ c.cid) then s
  else if blk = 0x02 then updPort p (fun x => { x with stopping := false }) s
  else updDry p (fun d => { d with stopping := false }) s

/-- A request without its host's part: the START closure still stands. -/
def noHost (d : Dry) : Option Nat := if d.startDue then some 5 else none

/-- A mark without a command. -/
def markWithout (cid : Nat) : DryMark → DryMark
  | .over tb failed cids => .over tb failed (cids.erase cid)
  | .blind => .blind
  | .overflow => .overflow
  | .viewed => .viewed

/-- A SHUTTER stops: its request is withdrawn; a closure that it alone made opens again. -/
def stopShutter (c : Cmd) (s : State) : State :=
  let p := pkInst c.packet
  let act := pm8 c.packet 0x18
  let opens (k : Closure) : Bool :=
    (k.cids.contains c.cid || k.holdCids.contains c.cid) && decide (act ≤ 1) && (k.cids.erase c.cid).isEmpty
      && (k.holdCids.erase c.cid).isEmpty && decide (k.reason = 4) && decide (k.step ≠ 4 ∧ k.step ≠ 7)
  let s0 := if (dry s p).closure.any opens then shutRelease (shutChan s p) s else s
  updDry p (fun d =>
    let cids := d.reqCids.erase c.cid
    let holds := d.reqHoldCids.erase c.cid
    let lone := d.reqCids.contains c.cid || d.reqHoldCids.contains c.cid
    let d1 := { d with reqCids := cids, reqHoldCids := holds, reqHold := d.reqHold && !holds.isEmpty
                       req := if lone && cids.isEmpty && holds.isEmpty && decide (d.req = some 4) then noHost d else d.req }
    let opened (k : Closure) : Closure :=
      let k1 := { k with cids := k.cids.erase c.cid, holdCids := k.holdCids.erase c.cid }
      if opens k then { k1 with step := 4, left := k.reopen, failed := true, hold := false } else k1
    { d1 with closure := d1.closure.map opened, waiting := d1.waiting && d1.req.isSome, reqNoted := d1.reqNoted && d1.req.isSome
              due := d1.due.map (markWithout c.cid)
              marks := d1.marks.map fun m => { m with mark := markWithout c.cid m.mark } }) s0

/-- A MARK_FIRE stops: its job is discarded. -/
def stopMarkFire (c : Cmd) (s : State) : State :=
  let other (j : MJob) : Bool := decide (j.cid ≠ some c.cid)
  (List.range 16).foldl (fun s n =>
    updChan n (fun x => { x with
      incoming := x.incoming.filter other
      jobs := x.jobs.filter other
      wait := x.wait.bind fun w =>
        let r := w.reqs.filter fun q => other q.job
        if r.isEmpty ∧ !w.reqs.isEmpty ∧ !w.shutter then none else some { w with reqs := r } }) s) s

/-- Pages that an NVM_WRITE has written, with the one in progress, which is written whole (R374). -/
def writtenPages (s : State) (c : Cmd) : Nat :=
  c.position + b2n (s.nvm.page.any fun p => match p.job with
    | .command cid _ => decide (cid = c.cid)
    | _ => false)

/-- A record write is withdrawn; a page of it in progress is still written, and leaves a copy that is not valid (R377). -/
def withdrawRecord (id : Nat) (s : State) : State :=
  updNvm (fun n => { n with
    records := n.records.filter fun r => decide (r.id ≠ id)
    page := n.page.map fun p => match p.job with
      | .record i _ => if i = id then { p with job := .withdrawn id } else p
      | _ => p }) s

/-- An NVM_WRITE stops; a page of it in progress is still written, and a record reads as before (R377). -/
def stopWriter (c : Cmd) (s : State) : State :=
  writerDone c.cid (if pkOpt8 c.packet then
    updNvm (fun n => { n with page := n.page.map fun p => match p.job with
      | .command cid _ => if cid = c.cid then { p with job := .withdrawn (writerRecord c) } else p
      | _ => p }) s
  else s)

/-- Is the image known to be an owner enrolment: its header has been read so far? -/
def stageEnrols (c : Cmd) : Bool := decide (c.aux = 2) || (decide (8 ≤ c.buf.length) && decide (imType c.buf = 2))

/-- An FW_STAGE stops: the slot's first block is erased, which leaves it empty (Table 5.10, R396), while the image is read too; an
owner enrolment, which writes no slot, is dropped. -/
def stopStage (c : Cmd) (s : State) : State :=
  if stageEnrols c then withdrawRecord 4 s
  else flashErase (slotFlash s (fwSlot c)) 1 (updSec (fun x => { x with slotHash := tblErase x.slotHash (fwSlot c) }) s)

/-- An FW_ACTIVATE is stopped by a tender restart that is not its own: a boot selector that has not been written is withdrawn
(R20, DESIGN CHOICE 59). -/
def stopActivate (c : Cmd) (s : State) : State := if c.aux = 1 then withdrawRecord 5 s else s

/-- A CALIBRATE stops: the element in progress finishes, and no further element starts on its account (R361). -/
def stopCalibrate (c : Cmd) (s : State) : State :=
  let s1 := updCal (fun k => { k with cmds := k.cmds.filter fun x => decide (x.cid ≠ c.cid) }) s
  calDone ((List.range 4).foldl (fun s u => updHk u (fun x => { x with calWait := x.calWait && (!x.cids.isEmpty || elWanted s1 2 u) }) s) s1)

/-- An ADC_SELFCAL stops: a self-calibration that nothing else asked for is broken off, so that no factors of it land (R20, DESIGN
CHOICE 59). -/
def stopSelfcal (c : Cmd) (s : State) : State :=
  let u := pkInst c.packet
  let left := (hk s u).cids.erase c.cid
  let s1 := updHk u (fun x => { x with cids := left, calWait := x.calWait && (!left.isEmpty || elWanted s 2 u) }) s
  if (hk s u).st = 3 ∧ (hk s u).cids.contains c.cid ∧ left.isEmpty ∧ !(calEl s 2 u).due ∧ !calNamed s 2 u then hkResume u s1 else s1

/-- A WIRE_SWAP stops: the wires keep their roles (Table 5.10), and one that a restart of its tender stops after hand-over is
undone, so that no effect of it is in force (R20). -/
def stopSwap (c : Cmd) (s : State) : State :=
  match s.ing.swap with
  | none => s
  | some x =>
    if x.cid ≠ c.cid then s
    else if x.handed then swapUndo x s else { s with ing := { s.ing with swap := none } }

/-- What a command that is stopped leaves in force (Table 5.10). -/
def stopEffect (c : Cmd) (s : State) : State :=
  match pkOp c.packet with
  | 0x0020 => let n := pkInst c.packet
    setLane n { lane s n with st := 1, hold := true } s
  | 0x0031 => stopPortStop c s
  | 0x0040 | 0x0060 => stopLoad c s
  | 0x0041 => reprocClose (pkInst c.packet) s
  | 0x0050 => stopShutter c s
  | 0x0071 => match tblFind s.host.pairs (pm32 c.packet 0x1C) with
    | some p => { s with host := { s.host with pairs := tblSet s.host.pairs (pm32 c.packet 0x1C) { p with draining := false } } }
    | none => s
  | 0x0080 => stopMarkFire c s
  | 0x0090 => stopSelfcal c s
  | 0x00A0 => stopCalibrate c s
  | 0x00B1 => stopWriter c s
  | 0x00C1 => stopStage c s
  | 0x00D0 => stopBist s
  | 0x00C2 => stopActivate c s
  | 0x00E0 => stopSwap c s
  | 0x00F0 => { s with chain := { s.chain with search := none, found := [] } }
  | _ => s

/-- POSITION of a stopped command: the progress reached. -/
def stopPosition (s : State) (c : Cmd) : Nat := if pkOp c.packet = 0x00B1 then writtenPages s c else c.position

/-- An FW_STAGE's slot is erased before it completes (R396): its ABORT waits for a frame that runs on SP0 (R326). -/
def stageWaits (s : State) (d : Cmd) : Bool := decide (pkOp d.packet = 0x00C1) && !stageEnrols d && flashHeld s

/-- ABORT and its answer: the stopped command completes first (R120). A command that another device runs is stopped there
(log entry 57). -/
def abortStart (c : Cmd) (s : State) : State :=
  let sq := pm16 c.packet 0x18
  let tag : W32 := BitVec.ofNat 32 (pm32 c.packet 0x1C)
  match cmdNamed s sq tag with
  | none =>
    if s.cmds.finished.contains (sq, tag) then finishOk c 1 0 s
    else if s.chain.head then finishOk c 2 0 s else forwardCmd 0 c s
  | some d =>
    if pkOp d.packet = 0x0002 ∨ pkOp d.packet = 0x0003 then finishOk c 3 0 s
    else if d.sentTo.isSome then forwardCmd (d.sentTo.getD 0) c s
    else if !d.started then finishOk c 0 0 (awayPump d.sq s.cmds.flight.length (finish d stAborted 0 0 0 s))
    else if abortable s d then
      if stageWaits s d then putCmd { c with started := true, startNs := s.clk.ns } s
      else
      let pos := stopPosition s d
      finishOk c 0 0 (finish d stAborted (percentOf { d with position := pos }) 0 pos (stopEffect d s))
    else finishOk c 3 0 s

/-- ABORT: R120. -/
def execAbort (sq : Fin 1024) (tag : W32) (s : State) : Out := opcodeRow sq tag 0x0003 abortStart abortStart s

/-! ### Tender restarts (R19, R20) -/

/-- A tender restarts: its running commands are aborted and complete when processing resumes; `but` is the FW_ACTIVATE
that asks for the restart; one whose image the tenders have started already is completed by that image (R398, DESIGN CHOICE 59). -/
def tenderStop (t cause : Nat) (but : Option Nat) (s : State) : State :=
  let mine (c : Cmd) : Bool :=
    c.started && c.sentTo.isNone && decide (opTender (pkOp c.packet) = t) && decide (some c.cid ≠ but)
      && !decide (pkOp c.packet = 0x00C2 ∧ c.aux = 2)
  let cs := s.cmds.flight.filter mine
  let s1 := cs.foldl (fun s c =>
    let pos := stopPosition s c
    let s0 := stopEffect c s
    { s0 with cmds := { s0.cmds with flight := cmdRemove c s0.cmds.flight
                                     abortedHeld := s0.cmds.abortedHeld ++ [{ c with position := pos }] } }) s
  let s1 := if t = 0 then stopBist s1 else s1
  let s2 := { s1 with cmds := { s1.cmds with paused := if s1.cmds.paused.contains t then s1.cmds.paused else s1.cmds.paused ++ [t] } }
  raise (335 + t) cause cs.length (countLife 23 s2)

/-- TENDER_WATCHDOG: R19, R20, R441. -/
def execTenderWatchdog (t : Fin 4) (s : State) : Out := whenReady (tenderStop t.val 0x02 none) s

/-- The commands that a restart held complete ABORTED (R20). -/
def heldComplete (s : State) : State :=
  let cs := s.cmds.abortedHeld
  cs.foldl (fun s c => finish c stAborted (percentOf c) 0 c.position s) { s with cmds := { s.cmds with abortedHeld := [] } }

/-- The restart of a tender ends; with the last one command processing resumes, and what was deferred goes on. -/
def tenderEnd (t : Nat) (s : State) : State :=
  if !s.cmds.paused.contains t then s
  else
    let s1 := { s with cmds := { s.cmds with paused := s.cmds.paused.erase t } }
    let s2 := if s1.cmds.paused.isEmpty then activateEnds (nvmPump (waitingWrite (heldComplete s1))) else nvmPump s1
    if t = 2 then calResumes s2 else s2

/-- TENDER_RESTART_END: R20. -/
def execTenderRestartEnd (t : Fin 4) (s : State) : Out := whenReady (tenderEnd t.val) s

/-! ### FW_ACTIVATE (R398) -/

/-- FW_ACTIVATE starts: `image` is what the named slot holds. -/
def activateStart (image : List Byte) (c : Cmd) (s : State) : State :=
  let im := slotImageOf image
  if s.cmds.flight.any fun d => decide (pkOp d.packet = 0x00C1) && d.started && d.sentTo.isNone then finishCheck c stBadParam s
  else if flashHeld s then s
  else
    let s1 := flashReadSlot (slotFlash s (fwSlot c)) im s
    if !fwVerifies s im then finishErr c stAuthFail 0 s1
    else if !rollbackOk s im then finishErr c stRollback 0 s1
    else
      let r := beginWork c 0 s1
      recordWrite 5 [if fwSlot c = 0 then 0 else 1] (putCmd { r.1 with aux := 1, buf := im.take 256 } r.2)

/-- The boot selector is written, or its window has closed: every tender restarts on the image. -/
def activateGo (c : Cmd) (s : State) : State :=
  if c.aux ≠ 1 ∨ (s.nvm.window ∧ s.nvm.records.any fun r => decide (r.id = 5)) then s
  else
    let s1 := (List.range 4).foldl (fun s t => tenderStop t 0x01 (some c.cid) s) (putCmd { c with aux := 2 } s)
    let s2 := { s1 with boot := { s1.boot with source := fwSlot c } }
    updSec (fun x => { x with fwVersion := imVersion c.buf, fwHash := imHash c.buf
                              slotHash := tblSet x.slotHash (fwSlot c) (imHash c.buf)
                              fuseTarget := max x.fuseTarget (imRollback c.buf) }) s2

/-- FW_ACTIVATE: R398. -/
def execFwActivate (sq : Fin 1024) (tag : W32) (image : List Byte) (s : State) : Out :=
  opcodeRow sq tag 0x00C2 (activateStart image) activateGo s

end Sys2Proof.Machine
end

