-- ==== Sys2Proof/Machine/Knotter.lean ====
section
/-! DEFINITION. The rows of the knotter, the reels and the history ring (chapters 12 and 13), and the delivery of
records. -/

namespace Sys2Proof.Machine

/-! ### KNOTTER_ROW -/

/-- The first row of each context, live or of a REPROCESS. -/
def headRows : List GridRow → List GridRow
  | [] => []
  | r :: rs => r :: (headRows rs).filter fun q => decide (q.reproc ≠ r.reproc)

/-- The row that a slice takes next: the first row of a context, where the slice has not taken it. The slices take a row
before any of them takes the next (DESIGN CHOICE 71). -/
def sliceRow (s : State) (k : Nat) : Option GridRow := (headRows s.web.knot.rows).find? fun r => r.todo.contains k

/-- The thermal columns that a slice sees and another owns must have been tested by their owner. -/
def thermReady (s : State) (k : Nat) (r : GridRow) : Bool :=
  match r.therm with
  | none => true
  | some _ =>
    match ownerOf s (tcFirst s (tcOf s (slFirst s k))) with
    | some o => decide (o = k) || !r.todo.contains o
    | none => true

/-- A slice takes a row: tests, labels, learns and closes (R248 to R255). -/
def sliceRun (k : Nat) (r : GridRow) (s : State) : State :=
  let x := sliceCtx s r.reproc k
  let th := thermStep s k r x
  let rc := rowCells s k r th.2 th.1.back
  let fg := rc.2.filterMap CellTest.cell
  let learn := rc.2.any fun c => c.valid && c.learning
  let cs0 := s.web.knot.comps.map (markPartial k r)
  let lb := labelRuns k r x.prev (runsOf fg) cs0
  let cs1 := lb.comps.map (closeComp s k r)
  let r1 : GridRow := { r with todo := r.todo.filter fun j => j ≠ k, tres := th.2 }
  let s1 := putSlice r.reproc k { th.1 with back := rc.1, prev := some r1 } s
  let s2 := knotUpd (fun y => { y with comps := cs1
                                       rows := (y.rows.map fun q => if q.k = r.k ∧ q.reproc = r.reproc then r1 else q).filter fun q => !q.todo.isEmpty
                                       lastMin := if r1.todo.isEmpty ∧ r.reproc.isNone then max y.lastMin r.minTb else y.lastMin }) s1
  let s3 := fullStep k r lb (learnStep k r learn s2)
  if r1.todo.isEmpty then fragsAnswer (edgeCut (splitRow r s3)) else s3

/-- With no camera port of the couch running, a slice takes what waits for it once it has taken every row, and the merger
once it has closed what it owes (R45, R273). -/
def knotIdle (s : State) : State := if couchRuns s then s else mergerBoundary none (slicesIdle s)

/-- A slice takes its next row under the fields that have come into force for it (R273). -/
def knotterRowBody (k : Nat) (s : State) : State :=
  match sliceRow s k with
  | none => s
  | some r =>
    let s1 := if r.reproc.isNone then sliceTake k (some r.minTb) s else s
    if thermReady s1 k r then knotIdle (sliceRun k r (passTokens (10 + k) (slLast s1 k + 1 - slFirst s1 k) s1)) else s

/-- KNOTTER_ROW. -/
def execKnotterRow (k : Fin 8) (s : State) : Out := whenLive (knotterRowBody k.val) s

/-! ### MERGER_COMPONENT, FRAG and MERGE_TIMEOUT -/

/-- A live component is classified under the values of its closing row (R273). -/
def mergerUnder (g : List Comp) (s : State) : State :=
  match isRep g, groupClosed g with
  | false, some c => mergerTake (some c.2.2) s
  | _, _ => s

/-- The merger completes the next group (R256 to R261), or sends it to the neighbours it touches. -/
def mergerBody (s : State) : State :=
  match nextGroup s with
  | none => fragsAnswer s
  | some g =>
    if mergerHeld s g then s
    else if (groupSides s g).isEmpty then knotIdle (formGroup g (mergerUnder g s))
    else
      let c := edgeComp s g
      let s1 := edgeSends c s
      if edgeWhole s c then
        knotIdle (formEdge c false (mergerUnder c.groups.flatten (knotUpd (fun k => { k with fragOk := true }) s1)))
      else edgeMarks c s1

/-- MERGER_COMPONENT. -/
def execMergerComponent (s : State) : Out := whenLive mergerBody s

/-- The cells of a received fragment. -/
def fragCells (cells : List FragCell) : List KCell :=
  cells.map fun c => ⟨c.row.toInt, c.col.toNat, c.x4.toNat, c.mu.toNat, c.samples.map BitVec.toNat, c.bright.val, c.dark.val,
    c.hot, c.cold, c.therm.map BitVec.toInt⟩

/-- A fragment arrives on a felt port (R257); one for no felt side of the couch is discarded. Those older than twice
MERGE_WAIT can join nothing any more. -/
def fragBody (k : Nat) (cells : List FragCell) (part split : Bool) (s : State) : State :=
  let cs := fragCells cells
  let side := if gFelt s 0 = k then some 0 else if gFelt s 1 = k then some 1 else none
  match side with
  | none => s
  | some d =>
    let old (f : FragIn) : Bool := decide (f.ns + 2 * us (mgf s 0x0C) < s.clk.ns)
    let f : FragIn := ⟨d, cs, part, split, s.clk.ns, cells.any fun c => c.reproc, false⟩
    edgeCut (fragAnswer f (knotUpd (fun y => { y with frags := (y.frags.filter fun f => !old f) ++ [f] }) s))

/-- FRAG, over a port that carries chain traffic (R406, R408). -/
def execFrag (k : Fin 4) (cells : List FragCell) (part split : Bool) (s : State) : Out :=
  whenReady (fromUsable k.val (fragPayload part split (cells.any fun c => c.reproc) (fragCells cells)).length
    (unlessTripped (fragBody k.val cells part split))) s

/-- The first group at a device edge whose MERGE_WAIT is over, and that no earlier one holds up (R273). -/
def timedGroup (s : State) : Option (List Comp) :=
  (allGroups s).find? fun g => groupReady s g && !(groupSides s g).isEmpty && !edgeWhole s (edgeComp s g) && !mergerHeld s g
    && decide (groupNs g + us (mgf s 0x0C) ≤ s.clk.ns)

/-- What is held of its component: the groups that are ready, and the fragments. -/
def timedComp (s : State) (g : List Comp) : EdgeComp :=
  let c := edgeComp s g
  { c with groups := c.groups.filter (groupReady s) }

/-- The side whose part is missing: the lower one first. -/
def missingSide (s : State) (g : List Comp) : Nat :=
  let c := edgeComp s g
  ((groupSides s g).find? fun d => !sideDone s c g d).getD 1

/-- MERGE_WAIT is over for a group: a PARTIAL record from what is held (R257). -/
def mergeTimeoutBody (s : State) : State :=
  match timedGroup s with
  | none => s
  | some g =>
    let s1 := knotUpd (fun k => { k with fragOk := false }) s
    let s2 := if s.web.knot.fragOk then raise 133 0x03 (missingSide s g) s1 else s1
    knotIdle (formEdge (timedComp s g) true (mergerUnder (timedComp s g).groups.flatten s2))

/-- MERGE_TIMEOUT. -/
def execMergeTimeout (s : State) : Out := whenLive mergeTimeoutBody s

/-! ### Tiles and records -/

/-- The oldest waiting tile is written; its record may then leave (R285, R286). -/
def tileWriteBody (s : State) : State :=
  match s.web.hist.tiles with
  | [] => s
  | j :: rest =>
    let s1 := hbmWrite (tileAddr s (j.block % max 1 (tileN s))) j.bytes (histUpd (fun h => { h with tiles := rest }) s)
    knotUpd (fun k => { k with recs := k.recs.map fun r => if r.tile = some j.block then { r with tile := none } else r }) s1

/-- TILE_WRITE. -/
def execTileWrite (s : State) : Out := whenReady tileWriteBody s

/-- The first record that is the first of its queue in the buffer and whose tile is complete. -/
def nextRec : List Nat → List Rec → Option Rec
  | _, [] => none
  | seen, r :: rs => if r.tile.isNone ∧ !seen.contains r.queue then some r else nextRec (r.queue :: seen) rs

/-- A record is written to its queue (R90, R92, R264), or dropped on a full queue; one whose queue has gone is
discarded. A chained device without a route keeps its records (R415). -/
def recordBody (s : State) : State :=
  if hostBlocked s then s
  else match nextRec [] s.web.knot.recs with
    | none => s
    | some r =>
      let s1 := knotUpd (fun k => { k with recs := k.recs.erase r }) s
      match tblFind s.host.dqs r.queue with
      | none => knotUpd (fun k => { k with noQueue := satAdd 32 k.noQueue 1 }) s1
      | some ring =>
        if mayRequest s = false ∨ (ring.tail - ring.head).toNat = 2 ^ ring.log2 then ringDrop 340 r.queue ring (putDq r.queue) s1
        else
          let s2 := hostWrite (entryAddr ring.base ring.tail ring.log2 64) r.bytes s1
          putDq r.queue { ring with tail := ring.tail + 1, uncovered := ring.uncovered + 1, dropNoted := false } s2

/-- RECORD_DELIVERY: the merger's work, which ends with a trip (R264, R352). -/
def execRecordDelivery (s : State) : Out := whenLive recordBody s

/-- The lookup of R288: logical block of handle and generation, and status. -/
def histLookup (s : State) (h g : Nat) : Nat × Nat :=
  let n := tileN s
  let b : Int := (s.web.hist.w : Int) - 1
  if n = 0 ∨ n ≤ h then (0x0101, 0)
  else
    let a : Int := b / (n : Int) * n + h
    let a1 : Int := if b < a then a - n else a
    let w0 : Int := a1 - (((a1 / (n : Int) - g) % 65536 : Int)) * n
    if w0 < 0 then (0x0101, 0)
    else if w0 + n < (s.web.hist.w : Int) then (0x0500, 0)
    else
      let hd := hbmRead s (tileAddr s h) 7
      if u8At hd 6 = 1 ∧ u32At hd 0 = h ∧ u16At hd 4 = g then (0, tileAddr s h) else (0x0101, 0)

/-- A 64-bit write of WIRE_HIST_LOOKUP. -/
def histLookupBody (v : Nat) (s : State) : State :=
  let h := bits v 0 32
  let g := bits v 32 16
  let r := histLookup s h g
  histUpd (fun x => { x with handle := h, gen := g, status := r.1, addr := r.2 }) s

/-- WIRE_HIST_LOOKUP: R288. -/
def execWireHistLookup (v : W64) (s : State) : Out := whenHost (histLookupBody v.toNat) s

/-! ### Reels -/

/-- REEL_ROW: the reel takes its next input row (R277). -/
def execReelRow (r : Fin 64) (s : State) : Out := whenLive (reelTake r.val) s

/-- REEL_UNIT_TIMEOUT: a unit open for 1 s closes (R279). -/
def execReelUnitTimeout (r : Fin 64) (s : State) : Out :=
  whenLive (fun s => match (reel s r.val).unit with
    | some u => if u.openNs + sec 1 ≤ s.clk.ns then unitCut r.val s else s
    | none => s) s

/-- REEL_UNIT_HOLD_EXPIRY: a unit held 1 ms for a route is dropped as on a full ring; with a route it is written
(R415). -/
def reelHoldBody (r : Nat) (s : State) : State :=
  match (reel s r).held with
  | [] => s
  | (bs, t) :: rest =>
    let s1 := updReel r (fun x => { x with held := rest }) s
    if !hostBlocked s then unitDeliver r bs s1
    else if t + ms 1 ≤ s.clk.ns then
      let s1 := updReel r (fun x => { x with small := false }) s1
      match tblFind s.host.srs (rlf s r 0x14) with
      | some ring => ringDrop 341 (rlf s r 0x14) ring (putSr (rlf s r 0x14)) s1
      | none => s1
    else s

/-- REEL_UNIT_HOLD_EXPIRY. -/
def execReelUnitHoldExpiry (r : Fin 64) (s : State) : Out := whenReady (reelHoldBody r.val) s

end Sys2Proof.Machine
end

