-- ==== Sys2Proof/Machine/Marker.lean ====
section
/-! DEFINITION. The rows of the watermark drive (chapter 14). A row of a comparator tick acts on the state as it is then:
a condition that does not hold leaves the state as it was. -/

namespace Sys2Proof.Machine

/-- MRK_ARM: R292. -/
def execMrkArm (v : W32) (s : State) : Out := whenHost (armWrite v.toNat) s

/-- MARKER_JOB: R301, R303. -/
def execMarkerJob (n : Fin 16) (s : State) : Out := whenReady (jobArrives n.val) s

/-- DRIVE_START: R299, R304. -/
def execDriveStart (n : Fin 16) (s : State) : Out := whenReady (tickSwitch n.val) s

/-- HEADROOM_RETRY: a waiting request is searched again, or has come to the start found for it (R305). A shutter request waits
on while its channel may start no drive (R298, R307). -/
def retryBody (n : Nat) (s : State) : State :=
  match (chan s n).wait with
  | none => s
  | some w =>
    if (w.th.any fun t => decide (s.clk.ns < t)) || (w.shutter && (s.afe.held || (chan s n).inhibit)) then s
    else
      let s1 := updChan n (fun c => { c with wait := none }) s
      if w.th.isSome then servePlaced n w s1 else serveWait n w s1

/-- HEADROOM_RETRY. -/
def execHeadroomRetry (n : Fin 16) (s : State) : Out := whenReady (retryBody n.val) s

/-- The end of T_PEAK with the current measured there (R294, R296). -/
def peakEndBody (n ma : Nat) (s : State) : State :=
  let c := chan s n
  match c.drive with
  | none => s
  | some d =>
    if c.phase ≠ 1 ∨ s.clk.ns < d.peakEndNs then s
    else if 10 * ma < mkPeak s n then raise (198 + n) 0x05 ma (faultChan n (updChan n (fun c => { c with peakFull := false }) s))
    else
      let full := decide (9 * mkPeak s n ≤ 10 * ma)
      let s1 := updChan n (fun c => { c with phase := 2, holdNs := s.clk.ns, peakFull := full }) s
      if !full ∧ c.peakFull then raise (198 + n) 0x07 ma s1 else s1

/-- PEAK_PHASE_END. -/
def execPeakPhaseEnd (n : Fin 16) (ma : BitVec 16) (s : State) : Out := whenReady (peakEndBody n.val ma.toNat) s

/-- Drive end of a marker: every end condition of its jobs has been met (R299, R304). A shutter is released by its
port. -/
def driveEndBody (n : Nat) (s : State) : State :=
  let c := chan s n
  match c.drive with
  | none => s
  | some d =>
    if c.phase = 2 ∧ !d.shutter ∧ d.minEndNs ≤ s.clk.ns ∧ (d.closeMet || d.closeK.all (closeNow s n)) then endDrive n s else s

/-- DRIVE_END. -/
def execDriveEnd (n : Fin 16) (s : State) : Out := whenReady (driveEndBody n.val) s

/-- DECAY_END: PHASE returns to 0 (R294). -/
def execDecayEnd (n : Fin 16) (s : State) : Out :=
  whenReady (fun s =>
    let c := chan s n.val
    if c.phase = 3 ∧ c.decayEndNs ≤ s.clk.ns then updChan n.val (fun c => { c with phase := 0 }) s else s) s

/-- COIL_UPDATE: every 1 ms (R297, R298). -/
def execCoilUpdate (s : State) : Out :=
  whenReady (fun s =>
    if s.afe.coilNs + ms 1 ≤ s.clk.ns then
      (List.range 16).foldl (fun s n => coilStep n s) { s with afe := { s.afe with coilNs := s.afe.coilNs + ms 1 } }
    else s) s

/-- OVERCURRENT: R296. -/
def execOvercurrent (n : Fin 16) (s : State) : Out :=
  whenReady (fun s => raise (198 + n.val) 0x06 0 (faultChan n.val s)) s

/-- HS_OVERCURRENT: the switch and all its channels go off (R296). -/
def execHsOvercurrent (m : Fin 4) (s : State) : Out :=
  whenReady (fun s => raise (214 + m.val) 0x03 0
    ((List.range 4).foldl (fun s k =>
      let n := 4 * m.val + k
      shutCut n (skipAll n (setArm n false (killDrive n s)))) s)) s

/-- Raise a cause on each switch. -/
def raiseSwitches (cause detail : Nat) (s : State) : State :=
  (List.range 4).foldl (fun s m => raise (214 + m) cause detail s) s

/-- VVALVE as the supply monitor sees it: its value, the hold, and IN_RANGE of Table 3.3 (10 V to 32 V); leaving that
range upwards is no brown-out and sets DIPPED. -/
def valveSupply (v : Nat) (held : Bool) (s : State) : State :=
  let inr := decide (10000 ≤ v ∧ v ≤ 32000)
  { s with afe := { s.afe with vmv := v, held := held }
           boot := { s.boot with inRange := setBitN s.boot.inRange 12 inr
                                 dipped := setBitN s.boot.dipped 12
                                   (bitOf s.boot.dipped 12 || (bitOf s.boot.inRange 12 && decide (32000 < v))) } }

/-- VVALVE leaves 9.0 V to 34.0 V: every drive ends and the channels are held off (R54, R307). Before ready only the hold
is noted, for the judgement at ready. -/
def vvalveOut (v : Nat) (s : State) : State :=
  if 9000 ≤ v ∧ v ≤ 34000 then s
  else
    let s1 := valveSupply v true s
    if s.boot.phase = .ready then
      let s2 := (List.range 16).foldl (fun s n => cutDrive n s) s1
      if s.afe.held then s2 else raiseSwitches 0x01 v s2
    else s1

/-- VVALVE_OUT: R54, R307. -/
def execVvalveOut (mv : W32) (s : State) : Out := .next (vvalveOut mv.toNat s)

/-- VVALVE has stayed within 9.0 V to 34.0 V for 10 ms: the hold ends (R307). -/
def vvalveOk (v : Nat) (s : State) : State :=
  if 9000 ≤ v ∧ v ≤ 34000 then
    let s1 := valveSupply v false s
    if s.boot.phase = .ready ∧ s.afe.held then raiseSwitches 0x02 v s1 else s1
  else s

/-- VVALVE_OK: R307. -/
def execVvalveOk (mv : W32) (s : State) : Out := .next (vvalveOk mv.toNat s)

/-- At ready a hold that stands is reported (R307). -/
def vvalveReady (s : State) : State := if s.afe.held then raiseSwitches 0x01 s.afe.vmv s else s

/-- MARK_FIRE runs (R110, R302): the job is made, and the command completes at its drive start or skip. -/
def markFireStart (c : Cmd) (s : State) : State :=
  let n := pkInst c.packet
  let now_ := decide (pm8 c.packet 0x18 = 1)
  let presetArmed := (enc s (mkEnc s n)).armed.isSome
  if !now_ ∧ presetArmed then finishCheck c stBusy s
  else if mkFunction s n ≠ 1 then finishCheck c stBadParam s
  else if (chan s n).inhibit then finishCheck c stTempInhibit s
  else
    let s1 := (beginWork c 0 s).2
    let o := pmS64 c.packet 0x20 + cfS s 0x09 n 0x10 8
    let j : MJob := { fOpen := if now_ then 0 else o, fClose := if now_ then 0 else o + mkf s n 0x24, seq := 0xFFFFFF,
                      cid := some c.cid, now_ := now_, tol := pm32 c.packet 0x28 }
    if !mkArmed s n ∨ (chan s n).fault then skipJob n 8 0 { j with now_ := true } s1 else handJob n j s1

/-- MARK_FIRE. -/
def execMarkFire (sq : Fin 1024) (tag : W32) (s : State) : Out := opcodeRow sq tag 0x0080 markFireStart (fun _ s => s) s

end Sys2Proof.Machine
end

