-- ==== Sys2Proof/Machine/RegMap.lean ====
section
/-! DEFINITION. The registers of BAR0 (Table 23.1): the width and present value at each offset, and the effect of reads
that clear and of writes. -/

namespace Sys2Proof.Machine

/-- A 32-bit register. -/
def r32 (v : Nat) : Option (Nat × Nat) := some (32, v % 2 ^ 32)
/-- A 64-bit register. -/
def r64 (v : Nat) : Option (Nat × Nat) := some (64, v % 2 ^ 64)
/-- A signed value in `w` bits at bit `lo`. -/
def sAt (lo w : Nat) (i : Int) : Nat := at' lo (ofS w i)
/-- A flag at bit `lo`. -/
def bAt (lo : Nat) (b : Bool) : Nat := at' lo (b2n b)
/-- One bit for each of `n` instances, from bit `lo` on. -/
def maskAt (lo n : Nat) (f : Nat → Bool) : Nat := ((List.range n).map fun i => bAt (lo + i) (f i)).sum

/-! ### GLB_, EVT_, TB_, THM_ and PRG_ -/

/-- A converter element is STALE or DEGRADED. -/
def adcMask (f : CalEl → Bool) (s : State) : Nat := maskAt 0 64 fun i => f (calEl s 1 i)

/-- GLB_STATUS. -/
def glbStatus (s : State) : Nat :=
  bAt 0 (decide (s.boot.phase = .ready)) + bAt 1 s.boot.tripped + bAt 2 s.clk.xtalFail + bAt 3 (!s.cfg.accepted.isEmpty)
    + bAt 8 s.host.hiUnpaired + bAt 9 s.host.wrSplit

/-- GLB_Q0_CTRL. -/
def glbQ0 (s : State) : Nat :=
  s.host.q0SqLog2 + at' 5 s.host.q0CqLog2 + bAt 10 s.host.q0Enable + bAt 11 s.host.q0Fault + bAt 12 s.host.q0Draining
    + at' 16 s.host.q0Group

/-- Devices in the map. -/
def mapCount (s : State) : Nat := ((List.range 64).filter fun d => (mapEntry s d).present).length

/-- GLB_FELT[k]. -/
def glbFelt (s : State) (k : Nat) : Nat :=
  let p := feltPort s k
  p.link.st + at' 4 p.link.widthNow + at' 8 p.nbId + at' 14 p.nbPort + bAt 16 p.foreign_
    + bAt 17 (decide (s.chain.parentPort = some k)) + at' 32 (p.delay % 65536)

/-- GLB_BIST. -/
def glbBist (s : State) : Nat :=
  match s.bist.run with
  | some r => 1 + bAt 1 r.cid.isNone + at' 8 r.blk + at' 16 r.inst
  | none => at' 8 s.bist.lastBlk + at' 16 s.bist.lastInst

/-- GLB_ registers. -/
def regGlb (s : State) (off : Nat) : Option (Nat × Nat) :=
  match off with
  | 0x000 => r32 glbId
  | 0x008 => r32 (glbStatus s)
  | 0x010 => r32 (cfgApplied s).toNat
  | 0x018 => r32 (s.boot.source + bAt 2 s.boot.profApplied + bAt 3 s.boot.profRejected + at' 4 s.boot.cause
      + bAt 8 s.boot.thermHold + at' 16 (satU 16 s.boot.readyTime))
  | 0x020 => r32 (s.boot.inRange + at' 16 s.boot.dipped)
  | 0x028 => r64 (at' 30 s.host.bar2Base + at' 40 s.host.bar2Dev)
  | 0x030 => r32 s.host.fwdSel
  | 0x040 => r64 s.host.q0SqBase
  | 0x048 => r64 s.host.q0CqBase
  | 0x050 => r32 (glbQ0 s)
  | 0x100 => r64 (adcMask CalEl.stale s)
  | 0x108 => r64 (adcMask CalEl.degraded s)
  | 0x110 => r32 (maskAt 0 16 (fun n => (calEl s 3 n).stale) + maskAt 16 16 (fun n => (calEl s 3 n).degraded))
  | 0x118 => r64 (ofS 32 s.afe.cal.refRatio + at' 32 s.afe.cal.refState)
  | 0x120 => r32 (s.afe.cal.sramUsed + at' 11 (spareRows - s.afe.cal.sramUsed - s.afe.cal.sramRetired))
  | 0x130 => r32 (bAt 0 s.nvm.window + bAt 1 s.nvm.page.isSome + at' 2 s.nvm.calBank + bAt 3 s.nvm.calUnstored
      + bAt 4 s.nvm.batchDue + at' 8 s.nvm.logQueue.length)
  | 0x138 => r64 (s.nvm.nextSlot + at' 32 s.nvm.nextSeq)
  | 0x140 => r32 s.nvm.lost
  | 0x160 => r32 (s.sec.fuseSteps + bAt 7 (ownerCert s).isSome + at' 8 s.sec.debug
      + bAt 10 (decide ((recordPayload s 5).map (fun b => u8At b 0) = some 1)) + bAt 11 s.sec.pcaOk)
  | 0x180 => r32 (s.chain.devId + bAt 6 s.chain.head + bAt 7 s.chain.mapped
      + at' 8 (if s.chain.head ∧ s.chain.mapped then mapCount s else 0) + bAt 15 s.chain.shareOk)
  | 0x1A8 => r64 (ofS 32 s.chain.theta + sAt 32 16 (clampI (-32768) 32767 s.chain.slew) + at' 48 s.chain.hops)
  | 0x1C0 => r32 (glbBist s)
  | 0x1C8 => r64 s.bist.failMask
  | _ => if 0x188 ≤ off ∧ off < 0x1A8 ∧ off % 8 = 0 then r64 (glbFelt s ((off - 0x188) / 8)) else none

/-- EVT_ registers, by offset in the block. -/
def regEvt (s : State) (off : Nat) : Option (Nat × Nat) :=
  if off % 4 ≠ 0 then none
  else if off < 0x800 then r32 (routeOf s (off / 4))
  else if off < 0x840 then r32 (pendWord s ((off - 0x800) / 4))
  else if 0x900 ≤ off ∧ off < 0xB80 then r32 (grpReg s ((off - 0x900) / 4))
  else if 0xC00 ≤ off ∧ off < 0xD00 then r32 (tblGet 0 s.host.ringLost ((off - 0xC00) / 4))
  else none

/-- THM_SENSOR[i]. -/
def thmSensor (s : State) (i : Nat) : Nat :=
  let t := s.afe.therm
  let c := t.cause.getD i 0
  ofS 16 ((t.hist.headD t.eff).getD i 0) + sAt 16 16 (t.eff.getD i 0) + bAt 32 (decide (c ≠ 0)) + at' 33 c

/-- THM_ and GOV_ registers, by offset in the block. -/
def regThm (s : State) (off : Nat) : Option (Nat × Nat) :=
  let t := s.afe.therm
  if off < 0x140 then (if off % 8 = 0 then r64 (thmSensor s (off / 8)) else none)
  else match off with
    | 0x140 => r32 (ofS 16 t.max_ + at' 16 t.sensor + at' 22 t.zones)
    | 0x148 => r32 (s.afe.step + bAt 4 (decide (s.clk.ns < t.holdNs)) + bAt 5 t.warn + bAt 6 s.nvm.window + at' 8 (suspects s))
    | 0x150 => r32 (satU 32 t.changes)
    | _ => none

/-- PRG_ registers, by offset in the block. -/
def regPrg (s : State) (off : Nat) : Option (Nat × Nat) :=
  let x := slotOf s (off / 0x20)
  if 0x800 ≤ off then none
  else match off % 0x20 with
    | 0x00 => r32 (x.percent + at' 8 x.state + at' 10 x.sq + at' 24 x.op)
    | 0x04 => r32 x.tag.toNat
    | 0x08 => r64 x.pos
    | 0x10 => r64 x.total
    | 0x18 => r32 x.status
    | _ => none

/-! ### LN_, CP_ and WIRE_ -/

/-- LN_ registers of a lane. -/
def regLane (s : State) (n off : Nat) : Option (Nat × Nat) :=
  let l := lane s n
  match off with
  | 0x00 => r32 (bAt 0 l.signal + bAt 1 l.cdr + bAt 2 l.aligned + bAt 3 (decide (l.st = 6)) + bAt 4 l.polInv + bAt 5 l.hold
      + bAt 6 l.bound + bAt 7 l.prbsSync + at' 8 l.st + bAt 12 l.prbsInv + at' 16 (lanePos s n) + at' 24 (lnRate s n))
  | 0x08 => r64 (l.ctle + ((List.range 5).map fun k => sAt (8 + 8 * k) 8 (l.taps.getD k 0)).sum)
  | 0x10 => r32 l.codeErr
  | 0x14 => r32 l.unlocks
  | 0x18 => r32 l.prbsErr
  | 0x20 => r64 (prbsBitsNow s n)
  | _ => none

/-- WIDTH_NOW of a headbox. -/
def hbWidthNow (s : State) (p : Nat) : Nat :=
  if hbProto s p = 2 then (port s p).link.widthNow else if (port s p).discovered then hbWidth s p else 0

/-- CP_ registers of a headbox. -/
def regPort (s : State) (p off : Nat) : Option (Nat × Nat) :=
  let x := port s p
  match off with
  | 0x00 =>
    let lk := if hbProto s p = 2 then x.link.st else if hbProto s p = 1 ∧ x.discovered then 3 else 0
    r32 (bAt 0 x.running + at' 1 lk + at' 4 (hbWidthNow s p)
      + bAt 8 (decide (hbProto s p = 2 ∧ x.link.widthNow ≠ 0 ∧ x.link.widthNow < hbWidth s p)) + at' 9 (min 4 (writesPending x).length))
  | 0x08 => r64 x.lines
  | 0x10 => r64 (lastStripe s p + at' 32 (if x.everClosed ∧ x.stripeNo = 0 then (x.epoch + 65535) % 65536 else x.epoch)
      + at' 48 x.delivered + bAt 61 x.trunc)
  | 0x18 => r64 (ofS 64 x.mdLast)
  | 0x20 => r32 x.bad
  | 0x24 => r32 x.short_
  | 0x28 => r32 x.long_
  | 0x2C => r32 x.ovf
  | 0x30 => r32 x.trigLost
  | 0x34 => r32 x.trigSkip
  | 0x38 => r32 x.creditOvr
  | 0x3C => r32 x.discard
  | _ => none

/-- Ports that a wire serves. -/
def portsServed (s : State) (w : Nat) : List Nat := (List.range 32).filter fun p => wireServes s w p

/-- STATE of WIRE_STATUS: 2 and 3 under R178; serving while the wire serves a running port or holds work. -/
def wireStateNow (s : State) (w : Nat) : Nat :=
  if (wire s w).state ≠ 0 then (wire s w).state
  else if (portsServed s w).any (fun p => (port s p).running) || wireBusy s w then 1 else 0

/-- Guaranteed capacity of a floor rate at the present step, rounded down (R21, R22). -/
def guaranteed (s : State) (floor : Nat) : Nat := if s.afe.step < 5 then floor else floor * (80 - 4 * s.afe.step) / 64

/-- The nominal rate of a unit other than a wire (Table 2.1), which CAP shows until the first window has ended (R23).
DESIGN CHOICE 5: the Reset column says that it is measured. -/
def nominalRate (u : Nat) : Nat :=
  if u = 9 then 160000 else if u < 18 then 20000 else if u = 18 then 4 else 380

/-- A rate register of a unit other than a wire. -/
def rateOf (s : State) (u : Nat) : Nat :=
  let r := tblGet (nominalRate u, 0) s.ing.rates u
  r.1 % 2 ^ 32 + at' 32 (r.2 % 2 ^ 32)

/-- WIRE_ registers of a wire. -/
def regWire (s : State) (w off : Nat) : Option (Nat × Nat) :=
  let x := wire s w
  match off with
  | 0x00 => r32 (wireRole s w + at' 1 (wireStateNow s w) + bAt 4 x.draining + bAt 5 x.overload + bAt 6 x.reproc.isSome
      + at' 8 (portsServed s w).length)
  | 0x08 => r64 (x.cap % 2 ^ 32 + at' 32 (x.load % 2 ^ 32))
  | 0x10 => r64 ((planOf s w + 999999) / 1000000 + at' 32 (guaranteed s 13500))
  | 0x18 => r32 x.late
  | 0x1C => r32 x.shed
  | _ => none

/-- Grid rows that the couch holds open. -/
def openRows (s : State) : Nat :=
  let c := s.web.couch
  ((c.lines.map CouchLine.row ++ c.edges.map EdgeBlock.row).eraseDups.filter fun k => match c.lastRow with
    | some l => decide (l < k)
    | none => true).length

/-- WIRE_COUCH_ registers, from 0x0009_0A00. -/
def regCouch (s : State) (off : Nat) : Option (Nat × Nat) :=
  let c := s.web.couch
  match off with
  | 0x00 => r32 (c.mapBank + bAt 1 (thermOn s) + bAt 2 c.absent + bAt 3 c.seamLo + bAt 4 c.seamHi + bAt 5 c.rowOut
      + at' 8 (satU 8 (openRows s)))
  | 0x08 => r64 (rateOf s 9)
  | 0x10 => r64 (ofS 64 c.row)
  | 0x18 => r64 (ofS 64 c.trow)
  | 0x20 => r32 c.forced
  | 0x24 => r32 c.full
  | 0x28 => r32 c.gaps
  | 0x2C => r32 c.thLate
  | 0x30 => r32 c.thOutside
  | 0x34 => r32 c.thAbsent
  | 0x38 => r32 c.seamDrop
  | 0x3C => r32 c.lateLines
  | _ => if 0x40 ≤ off ∧ off < 0xC0 ∧ off % 4 = 0 then
      let p := (off - 0x40) / 4
      r32 (tblGet 0 c.resSt (2 * p) + at' 2 (tblGet 0 c.resSt (2 * p + 1)))
    else none

/-- WIRE_KNOT_ and WIRE_MERGE_ registers, from 0x0009_0B00. -/
def regKnot (s : State) (off : Nat) : Option (Nat × Nat) :=
  let x := s.web.knot
  if off < 0x80 then
    let k := off / 0x10
    let sl := tblGet {} x.slices k
    match off % 0x10 with
    | 0x00 => r32 (min 8192 (compCount k none x.comps) + bAt 14 sl.learning + bAt 15 sl.full)
    | 0x04 => r32 sl.unlabelled
    | 0x08 => r64 (rateOf s (10 + k))
    | _ => none
  else match off with
    | 0x80 => r32 (mgf s 0 + at' 1 (mgf s 1) + at' 4 (tblGet {} x.rules 0).st + at' 6 (tblGet {} x.rules 1).st
        + at' 8 (tblGet {} x.bands 0).st + at' 10 (tblGet {} x.bands 1).st)
    | 0x88 => r64 (rateOf s 18)
    | 0x90 => r64 x.devSeq
    | 0x98 => r32 x.small
    | 0x9C => r32 x.ruleDrop
    | 0xA0 => r32 x.noQueue
    | 0xA4 => r32 x.tileMiss
    | 0xA8 => r32 x.splits
    | 0xAC => r32 x.blind
    | 0xB0 => r32 x.latMax
    | _ => none

/-- Item states of a bank of a table set, Table 9.10. -/
def tabStates (s : State) (p b : Nat) : Nat := ((List.range 9).map fun i => at' (2 * i) (tab s p b i).st).sum

/-- WIRE_STORE and WIRE_TAB, from 0x0009_0C00. -/
def regStore (s : State) (off : Nat) : Option (Nat × Nat) :=
  if off = 0 then r32 (storeFree s)
  else if 0x40 ≤ off ∧ off < 0x140 ∧ off % 8 = 0 then
    let p := (off - 0x40) / 8
    r64 (tabStates s p 0 + at' 32 (tabStates s p 1))
  else none

/-- WIRE_REEL_ and WIRE_HIST_ registers, from 0x0009_1000. -/
def regReel (s : State) (off : Nat) : Option (Nat × Nat) :=
  let h := s.web.hist
  if off < 0x400 then
    let r := off / 0x10
    let x := reel s r
    match off % 0x10 with
    | 0x00 => r32 (bAt 0 (decide (rlSource s r ≠ 0)) + bAt 1 x.throttled + bAt 2 x.small)
    | 0x04 => r32 x.skips
    | 0x08 => r64 x.seq
    | _ => none
  else match off with
    | 0x800 => r64 (h.handle + at' 32 h.gen + at' 48 h.status)
    | 0x808 => r64 h.addr
    | 0x810 => r64 (ofS 64 h.view)
    | 0x818 => r64 h.w
    | _ => none

/-- The WIRE_ block, by offset in it. -/
def regWires (s : State) (off : Nat) : Option (Nat × Nat) :=
  if off < 0x900 then regWire s (off / 0x100) (off % 0x100)
  else if 0xA00 ≤ off ∧ off < 0xB00 then regCouch s (off - 0xA00)
  else if 0xB00 ≤ off ∧ off < 0xC00 then regKnot s (off - 0xB00)
  else if 0xC00 ≤ off ∧ off < 0xE00 then regStore s (off - 0xC00)
  else if 0x1000 ≤ off ∧ off < 0x2000 then regReel s (off - 0x1000)
  else none

/-! ### DRY_, MRK_ and HK_ -/

/-- Item states of a bank of a dryer port. -/
def dryStates (s : State) (p b : Nat) : Nat := ((List.range 5).map fun i => at' (2 * i) (dTab s p b i)).sum

/-- DRY_DC[p][c]. -/
def dryDc (s : State) (p c : Nat) : Nat :=
  let e := tblGet {} (dry s p).est c
  ofS 16 ((2 * e.e.getD e.last + 256) / 512) + bAt 16 (estFrozen s p || e.refSat || e.unset) + bAt 17 e.refSat

/-- DRY_ registers of a port. -/
def regDry (s : State) (p off : Nat) : Option (Nat × Nat) :=
  let d := dry s p
  match off with
  | 0x00 => r32 (bAt 0 d.running + at' 1 (shutState d) + bAt 4 (autoInhibit s p) + bAt 5 d.tStale + bAt 6 d.req.isSome
      + at' 7 (dBank s p) + at' 8 (min 4 (d.writes.filter fun w => !w.loose).length) + at' 12 d.reason)
  | 0x08 => r64 (rateOf s (19 + p))
  | 0x10 => r64 d.frames
  | 0x18 => r64 (ofS 32 d.t + sAt 32 32 d.tRef)
  | 0x20 => r64 (satU 16 d.pred + at' 16 d.lastRms + at' 32 (satU 16 d.q) + at' 48 (satU 16 (dryAge s p / 1000000000)))
  | 0x28 => r64 d.tr
  | 0x30 => r32 d.ovf
  | 0x34 => r32 d.short_
  | 0x38 => r32 d.long_
  | 0x3C => r32 d.refSat
  | 0x40 => r32 d.closures
  | 0x44 => r32 d.refineSkip
  | 0x48 => r32 (dryStates s p 0 + at' 16 (dryStates s p 1))
  | _ => if 0x80 ≤ off ∧ off < 0xC0 ∧ off % 4 = 0 then r32 (dryDc s p ((off - 0x80) / 4)) else none

/-- MRK_ registers, by offset in the block. -/
def regMrk (s : State) (off : Nat) : Option (Nat × Nat) :=
  if off < 0x100 then
    match off with
    | 0x00 => r32 s.afe.arm
    | 0x08 => r32 (satU 16 s.afe.vmv + bAt 16 s.afe.held)
    | _ => if 0x10 ≤ off ∧ off < 0x20 ∧ off % 4 = 0 then
        let m := (off - 0x10) / 4
        let cs := (List.range 4).map fun i => mkReg s (4 * m + i)
        r32 (min 8191 cs.sum + bAt 13 (cs.any fun i => decide (i ≠ 0)))
      else none
  else if off < 0x300 then
    let n := (off - 0x100) / 0x20
    let c := chan s n
    match (off - 0x100) % 0x20 with
    | 0x00 => r32 (c.phase + bAt 2 c.inhibit + bAt 3 c.fault + bAt 4 c.calEndNs.isSome + at' 8 (jobCount c))
    | 0x08 => r64 (ofS 16 (coilQuarter s n) + at' 16 (satU 16 c.iMeas) + at' 32 (satU 32 c.rMeas))
    | 0x10 => r64 c.fires
    | 0x18 => r32 c.late
    | 0x1C => r32 c.skip
    | _ => none
  else none

/-- A conversion result as HK_RES and HK_INJ show it. -/
def hkShown (x : HkRes) (inj : Bool) : Nat :=
  x.value + bAt 12 x.clamp + bAt 13 x.test + at' 16 x.raw + at' 28 (if inj then x.trig else 0) + at' 32 (x.stamp % 2 ^ 32)

/-- HK_ registers of a converter unit. -/
def regHk (s : State) (u off : Nat) : Option (Nat × Nat) :=
  let x := hk s u
  let e := calEl s 2 u
  match off with
  | 0x00 => r32 (x.st + bAt 3 (decide (hkMode s u = 2)) + at' 4 x.entry + maskAt 8 7 (fun k => x.pending.contains k)
      + bAt 16 e.stale + bAt 17 e.degraded)
  | 0x04 => r32 0
  | 0x08 => r64 (ofS 16 e.ofs + at' 16 (e.gain % 65536) + sAt 32 16 x.temp)
  | 0x10 => r32 x.lost
  | _ => if 0x100 ≤ off ∧ off < 0x180 ∧ off % 8 = 0 then r64 (hkShown (tblGet {} x.res ((off - 0x100) / 8)) false)
    else if 0x180 ≤ off ∧ off < 0x1A0 ∧ off % 8 = 0 then r64 (hkShown (tblGet {} x.injRes ((off - 0x180) / 8)) true)
    else none

/-- HK_SPM_ registers of a serial port. -/
def regSpm (s : State) (n off : Nat) : Option (Nat × Nat) :=
  let x := sp s n
  match off with
  | 0x00 => r64 x.phase
  | 0x08 => r64 x.data
  | 0x10 => r32 (bAt 1 x.dir + bAt 2 x.useSel + bAt 8 (spBusy x) + bAt 9 x.doneBit + at' 10 x.err)
  | _ => none

/-- HK_ENC_ registers of an encoder. -/
def regEnc (s : State) (e off : Nat) : Option (Nat × Nat) :=
  let x := enc s e
  match off with
  | 0x00 => r64 (ofS 64 (if sharedHere s e then encE s e else x.pos))
  | 0x08 => r64 (ofS 32 (encSpeed s e) + bAt 32 (encBackward s e) + bAt 33 x.armed.isSome)
  | 0x10 => r32 x.err
  | _ => none

/-- The HK_ block, by offset in it. -/
def regHks (s : State) (off : Nat) : Option (Nat × Nat) :=
  if off < 0x1000 then regHk s (off / 0x400) (off % 0x400)
  else if off < 0x1080 then regSpm s ((off - 0x1000) / 0x20) (off % 0x20)
  else if off = 0x1100 then r64 (maskAt 0 48 (gpioIn s))
  else if off = 0x1108 then r64 s.afe.gpioOut
  else if 0x1200 ≤ off ∧ off < 0x1280 then regEnc s ((off - 0x1200) / 0x20) (off % 0x20)
  else none

/-- The register that begins at an offset of 0x0000_0000 to 0x000C_FFFF: its width in bits and present value. -/
def regVal (s : State) (off : Nat) : Option (Nat × Nat) :=
  let o := off % 0x10000
  match off / 0x10000 with
  | 0x0 => regGlb s o
  | 0x2 => regEvt s o
  | 0x3 => if o = 0 then r64 s.clk.tb else if o = 8 then r32 (b2n s.clk.traceable + bAt 1 (s.chain.head || s.chain.chainSync)) else none
  | 0x4 => regThm s o
  | 0x5 => regPrg s o
  | 0x6 => if o < 0x1400 then regLane s (o / 0x40) (o % 0x40) else none
  | 0x8 => if o < 0x2000 then regPort s (o / 0x100) (o % 0x100) else none
  | 0x9 => regWires s o
  | 0xA => if o < 0x400 then regDry s (o / 0x100) (o % 0x100) else none
  | 0xB => regMrk s o
  | 0xC => regHks s o
  | _ => none

/-! ### RC registers -/

/-- A read of an RC register clears it (Table 0.4): the counters by offset. -/
def rcPort (p off : Nat) (s : State) : State :=
  match off with
  | 0x20 => updPort p (fun x => { x with bad := 0 }) s
  | 0x24 => updPort p (fun x => { x with short_ := 0 }) s
  | 0x28 => updPort p (fun x => { x with long_ := 0 }) s
  | 0x2C => updPort p (fun x => { x with ovf := 0 }) s
  | 0x30 => updPort p (fun x => { x with trigLost := 0 }) s
  | 0x34 => updPort p (fun x => { x with trigSkip := 0 }) s
  | 0x38 => updPort p (fun x => { x with creditOvr := 0 }) s
  | 0x3C => updPort p (fun x => { x with discard := 0 }) s
  | _ => s

/-- Of a lane. -/
def rcLane (n off : Nat) (s : State) : State :=
  match off with
  | 0x10 => setLane n { lane s n with codeErr := 0 } s
  | 0x14 => setLane n { lane s n with unlocks := 0 } s
  | 0x18 => setLane n { lane s n with prbsErr := 0 } s
  | _ => s

/-- Of the WIRE_ block. -/
def rcWires (o : Nat) (s : State) : State :=
  if o < 0x900 then
    (match o % 0x100 with
     | 0x18 => updWire (o / 0x100) (fun x => { x with late := 0 }) s
     | 0x1C => updWire (o / 0x100) (fun x => { x with shed := 0 }) s
     | _ => s)
  else if 0xB00 ≤ o ∧ o < 0xB80 ∧ o % 0x10 = 4 then
    knotUpd (fun x => { x with slices := tblUpd {} x.slices ((o - 0xB00) / 0x10) fun y => { y with unlabelled := 0 } }) s
  else if 0x1000 ≤ o ∧ o < 0x1400 ∧ o % 0x10 = 4 then updReel ((o - 0x1000) / 0x10) (fun x => { x with skips := 0 }) s
  else match o with
    | 0xA20 => couchUpd (fun c => { c with forced := 0 }) s
    | 0xA24 => couchUpd (fun c => { c with full := 0 }) s
    | 0xA28 => couchUpd (fun c => { c with gaps := 0 }) s
    | 0xA2C => couchUpd (fun c => { c with thLate := 0 }) s
    | 0xA30 => couchUpd (fun c => { c with thOutside := 0 }) s
    | 0xA34 => couchUpd (fun c => { c with thAbsent := 0 }) s
    | 0xA38 => couchUpd (fun c => { c with seamDrop := 0 }) s
    | 0xA3C => couchUpd (fun c => { c with lateLines := 0 }) s
    | 0xB98 => knotUpd (fun x => { x with small := 0 }) s
    | 0xB9C => knotUpd (fun x => { x with ruleDrop := 0 }) s
    | 0xBA0 => knotUpd (fun x => { x with noQueue := 0 }) s
    | 0xBA4 => knotUpd (fun x => { x with tileMiss := 0 }) s
    | 0xBA8 => knotUpd (fun x => { x with splits := 0 }) s
    | 0xBAC => knotUpd (fun x => { x with blind := 0 }) s
    | 0xBB0 => knotUpd (fun x => { x with latMax := 0 }) s
    | _ => s

/-- Of a dryer port. -/
def rcDry (p off : Nat) (s : State) : State :=
  match off with
  | 0x30 => updDry p (fun x => { x with ovf := 0 }) s
  | 0x34 => updDry p (fun x => { x with short_ := 0 }) s
  | 0x38 => updDry p (fun x => { x with long_ := 0 }) s
  | 0x3C => updDry p (fun x => { x with refSat := 0 }) s
  | 0x40 => updDry p (fun x => { x with closures := 0 }) s
  | 0x44 => updDry p (fun x => { x with refineSkip := 0 }) s
  | _ => s

/-- Of the HK_ and MRK_ blocks. -/
def rcAfe (off : Nat) (s : State) : State :=
  let o := off % 0x10000
  if off / 0x10000 = 0xB then
    (if 0x100 ≤ o ∧ o < 0x300 then
      (match (o - 0x100) % 0x20 with
       | 0x18 => updChan ((o - 0x100) / 0x20) (fun c => { c with late := 0 }) s
       | 0x1C => updChan ((o - 0x100) / 0x20) (fun c => { c with skip := 0 }) s
       | _ => s)
     else s)
  else if o < 0x1000 then (if o % 0x400 = 0x10 then updHk (o / 0x400) (fun x => { x with lost := 0 }) s else s)
  else if 0x1200 ≤ o ∧ o < 0x1280 ∧ o % 0x20 = 0x10 then
    let e := (o - 0x1200) / 0x20
    setEnc e { enc s e with err := 0 } s
  else s

/-- The read of a 32-bit register clears it when it is RC. -/
def rcClear (off : Nat) (s : State) : State :=
  let o := off % 0x10000
  match off / 0x10000 with
  | 0x0 => if o = 0x140 then { s with nvm := { s.nvm with lost := 0 } } else s
  | 0x2 => if 0xC00 ≤ o ∧ o < 0xD00 then { s with host := { s.host with ringLost := tblErase s.host.ringLost ((o - 0xC00) / 4) } } else s
  | 0x6 => if o < 0x1400 then rcLane (o / 0x40) (o % 0x40) s else s
  | 0x8 => if o < 0x2000 then rcPort (o / 0x100) (o % 0x100) s else s
  | 0x9 => rcWires o s
  | 0xA => if o < 0x400 then rcDry (o / 0x100) (o % 0x100) s else s
  | 0xB | 0xC => rcAfe off s
  | _ => s

end Sys2Proof.Machine
end

