-- ==== Sys2Proof/Machine/Regs.lean ====
section
/-! DEFINITION. Host accesses to registers: reads with shadows and clears, writes by access type, the forwarded window,
and the MSI-X table of BAR4 (R4, R32 to R35, R76, R93, R99, R100). -/

namespace Sys2Proof.Machine

/-! ### Reads of BAR0 registers -/

/-- A 64-bit register begins here. -/
def is64 (s : State) (off : Nat) : Bool := match regVal s off with
  | some (64, _) => true
  | _ => false

/-- The value shown at an offset; a reserved offset reads 0, and so does a WO register (R76). -/
def regShown (s : State) (off : Nat) : Nat := ((regVal s off).map Prod.snd).getD 0

/-- A read of the low half of a 64-bit register arms its shadow (R33). -/
def lowHalf (off : Nat) (s : State) : Nat × State :=
  let v := regShown s off
  (v % 2 ^ 32, { s with host := { s.host with shadows := tblSet s.host.shadows off ⟨v / 2 ^ 32, s.clk.ns⟩ } })

/-- A read of the high half of the 64-bit register at an offset: paired within `span` ns, or unpaired (R33, R34). -/
def highHalf (off span : Nat) (s : State) : Nat × State :=
  let live := regShown s off / 2 ^ 32
  match tblFind s.host.shadows off with
  | some h =>
    if s.clk.ns ≤ h.at_ + span then (h.high, { s with host := { s.host with shadows := tblErase s.host.shadows off } })
    else (live, { s with host := { s.host with hiUnpaired := true } })
  | none => (live, { s with host := { s.host with hiUnpaired := true } })

/-- An aligned 32-bit read. -/
def read32 (off span : Nat) (s : State) : Nat × State :=
  if is64 s off then lowHalf off s
  else if decide (off % 8 = 4) && is64 s (off - 4) then highHalf (off - 4) span s
  else (regShown s off, rcClear off s)

/-- A read of `size` bytes of the register blocks (R32, R33, R76). -/
def regRead (size off span : Nat) (s : State) : Nat × State :=
  if size = 8 ∧ off % 8 = 0 then
    if is64 s off then (regShown s off, s)
    else
      let lo := read32 off span s
      let hi := read32 (off + 4) span lo.2
      (lo.1 + 2 ^ 32 * hi.1, hi.2)
  else if size = 4 ∧ off % 4 = 0 then read32 off span s
  else (onesN size, s)

/-! ### Writes of BAR0 registers -/

/-- The 64-bit registers that the host writes. -/
def writable64 : List Nat :=
  [0x28, 0x40, 0x48, 0x91800, 0xC1000, 0xC1008, 0xC1020, 0xC1028, 0xC1040, 0xC1048, 0xC1060, 0xC1068, 0xC1108]

/-- Write of a 64-bit register (R35). -/
def write64 (off v : Nat) (s : State) : State :=
  if off = 0x28 then bar2BaseBody v s
  else if off = 0x40 then { s with host := { s.host with q0SqBase := v - v % 4096 } }
  else if off = 0x48 then { s with host := { s.host with q0CqBase := v - v % 4096 } }
  else if off = 0x91800 then histLookupBody v s
  else if off = 0xC1108 then { s with afe := { s.afe with gpioOut := v % 2 ^ 48 } }
  else if 0xC1000 ≤ off ∧ off < 0xC1080 then
    let n := (off - 0xC1000) / 0x20
    if off % 0x20 = 0 then updSp n (fun x => { x with phase := v }) s else updSp n (fun x => { x with data := v }) s
  else s

/-- GLB_STATUS: HI_UNPAIRED and WR_SPLIT are W1C. -/
def glbStatusWrite (v : Nat) (s : State) : State :=
  { s with host := { s.host with hiUnpaired := s.host.hiUnpaired && !bitOf v 8, wrSplit := s.host.wrSplit && !bitOf v 9 } }

/-- GLB_SUPPLY: DIPPED is W1C, bits 28 to 16. -/
def supplyWrite (v : Nat) (s : State) : State :=
  { s with boot := { s.boot with dipped :=
      ((List.range 13).map fun k => bAt k (bitOf s.boot.dipped k && !bitOf v (16 + k))).sum } }

/-- A write of 32 bits by the access type of what lies at the offset; RO registers and reserved offsets ignore it. -/
def write32Reg (off v : Nat) (s : State) : State :=
  let o := off % 0x10000
  match off / 0x10000 with
  | 0x0 =>
    if o = 0x08 then glbStatusWrite v s
    else if o = 0x20 then supplyWrite v s
    else if o = 0x30 then { s with host := { s.host with fwdSel := v % 64 } }
    else if o = 0x50 then q0CtrlWrite v s
    else s
  | 0x1 => dbWrite s.chain.head o v s
  | 0x2 =>
    if o < 0x800 then { s with host := { s.host with route := tblSet s.host.route (o / 4) (v % 2 ^ 17) } }
    else if o < 0x840 then evtPendBody ((o - 0x800) / 4) (BitVec.ofNat 32 v) none s
    else if 0x900 ≤ o ∧ o < 0xB80 then evtGrpBody ((o - 0x900) / 4) v s
    else s
  | 0xB => if o = 0 then armWrite v s else s
  | 0xC =>
    if o < 0x1000 then (if o % 0x400 = 4 then swTrigger (o / 0x400) v s else s)
    else if o < 0x1080 then (if o % 0x20 = 0x10 then spmCtrlWrite ((o - 0x1000) / 0x20) v s else s)
    else s
  | _ => s

/-- An aligned 32-bit write (R35, R76). -/
def write32 (off v : Nat) (s : State) : State :=
  if writable64.contains (off - off % 8) then { s with host := { s.host with wrSplit := true } }
  else if is64 s (off - off % 8) then s
  else write32Reg off v s

/-- A write of `size` bytes to the register blocks. -/
def regWrite (size off v : Nat) (s : State) : State :=
  if size = 8 ∧ off % 8 = 0 then
    if writable64.contains off then write64 off v s
    else if is64 s off then s
    else write32 (off + 4) (v / 2 ^ 32) (write32 off (v % 2 ^ 32) s)
  else if size = 4 ∧ off % 4 = 0 then write32 off (v % 2 ^ 32) s
  else s

/-! ### The forwarded window (R100) and doorbell pages (R99) -/

/-- 20 µs for a forwarded read, 1 µs at the endpoint (R33, R34). -/
def spanHere : Nat := 1000
def spanFar : Nat := 20000

/-- A forwarded access as the payload of a REG packet. DESIGN CHOICE 26: the spec gives no layout. -/
def regPayload (off : Nat) : RegAccess → List Byte
  | .read size => leBytes 1 0 ++ leBytes 1 0 ++ leBytes 2 size ++ leBytes 8 off
  | .write size v => leBytes 1 1 ++ leBytes 1 0 ++ leBytes 2 size ++ leBytes 8 off ++ leBytes size v.toNat

/-- An access on this device's own blocks. -/
def regLocal (off span : Nat) (acc : RegAccess) (s : State) : State :=
  match acc with
  | .read size => let r := regRead size off span s; emit (.readData size r.1) r.2
  | .write size v => regWrite size off (v.toNat % 2 ^ (8 * size)) s

/-- Alignment and size of a BAR0 request (R76). -/
def alignedAccess (off : Nat) : RegAccess → Bool
  | .read size => decide (size = 4 ∧ off % 4 = 0 ∨ size = 8 ∧ off % 8 = 0)
  | .write size _ => decide (size = 4 ∧ off % 4 = 0 ∨ size = 8 ∧ off % 8 = 0)

/-- A read that reaches nothing returns all ones; a write is dropped. -/
def noAnswer (acc : RegAccess) (s : State) : State :=
  match acc with
  | .read size => emit (.readData size (onesN size)) s
  | .write _ _ => s

/-- An access in the window of the device that GLB_FWD_SEL named when it came. -/
def forwardBody (sel off : Nat) (acc : RegAccess) (s : State) : State :=
  if !alignedAccess off acc then noAnswer acc s
  else if sel = s.chain.devId then regLocal off spanHere acc s
  else if reachable s sel then feltTo sel 0x17 (regPayload off acc) s
  else raise 342 0x03 0 (noAnswer acc s)

/-- A write into the doorbell pages, of 4 bytes or two halves of 8. -/
def pageWrite (size off v : Nat) (s : State) : State :=
  let page := off / 0x10000
  let o := off % 0x10000
  if size = 8 then pageBody page (o + 4) (v / 2 ^ 32) (pageBody page o (v % 2 ^ 32) s) else pageBody page o v s

/-- An access to BAR0 acts (Table 4.3). -/
def bar0Serve (sel off : Nat) (acc : RegAccess) (s : State) : State :=
  if !alignedAccess off acc then noAnswer acc s
  else if off < 0x100000 then regLocal off spanHere acc s
  else if off < 0x200000 then forwardBody sel (off - 0x100000) acc s
  else match acc with
    | .read size => emit (.readData size 0) s
    | .write size v => if 0x400000 ≤ off ∧ off < 0x800000 then pageWrite size (off - 0x400000) v.toNat s else s

/-- An access to BAR0. A read waits while a BAR2 write that came before it may not have reached its device's HBM (R79). -/
def bar0Access (off : Nat) (acc : RegAccess) (s : State) : State :=
  match acc with
  | .read size =>
    if s.host.bar2Out.isEmpty then bar0Serve s.host.fwdSel off acc s
    else { s with host := { s.host with heldReads := s.host.heldReads ++ [(off, size, s.host.fwdSel)] } }
  | .write _ _ => bar0Serve s.host.fwdSel off acc s

/-- The reads that waited are served, in order, once every write is confirmed or its device is lost. -/
def readsRelease (s : State) : State :=
  if s.host.bar2Out.isEmpty then
    s.host.heldReads.foldl (fun s x => bar0Serve x.2.2 x.1 (.read x.2.1) s) { s with host := { s.host with heldReads := [] } }
  else s

/-- A device confirms a BAR2 write. -/
def bar2Landed (dev : Nat) (s : State) : State :=
  readsRelease { s with host := { s.host with bar2Out := s.host.bar2Out.erase dev } }

/-- FORWARDED_ACCESS: R100. -/
def execForwardedAccess (off : BitVec 20) (acc : RegAccess) (s : State) : Out :=
  whenHost (bar0Access (0x100000 + off.toNat) acc) s

/-! ### BAR4: the MSI-X table and the PBA -/

/-- The 32-bit word at an offset of BAR4 (Table 4.2). -/
def bar4Word (s : State) (off : Nat) : Nat :=
  if off < 0x2000 then
    let e := tblGet {} s.host.msix (off / 16)
    (match off % 16 with
     | 0 => e.addr % 2 ^ 32
     | 4 => e.addr / 2 ^ 32
     | 8 => e.data
     | _ => b2n e.masked)
  else if off < 0x2040 then (s.host.pba.extractLsb' (8 * (off - 0x2000)) 32).toNat
  else 0

/-- Send the message of a vector held as pending, once it is neither masked nor stopped by Bus Master Enable (R75). -/
def msixFlush (v : Nat) (s : State) : State :=
  if s.host.pba.getLsbD v && !(tblGet {} s.host.msix v).masked && mayRequest s then
    let e := tblGet {} s.host.msix v
    emit (.msix v e.addr e.data) { s with host := { s.host with pba := s.host.pba &&& ~~~ (BitVec.ofNat 512 (2 ^ v)) } }
  else s

/-- A write of one word of the MSI-X table; the PBA is read-only. -/
def bar4Put (off v : Nat) (s : State) : State :=
  if off < 0x2000 then
    let n := off / 16
    let e := tblGet {} s.host.msix n
    let f := (match off % 16 with
      | 0 => { e with addr := e.addr - e.addr % 2 ^ 32 + v }
      | 4 => { e with addr := e.addr % 2 ^ 32 + v * 2 ^ 32 }
      | 8 => { e with data := v }
      | _ => { e with masked := bitOf v 0 } : MsixEntry)
    msixFlush n { s with host := { s.host with msix := tblSet s.host.msix n f } }
  else s

/-- An access to BAR4. R76 speaks of BAR0: an access to BAR4 of another size or alignment, or at a reserved offset, answers as
one to BAR0 does (DESIGN CHOICE 84). -/
def bar4Access (off : Nat) (acc : RegAccess) (s : State) : State :=
  if !alignedAccess off acc then noAnswer acc s
  else match acc with
    | .read size =>
      if size = 8 then emit (.readData 8 (bar4Word s off + 2 ^ 32 * bar4Word s (off + 4))) s
      else emit (.readData size (bar4Word s off)) s
    | .write size v =>
      if size = 8 then bar4Put (off + 4) (v.toNat / 2 ^ 32) (bar4Put off (v.toNat % 2 ^ 32) s)
      else bar4Put off (v.toNat % 2 ^ 32) s

/-- An access to a BAR. -/
def barAccess (bar : HostBar) (off : Nat) (acc : RegAccess) (s : State) : State :=
  match bar with
  | .bar0 => bar0Access off acc s
  | .bar4 => bar4Access off acc s

/-- REGISTER_WRITE: R4, R35, R76. -/
def execRegisterWrite (bar : HostBar) (off : BitVec 24) (size : Nat) (v : W64) (s : State) : Out :=
  whenHost (barAccess bar off.toNat (.write size v)) s

/-- REGISTER_READ_CLEAR: R4, R32, R76. -/
def execRegisterReadClear (bar : HostBar) (off : BitVec 24) (size : Nat) (s : State) : Out :=
  whenHost (barAccess bar off.toNat (.read size)) s

/-- SPLIT_READ_LOW: R33. -/
def execSplitReadLow (off : BitVec 24) (s : State) : Out := whenHost (bar0Access off.toNat (.read 4)) s

/-- SPLIT_READ_HIGH: R33. -/
def execSplitReadHigh (off : BitVec 24) (s : State) : Out := whenHost (bar0Access off.toNat (.read 4)) s

end Sys2Proof.Machine
end

