-- ==== Sys2Proof/Machine/Identity.lean ====
section
/-! DEFINITION. IDENTIFY (R115). -/

namespace Sys2Proof.Machine

/-- The wire that serves as spare now. -/
def spareNow (s : State) : Nat := ((List.range 9).find? fun w => decide (wireRole s w = 1)).getD 0

/-- Devices in the chain map, 1 when standalone. -/
def devicesKnown (s : State) : Nat := if s.chain.mapped then mapCount s else 1

/-- The fields of Table 5.7 in order, to 0x70. -/
def identityFields (s : State) : List Byte :=
  leBytes 4 glbId ++ leBytes 1 s.chain.devId ++ leBytes 1 (devicesKnown s) ++ leBytes 1 s.boot.source
    ++ leBytes 1 s.sec.fuseSteps ++ leBytes 4 s.sec.fwVersion ++ leBytes 4 (cfgApplied s).toNat ++ ownSerial
    ++ [64, 16, 32, 9, 4, 16, 4, 0] ++ leBytes 4 128 ++ leBytes 2 1024 ++ leBytes 2 64 ++ leBytes 4 262144
    ++ leBytes 2 256 ++ leBytes 2 512 ++ leBytes 1 (spareNow s) ++ zeros 7 ++ padTo 48 s.sec.fwHash

/-- The 4,096-byte structure of Table 5.7. -/
def identity (s : State) : List Byte := padTo 4096 (identityFields s)

/-- IDENTIFY: RESULT is GLB_ID and the device ID (Table 5.6). -/
def startIdentify (io : HostIo) (c : Cmd) (s : State) : State :=
  hostOut c (identity s) io (fun c s => finishOk c (glbId + at' 32 s.chain.devId) 4096 s) s

/-- IDENTIFY: R115. -/
def execIdentify (sq : Fin 1024) (tag : W32) (io : HostIo) (s : State) : Out :=
  opcodeRow sq tag 0x0001 (startIdentify io) (fun _ s => s) s

end Sys2Proof.Machine
end

