-- ==== Sys2Proof/Machine/Bist.lean ====
section
/-! DEFINITION. Self-test of out-of-service instances and the periodic test of the spare (chapter 22). -/

namespace Sys2Proof.Machine

/-- The blocks of a test in order: part and number (R428). -/
def bistPlan (blk mask : Nat) : List (Nat × Nat) :=
  (List.range 3).flatMap fun k => if bitOf mask k then (List.range ((bistParts blk).getD k 0)).map fun i => (k, i) else []

/-- A camera or dryer port with couch ENABLE 1 runs. -/
def couchFed (s : State) : Bool :=
  ((List.range 32).any fun p => (port s p).running && decide (cf s 0x06 0 (0x100 + 0x40 * p) = 1))
    || (List.range 4).any fun p => (dry s p).running && decide (cf s 0x06 0 (0x900 + 0x80 * p) = 1)

/-- The conditions of Table 22.2. -/
def bistIdle (s : State) (blk inst : Nat) : Bool :=
  match blk with
  | 0x02 => !(port s inst).running
  | 0x03 => decide (wireRole s inst = 1) && decide (wireStateNow s inst = 0 ∨ wireStateNow s inst = 3)
      && (wire s inst).reproc.isNone && !s.ing.swap.any fun x => decide (x.out = inst ∨ x.into = inst)
  | 0x05 => !(dry s inst).running
  | 0x06 | 0x07 => !couchFed s
  | 0x08 => decide (rlSource s inst = 0)
  | _ => false

/-- A test begins. -/
def bistBegin (cid : Option Nat) (blk inst mask : Nat) (s : State) : State :=
  let s1 := if blk = 0x03 then updWire inst (fun w => { w with state := 2 }) s else s
  { s1 with bist := { s1.bist with run := some { blk := blk, inst := inst, mask := mask, cid := cid, startNs := s1.clk.ns }
                                   lastBlk := blk, lastInst := inst } }

/-- BIST_RUN starts. -/
def startBist (c : Cmd) (s : State) : State :=
  let blk := addrBlk (pkTarget c.packet)
  let inst := pkInst c.packet
  let mask := pm32 c.packet 0x18
  if s.bist.run.isSome ∨ !bistIdle s blk inst then finishCheck c stBusy s
  else
    let r := beginWork c (bistPlan blk mask).length s
    bistBegin (some c.cid) blk inst mask r.2

/-- BIST_RUN: R427, R428. -/
def execBistRun (sq : Fin 1024) (tag : W32) (s : State) : Out := opcodeRow sq tag 0x00D0 startBist (fun _ s => s) s

/-! ### Blocks -/

/-- A MEMORY block repairs its faulty rows at once, with the outcomes of the spare rows' tests (R429). -/
def bistRepair : List W32 → List Bool → Nat → Bool → State → Nat × Bool × State
  | [], _, n, ok, s => (n, ok, s)
  | r :: rs, ts, n, ok, s =>
    let x := sramRepair r.toNat ts s
    bistRepair rs x.2.1 (n + b2n x.1) (ok && x.1) x.2.2

/-- The bit of GLB_BIST_FAIL of an instance. -/
def bistBit (blk inst : Nat) : Nat :=
  match blk with
  | 0x02 => 9 + inst
  | 0x03 => inst
  | 0x05 => 41 + inst
  | 0x06 => 45
  | 0x07 => 46 + inst
  | _ => 55

/-- The outcome of a test in GLB_BIST_FAIL (R430). -/
def bistMark (blk inst : Nat) (pass : Bool) (b : Bist) : Bist :=
  if blk = 0x08 then
    let fails := if pass then b.reelFails.filter fun r => decide (r ≠ inst)
      else if b.reelFails.contains inst then b.reelFails else b.reelFails ++ [inst]
    { b with reelFails := fails, failMask := setBitN b.failMask 55 (!fails.isEmpty) }
  else { b with failMask := setBitN b.failMask (bistBit blk inst) (!pass) }

/-- RESULT of a test (R429). -/
def bistResult (r : BistRun) : Nat :=
  (if bits r.mask 0 1 = 1 ∨ bits r.mask 2 1 = 1 then crc32 r.sigs else 0) + at' 32 (satU 8 r.failed) + at' 40 (satU 8 r.repaired)
    + bAt 48 (decide (r.failed = 0))

/-- A test ends: R430, R433, and the completion of its command. -/
def bistEnd (r : BistRun) (s : State) : State :=
  let pass := decide (r.failed = 0)
  let s1 := { s with bist := { bistMark r.blk r.inst pass s.bist with run := none } }
  let s2 := if r.blk = 0x03 then
      let s2 := updWire r.inst (fun w => { w with state := if pass then 0 else 3 }) s1
      if pass then s2 else raise (112 + r.inst) 0x05 0 s2
    else s1
  let s3 := raise 328 0x01 (at' 24 r.blk + at' 16 r.inst + b2n pass) s2
  match r.cid.bind (cmdById s3) with
  | some c => finishOk c (bistResult r) c.position s3
  | none => s3

/-- A block of the running test has ended: its signature, and the faulty rows it found with their spares' tests. -/
def bistBlock (sig : List Byte) (rows : List W32) (tests : List Bool) (s : State) : State :=
  match s.bist.run with
  | none => s
  | some r =>
    let plan := bistPlan r.blk r.mask
    match plan[r.done]? with
    | none => bistEnd r s
    | some (part, i) =>
      let m := if part = 1 then bistRepair rows tests 0 true s else (0, decide (sig = Config.bistSignature r.blk part i), s)
      let r1 := { r with done := r.done + 1, repaired := r.repaired + m.1, failed := r.failed + b2n (!m.2.1)
                         sigs := if part = 1 then r.sigs else r.sigs ++ sig }
      let s1 := { m.2.2 with bist := { m.2.2.bist with run := some r1 } }
      let s2 := match r.cid.bind (cmdById s1) with
        | some c => (progressTo c r1.done s1).2
        | none => s1
      if r1.done = plan.length then bistEnd r1 s2 else s2

/-- BIST_BLOCK_END: R428, R429. -/
def execBistBlockEnd (sig : List Byte) (rows : List W32) (tests : List Bool) (s : State) : Out :=
  whenReady (bistBlock sig rows tests) s

/-! ### The periodic test of the spare (R432) -/

/-- Crystal time at which the test of the spare next falls due. -/
def spareDue (s : State) : Option Nat :=
  let h := cf s 0x12 0 0
  if h = 0 then none else some (s.bist.spareRetryNs.getD (s.bist.spareNs + sec (3600 * h)))

/-- The test of the spare falls due: it begins, or is tried again after an hour. -/
def sparePeriod (s : State) : State :=
  match spareDue s with
  | none => s
  | some t =>
    if s.clk.ns < t then s
    else
      let w := spareNow s
      if s.bist.run.isSome ∨ !bistIdle s 0x03 w then
        raise 328 0x02 0 { s with bist := { s.bist with spareRetryNs := some (t + sec 3600) } }
      else
        let p := sec (3600 * cf s 0x12 0 0)
        let s1 := { s with bist := { s.bist with spareRetryNs := none, spareNs := s.clk.ns - (s.clk.ns - s.bist.spareNs) % p } }
        bistBegin none 0x03 w (cf s 0x12 0 2) s1

/-- SPARE_PERIOD: R432. -/
def execSparePeriod (s : State) : Out := whenLive sparePeriod s

end Sys2Proof.Machine
end

