-- ==== Sys2Proof/Machine/ChainOps.lean ====
section
/-! DEFINITION. Enumeration of the chain, its map, joining devices, and chain time (R408 to R411, R416, R417, R424). -/

namespace Sys2Proof.Machine

/-- Change the chain's state. -/
def updChain (f : Chain → Chain) (s : State) : State := { s with chain := f s.chain }
/-- Change a felt port. -/
def updFelt (k : Nat) (f : FeltPort → FeltPort) (s : State) : State := setFeltPort k (f (feltPort s k)) s
/-- Send a packet to the neighbour on a port. -/
def feltNb (k ptype : Nat) (payload : List Byte) (s : State) : State := feltOn k ⟨0xFF, s.chain.devId, 32, ptype, payload⟩ s
/-- The head serial under which this device is admitted: its own on a mapped head. -/
def ownHead (s : State) : List Byte := if s.chain.head then (if s.chain.mapped then ownSerial else []) else s.chain.headSerial
/-- The low 32 bits of a serial number (Table 21.5). -/
def serial32 (x : List Byte) : Nat := leNat (x.take 4)

/-! ### The map, Table 21.2 -/

/-- FLAGS of an entry. -/
def entryFlags (e : MapEntry) : Nat := bAt 0 e.present + bAt 1 e.head + bAt 2 e.replaced + bAt 3 e.unreachable + bAt 4 e.excess

/-- The 32 bytes of an entry; all zero when its ID is not admitted. -/
def entryBytes (e : MapEntry) : List Byte :=
  if e.present then
    leBytes 1 (entryFlags e) ++ leBytes 1 e.hops ++ leBytes 1 e.parent ++ leBytes 1 e.parentPort
      ++ (List.range 4).map (fun k => BitVec.ofNat 8 (e.nbId.getD k 0xFF))
      ++ leBytes 1 ((List.range 4).map fun k => at' (2 * k) (e.nbPort.getD k 0 % 4)).sum ++ zeros 7 ++ padTo 16 e.serial
  else zeros 32

/-- The 2,064 bytes of the map. -/
def mapBytes (s : State) : List Byte :=
  leBytes 2 1 ++ leBytes 1 (mapCount s) ++ zeros 5 ++ leBytes 8 s.chain.mapTime
    ++ (List.range 64).flatMap fun d => entryBytes (mapEntry s d)

/-- The entry that 32 bytes of a stored map hold. -/
def entryOf (b : List Byte) : MapEntry :=
  { present := bitOf (u8At b 0) 0, head := bitOf (u8At b 0) 1, replaced := bitOf (u8At b 0) 2, unreachable := bitOf (u8At b 0) 3
    excess := bitOf (u8At b 0) 4, hops := u8At b 1, parent := u8At b 2, parentPort := u8At b 3
    nbId := (List.range 4).map fun k => u8At b (4 + k), nbPort := (List.range 4).map fun k => bits (u8At b 8) (2 * k) 2
    serial := slice b 0x10 16 }

/-- The map that a stored record holds. -/
def mapOf (b : List Byte) : Tbl MapEntry :=
  ((List.range 64).map fun d => (d, entryOf (slice b (0x10 + 32 * d) 32))).filter fun x => x.2.present

/-! ### Chain time -/

/-- TB_NOW steps forward by `n` ns (R417): stored sample times and the offset to the parent follow, and the offsets measured
before it are void. -/
def tbStep (n : Nat) (s : State) : State :=
  if n = 0 then s
  else
    let s1 := { s with clk := { s.clk with tb := s.clk.tb + n } }
    let s2 := updChain (fun c => { c with thetas := [], syncT1 := none, theta := if c.head then c.theta else c.theta - 64 * (n : Int)
                                          samples := c.samples.map fun x => { x with t := x.t + 64 * (n : Int) } }) s1
    raise 329 0x05 (satU 32 (n / 1000)) s2

/-- CHAIN_SYNC changes, with its event (R418); the neighbours hear of it. -/
def setSync (ok : Bool) (s : State) : State :=
  if s.chain.chainSync = ok then s
  else raise 329 (if ok then 0x04 else 0x03) (ofS 32 s.chain.theta) (updChain (fun c => { c with chainSync := ok }) s)

/-! ### Searching (R408, R409) -/

/-- A probe or a reply as a payload. DESIGN CHOICE 27: the spec gives its fields no layout. -/
def enumBytes (m : EnumMsg) : List Byte :=
  leBytes 1 (b2n m.reply) ++ padTo 16 m.serial ++ leBytes 1 m.id.toNat ++ leBytes 1 m.port.val ++ padTo 16 m.headSerial
    ++ padTo 16 m.via ++ leBytes 1 m.viaPort.val ++ leBytes 8 m.tb.toNat ++ m.path

/-- A port on which a probe may go: ENABLE 1 and ACTIVE (R408). -/
def probes (s : State) (k : Nat) : Bool := decide (cf s 0x11 k 0 = 1 ∧ (feltPort s k).link.st = 3)

/-- The ID that a device shows its neighbours; 0x3F while it has none. -/
def shownId (s : State) : Nat := if s.chain.mapped then s.chain.devId else 0x3F

/-- A probe of mode 1 goes only along the map in force (R409): it carries the mapped ID of the device that sends it and the NB_ID
bytes of the map, one device after the other. What it carries over port `k`, with the ID of the device there; none where the map
has no device there. A probe of mode 0 carries nothing and goes over every port. -/
def pathOver (path : List Byte) (k : Nat) : Option (List Byte) :=
  if path.isEmpty then some []
  else
    let n := u8At path (1 + 4 * u8At path 0 + k)
    if n < 64 then some (leBytes 1 n ++ path.drop 1) else none

/-- Probe over a port for the head `hd`, whose sending of probes is told apart by its TB_NOW `tb`. -/
def probe (hd : List Byte) (tb : W64) (path : List Byte) (s : State) (k : Fin 4) : State :=
  match pathOver path k.val with
  | some x =>
    if probes s k.val then
      feltNb k.val 0x10 (enumBytes ⟨false, ownSerial, BitVec.ofNat 8 (shownId s), k, hd, [], 0, tb, x⟩) s
    else s
  | none => s

/-- The ports of a device in order. -/
def feltPorts : List (Fin 4) := [0, 1, 2, 3]

/-- The path that the head's probes carry: the map in mode 1. -/
def searchPath (mode : Nat) (s : State) : List Byte :=
  if mode = 0 then []
  else zeros 1 ++ (List.range 64).flatMap fun d => (List.range 4).map fun k =>
    BitVec.ofNat 8 (if (mapEntry s d).present then (mapEntry s d).nbId.getD k 0xFF else 0xFF)

/-- The head probes outward over its ports. -/
def probeAll (mode : Nat) (s : State) : State :=
  let tb : W64 := BitVec.ofNat 64 s.clk.tb
  feltPorts.foldl (probe ownSerial tb (searchPath mode s)) (updChain (fun c => { c with probeTb := some tb }) s)

/-- A search begins at the head. -/
def searchBegin (cid : Option Nat) (mode : Nat) (s : State) : State :=
  probeAll mode (updChain (fun c => { c with search := some ⟨cid, mode, s.clk.ns⟩, found := [] }) s)

/-- The device at an end of a found link belongs to another head. -/
def foreignLink (l : EnumLink) : Bool := !l.headSerial.isEmpty && decide (l.headSerial ≠ ownSerial)

/-- The found links as seen from the device with a serial: own port, the other end's serial and its port. -/
def linksOf (ls : List EnumLink) (x : List Byte) : List (Nat × List Byte × Nat) :=
  ls.filterMap fun l =>
    if foreignLink l then none
    else if l.via = x then some (l.viaPort, l.serial, l.ownPort)
    else if l.serial = x then some (l.ownPort, l.via, l.viaPort)
    else none

/-- The serial numbers found, the head's first. -/
def foundSerials (ls : List EnumLink) : List (List Byte) :=
  (ownSerial :: (ls.filter fun l => !foreignLink l).map EnumLink.serial).eraseDups

/-- An admitted device during an assignment: serial, ID, hops, parent's ID and own port toward it. -/
structure Admit where
  serial : List Byte
  id : Nat
  hops : Nat
  parent : Nat
  pport : Nat
deriving DecidableEq, Repr

/-- A candidate of the next level: serial, parent ID, parent's port and own port. -/
abbrev Cand := List Byte × Nat × Nat × Nat

/-- Order of candidates: parent ID, then own felt port for one device; parent's port between devices. -/
def candLt (a b : Cand) : Bool :=
  decide (a.2.1 < b.2.1) || (decide (a.2.1 = b.2.1) && if a.1 = b.1 then decide (a.2.2.2 < b.2.2.2) else decide (a.2.2.1 < b.2.2.1))

/-- Insert in order. -/
def candInsert (c : Cand) : List Cand → List Cand
  | [] => [c]
  | d :: ds => if candLt c d then c :: d :: ds else d :: candInsert c ds

/-- The best candidacy of each device, in the order in which IDs are given. -/
def candLevel (ls : List EnumLink) (adm front : List Admit) : List Cand :=
  let all : List Cand := front.flatMap fun a =>
    (linksOf ls a.serial).filterMap fun l =>
      if adm.any fun b => decide (b.serial = l.2.1) then none else some (l.2.1, a.id, l.1, l.2.2)
  let best := all.foldl (fun (t : List Cand) c =>
    match t.find? fun d => decide (d.1 = c.1) with
    | some d => if candLt c d then c :: t.filter fun x => decide (x.1 ≠ c.1) else t
    | none => c :: t) []
  best.foldl (fun t c => candInsert c t) []

/-- The ID that the map in force gives a serial. -/
def mappedId (s : State) (x : List Byte) : Option Nat :=
  if x = ownSerial then some 0
  else (s.chain.map.find? fun e => e.2.present && decide (e.2.serial = x ∧ e.1 ≠ 0)).map Prod.fst

/-- The lowest free ID, while one is. -/
def freeId (kept : List Nat) (adm : List Admit) : Option Nat :=
  (List.range 64).find? fun d => !kept.contains d && !adm.any fun a => decide (a.id = d)

/-- Admit a level: mapped devices keep their ID, the others take the lowest free ID. -/
def admitLevel (s : State) (kept : List Nat) (hops : Nat) (adm : List Admit) : List Cand → List Admit
  | [] => adm
  | c :: cs =>
    match (mappedId s c.1).orElse fun _ => freeId kept adm with
    | some d => admitLevel s kept hops (adm ++ [⟨c.1, d, hops, c.2.1, c.2.2.2⟩]) cs
    | none => admitLevel s kept hops adm cs

/-- Admit level by level. -/
def admitAll (s : State) (ls : List EnumLink) (kept : List Nat) : Nat → Nat → List Admit → List Admit → List Admit
  | 0, _, adm, _ => adm
  | n + 1, hops, adm, front =>
    let adm1 := admitLevel s kept hops adm (candLevel ls adm front)
    let new := adm1.drop adm.length
    if new.isEmpty then adm else admitAll s ls kept n (hops + 1) adm1 new

/-- The devices that mode 0 admits. -/
def admitted (s : State) (ls : List EnumLink) : List Admit :=
  let head : Admit := ⟨ownSerial, 0, 0, 0xFF, 0xFF⟩
  let kept := 0 :: (foundSerials ls).filterMap (mappedId s)
  admitAll s ls kept 64 1 [head] [head]

/-- The neighbour on a port of an admitted device: its ID, 0xFE for FOREIGN, or 0xFF, and its port. -/
def neighbourOn (ls : List EnumLink) (adm : List Admit) (x : List Byte) (k : Nat) : Nat × Nat :=
  match (linksOf ls x).find? fun l => decide (l.1 = k) with
  | some l => (match adm.find? fun a => decide (a.serial = l.2.1) with
    | some a => (a.id, l.2.2)
    | none => (0xFF, 0))
  | none => if ls.any fun l => foreignLink l && decide (l.via = x ∧ l.viaPort = k) then (0xFE, 0) else (0xFF, 0)

/-- The map entry of an admitted device. -/
def admitEntry (ls : List EnumLink) (adm : List Admit) (a : Admit) : MapEntry :=
  let nb := (List.range 4).map fun k => neighbourOn ls adm a.serial k
  { present := true, head := decide (a.id = 0), hops := a.hops, parent := a.parent, parentPort := a.pport
    nbId := nb.map Prod.fst, nbPort := nb.map Prod.snd, serial := a.serial
    excess := (linksOf ls a.serial).any fun l => !adm.any fun b => decide (b.serial = l.2.1) }

/-- The map that mode 0 makes. -/
def newMap (s : State) (ls : List EnumLink) : Tbl MapEntry :=
  let adm := admitted s ls
  adm.foldl (fun t a => tblSet t a.id (admitEntry ls adm a)) []

/-- The greatest lead of the devices found over this one's TB_NOW, 0 at least. -/
def greatestLead (t : Tbl MapEntry) (ls : List EnumLink) : Nat :=
  ls.foldl (fun m l => if t.any fun e => decide (e.2.serial = l.serial) then max m l.lead.toNat else m) 0

/-- The neighbours' IDs and ports on this device's own felt ports, as its map entry gives them. -/
def portsLearn (e : MapEntry) (s : State) : State :=
  (List.range 4).foldl (fun s k =>
    if e.nbId.getD k 0xFF < 64 then updFelt k (fun p => { p with nbId := e.nbId.getD k 0xFF, nbPort := e.nbPort.getD k 0 }) s else s) s

/-- Tell a device that it has joined, and the neighbours of every mapped device: of the others those with a link (R408, R424). -/
def joinSend (d step : Nat) (s : State) : State :=
  let e := mapEntry s d
  let s1 := feltTo d 0x1A (ctrlJoin d e.hops e.parent e.parentPort e.serial ownSerial step) s
  s1.chain.map.foldl (fun s x => feltTo d 0x1A (ctrlEntry x.1 (if x.1 = d then x.2.nbId else liveNb x.2) x.2.nbPort) s) s1

/-- The head takes a map: the neighbours' IDs on its own ports, its routes, and the devices that are told, nearest
first. -/
def mapTaken (step : Nat) (s : State) : State :=
  let s2 := recompute (portsLearn (mapEntry s 0) s)
  let dist := (routesFrom s2 0).2
  let ds := (List.range 65).flatMap fun h => (dist.filter fun x => decide (x.2 = h)).map Prod.fst
  ds.foldl (fun s d => joinSend d step s) s2

/-- Mode 0 ends: IDs are assigned and every device steps TB_NOW to the greatest (R408, R417). -/
def searchFull (s : State) : State :=
  let ls := s.chain.found
  let m := newMap s ls
  let s1 := tbStep (greatestLead m ls) (updChain (fun c => { c with map := m, mapped := true, devId := 0, head := true }) s)
  mapTaken s1.clk.tb (updChain (fun c => { c with mapTime := s1.clk.tb }) s1)

/-- The serial found at the mapped place of a device: same parent and parent port (R409). -/
def foundAt (ls : List EnumLink) (parent : List Byte) (e : MapEntry) : Option (List Byte) :=
  let at_ := (linksOf ls parent).filter fun l => decide (l.2.2 = e.parentPort)
  (at_.find? fun l => decide (l.2.1 = e.serial)).orElse (fun _ =>
    at_.find? fun l => decide (l.1 = e.nbPort.getD e.parentPort 0)) |>.map fun l => l.2.1

/-- Verify the mapped devices of one hop count. -/
def verifyLevel (ls : List EnumLink) (hops : Nat) (m : Tbl MapEntry) : Tbl MapEntry :=
  m.map fun x =>
    if x.1 = 0 ∨ x.2.hops ≠ hops then x
    else
      let p := tblGet {} m x.2.parent
      match (if p.present ∧ p.unreachable = false then foundAt ls p.serial x.2 else none) with
      | some y => (x.1, { x.2 with unreachable := false, serial := y, replaced := decide (y ≠ x.2.serial) })
      | none => (x.1, { x.2 with unreachable := true, replaced := false })

/-- The map after mode 1. -/
def verified (s : State) : Tbl MapEntry :=
  -- with no map in force the head alone is admitted
  let m0 := if s.chain.map.any fun x => decide (x.1 = 0) then s.chain.map else tblSet s.chain.map 0 { present := true, head := true }
  let m := (List.range 64).foldl (fun m h => verifyLevel s.chain.found (h + 1) m) m0
  m.map fun x => if x.1 = 0 then (x.1, { x.2 with serial := ownSerial, unreachable := false }) else x

/-- Mode 1 ends. -/
def searchVerify (s : State) : State :=
  mapTaken 0 (updChain (fun c => { c with map := verified s, mapped := true, mapTime := s.clk.tb }) s)

/-- Devices found by a search that has ended. -/
def foundCount (s : State) : Nat := (s.chain.map.filter fun x => x.2.present && !x.2.unreachable).length

/-- A search ends: the new map is in force. -/
def searchEnd (mode : Nat) (s : State) : State :=
  let s1 := updChain (fun c => { c with search := none }) s
  let s2 := if mode = 0 then searchFull s1 else searchVerify s1
  updChain (fun c => { c with found := [] }) s2

/-- The map is stored as record 6 (R410). -/
def mapStore (s : State) : State := recordWrite 6 (mapBytes s) s

/-- Has every mapped device been found? -/
def allFound (s : State) : Bool := s.chain.map.all fun x => !x.2.present || !x.2.unreachable

/-- The search of R411 ends with every mapped device found, or after 10 ms and 1 ms per device. -/
def autoSearch (s : State) : State :=
  match s.chain.search with
  | some ⟨none, mode, ns⟩ =>
    let all := (verified s).all fun x => !x.2.present || !x.2.unreachable
    if all ∨ ns + ms (10 + mapCount s) ≤ s.clk.ns then mapStore (searchEnd mode s) else s
  | _ => s

/-- Devices that a running search has admitted, the head among them. -/
def admittedNow (s : State) : Nat := min 64 (foundSerials s.chain.found).length

/-! ### CHAIN_ENUM -/

/-- CHAIN_ENUM starts. One that meets a running search is BUSY, as Table 5.14 says of a like command; Table 5.6 lists no BUSY for
it (DESIGN CHOICE 85). -/
def startEnum (c : Cmd) (s : State) : State :=
  if s.chain.search.isSome then finishCheck c stBusy s
  else
    let r := beginWork c 0 s
    searchBegin (some c.cid) (pm8 c.packet 0x18) r.2

/-- The search of a CHAIN_ENUM has ended. -/
def contEnum (io : HostIo) (c : Cmd) (s : State) : State :=
  match s.chain.search with
  | some ⟨some cid, mode, _⟩ =>
    if cid ≠ c.cid ∨ !mayRequest s then s
    else
      let s1 := searchEnd mode s
      let c1 := (cmdById s1 c.cid).getD c
      hostOutAt (fun _ => foundCount s1) c1 (mapBytes s1) io (fun c s =>
        let n := foundCount s
        let s := mapStore s
        if mode = 0 ∨ allFound s then finishOk c n n s else finish c stUnreachable (percentOf c) n n s) s1
  | _ => s

/-- CHAIN_ENUM: R408 to R410. The row that starts the command begins the search, and the next ends it. -/
def execChainEnum (sq : Fin 1024) (tag : W32) (io : HostIo) (s : State) : Out :=
  opcodeRow sq tag 0x00F0 startEnum (contEnum io) s

end Sys2Proof.Machine
end

