-- ==== Sys2Proof/Machine/Chain.lean ====
section
/-! DEFINITION. The felt rows: enumeration, time, the shared encoder, routed packets and failures (chapter 21). -/

namespace Sys2Proof.Machine

/-! ### Receiving -/

/-- A packet is relayed: its TTL falls, and it is discarded where it would reach 0 (R412, Table 21.5). -/
def relay (k : Nat) (h : RouteHdr) (ptype : Nat) (payload : List Byte) (s : State) : State :=
  let p := feltPort s k
  if h.ttl.toNat ≤ 1 then
    let s1 := updFelt k (fun p => { p with ttlNoted := true }) s
    if p.ttlNoted then s1 else raise (330 + k) 0x04 h.dst.toNat s1
  else feltRoute ⟨h.dst.toNat, h.src.toNat, h.ttl.toNat - 1, ptype, payload⟩ (updFelt k (fun p => { p with ttlNoted := false }) s)

/-- A routed packet: taken at its destination, relayed elsewhere. -/
def routed (k : Nat) (h : RouteHdr) (ptype : Nat) (payload : List Byte) (act : State → State) (s : State) : State :=
  fromUsable k payload.length (fun s =>
    if h.dst.toNat = s.chain.devId ∨ h.dst = 0xFF then act s else relay k h ptype payload s) s

/-! ### ENUM -/

/-- A port has ceased or begun to carry chain traffic: routes follow, and the chain hears of it (R412, R423). -/
def portShift (k : Nat) (up : Bool) (s : State) : State := linkNotice k up (recompute s)

/-- The neighbour on a port belongs to another head (R408). -/
def markForeign (k : Nat) (serial : List Byte) (s : State) : State :=
  if (feltPort s k).foreign_ then s
  else portShift k false (raise (330 + k) 0x02 (serial32 serial) (updFelt k (fun p => { p with foreign_ := true }) s))

/-- The link's two ends are ports of this device (R406). -/
def markLoop (k : Nat) (s : State) : State :=
  if (feltPort s k).loopback then s
  else portShift k false (raise (330 + k) 0x03 0 (updFelt k (fun p => { p with loopback := true }) s))

/-- What a packet says of the neighbour. A port that was shut as FOREIGN or LOOPBACK may give routes again. -/
def learnNb (k : Nat) (m : EnumMsg) (s : State) : State :=
  let p := feltPort s k
  let s1 := updFelt k (fun p => { p with nbId := m.id.toNat % 64, nbPort := m.port.val, nbSerial := m.serial, nbHead := m.headSerial
                                         foreign_ := false, loopback := false }) s
  if p.foreign_ || p.loopback then portShift k true s1 else s1

/-- Are two head serials of different heads? An empty one belongs to none. -/
def otherHead (a b : List Byte) : Bool := !a.isEmpty && !b.isEmpty && decide (a ≠ b)

/-- The answer to a probe. -/
def enumReply (k : Fin 4) (m : EnumMsg) (s : State) : State :=
  feltNb k.val 0x10 (enumBytes ⟨true, ownSerial, BitVec.ofNat 8 (shownId s), k, ownHead s, m.serial, m.port, BitVec.ofNat 64 s.clk.tb, []⟩) s

/-- A probe goes on over the other ports, once for each sending of the head, which its time stamp tells apart. -/
def probeOn (k : Fin 4) (m : EnumMsg) (s : State) : State :=
  if s.chain.probeTb = some m.tb then s
  else
    let s1 := updChain (fun c => { c with probeTb := some m.tb, probePort := k.val, probeHead := m.headSerial }) s
    (feltPorts.filter fun j => decide (j ≠ k)).foldl (probe m.headSerial m.tb m.path) s1

/-- A probe arrives. -/
def probeTaken (k : Fin 4) (m : EnumMsg) (s : State) : State :=
  if m.serial = ownSerial then markLoop k.val s
  else if otherHead (ownHead s) m.headSerial then enumReply k m (markForeign k.val m.serial s)
  else probeOn k m (enumReply k m (learnNb k.val m s))

/-- A found link is recorded at the searching head. -/
def enumFound (m : EnumMsg) (s : State) : State :=
  match s.chain.search with
  | none => s
  | some x =>
    let l : EnumLink := ⟨m.serial, m.port.val, m.headSerial, m.via, m.viaPort.val, (m.tb.toNat : Int) - (s.clk.tb : Int)⟩
    let s1 := updChain (fun c => { c with found := c.found ++ [l] }) s
    let s2 := match x.cid.bind (cmdById s1) with
      | some c => if x.mode = 0 then (progressTo c (admittedNow s1) s1).2 else s1
      | none => s1
    autoSearch s2

/-- The head for which this device meets its neighbours: the one that searches, that admitted it, or that probes. -/
def meetHead (s : State) : List Byte :=
  if s.chain.search.isSome then ownSerial else if (ownHead s).isEmpty then s.chain.probeHead else ownHead s

/-- A reply arrives: what it says of the neighbour, then on toward the head. -/
def replyTaken (k : Nat) (m : EnumMsg) (s : State) : State :=
  let s1 := if m.via ≠ ownSerial then s
    else if m.serial = ownSerial then markLoop k s
    else if otherHead (meetHead s) m.headSerial then markForeign k m.serial s
    else learnNb k m s
  if s1.chain.search.isSome then enumFound m s1
  else if s1.chain.probeTb.isSome then feltNb s1.chain.probePort 0x10 (enumBytes m) s1
  else s1

/-- ENUM: R408. -/
def enumBody (k : Fin 4) (m : EnumMsg) (s : State) : State :=
  fromNb k.val (enumBytes m).length
    (fun s => if cf s 0x11 k.val 0 ≠ 1 then s else if m.reply then replyTaken k.val m s else probeTaken k m s) s

/-- ENUM: R406, R408, R409. -/
def execEnum (k : Fin 4) (m : EnumMsg) (s : State) : Out := whenReady (enumBody k m) s

/-! ### SYNC (R416 to R418) -/

/-- The payload of a SYNC packet (Table 21.3). -/
def syncBytes (kind t1 t2 t3 : Nat) : List Byte := leBytes 1 kind ++ zeros 7 ++ leBytes 8 t1 ++ leBytes 8 t2 ++ leBytes 8 t3

/-- The next due time of a period. -/
def nextDue (next period now : Nat) : Nat := if next + period ≤ now then now + period else next + period

/-- A request is answered, after a notice of the parent's CHAIN_SYNC and of the ASYM that the answer is judged by. -/
def syncRequest (k t1 : Nat) (s : State) : State :=
  let t := tb64 s % 2 ^ 64
  feltNb k 0x11 (syncBytes 1 t1 t t) (feltNb k 0x1A (ctrlSync (s.chain.head || s.chain.chainSync) (cfS s 0x11 k 2 2)) s)

/-- 2θ in 1/64 ns: (T2 − T1) − (T4 − T3) − A, with A the ASYM of this port minus the parent's, ps. -/
def theta2 (t1 t2 t3 t4 : Nat) (asym : Int) : Int :=
  ((t2 : Int) - t1) - ((t4 : Int) - t3) - divRound (asym * 64) 1000

/-- A reply of the sync parent. -/
def syncReply (k t1 t2 t3 : Nat) (s : State) : State :=
  if s.chain.syncT1 = some t1 ∧ s.chain.parentPort = some k then
    let t4 := tb64 s % 2 ^ 64
    let th := theta2 t1 t2 t3 t4 (cfS s 0x11 k 2 2 - s.chain.parentAsym)
    let d := (((t4 : Int) - t1) - ((t3 : Int) - t2)) / 8
    updFelt k (fun p => { p with delay := (clampI 0 65535 d).toNat })
      (updChain (fun c => { c with syncT1 := none, thetas := (th :: c.thetas).take 10 }) s)
  else s

/-- SYNC: R416. -/
def execSync (k : Fin 4) (kind : Fin 2) (t1 t2 t3 : W64) (s : State) : Out :=
  whenReady (fromUsable k.val 32 fun s =>
    if kind.val = 0 then syncRequest k.val t1.toNat s else syncReply k.val t1.toNat t2.toNat t3.toNat s) s

/-- Every 100 µs: a request to the sync parent. -/
def syncExchange (s : State) : State :=
  match s.chain.parentPort with
  | none => s
  | some k =>
    if s.clk.ns < s.chain.syncNext then s
    else
      feltNb k 0x11 (syncBytes 0 0 0 0) (updChain (fun c => { c with syncT1 := none, syncNext := nextDue c.syncNext (us 100) s.clk.ns }) s)

/-- SYNC_EXCHANGE: R416. -/
def execSyncExchange (s : State) : Out := whenReady syncExchange s

/-- The averaged θ, 1/64 ns. -/
def thetaAvg (ts : List Int) : Int := divRound ts.sum (2 * ts.length)

/-- The rate correction that nulls θ in 1 ms, up to 200 ppm, in 1/100 ppm (R416). -/
def slewFor (theta : Int) : Int := clampI (-20000) 20000 (divRound (theta * 100) 64)

/-- CHAIN_SYNC after an update (R418): 60 ps for 16 updates, and 1 ns. The average is compared unrounded: `t` is twice its
magnitude in 1/64 ns, times the number of values. -/
def syncJudge (s : State) : State :=
  let t := s.chain.thetas.sum.natAbs
  let n := s.chain.thetas.length
  let s1 := updChain (fun c => { c with goodUpdates := if 1000 * t ≤ 7680 * n then min 16 (c.goodUpdates + 1) else 0 }) s
  if !s1.chain.parentSync ∨ 128 * n < t then setSync false s1
  else if s1.chain.goodUpdates = 16 then setSync true s1 else s1

/-- An update with measured offsets: a device that joins steps forward or slews at −1,000 ppm until it lies within 1 µs
(R417). -/
def syncUpdate (s : State) : State :=
  let th := thetaAvg s.chain.thetas
  let s1 := updChain (fun c => { c with theta := th }) s
  if s1.chain.joining ∧ 64000 < th then tbStep ((th + 63) / 64).toNat (syncJudge (updChain (fun c => { c with slew := 0 }) s1))
  else if s1.chain.joining ∧ th < -64000 then syncJudge (updChain (fun c => { c with slew := -100000 }) s1)
  else syncJudge (updChain (fun c => { c with joining := false, slew := slewFor th }) s1)

/-- The search of R411 probes again, each ms, as links come up (DESIGN CHOICE 80). -/
def autoProbe (s : State) : State :=
  match s.chain.search with
  | some ⟨none, mode, _⟩ => probeAll mode s
  | _ => s

/-- Every 1 ms: the average. -/
def syncAverage (s : State) : State :=
  if s.clk.ns < s.chain.avgNext then s
  else
    let s1 := updChain (fun c => { c with avgNext := nextDue c.avgNext (ms 1) s.clk.ns }) s
    let s2 := if s1.chain.head ∨ s1.chain.parentPort.isNone ∨ s1.chain.thetas.isEmpty then s1 else syncUpdate s1
    autoSearch (autoProbe s2)

/-- SYNC_AVERAGE: R416 to R418. -/
def execSyncAverage (s : State) : Out := whenReady syncAverage s

/-- A device without a sync parent for 1 ms. -/
def parentLost (s : State) : State :=
  match s.chain.parentLostNs with
  | some t => if t + ms 1 ≤ s.clk.ns ∧ !s.chain.head then setSync false (updChain (fun c => { c with goodUpdates := 0 }) s) else s
  | none => s

/-- PARENT_LOST: R418. -/
def execParentLost (s : State) : Out := whenReady parentLost s

/-! ### The shared encoder (R419, R421) -/

/-- The payload of an ENC packet. -/
def encBytes (x : EncSample) : List Byte := leBytes 8 (ofS 64 x.e) ++ leBytes 8 (ofS 64 x.t) ++ leBytes 4 x.number

/-- Ports to the children of the sync tree: neighbours whose first hop to the head is this link. -/
def childPorts (s : State) : List Nat :=
  (List.range 4).filter fun k =>
    let p := feltPort s k
    feltUsable s k && decide (s.chain.parentPort ≠ some k) && (mapEntry s p.nbId).present
      && decide (tblFind (routesFrom s p.nbId).1 0 = some p.nbPort)

/-- A sample goes down the tree. -/
def encDown (x : EncSample) (s : State) : State := (childPorts s).foldl (fun s k => feltNb k 0x12 (encBytes x) s) s

/-- Every 1 µs at SHARE_SRC. -/
def encSend (s : State) : State :=
  if shareSrc s ≠ s.chain.devId ∨ s.clk.ns < s.chain.encNext then s
  else
    let x : EncSample := ⟨encE s (shareEnc s), tb64 s, s.chain.encSent⟩
    encDown x (updChain (fun c => { c with encSent := (c.encSent + 1) % 2 ^ 32, encNext := nextDue c.encNext (us 1) s.clk.ns }) s)

/-- ENC_SEND: R419. -/
def execEncSend (s : State) : Out := whenReady encSend s

/-- A sample from the parent, its time converted by θ, goes on to the children and moves the encoder that carries the
shared position. -/
def encTaken (e : Int) (t number : Nat) (s : State) : State :=
  let x : EncSample := ⟨e, (t : Int) - s.chain.theta, number⟩
  let s1 := encDown x s
  if shareSrc s = s.chain.devId then s
  else if shareSrc s = 0xFF then s1
  else
    let old := encE s1 (shareAs s1)
    let s2 := updChain (fun c => { c with samples := keepRecent (fun y => (x.t - y.t).toNat / 64) 2000000000 (x :: c.samples)
                                          lastSampleNs := s.clk.ns, shareOk := true }) s1
    let s3 := if shareAs s ≤ 3 then encMoved (shareAs s) old e s2 else s2
    if s.chain.shareOk then s3 else raise 329 0x07 (ofS 32 e) s3

/-- ENC: R419. Samples count only from the sync parent. -/
def execEnc (k : Fin 4) (e t : W64) (number : W32) (s : State) : Out :=
  whenReady (fromUsable k.val 20 fun s =>
    if s.chain.parentPort = some k.val then encTaken e.toInt t.toNat number.toNat s else s) s

/-- No sample for 100 µs: the shared encoder reads as moving backward (R421). -/
def shareLost (s : State) : State :=
  if s.chain.shareOk ∧ s.chain.lastSampleNs + us 100 ≤ s.clk.ns then
    let last := (s.chain.samples.head?.map EncSample.e).getD 0
    let s1 := jobsUnseen (updChain (fun c => { c with shareOk := false }) s)
    let e := shareAs s
    let s2 := if sharedHere s e ∧ e ≤ 3 ∧ !(enc s1 e).backward then
        let es := (s.clk.tb, last, true) :: (enc s1 e).edges
        raise (226 + e) 0x01 (ofS 32 last) (setEnc e { enc s1 e with backward := true, edges := es } s1)
      else s1
    raise 329 0x06 (ofS 32 last) s2
  else s

/-- SHARE_LOST: R421. -/
def execShareLost (s : State) : Out := whenReady shareLost s

/-! ### Routed packets -/

/-- A command arrives on its target: steps 1 to 3 of R105 on it (R96). At the head it is an ABORT or PROGRESS that a chained device
has started and cannot answer (R114). -/
def cmdTaken (src sq : Nat) (bs : List Byte) (s : State) : State :=
  let c : Cmd := { cid := s.cmds.nextId, sq := sq, tag := pkTag bs, packet := bs
                   origin := if s.chain.head then .device src else .head }
  let s1 := addCmd c s
  if !opcodeAccepted s.boot.source (pkOp bs) then finishCheck c stBadOpcode s1
  else if !packetOk bs ∨ pkOp bs = 0x00F0 then finishCheck c stBadParam s1
  else s1

/-- CMD: R96. -/
def execCmd (k : Fin 4) (h : RouteHdr) (sq : Fin 1024) (packet : List Byte) (s : State) : Out :=
  whenReady (routed k.val h 0x15 (leBytes 2 sq.val ++ padTo 64 packet) (cmdTaken h.src.toNat sq.val (padTo 64 packet))) s

/-- An interim completion reaches the head: it is written into a spare entry, 100 ms after the command's last one at the
earliest, and else skipped (R91, R117). The head keeps the progress that it tells: PERCENT stands in `aux`. -/
def interimTaken (c : Cmd) (b : List Byte) (s : State) : State :=
  let c1 := { c with started := true, position := u64At b 16, aux := u8At b 6 }
  let due := match c.interimNs with
    | none => true
    | some t => decide (t + ms 100 ≤ s.clk.ns)
  if due && interimRoom s c.sq then
    writeCqe c.sq c.tag (u16At b 4) (u8At b 6) (u64At b 8) (u64At b 16) true (putCmd { c1 with interimNs := some s.clk.ns } s)
  else putCmd c1 s

/-- A completion reaches the head: the final one ends the command (R96). -/
def cplTaken (src cq : Nat) (b : List Byte) (s : State) : State :=
  let tag : W32 := BitVec.ofNat 32 (u32At b 0)
  match s.cmds.flight.find? fun c => decide (c.sq = cq ∧ c.tag = tag ∧ c.sentTo = some src) with
  | none => s
  | some c =>
    if bitOf (u8At b 7) 1 then interimTaken c b s
    else finish c (u16At b 4) (u8At b 6) (u64At b 8) (u64At b 16) s

/-- CPL: R96. -/
def execCpl (k : Fin 4) (h : RouteHdr) (cq : Fin 1024) (b : List Byte) (s : State) : Out :=
  whenReady (routed k.val h 0x16 (leBytes 2 cq.val ++ padTo 32 b) (cplTaken h.src.toNat cq.val (padTo 32 b))) s

/-- The reply to a forwarded read. -/
def replyPayload (size value : Nat) : List Byte := leBytes 1 4 ++ leBytes 1 0 ++ leBytes 2 size ++ leBytes size value

/-- A forwarded access as a payload. -/
def regMsgPayload : RegMsg → List Byte
  | .reg off acc => regPayload off.toNat acc
  | .bar2 a acc => bar2Payload a.toNat acc
  | .reply n v => replyPayload n v

/-- A forwarded access acts on its device, and a read sends its reply; a reply answers the host (R34, R78, R100). A BAR2
write is confirmed by a reply of no bytes (R79, log entry 26). -/
def regTaken (src : Nat) (m : RegMsg) (s : State) : State :=
  match m with
  | .reg off (.read n) => let r := regRead n off.toNat spanFar s; feltTo src 0x17 (replyPayload n r.1) r.2
  | .reg off (.write n v) => regWrite n off.toNat (v.toNat % 2 ^ (8 * n)) s
  | .bar2 a (.read n) => feltTo src 0x17 (replyPayload n (hbmLe s a.toNat n)) s
  | .bar2 a (.write bs) => feltTo src 0x17 (replyPayload 0 0) (hbmWrite a.toNat bs s)
  | .reply n v => if n = 0 then bar2Landed src s else emit (.readData n v) s

/-- REG: R100. -/
def execReg (k : Fin 4) (h : RouteHdr) (m : RegMsg) (s : State) : Out :=
  whenReady (routed k.val h 0x17 (regMsgPayload m) (regTaken h.src.toNat m)) s

/-- DB: R99. A device that is not the head ignores SQ and CQ doorbells. -/
def execDb (k : Fin 4) (h : RouteHdr) (off v : W32) (s : State) : Out :=
  whenReady (routed k.val h 0x18 (leBytes 4 off.toNat ++ leBytes 4 v.toNat) fun s => dbWrite s.chain.head off.toNat v.toNat s) s

/-- MSI: R98. -/
def execMsi (k : Fin 4) (h : RouteHdr) (v : Fin 512) (s : State) : Out :=
  whenReady (routed k.val h 0x19 (leBytes 2 v.val) (msixSend v.val)) s

/-! ### CTRL notices -/

/-- A notice as a payload. -/
def ctrlPayload : CtrlMsg → List Byte
  | .join id hops parent pport serial hd step =>
    ctrlJoin id.toNat hops.toNat parent.toNat pport.toNat serial hd step.toNat
  | .entry d ids ports => ctrlEntry d.val ids ports
  | .link d p nb np => ctrlLink d.val p.val nb.toNat np.toNat
  | .loss d => ctrlLoss d.val
  | .syncState ok a => ctrlSync ok a

/-- This device joins the chain (R408, R417, R424). -/
def joined (id hops parent pport : Nat) (hd : List Byte) (step : Nat) (s : State) : State :=
  let fresh := !s.chain.mapped || s.chain.head || decide (s.chain.devId ≠ id)
  let s1 := if fresh then setSync false s else s
  let s2 := updChain (fun c => { c with
    devId := id, head := false, mapped := true, headSerial := hd, hops := hops, joining := true,
    map := if fresh then [] else c.map, parentPort := if pport < 4 then some pport else none,
    parentLostNs := none, goodUpdates := if fresh then 0 else c.goodUpdates }) s1
  let s3 := updMap id (fun e => { e with present := true, serial := ownSerial, hops := hops, parent := parent, parentPort := pport }) s2
  let s4 := tbStep (step - s3.clk.tb) s3
  -- at CHAIN_ENUM mode 0 the parent steps to the same TB_NOW
  let s5 := if step = 0 then s4 else updChain (fun c => { c with theta := 0 }) s4
  (List.range 4).foldl (fun s k => if otherHead hd (feltPort s k).nbHead then markForeign k (feltPort s k).nbSerial s else s) s5

/-- A notice is taken. -/
def ctrlTaken (k : Nat) (m : CtrlMsg) (s : State) : State :=
  match m with
  | .join id hops parent pport serial hd step =>
    if serial = ownSerial then joined id.toNat hops.toNat parent.toNat pport.toNat hd step.toNat s else s
  | .entry d ids ports =>
    let s1 := updMap d.val (fun e => { e with present := true, nbId := ids, nbPort := ports, down := [] }) s
    recompute (if d.val = s.chain.devId then portsLearn (mapEntry s1 d.val) s1 else s1)
  | .link d p nb np => recompute (linkNoted d.val p.val nb.toNat np.toNat s)
  | .loss d => updMap d.val (fun e => { e with unreachable := true }) s
  | .syncState ok a =>
    if s.chain.parentPort = some k then
      let s1 := updChain (fun c => { c with parentSync := ok, parentAsym := a }) s
      if ok then s1 else setSync false s1
    else s

/-- A join for this device is taken though it does not know its ID yet. -/
def ctrlBody (k : Nat) (h : RouteHdr) (m : CtrlMsg) (s : State) : State :=
  match m with
  | .join _ _ _ _ serial _ _ =>
    if serial = ownSerial then fromUsable k (ctrlPayload m).length (ctrlTaken k m) s
    else routed k h 0x1A (ctrlPayload m) (fun s => s) s
  | _ => routed k h 0x1A (ctrlPayload m) (ctrlTaken k m) s

/-- CTRL: R416, R423, R424. -/
def execCtrl (k : Fin 4) (h : RouteHdr) (m : CtrlMsg) (s : State) : Out :=
  whenReady (fun s => readsRelease (ctrlBody k.val h m s)) s

/-! ### Host memory of a chained device -/

/-- A write reaches the head: its own request, or it waits while Bus Master Enable is 0 (R75, R97). It waits without limit and
is not dropped (DESIGN CHOICE 77). -/
def hwrTaken (src : Nat) (a : Nat) (bs : List Byte) (s : State) : State :=
  if mayRequest s then emit (.hostWrite a bs) s
  else updChain (fun c => { c with hold := c.hold ++ [⟨c.devId, src, 1, 0x1B, leBytes 8 a ++ bs⟩] }) s

/-- A request of the head for a chained device acts: a write, or a read whose data go to the device. -/
def hostRequest (p : FeltPacket) (s : State) : State :=
  if p.ptype = 0x1B then emit (.hostWrite (u64At p.payload 0) (p.payload.drop 8)) s else feltTo p.src 0x1C p.payload s

/-- Requests that waited for Bus Master Enable go out, in order. -/
def hwrRelease (s : State) : State :=
  if mayRequest s && s.chain.head then
    let mine (p : FeltPacket) : Bool := decide (p.dst = s.chain.devId ∧ (p.ptype = 0x1B ∨ p.ptype = 0x1C))
    (s.chain.hold.filter mine).foldl (fun s p => hostRequest p s)
      (updChain (fun c => { c with hold := c.hold.filter fun p => !mine p }) s)
  else s

/-- HWR: R97, R412. -/
def execHwr (k : Fin 4) (h : RouteHdr) (a : W64) (bs : List Byte) (s : State) : Out :=
  whenReady (routed k.val h 0x1B (leBytes 8 a.toNat ++ bs) (hwrTaken h.src.toNat a.toNat bs)) s

/-- An HRD packet as a payload. -/
def hrdPayload : HrdMsg → List Byte
  | .request a n _ => leBytes 8 a.toNat ++ leBytes 4 n.toNat
  | .data bs => bs

/-- The head reads host memory for a chained device, or the read waits while Bus Master Enable is 0 (R75). -/
def hrdAnswer (src : Nat) (bs : List Byte) (s : State) : State :=
  if mayRequest s then feltTo src 0x1C bs s
  else updChain (fun c => { c with hold := c.hold ++ [⟨c.devId, src, 1, 0x1C, bs⟩] }) s

/-- A request is answered with what the host returns; data reach the command that asked for them, whose row takes them. -/
def hrdTaken (src : Nat) (m : HrdMsg) (s : State) : State :=
  match m with
  | .request _ n (.data bs) => hrdAnswer src (bs.take n.toNat) s
  | .request _ _ .fail => hrdAnswer src [] s
  | .data _ => s

/-- HRD: R412. -/
def execHrd (k : Fin 4) (h : RouteHdr) (m : HrdMsg) (s : State) : Out :=
  whenReady (routed k.val h 0x1C (hrdPayload m) (hrdTaken h.src.toNat m)) s

/-! ### Failures and repair (R423, R424) -/

/-- A felt link has left ACTIVE: its waiting packets take other routes, those for the neighbour alone are lost, routes
are computed anew and the chain hears of it. -/
def feltDown (k : Nat) (s : State) : State :=
  let p := feltPort s k
  if p.link.st = 3 then s
  else
    readsRelease (linkNotice k false (recompute
      (setFeltPort k { p with queue := p.queue.filter fun x => decide (x.dst ≠ 0xFF) } s)))

/-- FELT_LINK_DOWN: R423. -/
def execFeltLinkDown (k : Fin 4) (s : State) : Out := whenReady (feltDown k.val) s

/-- A forwarded command has waited ROUTE_TIMEOUT µs: it completes with the progress that its device last told (R104). -/
def routeTimeout (sq : Nat) (tag : W32) (s : State) : State :=
  match s.cmds.flight.find? fun c => decide (c.sq = sq ∧ c.tag = tag) && c.sentTo.isSome
      && decide (c.sentNs + us (cf s 0x11 4 4) ≤ s.clk.ns) with
  | some c => finish c stUnreachable c.aux 0 c.position s
  | none => s

/-- ROUTE_TIMEOUT: R423. -/
def execRouteTimeout (sq : Fin 1024) (tag : W32) (s : State) : Out := whenReady (routeTimeout sq.val tag) s

/-- A mapped device gains a route (R424). -/
def deviceJoined (d : Nat) (reset : Bool) (s : State) : State :=
  let e := mapEntry s d
  if s.chain.head ∧ e.present ∧ e.unreachable ∧ reachable s d then
    raise 329 0x09 (d + bAt 8 reset) (joinSend d 0 (updMap d (fun e => { e with unreachable := false }) s))
  else s

/-- DEVICE_JOINED: R424. -/
def execDeviceJoined (d : Fin 64) (reset : Bool) (s : State) : Out := whenReady (deviceJoined d.val reset) s

end Sys2Proof.Machine
end

