-- ==== Sys2Proof/Machine/StartOps.lean ====
section
/-! DEFINITION. Start-up: the boot flash, the start-up hold, the power-on profile and device ready (chapters 3, 19 and
20). -/

namespace Sys2Proof.Machine

/-- Change the boot state. -/
def updBoot (f : Boot → Boot) (s : State) : State := { s with boot := f s.boot }

/-! ### The boot flash (R393, R394, R399) -/

/-- Is a boot header valid (Table 20.2, R393)? -/
def headerValid (h : List Byte) : Bool :=
  let a := u32At h 0x0C
  let b := u32At h 0x10
  let lanes (x : Nat) : Bool := decide (x = 1 ∨ x = 2 ∨ x = 4)
  decide (256 ≤ h.length ∧ u32At h 0 = 0x4842574D ∧ u16At h 4 = 1 ∧ (u8At h 6 = 3 ∨ u8At h 6 = 4))
    && decide (12 ≤ u8At h 7 ∧ u8At h 7 ≤ 64 ∧ u8At h 9 ≤ 31) && lanes (u8At h 0x0A) && lanes (u8At h 0x0B)
    && (slice h 0x16 230).all (fun x => decide (x = 0)) && decide (u32At h 0xFC = crc32 (h.take 0xFC))
    && decide (a % 65536 = 0 ∧ 65536 ≤ a ∧ 65536 ≤ b ∧ (a + 1048576 ≤ b ∨ b + 1048576 ≤ a))

/-- ns that reading `n` bytes adds over the read of R61, at a clock divisor and number of data lanes. -/
def slowerNs (div lanes n : Nat) : Nat := n * 5 * div / lanes - n * 20

/-- What a start finds in flash: the running image and its slot, if one verifies; the slots that failed; their bytes
read. -/
structure FlashFind where
  run : Option (Nat × List Byte) := none
  failed : List Nat := []
  bytes : Nat := 0
deriving DecidableEq, Repr

/-- Bytes read of a slot: its image, or the header of an empty one. -/
def bootBytes (im : List Byte) : Nat := if imMagic im then im.length else 256

/-- The slots are tried in order (R399). -/
def trySlots (s : State) (fl : FlashContent) : List Nat → FlashFind → FlashFind
  | [], f => f
  | k :: ks, f =>
    let im := slotImageOf (if k = 0 then fl.slotA else fl.slotB)
    let b := f.bytes + bootBytes im
    if fwVerifies s im && rollbackOk s im then { f with run := some (k, im), bytes := b }
    else trySlots s fl ks { f with failed := f.failed ++ [k], bytes := b }

/-- The slot that the boot selector names; slot A when it is absent. -/
def bootSlot (s : State) : Nat := if (recordPayload s 5).map (fun b => u8At b 0) = some 1 then 1 else 0

/-- A slot's image hash as this start leaves it (R401). -/
def startHashes (s : State) (fl : FlashContent) (f : FlashFind) : Tbl (List Byte) :=
  let t := f.failed.foldl (fun t k =>
    if imMagic (slotImageOf (if k = 0 then fl.slotA else fl.slotB)) then t else tblErase t k) s.sec.slotHash
  match f.run with
  | some (k, im) => tblSet t k (imHash im)
  | none => t

/-- The read mode and write commands that a boot header sets; those of R393 where it is not valid. -/
def headerMode (h : List Byte) : FlashMode :=
  if headerValid h then { addrBytes := u8At h 6, readCmd := u8At h 8, dummy := u8At h 9, addrLanes := u8At h 0x0A
                          dataLanes := u8At h 0x0B, progCmd := u8At h 0x14, eraseCmd := u8At h 0x15, div := u8At h 7 }
  else {}

/-- Boot header and slots: the image that runs, its fuse target, and what is reported at ready. The header is read with command
0x03 (R322). -/
def flashBoot (fl : FlashContent) (s0 : State) : State :=
  let s := flashFrame 3 [0, 0, 0] 0 0 [] 256 (updSec (fun x => { x with pcaOk := pcaMatches s0 }) s0)
  if !fl.answers then
    updSec (fun x => { x with fwVersion := Config.recoveryVersion, fwHash := Config.recoveryHash }) (updBoot (fun b => { b with source := 2 }) s)
  else
    let ok := headerValid fl.header
    let first := bootSlot s
    let f := trySlots s fl [first, 1 - first] {}
    let div := if ok then u8At fl.header 7 else 64
    let lanes := if ok then u8At fl.header 0x0B else 1
    let notes := (if ok then [] else [(0x01, 0)]) ++ f.failed.map fun k => (0x02, k)
    let s1 := updSec (fun x => { x with
      flash := headerMode fl.header
      slotA := if ok then u32At fl.header 0x0C else 0x10000
      slotB := if ok then u32At fl.header 0x10 else 0x110000
      slotHash := startHashes s fl f
      fwVersion := (f.run.map fun r => imVersion r.2).getD Config.recoveryVersion
      fwHash := (f.run.map fun r => imHash r.2).getD Config.recoveryHash
      fuseTarget := (f.run.map fun r => imRollback r.2).getD 0 }) s
    let s2 := (f.failed ++ (f.run.map Prod.fst).toList).foldl (fun s k =>
      flashReadSlot (slotFlash s k) (slotImageOf (if k = 0 then fl.slotA else fl.slotB)) s) s1
    updBoot (fun b => { b with source := (f.run.map Prod.fst).getD 2, notes := notes, flashDelay := slowerNs div lanes f.bytes }) s2

/-! ### The start-up hold (R66) -/

/-- Does a sensor lie within its plausible range at a check? Readings in 1/4 °C. -/
def plausibleTemp (temps : List Int) (i : Nat) : Bool :=
  let t := temps.getD i 0
  decide (-200 ≤ t ∧ t ≤ 600) && decide ((2 * t - median2 ((neighbours i).map fun j => temps.getD j 0)).natAbs ≤ 96)

/-- Does a plausible sensor read `limit` or more? -/
def hotSensor (temps : List Int) (limit : Int) : Bool :=
  let now := readings temps
  (List.range 40).any fun i => plausibleTemp now i && decide (limit ≤ now.getD i 0)

/-- A start-up hold begins. -/
def holdBegin (s : State) : State :=
  updBoot (fun b => { b with phase := .thermalHold, thermHold := true, tripN := true, holdNs := s.clk.ns }) s

/-- Start-up begins at the moment named in R59. -/
def beginStart (fl : FlashContent) (temps : List Int) (s : State) : State :=
  let s1 := flashBoot fl (updBoot (fun b => { b with phase := .starting, startNs := s.clk.ns, thermHold := false, resumeNs := 0 }) s)
  if hotSensor temps 440 then holdBegin s1 else s1

/-- Do the tenders still stand before their start: 48.1 ms with the time of slower flash reads (Table 3.6, R66)? After a
hold that ends later they start at once. -/
def tendersWait (s : State) : Bool := decide (s.clk.ns < s.boot.startNs + 48100000 + s.boot.flashDelay)

/-- A check of the sensors: during start-up, before the tenders start, one at 110 °C begins a hold; during the hold, every
10 ms, all below 105 °C end it. -/
def holdCheck (temps : List Int) (s : State) : State :=
  if s.boot.phase = .starting then (if tendersWait s && hotSensor temps 440 then holdBegin s else s)
  else if s.boot.phase = .thermalHold ∧ s.boot.holdNs + ms 10 ≤ s.clk.ns then
    (if hotSensor temps 420 then updBoot (fun b => { b with holdNs := b.holdNs + ms 10 }) s
     else updBoot (fun b => { b with phase := .starting, tripN := false, resumeNs := s.clk.ns }) s)
  else s

/-! ### The power-on profile (R63, R380) -/

/-- Entry `i` of a profile. -/
def profEntry (p : List Byte) (i : Nat) : List Byte := slice p (16 + 16 * i) 16
/-- Number of entries. -/
def profCount (p : List Byte) : Nat := u16At p 2

/-- The fields that a field entry stages as if by CFG_STAGE, or none where that fails. -/
def fieldEntry (e : List Byte) : Option (Tbl Nat) :=
  let w := u8At e 1
  let a := u32At e 4
  let bs := slice e 8 w
  if decide ((w = 1 ∨ w = 2 ∨ w = 4 ∨ w = 8) ∧ u16At e 2 = 0 ∧ addrOff a + w ≤ 65536) && instListed (addrBlk a) (addrInst a)
      && coversWhole (addrBlk a) (addrInst a) (addrOff a) w && stageRangesOk (addrBlk a) (addrInst a) (addrOff a) bs then
    some ((coveredFields (addrBlk a) (addrInst a) (addrOff a) bs).map fun x => (cfgAddr (addrBlk a) (addrInst a) x.1.off, x.2))
  else none

/-- The item that a table entry loads. -/
def entryItem (e : List Byte) : ItemId := ⟨u8At e 1, addrInst (u32At e 4), u8At e 3, u8At e 2⟩

/-- Does a table entry name a kind and owner of Table 5.8, or a rule image; and has its image the size that the values
require? -/
def tableEntryOk (s : State) (e : List Byte) : Bool :=
  let k := u8At e 1
  let n := u32At e 12
  decide (u8At e 2 ≤ 1) &&
  (if k = 0x40 then decide (u32At e 4 = 0x07080000 ∧ u8At e 3 = 0 ∧ n % 64 = 0 ∧ 64 ≤ n ∧ n ≤ 16384)
   else tableTargetOk k (u32At e 4) (u8At e 3) && decide (n = itemLength s (entryItem e) 0))

/-- The staged values of a profile, or none where an entry fails. -/
def profValues (p : List Byte) : List Nat → Tbl Nat → Option (Tbl Nat)
  | [], g => some g
  | i :: is, g =>
    let e := profEntry p i
    if u8At e 0 = 2 then profValues p is g
    else if u8At e 0 = 1 then
      (match fieldEntry e with
       | some vs => profValues p is (vs.foldl (fun t v => tblSet t v.1 v.2) g)
       | none => none)
    else none

/-- The table entries of a profile. -/
def profTables (p : List Byte) : List Nat := (List.range (profCount p)).filter fun i => decide (u8At (profEntry p i) 0 = 2)

/-- The order in which images load: headboxes, dryer ports, then the others in entry order (R64, R380). -/
def imageOrder (p : List Byte) : List Nat :=
  let ts := profTables p
  let of_ (lo hi k : Nat) : List Nat := ts.filter fun i =>
    let e := profEntry p i
    decide (lo ≤ u8At e 1 ∧ u8At e 1 < hi ∧ addrInst (u32At e 4) = k)
  (List.range 32).flatMap (of_ 0x01 0x10) ++ (List.range 4).flatMap (of_ 0x10 0x20)
    ++ ts.filter fun i => decide (0x20 ≤ u8At (profEntry p i) 1)

/-- The values of a profile that passes validation (R380): during it, the banks that its entries load count as VALID. -/
def profValid (p : List Byte) (s : State) : Option (Tbl Nat) :=
  if u16At p 0 ≠ 1 ∨ profCount p = 0 ∨ 1022 < profCount p ∨ p.length < 16 + 16 * profCount p then none
  else match profValues p (List.range (profCount p)) [] with
    | none => none
    | some g =>
      let n := layOver g s
      if (profTables p).all fun i => tableEntryOk n (profEntry p i) then
        let loads := (profTables p).map fun i => entryItem (profEntry p i)
        if (validateWith loads (loads.foldl (fun s k => setItem k 2 [] s) s) g).isNone then some g else none
      else none

/-- Images of a port that have still to load or have failed. -/
def portImages (s : State) (lo hi p : Nat) : Bool :=
  (s.boot.images ++ s.boot.imagesFailed).any fun i =>
    let e := profEntry s.boot.profile i
    decide (lo ≤ u8At e 1 ∧ u8At e 1 < hi ∧ addrInst (u32At e 4) = p)

/-- A headbox of the profile starts; its blind interval runs from hand-over, and the knotter has it from then on (R64, R269). -/
def profHeadbox (p : Nat) (s : State) : State :=
  if hbProto s p = 0 then s
  else startHeadbox p (blindOpen 1 p 2 0 (stampMd s p (encE s (hbEnc s p)))
    (updPort p (fun x => { x with imageWait := portImages s 0x01 0x10 p, profBlind := true }) s))

/-- A dryer port of the profile starts. -/
def profDryer (p : Nat) (s : State) : State :=
  if dpc s p 0x00 = 0 then s
  else startDryer p (blindOpen 1 (32 + p) 2 0 (encE s (dpc s p 0x32) - toS 64 (dpc s p 0x18))
    (updDry p (fun d => { d with imageWait := portImages s 0x10 0x20 p, profBlind := true }) s))

/-- The profile has passed: hand-over, image reads and port starts (R63, R64). -/
def profStart (g : Tbl Nat) (s : State) : State :=
  let s1 := updBoot (fun b => { b with images := imageOrder b.profile, imagesFailed := [] }) (handOver g s)
  (List.range 4).foldl (fun s p => profDryer p s) ((List.range 32).foldl (fun s p => profHeadbox p s) s1)

/-- The read of a profile image: its CRC-32 and its bytes, in the table area (R380). -/
def imageRead (i : Nat) (s : State) : State :=
  let e := profEntry s.boot.profile i
  flashRead (u32At s.boot.profile 4 + u32At e 8) (4 + u32At e 12) s

/-- The residual image of a port's bank in force, loaded from the profile, enters the column map: until then it acts as EMPTY
(R231, R380). -/
def mapImage (k : ItemId) (im : List Byte) (s : State) : State :=
  if k.kind = 0x20 ∧ cpf s k.set_ 0 = 1 ∧ cpf s k.set_ 1 = k.bank then
    couchUpd (fun c => { c with resMap := tblSet c.resMap k.set_ im }) s
  else s

/-- An image of the profile has been read from flash with its CRC: VALID, or INVALID with PROFILE_TABLE (R380). -/
def imageLoaded (crc : Nat) (im : List Byte) (s : State) : State :=
  match s.boot.images with
  | [] => s
  | i :: is =>
    if flashHeld s then s
    else
    let k := entryItem (profEntry s.boot.profile i)
    let crcOk := decide (crc32 im = crc)
    let ok := crcOk && decide (im.length = u32At (profEntry s.boot.profile i) 12) && contentOk s k im
      && decide (itemWords s k ≤ storeFree s)
    let s1 := updBoot (fun b => { b with images := is, imagesFailed := if ok then b.imagesFailed else b.imagesFailed ++ [i] }) (imageRead i s)
    let s2 := if ok then mapImage k im (setItem k 2 im (putImage k 0 im s1)) else setItem k 3 [] s1
    let s3 := if crcOk then s2 else raise 325 0x07 i s2
    if k.kind < 0x10 then
      (if portImages s3 0x01 0x10 k.owner then s3 else portTryStart k.owner (updPort k.owner (fun x => { x with imageWait := false }) s3))
    else if k.kind < 0x20 then
      (if portImages s3 0x10 0x20 k.owner then s3 else dryTiming k.owner (updDry k.owner (fun d => { d with imageWait := false }) s3))
    else s3

/-! ### Device ready (R59, R63, R383 to R387, R390, R411) -/

/-- Is ready due: 60 ms with the time of slower flash reads, 11.9 ms after a hold, the fuse steps blown? -/
def readyDue (s : State) : Bool :=
  decide (s.boot.phase = .starting) && decide (s.boot.startNs + ms 60 + s.boot.flashDelay ≤ s.clk.ns)
    && (!s.boot.thermHold || decide (s.boot.resumeNs + 11900000 ≤ s.clk.ns)) && decide (s.sec.fuseTarget ≤ s.sec.fuseSteps)

/-- The power-on profile at ready: what it gives, in GLB_BOOT, before the BOOT entry is logged. -/
def profJudge (s : State) : Option (Tbl Nat) × State :=
  if 2 ≤ s.boot.source then (none, s)
  else match recordPayload s 3 with
    | none => (none, s)
    | some p =>
      match profValid p s with
      | some g => (some g, updBoot (fun b => { b with profApplied := true, profile := p }) s)
      | none => (none, updBoot (fun b => { b with profRejected := true }) s)

/-- The map that a stored record names this device the head of is verified (R411). -/
def chainReady (s : State) : State :=
  match recordPayload s 6 with
  | none => s
  | some b =>
    let m := mapOf b
    if (tblGet {} m 0).serial = ownSerial ∧ u16At b 0 = 1 then
      searchBegin none 1 (updChain (fun c => { c with map := m, mapTime := u64At b 8, mapped := true, head := true, devId := 0 }) s)
    else s

/-- The subsystem identifiers from the board record (Table 4.1). -/
def boardIds (s : State) : State :=
  match recordPayload s 2 with
  | some b => { s with pcie := { s.pcie with subVendor := u16At b 0, subId := u16At b 2 } }
  | none => s

/-- The clock, the registers and the balls at ready. -/
def readySet (s : State) : State :=
  let s1 := updBoot (fun b => { b with phase := .ready, devReady := true, readyNs := s.clk.ns
                                       readyTime := satU 16 ((s.clk.ns - b.startNs) / 100000) }) s
  { s1 with clk := { s1.clk with tb := 0, acc := 0 } }

/-- What runs from ready on starts its intervals there; every calibration element is due (R360), and the converter units
calibrate themselves (R317). -/
def readyTimes (s : State) : State :=
  let n := s.clk.ns
  let s1 := { s with
    ing := { s.ing with rateNs := n }
    bist := { s.bist with spareNs := n }
    afe := { s.afe with coilNs := n, viewNs := n, therm := { s.afe.therm with evalNs := n } } }
  let s2 := calKeys.foldl (fun s x => updEl x.1 x.2 (fun e => { e with due := true, dueNs := n }) s) s1
  (List.range 4).foldl (fun s u => updHk u (fun x => { x with st := 3, calNs := n }) s) s2

/-- The felt lanes that are on begin their first bring-up from the lane table, and the felt ports send TRAIN (R126 to R128,
R140, R151). -/
def lanesReady (s : State) : State :=
  let s1 := ((List.range 16).map (64 + ·)).foldl (fun s n =>
    if lnOn s n then bringUpSeeds n (freshTimers n (setLane n { lane s n with firstLock := true } s)) else laneOff n s) s
  (List.range 4).foldl (fun s k => sendTrain (64 + k) s) s1

/-- Device ready. -/
def deviceReady (s : State) : State :=
  let s1 := nvmReady (readyTimes (readySet s))
  let s2 := if s1.boot.cause = 2 then countLife 25 s1 else s1
  let r := profJudge (boardIds s2)
  let s3 := lanesReady (vvalveReady (nvmNotes (bootEntry r.2)))
  let s4 := if s3.sec.pcaOk then s3 else raise 326 0x07 0 s3
  let s5 := s4.boot.notes.foldl (fun s x => raise 326 x.1 x.2 s) (updBoot (fun b => { b with notes := [] }) s4)
  let s6 := match r.1 with
    | some g => profStart g s5
    | none => s5
  viewFill (nvmPump (chainReady (coilReady s6)))

/-! ### Reset (R53, R67, R373, R403) -/

/-- Every state of a port or die that a reset leaves: what lies outside the device, its NVM, fuses and flash. -/
def resetState (cause : Nat) (phase : Phase) (s0 : State) : State :=
  let s := pageTorn s0
  { clk := { ns := s.clk.ns }
    boot := { phase := phase, cause := cause, devReady := false, inRange := s.boot.inRange, sysRstLow := s.boot.sysRstLow, readyTime := 0 }
    pcie := { perstLow := s.pcie.perstLow }
    nvm := { mem := s.nvm.mem, bankVals := s.nvm.bankVals }
    sec := { fuseSteps := s.sec.fuseSteps, slotHash := s.sec.slotHash, challenges := s.sec.challenges, tapHold := s.sec.tapHold }
    ing := { encs := s.ing.encs.map fun x => (x.1, { aIn := x.2.aIn, bIn := x.2.bIn }) }
    afe := { gpio := s.afe.gpioNew.foldl (fun g x => setBitN g x.1 (!bitOf g x.1)) s.afe.gpio, vmv := s.afe.vmv, held := s.afe.held }
    sent := s.sent, free := s.free, pending := s.pending }

end Sys2Proof.Machine
end

