-- ==== Sys2Proof/Machine/Startup.lean ====
section
/-! DEFINITION. The rows of supplies, start-up and reset, of the PCIe endpoint, the crystal, the AFE link, the test access
port and the rate windows (chapters 1 to 4, 8 and 20). -/

namespace Sys2Proof.Machine

/-! ### Supplies and reset (R51 to R54, R59, R67, R403) -/

/-- The device starts when nothing holds it in reset. -/
def tryStart (fl : FlashContent) (temps : List Int) (s : State) : State :=
  if (s.boot.phase = .resetHeld ∨ s.boot.phase = .testHeld) ∧ !s.boot.sysRstLow ∧ !s.sec.tapHold then beginStart fl temps s else s

/-- POWER_VALID: every rail other than VVALVE has become valid. -/
def powerValid (fl : FlashContent) (temps : List Int) (s : State) : State :=
  if s.boot.phase = .unpowered then
    tryStart fl temps (updBoot (fun b => { b with phase := .resetHeld, inRange := b.inRange / 4096 * 4096 + 0xFFF }) s)
  else s

/-- POWER_VALID: R51, R59. -/
def execPowerValid (fl : FlashContent) (temps : List Int) (s : State) : Out := .next (powerValid fl temps s)

/-- DEVICE_READY: R59, R63. -/
def execDeviceReady (s : State) : Out := .next (if readyDue s then deviceReady s else s)

/-- PROFILE_IMAGE_LOADED: R64, R380. -/
def execProfileImageLoaded (crc : W32) (im : List Byte) (s : State) : Out := whenLive (imageLoaded crc.toNat im) s

/-- THERMAL_HOLD_CHECK: R66. -/
def execThermalHoldCheck (temps : List Int) (s : State) : Out := .next (holdCheck temps s)

/-- BROWN_OUT of a rail other than VVALVE. -/
def brownOut (k : Nat) (s : State) : State :=
  let b := { s.boot with inRange := setBitN s.boot.inRange k false }
  if s.boot.phase = .unpowered then { s with boot := b }
  else
    let s1 := resetState 2 .unpowered { s with boot := b }
    { s1 with sec := { s1.sec with tapHold := false } }

/-- BROWN_OUT: R53. -/
def execBrownOut (rail : Fin 12) (s : State) : Out := .next (brownOut rail.val s)

/-- A rail leaves its operating range without a brown-out, or returns to it: IN_RANGE and DIPPED follow (R52). The rail stays
valid, as R58 means it: nothing switches off and DEV_READY stays high (DESIGN CHOICE 75). -/
def railDip (k : Nat) (back : Bool) (s : State) : State :=
  if s.boot.phase = .unpowered then s
  else if back then updBoot (fun b => { b with inRange := setBitN b.inRange k true }) s
  else updBoot (fun b => { b with inRange := setBitN b.inRange k false, dipped := setBitN b.dipped k true }) s

/-- RAIL_DIP: R52. -/
def execRailDip (rail : Fin 13) (back : Bool) (s : State) : Out := .next (railDip rail.val back s)

/-- SYS_RST_N goes low for a time: 103 ns or longer resets, below 97 ns is ignored, and `taken` tells between (R67). -/
def sysRst (lowNs : Nat) (taken : Bool) (s : State) : State :=
  if lowNs < 97 ∨ (lowNs < 103 ∧ !taken) then s
  else
    let s1 := updBoot (fun b => { b with sysRstLow := true }) s
    match s.boot.phase with
    | .unpowered => s1
    | .testHeld => s1
    | _ => resetState 1 .resetHeld s1

/-- SYS_RST_N: R67. -/
def execSysRstN (lowNs : Nat) (taken : Bool) (s : State) : Out := .next (sysRst lowNs taken s)

/-- SYS_RST_N_RELEASE: R59. -/
def execSysRstNRelease (fl : FlashContent) (temps : List Int) (s : State) : Out :=
  .next (tryStart fl temps (updBoot (fun b => { b with sysRstLow := false }) s))

/-- The instructions that hold the device in reset (Table 20.5). -/
def tapHolds : TapInstr → Bool
  | .extest => true
  | .clamp => true
  | .highz => true
  | _ => false

/-- A test instruction holds the device in reset; on leaving it the device starts as under R67 (Table 20.5). -/
def tapMove (hold : Bool) (fl : FlashContent) (temps : List Int) (s : State) : State :=
  if s.boot.phase = .unpowered ∨ s.sec.tapHold = hold then s
  else if hold then resetState 1 .testHeld (updSec (fun x => { x with tapHold := true }) s)
  else tryStart fl temps (updSec (fun x => { x with tapHold := false }) s)

/-- IDCODE (R403). -/
def tapIdcode : Nat := 0x16408B67

/-- The level at a GPIO ball. -/
def ballLevel (s : State) (n : Nat) : Bool :=
  if gpioDrives s n then Bool.xor (gpioDriven s n) (bitOf (pinf s n 1) 0) else Bool.xor (bitOf s.afe.gpio n) (tblFind s.afe.gpioNew n).isSome

/-- The cells that SAMPLE captures: a cell for each FPA timing pair, serial ball, GPIO, encoder ball and system ball but REF_EXT, in
the order of Table 3.2; the file that orders the chain is not in the manual (R403, DESIGN CHOICE 111). The model holds no level
of timing, serial and encoder balls: theirs are free values. -/
def tapCells (s : State) : List Bool :=
  let free (i : Nat) : Bool := bitOf (Config.freeValue s.free) i
  (List.range 36).map free ++ (List.range 48).map (ballLevel s) ++ (List.range 12).map (fun i => free (36 + i))
    ++ [!s.boot.sysRstLow, !s.pcie.perstLow, !s.boot.tripN, s.boot.devReady]

/-- An instruction of the test access port, and what it shifts out of TDO: IDCODE from its least significant bit, BYPASS a 0 and then
what is shifted in (IEEE 1149.1, PRESUMED 96), SAMPLE/PRELOAD the captured cells. Until device ready TDO is high-impedance (R58). -/
def tapInstruction (i : TapInstr) (fl : FlashContent) (temps : List Int) (s : State) : State :=
  let s1 := tapMove (tapHolds i) fl temps s
  if s1.boot.phase ≠ .ready then s1
  else match i with
    | .idcode => emit (.tdo ((List.range 32).map (bitOf tapIdcode))) s1
    | .bypass tdi => emit (.tdo ((false :: tdi).take tdi.length)) s1
    | .samplePreload => emit (.tdo (tapCells s1)) { s1 with free := s1.free + 1 }
    | .extest | .clamp | .highz => s1

/-- TEST_INSTRUCTION: R403. -/
def execTestInstruction (i : TapInstr) (fl : FlashContent) (temps : List Int) (s : State) : Out :=
  .next (tapInstruction i fl temps s)

/-- A debug instruction leaves a hold of EXTEST, CLAMP or HIGHZ; its row brings nothing that the start reads (R403). -/
def debugLeaves (s : State) : State :=
  if s.sec.tapHold then tapMove false (Config.startFlash s.free) (Config.startTemps s.free) { s with free := s.free + 1 } else s

/-- DBG_CHAL: R403, R404. -/
def execDbgChal (s : State) : Out := whenReady chalBody (debugLeaves s)

/-- DBG_RESP: R404. -/
def execDbgResp (scope : Byte) (sig : List Byte) (s : State) : Out := whenReady (respBody scope sig) (debugLeaves s)

/-! ### The PCIe endpoint (R60, R68, R72, R74, R75, R442) -/

/-- The commands of this device's queues complete nowhere; what has started leaves what a tender restart leaves (R20,
R68). -/
def flightDrop (s : State) : State :=
  let mine (c : Cmd) : Bool := decide (c.origin = .here)
  let s1 := (s.cmds.flight.filter fun c => mine c && c.started && c.sentTo.isNone).foldl (fun s c => stopEffect c s) s
  { s1 with cmds := { s1.cmds with
      flight := s1.cmds.flight.filter fun c => !mine c
      abortedHeld := s1.cmds.abortedHeld.filter fun c => !mine c
      waiting := s1.cmds.waiting.filter fun w => decide (w.origin ≠ .here), slots := [], finished := [] } }

/-- The host side at its values at ready; EVT_PEND, the lost counts, GLB_FWD_SEL and the bits of GLB_STATUS stay. -/
def hostCleared (h : HostIf) : HostIf :=
  { bar2Out := h.bar2Out, fwdSel := h.fwdSel, pend := h.pend, ringLost := h.ringLost, shadows := h.shadows, hiUnpaired := h.hiUnpaired, wrSplit := h.wrSplit }

/-- What PERST_N does to the endpoint (R68, R442); the AER uncorrectable status stands (DESIGN CHOICE 112). Host writes of chained devices that wait at the head stay there and go out
once Bus Master Enable is 1 again (DESIGN CHOICE 77). -/
def pcieReset (low : Bool) (s : State) : State :=
  let s1 := if s.boot.phase = .ready then flightDrop s else s
  { s1 with
    host := hostCleared s1.host
    cfg := { s1.cfg with groups := [] }
    pcie := { s1.pcie with bme := false, linkUp := false, gen := 0, width := 0, perstLow := s1.pcie.perstLow || low } }

/-- PERST_N: R68, R442. -/
def execPerstN (s : State) : Out := .next (pcieReset true s)

/-- FUNCTION_LEVEL_RESET: R74. -/
def execFunctionLevelReset (s : State) : Out := .next (pcieReset false s)

/-- D3HOT_ENTRY: R74. -/
def execD3hotEntry (s : State) : Out := .next (pcieReset false s)

/-- DL_DOWN: R74. -/
def execDlDown (s : State) : Out := .next (pcieReset false s)

/-- PERST_N_RELEASE: R60; link training begins. -/
def execPerstNRelease (s : State) : Out := .next { s with pcie := { s.pcie with perstLow := false } }

/-- May the endpoint's link train: PERST_N is high and the device starts, with every rail valid, or is in service (R60)? A
device that is held in reset trains nothing (R67; DEDUCED 60). -/
def linkMayTrain (s : State) : Bool :=
  !s.pcie.perstLow && (decide (s.boot.phase = .starting) || decide (s.boot.phase = .thermalHold) || decide (s.boot.phase = .ready))

/-- The configuration-space identity and the optional capabilities of Table 4.1. -/
structure ConfigSpace where
  vendor : Nat := 0x1F2D
  device : Nat := 0x6408
  revision : Nat := 0xB0
  classCode : Nat := 0x0B4000
  subVendor : Nat
  subId : Nat
  maxPayload : Nat := 512
  maxReadRequest : Nat := 4096
  tags10Bit : Bool := true
  tagsExtended : Bool := true
  aer : Bool := true
  aspmL0s : Bool := false
  aspmL1 : Bool := false
  d3hot : Bool := true
  flr : Bool := true
  sriov : Bool := false
  ats : Bool := false
  pasid : Bool := false
deriving DecidableEq, Repr

/-- The configuration space as the device shows it: the subsystem identifiers come from the board record, and are 0 without
one (Table 4.1). -/
def configSpace (s : State) : ConfigSpace := { subVendor := s.pcie.subVendor, subId := s.pcie.subId }

/-- What a configuration request is answered with: nothing where no link can be up, `some none` for Configuration Request
Retry Status until device ready, and the configuration space from device ready on (R60). -/
def configAnswer (s : State) : Option (Option ConfigSpace) :=
  if !linkMayTrain s then none else if s.boot.phase = .ready then some (some (configSpace s)) else some none

/-- LINK_CHANGE: R72, Table 4.8. The link is of Gen1 to Gen5 and x1, x2, x4 or x8. A link that trains before device ready is
up from then on, and raises nothing (DEDUCED 60). -/
def linkChange (gen width : Nat) (s : State) : State :=
  if linkMayTrain s ∧ 1 ≤ gen ∧ (width = 1 ∨ width = 2 ∨ width = 4 ∨ width = 8) then
    let s1 := { s with pcie := { s.pcie with linkUp := true, gen := gen, width := width } }
    if s.boot.phase = .ready then raise 324 0x01 (gen + at' 4 width) s1 else s1
  else s

/-- LINK_CHANGE: R60, R72. -/
def execLinkChange (gen : Fin 6) (width : Fin 9) (s : State) : Out := .next (linkChange gen.val width.val s)

/-- AER_UNCORR: an uncorrectable error is logged (Table 4.8). -/
def aerUncorr (status : W32) (s : State) : State :=
  raise 324 0x02 status.toNat { s with pcie := { s.pcie with aer := s.pcie.aer ||| status.toNat } }

/-- AER_UNCORR: R72. -/
def execAerUncorr (status : W32) (s : State) : Out := whenHost (aerUncorr status) s

/-- Bus Master Enable changes; at 1, held writes and messages go out, and the waiting completions. -/
def busMaster (on : Bool) (s : State) : State :=
  let s1 := { s with pcie := { s.pcie with bme := on } }
  if on then waitingWrite ((List.range 512).foldl (fun s v => msixFlush v s) (hwrRelease s1)) else s1

/-- BUS_MASTER_ENABLE: R75. -/
def execBusMasterEnable (on : Bool) (s : State) : Out := whenHost (busMaster on) s

/-! ### The crystal (R28) and the AFE link (R8) -/

/-- The crystal fails. -/
def xtalFail (s : State) : State :=
  if s.clk.xtalFail then s
  else
    let s1 := { s with clk := { s.clk with traceable := false, xtalFail := true }, afe := { s.afe with armWait := 0 } }
    calAbandon (dryStopAll (discardAll true (raise 329 0x01 0 s1)))

/-- XTAL_FAIL: R28. -/
def execXtalFail (s : State) : Out := whenReady xtalFail s

/-- The crystal is sound again. -/
def xtalOk (s : State) : State :=
  if !s.clk.xtalFail then s
  else
    let s1 := raise 329 0x02 0 { s with clk := { s.clk with traceable := true, xtalFail := false } }
    sramAuto [] ((List.range 4).foldl (fun s u => selfcalWaited u s) s1)

/-- XTAL_OK: R28. -/
def execXtalOk (s : State) : Out := whenReady xtalOk s

/-- AFE_KEEPALIVE: R8. -/
def execAfeKeepalive (s : State) : Out := whenReady (emit .keepAlive) s

/-- No valid word for 100 µs: valves off and disarmed, dryer ports stopped, and the events of R8. The spec gives the AFE_LINK
events of valve channels and dryer ports no DETAIL: 0 (DESIGN CHOICE 74). -/
def afeLink (s : State) : State :=
  if !s.afe.linkOk then s
  else
    let s1 := discardAll true { s with afe := { s.afe with linkOk := false, linkLost := true } }
    let s2 := (List.range 16).foldl (fun s n => raise (198 + n) 0xF0 0 s) s1
    let s3 := (List.range 4).foldl (fun s p => if (dry s p).running then raise (121 + p) 0xF0 0 s else s) s2
    calAbandon (dryStopAll s3)

/-- AFE_LINK: R8. -/
def execAfeLink (s : State) : Out := whenReady afeLink s

/-- The link has carried valid traffic for 1 ms: writes that armed a channel meanwhile take effect, and the chains of
running dryer ports restart (R205, R292). -/
def afeLinkRestored (s : State) : State :=
  if s.afe.linkOk then s
  else
    let arm := s.afe.armWait
    let s1 := { s with afe := { s.afe with linkOk := true, linkLost := false, armWait := 0 } }
    let s2 := (List.range 16).foldl (fun s n => if bitOf arm n then armOne n s else s) s1
    let s3 := (List.range 4).foldl (fun s p => if (dry s p).running then restartAll p s else s) s2
    (List.range 4).foldl (fun s u => selfcalWaited u s) s3

/-- AFE_LINK_RESTORED: R8. -/
def execAfeLinkRestored (s : State) : Out := whenReady afeLinkRestored s

/-! ### Rate windows (R23, R175) -/

/-- OVERLOAD of a wire after a window. -/
def overloadJudge (w : Nat) (s : State) : State :=
  let x := wire s w
  let plan := (planOf s w + 999999) / 1000000
  if x.cap < plan then
    let s1 := updWire w (fun x => { x with overload := true, goodWindows := 0 }) s
    if x.overload then s1 else raise (112 + w) 0x01 x.cap s1
  else if x.overload then
    (if 10 ≤ x.goodWindows + 1 then raise (112 + w) 0x02 x.cap (updWire w (fun x => { x with overload := false, goodWindows := 0 }) s)
     else updWire w (fun x => { x with goodWindows := x.goodWindows + 1 }) s)
  else s

/-- The counts of a window reach the rate registers, by unit: wires 0 to 8, then as `Ingest.rates` numbers them. CAP is the
replica's count, a measurement; LOAD is the tokens that the unit passed, whole units per microsecond (DESIGN CHOICE 62). -/
def rateWindow (caps : List Nat) (s : State) : State :=
  if s.clk.ns < s.ing.rateNs + ms 1 then s
  else
    let load (k : Nat) : Nat := tblGet 0 s.ing.tokens k / 1000
    let s0 := { s with ing := { s.ing with rateNs := s.ing.rateNs + ms 1, tokens := [] } }
    let s1 := (List.range 9).foldl (fun s w => updWire w (fun x => { x with cap := caps.getD w 0, load := load w }) s) s0
    let s2 := (List.range 14).foldl (fun s i =>
      { s with ing := { s.ing with rates := tblSet s.ing.rates (9 + i) (caps.getD (9 + i) 0, load (9 + i)) } }) s1
    (List.range 9).foldl (fun s w => overloadJudge w s) s2

/-- RATE_WINDOW_END: R23, R175. -/
def execRateWindowEnd (caps : List Nat) (s : State) : Out := whenReady (rateWindow caps) s

end Sys2Proof.Machine
end

