-- ==== Sys2Proof/Machine/Tick.lean ====
section
/-! DEFINITION. The tick of the crystal clock: what a step does when no command waits. -/

namespace Sys2Proof.Machine

/-- 1e-8 ns in one ns: the unit of the fraction that the slewed TB_NOW gathers (R416). -/
def tbUnit : Nat := 100000000

/-- TB_NOW advances by 1 ns, at the rate that chain synchronisation sets (R27, R416). -/
def tbAdvance (s : State) : State :=
  let a := (((s.clk.acc + tbUnit : Nat) : Int) + s.chain.slew).toNat
  { s with clk := { s.clk with tb := s.clk.tb + a / tbUnit, acc := a % tbUnit } }

/-- Counter 0 of Table 19.5: operating seconds since ready. -/
def operatingSecond (s : State) : State :=
  if (s.clk.ns - s.boot.readyNs) % sec 1 = 0 then countLife 0 s else s

/-- What waited at the head for a device goes on: reads behind window writes that are confirmed or lost, and commands behind one
that has gone (R79, R91). -/
def headGoesOn (s : State) : State :=
  let qs := (s.cmds.flight.filter fun c => decide (c.origin = .here) && !c.started && c.sentTo.isNone).map Cmd.sq
  readsRelease (qs.foldl (fun s q => awayPump q s.cmds.flight.length s) s)

/-- One ns of crystal time passes. DESIGN CHOICE 1: the table has no row for it. -/
def tick (s : State) : State :=
  let s1 := { s with clk := { s.clk with ns := s.clk.ns + 1 } }
  if s.boot.phase = .ready then operatingSecond (comparatorsLook (gpioFilters (viewStep (dryerTick (linesDue (lateStampsDue (headGoesOn (tbAdvance s1)))))))) else s1

end Sys2Proof.Machine
end

