-- ==== Sys2Proof/Machine/Dispatch.lean ====
section
/-! DEFINITION. One arm per command: each calls its own meaning. -/

namespace Sys2Proof.Machine

/-- The effect of a command on everything but the queue. -/
def exec (i : Instr) (s : State) : Host.Outcome State Fault Refusal :=
  match i with
  | .identify sq tag io => Sys2Proof.Machine.execIdentify sq tag io s
  | .progress sq tag => Sys2Proof.Machine.execProgress sq tag s
  | .abort sq tag => Sys2Proof.Machine.execAbort sq tag s
  | .echo sq tag => Sys2Proof.Machine.execEcho sq tag s
  | .cfgStage sq tag data => Sys2Proof.Machine.execCfgStage sq tag data s
  | .cfgCommit sq tag => Sys2Proof.Machine.execCfgCommit sq tag s
  | .cfgCommitDiscard sq tag => Sys2Proof.Machine.execCfgCommitDiscard sq tag s
  | .cfgRead sq tag io => Sys2Proof.Machine.execCfgRead sq tag io s
  | .laneTrain sq tag => Sys2Proof.Machine.execLaneTrain sq tag s
  | .laneTest sq tag => Sys2Proof.Machine.execLaneTest sq tag s
  | .portStart sq tag => Sys2Proof.Machine.execPortStart sq tag s
  | .portStop sq tag => Sys2Proof.Machine.execPortStop sq tag s
  | .tableLoad sq tag data => Sys2Proof.Machine.execTableLoad sq tag data s
  | .reprocess sq tag => Sys2Proof.Machine.execReprocess sq tag s
  | .shutter sq tag => Sys2Proof.Machine.execShutter sq tag s
  | .rulesLoad sq tag data => Sys2Proof.Machine.execRulesLoad sq tag data s
  | .queueCreate sq tag => Sys2Proof.Machine.execQueueCreate sq tag s
  | .queueDelete sq tag => Sys2Proof.Machine.execQueueDelete sq tag s
  | .markFire sq tag => Sys2Proof.Machine.execMarkFire sq tag s
  | .adcSelfcal sq tag => Sys2Proof.Machine.execAdcSelfcal sq tag s
  | .calibrate sq tag tests => Sys2Proof.Machine.execCalibrate sq tag tests s
  | .nvmRead sq tag io => Sys2Proof.Machine.execNvmRead sq tag io s
  | .nvmWrite sq tag data => Sys2Proof.Machine.execNvmWrite sq tag data s
  | .attest sq tag io => Sys2Proof.Machine.execAttest sq tag io s
  | .fwStage sq tag data n back => Sys2Proof.Machine.execFwStage sq tag data n back s
  | .fwActivate sq tag image => Sys2Proof.Machine.execFwActivate sq tag image s
  | .certRead sq tag io => Sys2Proof.Machine.execCertRead sq tag io s
  | .bistRun sq tag => Sys2Proof.Machine.execBistRun sq tag s
  | .wireSwap sq tag => Sys2Proof.Machine.execWireSwap sq tag s
  | .chainEnum sq tag io => Sys2Proof.Machine.execChainEnum sq tag io s
  | .commandFetch sq entry => Sys2Proof.Machine.execCommandFetch sq entry s
  | .interimCompletion sq tag => Sys2Proof.Machine.execInterimCompletion sq tag s
  | .pair0Create value => Sys2Proof.Machine.execPair0Create value s
  | .pair0Delete value => Sys2Proof.Machine.execPair0Delete value s
  | .dbSqTail q v => Sys2Proof.Machine.execDbSqTail q v s
  | .dbCqHead q v => Sys2Proof.Machine.execDbCqHead q v s
  | .dbSrHead r v => Sys2Proof.Machine.execDbSrHead r v s
  | .dbEvtHead e v => Sys2Proof.Machine.execDbEvtHead e v s
  | .dbDqHead v => Sys2Proof.Machine.execDbDqHead v s
  | .doorbellPageWrite dev off v => Sys2Proof.Machine.execDoorbellPageWrite dev off v s
  | .glbBar2Base v => Sys2Proof.Machine.execGlbBar2Base v s
  | .bar2Access off acc => Sys2Proof.Machine.execBar2Access off acc s
  | .forwardedAccess off acc => Sys2Proof.Machine.execForwardedAccess off acc s
  | .evtGrp g v => Sys2Proof.Machine.execEvtGrp g v s
  | .evtPend w v met => Sys2Proof.Machine.execEvtPend w v met s
  | .mrkArm v => Sys2Proof.Machine.execMrkArm v s
  | .wireHistLookup v => Sys2Proof.Machine.execWireHistLookup v s
  | .hkSwtrig u v => Sys2Proof.Machine.execHkSwtrig u v s
  | .masterGo port v => Sys2Proof.Machine.execMasterGo port v s
  | .registerWrite bar off size v => Sys2Proof.Machine.execRegisterWrite bar off size v s
  | .registerReadClear bar off size => Sys2Proof.Machine.execRegisterReadClear bar off size s
  | .splitReadLow off => Sys2Proof.Machine.execSplitReadLow off s
  | .splitReadHigh off => Sys2Proof.Machine.execSplitReadHigh off s
  | .powerValid flash temps => Sys2Proof.Machine.execPowerValid flash temps s
  | .deviceReady => Sys2Proof.Machine.execDeviceReady s
  | .profileImageLoaded crc image => Sys2Proof.Machine.execProfileImageLoaded crc image s
  | .thermalHoldCheck temps => Sys2Proof.Machine.execThermalHoldCheck temps s
  | .brownOut rail => Sys2Proof.Machine.execBrownOut rail s
  | .railDip rail back => Sys2Proof.Machine.execRailDip rail back s
  | .sysRstN lowNs taken => Sys2Proof.Machine.execSysRstN lowNs taken s
  | .perstN => Sys2Proof.Machine.execPerstN s
  | .functionLevelReset => Sys2Proof.Machine.execFunctionLevelReset s
  | .d3hotEntry => Sys2Proof.Machine.execD3hotEntry s
  | .dlDown => Sys2Proof.Machine.execDlDown s
  | .busMasterEnable on => Sys2Proof.Machine.execBusMasterEnable on s
  | .vvalveOut mv => Sys2Proof.Machine.execVvalveOut mv s
  | .vvalveOk mv => Sys2Proof.Machine.execVvalveOk mv s
  | .xtalFail => Sys2Proof.Machine.execXtalFail s
  | .xtalOk => Sys2Proof.Machine.execXtalOk s
  | .afeKeepalive => Sys2Proof.Machine.execAfeKeepalive s
  | .afeLink => Sys2Proof.Machine.execAfeLink s
  | .afeLinkRestored => Sys2Proof.Machine.execAfeLinkRestored s
  | .tenderWatchdog t => Sys2Proof.Machine.execTenderWatchdog t s
  | .tenderRestartEnd t => Sys2Proof.Machine.execTenderRestartEnd t s
  | .rateWindowEnd caps => Sys2Proof.Machine.execRateWindowEnd caps s
  | .commitBoundary blk inst => Sys2Proof.Machine.execCommitBoundary blk inst s
  | .groupTimer g => Sys2Proof.Machine.execGroupTimer g s
  | .tailMirrorWrite r => Sys2Proof.Machine.execTailMirrorWrite r s
  | .recordDelivery => Sys2Proof.Machine.execRecordDelivery s
  | .laneSignalDetect n => Sys2Proof.Machine.execLaneSignalDetect n s
  | .laneCdrLock n => Sys2Proof.Machine.execLaneCdrLock n s
  | .laneEqDone n ctle => Sys2Proof.Machine.execLaneEqDone n ctle s
  | .dfeAdaptStep n up down => Sys2Proof.Machine.execDfeAdaptStep n up down s
  | .laneAligned n => Sys2Proof.Machine.execLaneAligned n s
  | .laneRelock n rx => Sys2Proof.Machine.execLaneRelock n rx s
  | .laneUnlock n reason bad => Sys2Proof.Machine.execLaneUnlock n reason bad s
  | .laneRetrainTimeout n => Sys2Proof.Machine.execLaneRetrainTimeout n s
  | .lockFail n => Sys2Proof.Machine.execLockFail n s
  | .prbsSync n rx => Sys2Proof.Machine.execPrbsSync n rx s
  | .prbsSyncLoss n rx => Sys2Proof.Machine.execPrbsSyncLoss n rx s
  | .train r blocks => Sys2Proof.Machine.execTrain r blocks s
  | .am r blocks skew => Sys2Proof.Machine.execAm r blocks skew s
  | .amSend r => Sys2Proof.Machine.execAmSend r s
  | .lineData p pkt payload => Sys2Proof.Machine.execLineData p pkt payload s
  | .regAck p pkt payload => Sys2Proof.Machine.execRegAck p pkt payload s
  | .widthAck r pkt payload => Sys2Proof.Machine.execWidthAck r pkt payload s
  | .linkFault r unlock => Sys2Proof.Machine.execLinkFault r unlock s
  | .linkStateTimeout r => Sys2Proof.Machine.execLinkStateTimeout r s
  | .recoveryEnd r => Sys2Proof.Machine.execRecoveryEnd r s
  | .fullWidthRequest r => Sys2Proof.Machine.execFullWidthRequest r s
  | .credit r => Sys2Proof.Machine.execCredit r s
  | .cxpStreamPacket p conn pkt => Sys2Proof.Machine.execCxpStreamPacket p conn pkt s
  | .cxpControlAck p ack => Sys2Proof.Machine.execCxpControlAck p ack s
  | .cxpHeartbeat p => Sys2Proof.Machine.execCxpHeartbeat p s
  | .heartbeatLost p => Sys2Proof.Machine.execHeartbeatLost p s
  | .discoveryFail p => Sys2Proof.Machine.execDiscoveryFail p s
  | .triggerEncoder p => Sys2Proof.Machine.execTriggerEncoder p s
  | .triggerTimer p => Sys2Proof.Machine.execTriggerTimer p s
  | .trigLost p => Sys2Proof.Machine.execTrigLost p s
  | .lineTimeout p => Sys2Proof.Machine.execLineTimeout p s
  | .droppedLinePeriod p => Sys2Proof.Machine.execDroppedLinePeriod p s
  | .setAckTimeout p => Sys2Proof.Machine.execSetAckTimeout p s
  | .wireServe w => Sys2Proof.Machine.execWireServe w s
  | .wireLineExit w => Sys2Proof.Machine.execWireLineExit w s
  | .deadline w p => Sys2Proof.Machine.execDeadline w p s
  | .swapHandover => Sys2Proof.Machine.execSwapHandover s
  | .swapDone => Sys2Proof.Machine.execSwapDone s
  | .couchLine p => Sys2Proof.Machine.execCouchLine p s
  | .rowEmit => Sys2Proof.Machine.execRowEmit s
  | .rowTimeout => Sys2Proof.Machine.execRowTimeout s
  | .thermalRowMap p => Sys2Proof.Machine.execThermalRowMap p s
  | .thermalRowEmit => Sys2Proof.Machine.execThermalRowEmit s
  | .thermTimeout => Sys2Proof.Machine.execThermTimeout s
  | .edge k row desc cols => Sys2Proof.Machine.execEdge k row desc cols s
  | .knotterRow k => Sys2Proof.Machine.execKnotterRow k s
  | .mergerComponent => Sys2Proof.Machine.execMergerComponent s
  | .frag k cells part split => Sys2Proof.Machine.execFrag k cells part split s
  | .mergeTimeout => Sys2Proof.Machine.execMergeTimeout s
  | .tileWrite => Sys2Proof.Machine.execTileWrite s
  | .reelRow r => Sys2Proof.Machine.execReelRow r s
  | .reelUnitTimeout r => Sys2Proof.Machine.execReelUnitTimeout r s
  | .frameSync p => Sys2Proof.Machine.execFrameSync p s
  | .dryerRow p tl taps => Sys2Proof.Machine.execDryerRow p tl taps s
  | .thermalPipeRow p => Sys2Proof.Machine.execThermalPipeRow p s
  | .frameTimeout p => Sys2Proof.Machine.execFrameTimeout p s
  | .driftRefine p => Sys2Proof.Machine.execDriftRefine p s
  | .markerJob n => Sys2Proof.Machine.execMarkerJob n s
  | .driveStart n => Sys2Proof.Machine.execDriveStart n s
  | .peakPhaseEnd n ma => Sys2Proof.Machine.execPeakPhaseEnd n ma s
  | .driveEnd n => Sys2Proof.Machine.execDriveEnd n s
  | .decayEnd n => Sys2Proof.Machine.execDecayEnd n s
  | .headroomRetry n => Sys2Proof.Machine.execHeadroomRetry n s
  | .coilUpdate => Sys2Proof.Machine.execCoilUpdate s
  | .senseInstant n => Sys2Proof.Machine.execSenseInstant n s
  | .overcurrent n => Sys2Proof.Machine.execOvercurrent n s
  | .hsOvercurrent m => Sys2Proof.Machine.execHsOvercurrent m s
  | .hkConversionEnd u sig => Sys2Proof.Machine.execHkConversionEnd u sig s
  | .injectedStart u => Sys2Proof.Machine.execInjectedStart u s
  | .selfcalDone u ofs gain => Sys2Proof.Machine.execSelfcalDone u ofs gain s
  | .masterDone port data => Sys2Proof.Machine.execMasterDone port data s
  | .slaveReadFrame port reg edges late => Sys2Proof.Machine.execSlaveReadFrame port reg edges late s
  | .slaveWriteFrame port reg edges data => Sys2Proof.Machine.execSlaveWriteFrame port reg edges data s
  | .viewRefresh => Sys2Proof.Machine.execViewRefresh s
  | .gpioEdge n level => Sys2Proof.Machine.execGpioEdge n level s
  | .encoderEdge e a b => Sys2Proof.Machine.execEncoderEdge e a b s
  | .encoderZ e => Sys2Proof.Machine.execEncoderZ e s
  | .encoderSample e => Sys2Proof.Machine.execEncoderSample e s
  | .thermalEvaluation temps => Sys2Proof.Machine.execThermalEvaluation temps s
  | .refCheck n2 => Sys2Proof.Machine.execRefCheck n2 s
  | .calibrationStart t => Sys2Proof.Machine.execCalibrationStart t s
  | .forced p => Sys2Proof.Machine.execForced p s
  | .calibrationEnd t ofs gain parts => Sys2Proof.Machine.execCalibrationEnd t ofs gain parts s
  | .sramEccError row uncorr word tests => Sys2Proof.Machine.execSramEccError row uncorr word tests s
  | .hbmEccUncorr addr => Sys2Proof.Machine.execHbmEccUncorr addr s
  | .pageWriteEnd sound => Sys2Proof.Machine.execPageWriteEnd sound s
  | .counterBatch => Sys2Proof.Machine.execCounterBatch s
  | .calStore => Sys2Proof.Machine.execCalStore s
  | .fuseStep => Sys2Proof.Machine.execFuseStep s
  | .testInstruction tap flash temps => Sys2Proof.Machine.execTestInstruction tap flash temps s
  | .dbgChal => Sys2Proof.Machine.execDbgChal s
  | .dbgResp scope sig => Sys2Proof.Machine.execDbgResp scope sig s
  | .enum k msg => Sys2Proof.Machine.execEnum k msg s
  | .sync k kind t1 t2 t3 => Sys2Proof.Machine.execSync k kind t1 t2 t3 s
  | .syncExchange => Sys2Proof.Machine.execSyncExchange s
  | .syncAverage => Sys2Proof.Machine.execSyncAverage s
  | .enc k e t number => Sys2Proof.Machine.execEnc k e t number s
  | .encSend => Sys2Proof.Machine.execEncSend s
  | .shareLost => Sys2Proof.Machine.execShareLost s
  | .cmd k hdr sq packet => Sys2Proof.Machine.execCmd k hdr sq packet s
  | .cpl k hdr cq completion => Sys2Proof.Machine.execCpl k hdr cq completion s
  | .reg k hdr msg => Sys2Proof.Machine.execReg k hdr msg s
  | .db k hdr off v => Sys2Proof.Machine.execDb k hdr off v s
  | .msi k hdr vector => Sys2Proof.Machine.execMsi k hdr vector s
  | .ctrl k hdr msg => Sys2Proof.Machine.execCtrl k hdr msg s
  | .hwr k hdr addr bytes => Sys2Proof.Machine.execHwr k hdr addr bytes s
  | .hrd k hdr msg => Sys2Proof.Machine.execHrd k hdr msg s
  | .feltLinkDown k => Sys2Proof.Machine.execFeltLinkDown k s
  | .routeTimeout sq tag => Sys2Proof.Machine.execRouteTimeout sq tag s
  | .deviceJoined d reset => Sys2Proof.Machine.execDeviceJoined d reset s
  | .parentLost => Sys2Proof.Machine.execParentLost s
  | .bistBlockEnd sig rows tests => Sys2Proof.Machine.execBistBlockEnd sig rows tests s
  | .sparePeriod => Sys2Proof.Machine.execSparePeriod s
  | .debugLockoutEnd => Sys2Proof.Machine.execDebugLockoutEnd s
  | .sysRstNRelease flash temps => Sys2Proof.Machine.execSysRstNRelease flash temps s
  | .perstNRelease => Sys2Proof.Machine.execPerstNRelease s
  | .linkChange gen width => Sys2Proof.Machine.execLinkChange gen width s
  | .aerUncorr status => Sys2Proof.Machine.execAerUncorr status s
  | .laneTrainTimeout n => Sys2Proof.Machine.execLaneTrainTimeout n s
  | .widthReq k pkt payload => Sys2Proof.Machine.execWidthReq k pkt payload s
  | .creditGrantReceived k pkt payload => Sys2Proof.Machine.execCreditGrantReceived k pkt payload s
  | .reelUnitHoldExpiry r => Sys2Proof.Machine.execReelUnitHoldExpiry r s
  | .eventLogWriteInterval => Sys2Proof.Machine.execEventLogWriteInterval s
  | .strobePulseEnd n => Sys2Proof.Machine.execStrobePulseEnd n s
  | .biasRampEnd p => Sys2Proof.Machine.execBiasRampEnd p s

end Sys2Proof.Machine
end

