-- ==== Sys2Proof/Safety.lean ====
section
/-! DEFINITION. The terms in which the statements speak: when a command finds the device able to run it, when an
opcode row starts or carries on a command, and the invariant that every step keeps. -/

namespace Sys2Proof.Machine

/-- The device is in service: it has become ready and nothing has reset it since (R58, R59). -/
def Ready (s : State) : Prop := s.boot.phase = .ready

/-- The host can reach the device: it is in service and PERST_N is high (R60, R68). -/
def HostOn (s : State) : Prop := s.boot.phase = .ready ∧ s.pcie.perstLow = false

/-- The streaming path runs: the device is in service and has not tripped (R352). -/
def Live (s : State) : Prop := s.boot.phase = .ready ∧ s.boot.tripped = false

/-- `c` is the command that an opcode row names, and the device processes commands: no tender restart pauses it (R19),
and a tripped device still runs the opcode (R352). -/
def Named (s : State) (sq : Fin 1024) (tag : W32) (op : Nat) (c : Cmd) : Prop :=
  Ready s ∧ rowCmd s sq.val tag op = some c ∧ s.cmds.paused = []
    ∧ (s.boot.tripped = false ∨ tripOpcodes.contains op = true)

/-- The opcode row starts the command `c`: every earlier command of its SQ has started, and has completed where FENCE
is set (R91, Table 5.2). -/
def Starts (s : State) (sq : Fin 1024) (tag : W32) (op : Nat) (c : Cmd) : Prop :=
  Named s sq tag op c ∧ c.started = false ∧ mayStart s c = true

/-- The opcode row carries on the command `c`, which has started. -/
def CarriesOn (s : State) (sq : Fin 1024) (tag : W32) (op : Nat) (c : Cmd) : Prop :=
  Named s sq tag op c ∧ c.started = true

/-- Both memories are in canonical form: addresses rising, and no byte listed that an unlisted address reads as. -/
def MemCanonical (s : State) : Prop := memWf hbmUnlisted s.hbm = true ∧ memWf nvmUnlisted s.nvm.mem = true

/-- A run is safe while no step faults or refuses. -/
def SafeStep (s : State) : Prop := ∃ t, step s = .next t

/-- The 32-bit registers of type RC (Table 0.4), by offset. -/
def rcAt (off : Nat) : Bool :=
  let o := off % 0x10000
  match off / 0x10000 with
  | 0x0 => decide (o = 0x140)
  | 0x2 => decide (0xC00 ≤ o ∧ o < 0xD00)
  | 0x6 => decide (o < 0x1400 ∧ 0x10 ≤ o % 0x40 ∧ o % 0x40 ≤ 0x18)
  | 0x8 => decide (o < 0x2000 ∧ 0x20 ≤ o % 0x100 ∧ o % 0x100 < 0x40)
  | 0x9 => decide (o < 0x900 ∧ (o % 0x100 = 0x18 ∨ o % 0x100 = 0x1C)) || decide (0xA20 ≤ o ∧ o ≤ 0xA3C)
      || decide (0xB00 ≤ o ∧ o < 0xB80 ∧ o % 0x10 = 4) || decide (0xB98 ≤ o ∧ o ≤ 0xBB0)
      || decide (0x1000 ≤ o ∧ o < 0x1400 ∧ o % 0x10 = 4)
  | 0xA => decide (o < 0x400 ∧ 0x30 ≤ o % 0x100 ∧ o % 0x100 ≤ 0x44)
  | 0xB => decide (0x100 ≤ o ∧ o < 0x300 ∧ 0x18 ≤ o % 0x20)
  | 0xC => decide (o < 0x1000 ∧ o % 0x400 = 0x10) || decide (0x1200 ≤ o ∧ o < 0x1280 ∧ o % 0x20 = 0x10)
  | _ => false

/-- The offsets at which an aligned 32-bit write may act: registers of type RW, W1C and WO, the doorbells among them. -/
def writable32 (off : Nat) : Bool :=
  let o := off % 0x10000
  match off / 0x10000 with
  | 0x0 => [0x08, 0x20, 0x30, 0x50].contains o
  | 0x1 => decide (o < 0x2500 ∨ o = 0x2800)
  | 0x2 => decide (o < 0x840) || decide (0x900 ≤ o ∧ o < 0xB80)
  | 0xB => decide (o = 0)
  | 0xC => decide (o < 0x1000 ∧ o % 0x400 = 4) || decide (0x1000 ≤ o ∧ o < 0x1080 ∧ o % 0x20 = 0x10)
  | _ => false

end Sys2Proof.Machine
end

