-- ==== Sys2Proof/Certificates/Slice0/Obligations.lean ====
section
/-! DEFINITION. The statements about the device, for the provers. They speak of `exec` of one command, of `step`, and of
the shared operations; the conditions are on the state and the operands alone. -/

open Sys2Proof Sys2Proof.Machine

/-- A step takes the command at the front of the queue and runs it with the queue's rest. The queue is the model's own
(log entry 10). -/
def Obligations.StepRunsFrontCommand : Prop :=
  ∀ (s : State) (c : Instr) (cs : List Instr), step { s with pending := c :: cs } = exec c { s with pending := cs }

/-- The model's choice (log entry 1): on an empty queue one ns of crystal time passes. Before ready nothing else changes; in
service TB_NOW follows at its slewed rate, and while no view row is being written, no capture moment is awaited, no dryer
frame runs, no marker job is pending, no marker channel drives, no GPIO level passes its filter (log entries 44, 68, 73), no read
waits for a window write and no command of the head waits for another device (log entries 26, 57), memory, configuration, queues
and commands in flight stay. -/
def Obligations.IdleStepTicks : Prop :=
  ∀ s : State, s.pending = [] → ∃ t, step s = .next t ∧ t.clk.ns = s.clk.ns + 1 ∧ t.pending = []
    ∧ (¬ Ready s → t = { s with clk := { s.clk with ns := s.clk.ns + 1 } })
    ∧ (Ready s → s.web.hist.viewJobs = [] → s.ing.lateStamps = [] → s.ing.awaiting = [] →
        (∀ p, p < 4 → (dry s p).frame = none ∧ (dry s p).marks = [] ∧ ∀ r ∈ (dry s p).fifo, r.stamped = true) →
        s.afe.gpioNew = [] → (∀ n, n < 16 → (chan s n).jobs = [] ∧ (chan s n).drive = none) →
        s.host.heldReads = [] → (∀ c ∈ s.cmds.flight, c.origin = .here → pairTarget s c.sq = s.chain.devId) →
        t.hbm = s.hbm ∧ t.nvm.mem = s.nvm.mem ∧ t.cfg = s.cfg ∧ t.cmds = s.cmds ∧ t.host = s.host ∧ t.ing = s.ing
        ∧ t.web = s.web ∧ t.afe = s.afe ∧ t.chain = s.chain ∧ t.sent = s.sent
        ∧ t.clk.tb = s.clk.tb + (((s.clk.acc + 100000000 : Nat) : Int) + s.chain.slew).toNat / 100000000)

/-- Every step keeps both memories in canonical form, whatever command runs and from every state. -/
def Obligations.StepKeepsMemoryCanonical : Prop :=
  ∀ s t : State, MemCanonical s → step s = .next t → MemCanonical t

/-- The reset state meets the invariant. -/
def Obligations.ResetMemoryCanonical : Prop := MemCanonical State.reset

/-- A step only takes the front command out of the queue: commands come from outside (log entry 10). -/
def Obligations.CommandsLeaveQueueAlone : Prop :=
  ∀ s t : State, step s = .next t → t.pending = s.pending.tail

/-- Crystal time passes only in an idle step, one ns at a time (log entry 1). -/
def Obligations.CrystalTimeNeverRunsBack : Prop :=
  ∀ s t : State, step s = .next t → t.clk.ns = s.clk.ns + (if s.pending = [] then 1 else 0)

/-- Every step completes but for a window access that reaches the device past the end of HBM. That such an access is answered
with a fault is the model's choice (log entry 114). -/
def Obligations.OnlyTheWindowFaults : Prop :=
  (∀ s : State, SafeStep s ∨ step s = .fault .hbmAddress)
  ∧ ∀ s : State, step s = .fault .hbmAddress ↔ HostOn s ∧ ∃ off acc cs, s.pending = .bar2Access off acc :: cs
    ∧ 0x2000000000 < s.host.bar2Base * 2 ^ 30 + off.toNat + bar2Size acc

/-- ECHO, PROGRESS and IDENTIFY complete with the results of Table 5.6 (R102, R104, R115, R118). -/
def Obligations.EchoProgressIdentifyComplete : Prop :=
  ∀ (s : State) (sq : Fin 1024) (tag : W32) (c : Cmd),
    (Starts s sq tag 0x0004 c → exec (.echo sq tag) s = .next (finish c stOk 100 (u64At c.packet 0x18) 0 s))
    ∧ (Starts s sq tag 0x0002 c → let who := namedElsewhere s (u16At c.packet 0x18) (BitVec.ofNat 32 (u32At c.packet 0x1C))
        (who = none → cmdNamed s (u16At c.packet 0x18) (BitVec.ofNat 32 (u32At c.packet 0x1C)) = none →
          exec (.progress sq tag) s = .next (finish c stOk 0 0 0 s))
        ∧ (∀ d, who = none → cmdNamed s (u16At c.packet 0x18) (BitVec.ofNat 32 (u32At c.packet 0x1C)) = some d →
          exec (.progress sq tag) s =
            .next (finish c stOk (percentOf d) ((if d.started then 2 else 1) + 256 * pkOp d.packet) d.position s))
        ∧ ∀ e, who = some e → exec (.progress sq tag) s = .next (forwardCmd e c s))
    ∧ (Starts s sq tag 0x0001 c → mayRequest s = true → exec (.identify sq tag .ok) s =
        .next (finish c stOk 100 (0x6408B010 + s.chain.devId * 2 ^ 32) 4096 (hostWrite (pkAddr c.packet) (identity s) s)))
    ∧ (∀ n, Starts s sq tag 0x0001 c → mayRequest s = true → n ≤ 4096 → exec (.identify sq tag (.fail n)) s =
        .next (finish c stBadParam (percentOf { c with position := n }) 0x8000000000000000 n
          (hostWrite (pkAddr c.packet) ((identity s).take n) s)))

/-- ABORT (R120): what it stops completes first, and RESULT says which case it met. One of a command that another device
runs is sent there (log entry 57), and one of an FW_STAGE whose slot is to be erased waits for a frame that runs on SP0 (R326, log
entry 92). -/
def Obligations.AbortAnswers : Prop :=
  ∀ (s : State) (sq : Fin 1024) (tag : W32) (c : Cmd), Starts s sq tag 0x0003 c →
    (cmdNamed s (u16At c.packet 0x18) (BitVec.ofNat 32 (u32At c.packet 0x1C)) = none → exec (.abort sq tag) s =
      .next (if s.cmds.finished.contains (u16At c.packet 0x18, BitVec.ofNat 32 (u32At c.packet 0x1C)) then finish c stOk 100 1 0 s
        else if s.chain.head then finish c stOk 100 2 0 s else forwardCmd 0 c s))
    ∧ ∀ d, cmdNamed s (u16At c.packet 0x18) (BitVec.ofNat 32 (u32At c.packet 0x1C)) = some d →
      ((pkOp d.packet = 0x0002 ∨ pkOp d.packet = 0x0003) → exec (.abort sq tag) s = .next (finish c stOk 100 3 0 s))
      ∧ (pkOp d.packet ≠ 0x0002 → pkOp d.packet ≠ 0x0003 → d.sentTo = none → d.started = false →
          exec (.abort sq tag) s = .next (finish c stOk 100 0 0 (finish d stAborted 0 0 0 s)))
      ∧ (pkOp d.packet ≠ 0x0002 → pkOp d.packet ≠ 0x0003 → d.sentTo = none → d.started = true → abortable s d = true →
          (stageWaits s d = false → exec (.abort sq tag) s = .next (finish c stOk 100 0 0
            (finish d stAborted (percentOf { d with position := stopPosition s d }) 0 (stopPosition s d) (stopEffect d s))))
          ∧ (stageWaits s d = true → exec (.abort sq tag) s = .next (putCmd { c with started := true, startNs := s.clk.ns } s)))
      ∧ (pkOp d.packet ≠ 0x0002 → pkOp d.packet ≠ 0x0003 → d.sentTo = none → d.started = true → abortable s d = false →
          exec (.abort sq tag) s = .next (finish c stOk 100 3 0 s))
      ∧ (pkOp d.packet ≠ 0x0002 → pkOp d.packet ≠ 0x0003 → ∀ e, d.sentTo = some e →
          exec (.abort sq tag) s = .next (forwardCmd e c s))

/-- Rings are made and dropped (R80 to R84), pair 0 through GLB_Q0_CTRL (R82). That no pair is made on a chained device is
the model's choice (log entry 58). -/
def Obligations.QueueCreateDelete : Prop :=
  (∀ (s : State) (sq : Fin 1024) (tag : W32) (c : Cmd), Starts s sq tag 0x0070 c →
    (ringExists s (u8At c.packet 0x18) (u32At c.packet 0x1C) = false → (u8At c.packet 0x18 ≠ 0 ∨ s.chain.head = true) →
      exec (.queueCreate sq tag) s = .next (finish c stOk 100 0 0 (makeRing c.packet s)))
    ∧ (ringExists s (u8At c.packet 0x18) (u32At c.packet 0x1C) = false → u8At c.packet 0x18 = 0 → s.chain.head = false →
      exec (.queueCreate sq tag) s = .next (finish c stBadParam 0 0 0 s))
    ∧ (ringExists s (u8At c.packet 0x18) (u32At c.packet 0x1C) = true →
      exec (.queueCreate sq tag) s = .next (finish c stBusy 0 0 0 s)))
  ∧ (∀ (s : State) (sq : Fin 1024) (tag : W32) (c : Cmd), Starts s sq tag 0x0071 c →
    (u8At c.packet 0x18 ≠ 0 → ringExists s (u8At c.packet 0x18) (u32At c.packet 0x1C) = true →
      exec (.queueDelete sq tag) s = .next (finish c stOk 100 0 0 (dropRing (u8At c.packet 0x18) (u32At c.packet 0x1C) s)))
    ∧ (u8At c.packet 0x18 ≠ 0 → ringExists s (u8At c.packet 0x18) (u32At c.packet 0x1C) = false →
      exec (.queueDelete sq tag) s = .next (finish c stBadParam 0 0 0 s))
    ∧ (∀ p, u8At c.packet 0x18 = 0 → tblFind s.host.pairs (u32At c.packet 0x1C) = some p → p.draining = false →
        (u32At c.packet 0x1C ≠ c.sq ∨ c.origin = .head) → exec (.queueDelete sq tag) s =
          .next (settlePairs ((tblSet s.host.pairs (u32At c.packet 0x1C) { p with draining := true }).length + 1) { s with
            cmds := { s.cmds with flight := cmdReplace { c with started := true, startNs := s.clk.ns } s.cmds.flight }
            host := { s.host with pairs := tblSet s.host.pairs (u32At c.packet 0x1C) { p with draining := true } } })))
  ∧ (∀ (s : State) (v : W32), HostOn s → s.chain.head = true → s.host.q0Enable = false → s.host.q0Draining = false →
      s.host.q0SqBase ≠ 0 → s.host.q0CqBase ≠ 0 → 4 ≤ bits v.toNat 0 5 → bits v.toNat 0 5 ≤ 16 → 4 ≤ bits v.toNat 5 5 →
      bits v.toNat 5 5 ≤ 16 → (bits v.toNat 16 8 < 160 ∨ bits v.toNat 16 8 = 255) → ∃ t, exec (.pair0Create v) s = .next t ∧
        t.host.q0Enable = true ∧ tblFind t.host.pairs 0 = some
          { sqBase := s.host.q0SqBase, sqLog2 := bits v.toNat 0 5, cqBase := s.host.q0CqBase, cqLog2 := bits v.toNat 5 5
            group := if bits v.toNat 16 8 = 0xFF then none else some (bits v.toNat 16 8), target := s.chain.devId }
        ∧ t.hbm = s.hbm ∧ t.cmds = s.cmds ∧ t.cfg = s.cfg ∧ t.sent = s.sent)
  ∧ (∀ (s : State) (v : W32) (p : Pair), HostOn s → s.host.q0Enable = true → tblFind s.host.pairs 0 = some p →
      (∀ x ∈ s.host.pairs, x.2.draining = false) → ∃ t, exec (.pair0Delete v) s = .next t ∧ t.host.q0Enable = false
        ∧ t.host.q0Draining = decide (outstanding s 0 ≠ 0)
        ∧ tblFind t.host.pairs 0 = (if outstanding s 0 = 0 then none else some { p with draining := true }))

/-- A draining pair goes with its last command (R82, R83). -/
def Obligations.SettledPairsHoldCommands : Prop :=
  ∀ s : State, drainedPair (settlePairs (s.host.pairs.length + 1) s) = none

/-- COMMAND_FETCH (R88, R91, R105) and INTERIM_COMPLETION (R117). -/
def Obligations.FetchAndInterim : Prop :=
  (∀ (s : State) (sq : Fin 1024) (p : Pair) (bs : List Byte), Ready s → tblFind s.host.pairs sq.val = some p →
      mayFetch s sq.val p = true → bs.length = 64 → p.target = s.chain.devId →
      let c : Cmd := { cid := s.cmds.nextId, sq := sq.val, tag := pkTag bs, packet := bs }
      let s1 : State := { s with
        host := { s.host with pairs := tblSet s.host.pairs sq.val { p with fetch := p.fetch + 1 } }
        cmds := { s.cmds with flight := s.cmds.flight ++ [c], nextId := s.cmds.nextId + 1 } }
      (opcodeAccepted s.boot.source (pkOp bs) = true → packetOk bs = true → exec (.commandFetch sq (.packet bs)) s = .next s1)
      ∧ (opcodeAccepted s.boot.source (pkOp bs) = false →
        exec (.commandFetch sq (.packet bs)) s = .next (finish c stBadOpcode 0 0 0 s1))
      ∧ (opcodeAccepted s.boot.source (pkOp bs) = true → packetOk bs = false →
        exec (.commandFetch sq (.packet bs)) s = .next (finish c stBadParam 0 0 0 s1)))
  ∧ (∀ (s : State) (sq : Fin 1024) (p : Pair), Ready s → tblFind s.host.pairs sq.val = some p → mayFetch s sq.val p = true →
      exec (.commandFetch sq .failed) s = .next (raise 339 0x02 sq.val { s with host := { s.host with
        pairs := tblSet s.host.pairs sq.val { p with stopped := true }
        q0Fault := s.host.q0Fault || decide (sq.val = 0) } }))
  ∧ (∀ (s : State) (sq : Fin 1024) (tag : W32) (c : Cmd), Ready s → interimOf s sq.val tag = some c → c.origin = .here →
      (interimRoom s sq.val = true → exec (.interimCompletion sq tag) s =
        .next (writeCqe sq.val tag stInProgress (percentOf c) 0 c.position true
          (putCmd { c with moved := false, interimNs := some s.clk.ns } s)))
      ∧ (interimRoom s sq.val = false → exec (.interimCompletion sq tag) s = .next (putCmd { c with moved := false } s)))

/-- The five doorbells (R88) and the page of this device (R99). -/
def Obligations.DoorbellsMoveRings : Prop :=
  ∀ (s : State) (v : W32), HostOn s →
    (∀ (q : Fin 1024) (p : Pair), pairForDb s q.val = some p →
      ((p.sqTail - p.fetch).toNat ≤ (v - p.fetch).toNat → (v - p.fetch).toNat ≤ 2 ^ p.sqLog2 → exec (.dbSqTail q v) s =
        .next { s with host := { s.host with pairs := tblSet s.host.pairs q.val { p with sqTail := v } } })
      ∧ (¬ ((p.sqTail - p.fetch).toNat ≤ (v - p.fetch).toNat ∧ (v - p.fetch).toNat ≤ 2 ^ p.sqLog2) →
        exec (.dbSqTail q v) s = .next (raise 339 0x01 q.val s))
      ∧ ((v - p.cqHead).toNat ≤ (p.cqTail - p.cqHead).toNat → exec (.dbCqHead q v) s =
        .next { s with host := { s.host with pairs := tblSet s.host.pairs q.val { p with cqHead := v } } })
      ∧ ((p.cqTail - p.cqHead).toNat < (v - p.cqHead).toNat →
        exec (.dbCqHead q v) s = .next (raise 339 0x01 (q.val + 2 ^ 18) s)))
    ∧ (∀ q : Fin 1024, pairForDb s q.val = none → exec (.dbSqTail q v) s = .next (raise 339 0x03 q.val s)
        ∧ exec (.dbCqHead q v) s = .next (raise 339 0x03 (q.val + 2 ^ 18) s))
    ∧ (∀ (r : Fin 256) (x : Ring), tblFind s.host.srs r.val = some x →
      ((v - x.head).toNat ≤ (x.tail - x.head).toNat → exec (.dbSrHead r v) s =
        .next { s with host := { s.host with srs := tblSet s.host.srs r.val { x with head := v } } })
      ∧ ((x.tail - x.head).toNat < (v - x.head).toNat → exec (.dbSrHead r v) s = .next (raise 339 0x01 (r.val + 3 * 2 ^ 18) s)))
    ∧ (∀ r : Fin 256, tblFind s.host.srs r.val = none → exec (.dbSrHead r v) s = .next (raise 339 0x03 (r.val + 3 * 2 ^ 18) s))
    ∧ (∀ (e : Fin 64) (x : EvtRing), tblFind s.host.evts e.val = some x →
      ((v - x.head).toNat ≤ (x.tail - x.head).toNat → exec (.dbEvtHead e v) s =
        .next { s with host := { s.host with evts := tblSet s.host.evts e.val { x with head := v } } })
      ∧ ((x.tail - x.head).toNat < (v - x.head).toNat → exec (.dbEvtHead e v) s = .next (raise 339 0x01 (e.val + 4 * 2 ^ 18) s)))
    ∧ (∀ e : Fin 64, tblFind s.host.evts e.val = none → exec (.dbEvtHead e v) s = .next (raise 339 0x03 (e.val + 4 * 2 ^ 18) s))
    ∧ (∀ (x : Ring) (w : W32), tblFind s.host.dqs (v.toNat / 2 ^ 14) = some x → w.toNat % 2 ^ 14 = v.toNat % 2 ^ 14 →
      (w - x.head).toNat < 2 ^ 14 →
      ((w - x.head).toNat ≤ (x.tail - x.head).toNat → exec (.dbDqHead v) s =
        .next { s with host := { s.host with dqs := tblSet s.host.dqs (v.toNat / 2 ^ 14) { x with head := w } } })
      ∧ ((x.tail - x.head).toNat < (w - x.head).toNat →
        exec (.dbDqHead v) s = .next (raise 339 0x01 (v.toNat / 2 ^ 14 + 2 * 2 ^ 18) s)))
    ∧ (tblFind s.host.dqs (v.toNat / 2 ^ 14) = none →
        exec (.dbDqHead v) s = .next (raise 339 0x03 (v.toNat / 2 ^ 14 + 2 * 2 ^ 18) s))
    ∧ (∀ (dev : Fin 64) (off : BitVec 16), dev.val = s.chain.devId → exec (.doorbellPageWrite dev off v) s =
        .next (dbWrite true off.toNat v.toNat s))

/-- The HBM window (R77 to R79). -/
def Obligations.HbmWindow : Prop :=
  (∀ (s : State) (v : W64), HostOn s →
    (bits v.toNat 30 7 ≤ 64 → devicePresent s (bits v.toNat 40 6) = true → exec (.glbBar2Base v) s =
      .next { s with host := { s.host with bar2Base := bits v.toNat 30 7, bar2Dev := bits v.toNat 40 6 } })
    ∧ ((64 < bits v.toNat 30 7 ∨ devicePresent s (bits v.toNat 40 6) = false) →
      exec (.glbBar2Base v) s = .next (raise 342 0x02 0 s)))
  ∧ (∀ (s : State) (off : BitVec 36), HostOn s → s.host.bar2Dev = s.chain.devId →
    let a := s.host.bar2Base * 2 ^ 30 + off.toNat
    (∀ n, 0x10000000 ≤ a → a + n ≤ 0x2000000000 → exec (.bar2Access off (.read n)) s =
        .next { s with sent := .readData n (leNat (memReadN hbmUnlisted s.hbm a n)) :: s.sent })
    ∧ (∀ bs : List Byte, MemCanonical s → 0x10000000 ≤ a → a + bs.length ≤ 0x2000000000 → ∃ t, exec (.bar2Access off (.write bs)) s = .next t
        ∧ t = { s with hbm := t.hbm } ∧ memReadN hbmUnlisted t.hbm a bs.length = bs
        ∧ ∀ b, (b < a ∨ a + bs.length ≤ b) → memRead hbmUnlisted t.hbm b = memRead hbmUnlisted s.hbm b)
    ∧ (∀ n, a < 0x10000000 → n ≤ 0x1000000000 → exec (.bar2Access off (.read n)) s =
        .next (raise 342 0x01 (bits off.toNat 4 32) { s with sent := .readData n (2 ^ (8 * n) - 1) :: s.sent }))
    ∧ (∀ bs : List Byte, a < 0x10000000 → bs.length ≤ 0x1000000000 → exec (.bar2Access off (.write bs)) s =
        .next (raise 342 0x01 (bits off.toNat 4 32) s)))

/-- Queue groups (R95), pending bits (R94) and tail mirrors (R87). That a drop alone makes a mirror write due is the model's
deduction (log entry 18). -/
def Obligations.GroupsPendingMirrors : Prop :=
  (∀ (s : State) (g : Fin 160) (v : W32), HostOn s → tblFind s.host.grpRun g.val = none →
      exec (.evtGrp g v) s = .next { s with host := { s.host with grp := tblSet s.host.grp g.val v.toNat } })
  ∧ (∀ (s : State) (g : Fin 160) (v : W32) (r : GrpRun), HostOn s → tblFind s.host.grpRun g.val = some r → r.count ≠ 0 →
      max 1 (bits v.toNat 0 16) ≤ r.count → exec (.evtGrp g v) s = .next (raise (352 + g.val) 0x01 (min r.count (2 ^ 32 - 1))
        { s with host := { s.host with grp := tblSet s.host.grp g.val v.toNat, grpRun := tblErase s.host.grpRun g.val } }))
  ∧ (∀ (s : State) (g : Fin 160) (r : GrpRun), Ready s → tblFind s.host.grpRun g.val = some r → r.count ≠ 0 →
      grpTime s g.val ≠ 0 → r.since + 1000 * grpTime s g.val ≤ s.clk.ns → exec (.groupTimer g) s =
        .next (raise (352 + g.val) 0x01 (min r.count (2 ^ 32 - 1))
          { s with host := { s.host with grpRun := tblErase s.host.grpRun g.val } }))
  ∧ (∀ (s : State) (w : Fin 16) (v : W32), HostOn s → ∃ t, exec (.evtPend w v none) s = .next t
      ∧ t = { s with host := { s.host with pend := t.host.pend } }
      ∧ ∀ n, n < 512 → t.host.pend.getLsbD n =
        (s.host.pend.getLsbD n && !(decide (n / 32 = w.val) && v.getLsbD (n % 32))))
  ∧ (∀ (s : State) (n : Fin 262144) (r : Ring), Ready s → tblFind s.host.dqs n.val = some r → mayRequest s = true →
      s.chain.head = true → (r.uncovered ≠ 0 ∨ r.mirrorStale = true) → exec (.tailMirrorWrite (.defect n)) s =
        .next (grpAdd r.group r.uncovered { s with
          sent := .hostWrite r.mirror (leBytes 4 r.tail.toNat ++ leBytes 4 r.dropped) :: s.sent
          host := { s.host with dqs := tblSet s.host.dqs n.val { r with uncovered := 0, mirrorStale := false } } }))
  ∧ (∀ (s : State) (n : Fin 256) (r : Ring), Ready s → tblFind s.host.srs n.val = some r → mayRequest s = true →
      s.chain.head = true → (r.uncovered ≠ 0 ∨ r.mirrorStale = true) → exec (.tailMirrorWrite (.stream n)) s =
        .next (grpAdd r.group r.uncovered { s with
          sent := .hostWrite r.mirror (leBytes 4 r.tail.toNat ++ leBytes 4 r.dropped) :: s.sent
          host := { s.host with srs := tblSet s.host.srs n.val { r with uncovered := 0, mirrorStale := false } } }))

/-- R35: a 32-bit write to a half of a writable 64-bit register only sets WR_SPLIT; one 64-bit write takes effect. -/
def Obligations.SplitWriteIgnored : Prop :=
  ∀ (s : State) (off : BitVec 24) (v : W64), HostOn s → writable64.contains off.toNat = true →
    exec (.registerWrite .bar0 off 4 v) s = .next { s with host := { s.host with wrSplit := true } }
    ∧ exec (.registerWrite .bar0 (off + 4) 4 v) s = .next { s with host := { s.host with wrSplit := true } }
    ∧ exec (.registerWrite .bar0 off 8 v) s = .next (write64 off.toNat v.toNat s)

/-- R33: the two halves make one value within 1 µs; an unpaired high half is live and noted. -/
def Obligations.SplitReadIsOneValue : Prop :=
  ∀ (s : State) (off : BitVec 24) (v : Nat), HostOn s → s.host.bar2Out = [] → off.toNat < 0x100000 → off.toNat % 8 = 0 →
    regVal s off.toNat = some (64, v) → v < 2 ^ 64 →
    exec (.splitReadLow off) s = .next { s with
        sent := .readData 4 (v % 2 ^ 32) :: s.sent
        host := { s.host with shadows := tblSet s.host.shadows off.toNat ⟨v / 2 ^ 32, s.clk.ns⟩ } }
    ∧ (∀ (u : State) (w : Nat), HostOn u → u.host.bar2Out = [] → regVal u off.toNat = some (64, w) → is64 u (off.toNat + 4) = false →
        (tblFind u.host.shadows off.toNat = some ⟨v / 2 ^ 32, s.clk.ns⟩ → u.clk.ns ≤ s.clk.ns + 1000 →
          exec (.splitReadHigh (off + 4)) u = .next { u with
            sent := .readData 4 (v / 2 ^ 32) :: u.sent
            host := { u.host with shadows := tblErase u.host.shadows off.toNat } })
        ∧ (tblFind u.host.shadows off.toNat = none → exec (.splitReadHigh (off + 4)) u = .next { u with
            sent := .readData 4 (w / 2 ^ 32) :: u.sent
            host := { u.host with hiUnpaired := true } })
        ∧ (∀ x, tblFind u.host.shadows off.toNat = some x → x.at_ + 1000 < u.clk.ns →
          exec (.splitReadHigh (off + 4)) u = .next { u with
            sent := .readData 4 (w / 2 ^ 32) :: u.sent
            host := { u.host with hiUnpaired := true } }))

/-- R76: other sizes and alignments, reserved offsets, and what an 8-byte request acts on. -/
def Obligations.MisalignedAccessNotAnswered : Prop :=
  ∀ (s : State) (off : BitVec 24) (size : Nat) (v : W64), HostOn s → s.host.bar2Out = [] →
    (¬ (size = 4 ∧ off.toNat % 4 = 0 ∨ size = 8 ∧ off.toNat % 8 = 0) →
      exec (.registerReadClear .bar0 off size) s = .next { s with sent := .readData size (2 ^ (8 * size) - 1) :: s.sent }
      ∧ exec (.registerWrite .bar0 off size v) s = .next s)
    ∧ (off.toNat % 8 = 0 → off.toNat < 0x100000 →
      (∀ w, regVal s off.toNat = some (64, w) →
        exec (.registerReadClear .bar0 off 8) s = .next { s with sent := .readData 8 w :: s.sent }
        ∧ exec (.registerWrite .bar0 off 8 v) s =
            .next (if writable64.contains off.toNat then write64 off.toNat v.toNat s else s))
      ∧ (is64 s off.toNat = false → writable64.contains off.toNat = false →
        let lo := read32 off.toNat 1000 s
        let hi := read32 (off.toNat + 4) 1000 lo.2
        exec (.registerReadClear .bar0 off 8) s =
          .next { hi.2 with sent := .readData 8 (lo.1 + 2 ^ 32 * hi.1) :: hi.2.sent }
        ∧ exec (.registerReadClear .bar0 off 4) s = .next { lo.2 with sent := .readData 4 lo.1 :: lo.2.sent }
        ∧ exec (.registerReadClear .bar0 (off + 4) 4) s = .next { (read32 (off.toNat + 4) 1000 s).2 with
            sent := .readData 4 (read32 (off.toNat + 4) 1000 s).1 :: (read32 (off.toNat + 4) 1000 s).2.sent }
        ∧ exec (.registerWrite .bar0 off 8 v) s =
            .next (write32 (off.toNat + 4) (v.toNat / 2 ^ 32) (write32 off.toNat (v.toNat % 2 ^ 32) s))
        ∧ exec (.registerWrite .bar0 off 4 v) s = .next (write32 off.toNat (v.toNat % 2 ^ 32) s)
        ∧ exec (.registerWrite .bar0 (off + 4) 4 v) s = .next (write32 (off.toNat + 4) (v.toNat % 2 ^ 32) s)))
    ∧ (off.toNat % 8 = 0 → off.toNat < 0x100000 → regVal s off.toNat = none → regVal s (off.toNat + 4) = none →
      exec (.registerReadClear .bar0 off 8) s = .next { s with sent := .readData 8 0 :: s.sent }
      ∧ ((off.toNat / 0x10000 ≠ 1 ∨ (0x12500 ≤ off.toNat ∧ off.toNat ≠ 0x12800)) →
        exec (.registerWrite .bar0 off 8 v) s = .next s))
    ∧ (off.toNat % 4 = 0 → off.toNat < 0x100000 → regVal s off.toNat = none → is64 s (off.toNat - off.toNat % 8) = false →
      exec (.registerReadClear .bar0 off 4) s = .next { s with sent := .readData 4 0 :: s.sent }
      ∧ ((off.toNat / 0x10000 ≠ 1 ∨ (0x12500 ≤ off.toNat ∧ off.toNat ≠ 0x12800)) → exec (.registerWrite .bar0 off 4 v) s = .next s))
    ∧ (0x200000 ≤ off.toNat → (size = 4 ∧ off.toNat % 4 = 0 ∨ size = 8 ∧ off.toNat % 8 = 0) →
      exec (.registerReadClear .bar0 off size) s = .next { s with sent := .readData size 0 :: s.sent }
      ∧ ((off.toNat < 0x400000 ∨ 0x800000 ≤ off.toNat) → exec (.registerWrite .bar0 off size v) s = .next s))

/-- Table 0.4 (R4, R32): every RC register clears at its read, every other register is read without effect, a write to an RO
register or a reserved offset changes nothing; W1C and RW registers by example. FORWARDED_ACCESS (R100): it acts here, leaves as a
REG packet whose layout is the model's (log entry 26), or meets a device that cannot be reached; a read that comes while window
writes are on their way waits (R79). -/
def Obligations.RegisterAccessTypes : Prop :=
  (∀ s : State, HostOn s → s.host.bar2Out = [] →
    (∀ (off : BitVec 24) (v : Nat), off.toNat < 0x100000 → off.toNat % 4 = 0 → regVal s off.toNat = some (32, v) →
        (off.toNat % 8 = 4 → is64 s (off.toNat - 4) = false) →
        (rcAt off.toNat = true → ∃ t, exec (.registerReadClear .bar0 off 4) s = .next t ∧ t.sent = .readData 4 v :: s.sent
          ∧ regVal t off.toNat = some (32, 0) ∧ t.hbm = s.hbm ∧ t.cfg = s.cfg ∧ t.cmds = s.cmds ∧ t.clk = s.clk
          ∧ t.nvm.mem = s.nvm.mem ∧ t.host.pend = s.host.pend ∧ t.chain = s.chain)
        ∧ (rcAt off.toNat = false →
          exec (.registerReadClear .bar0 off 4) s = .next { s with sent := .readData 4 v :: s.sent }))
    ∧ (∀ (off : BitVec 24) (v : Nat), off.toNat < 0x100000 → off.toNat % 8 = 0 → regVal s off.toNat = some (64, v) →
        exec (.registerReadClear .bar0 off 8) s = .next { s with sent := .readData 8 v :: s.sent })
    ∧ (∀ (off : BitVec 24) (v : W64), off.toNat < 0x100000 →
        (off.toNat % 4 = 0 → writable32 off.toNat = false → writable64.contains (off.toNat - off.toNat % 8) = false →
          exec (.registerWrite .bar0 off 4 v) s = .next s)
        ∧ (off.toNat % 8 = 0 → is64 s off.toNat = true → writable64.contains off.toNat = false →
          exec (.registerWrite .bar0 off 8 v) s = .next s)
        ∧ (off.toNat % 8 = 0 → writable64.contains off.toNat = false → writable32 off.toNat = false →
          writable32 (off.toNat + 4) = false → exec (.registerWrite .bar0 off 8 v) s = .next s))
    ∧ (∀ v : W64, exec (.registerWrite .bar0 8 4 v) s = .next { s with host := { s.host with
        hiUnpaired := s.host.hiUnpaired && !v.getLsbD 8, wrSplit := s.host.wrSplit && !v.getLsbD 9 } })
    ∧ (∀ (n : Fin 512) (v : W64), exec (.registerWrite .bar0 (BitVec.ofNat 24 (0x20000 + 4 * n.val)) 4 v) s =
        .next { s with host := { s.host with route := tblSet s.host.route n.val (v.toNat % 2 ^ 17) } })
    ∧ (∀ v : W64, exec (.registerWrite .bar0 0x30 4 v) s =
        .next { s with host := { s.host with fwdSel := v.toNat % 64 } }))
  ∧ (∀ (s : State) (off : BitVec 20) (acc : RegAccess), HostOn s → ((∃ n, acc = .read n) → s.host.bar2Out = []) →
    (alignedAccess off.toNat acc = true →
      (s.host.fwdSel = s.chain.devId → exec (.forwardedAccess off acc) s = .next (regLocal off.toNat 1000 acc s))
      ∧ (s.host.fwdSel ≠ s.chain.devId → reachable s s.host.fwdSel = true → exec (.forwardedAccess off acc) s =
          .next (feltRoute ⟨s.host.fwdSel, s.chain.devId, 32, 0x17, regPayload off.toNat acc⟩ s))
      ∧ (s.host.fwdSel ≠ s.chain.devId → reachable s s.host.fwdSel = false →
          (∀ n, acc = .read n → exec (.forwardedAccess off acc) s =
            .next (raise 342 0x03 0 { s with sent := .readData n (2 ^ (8 * n) - 1) :: s.sent }))
          ∧ (∀ n v, acc = .write n v → exec (.forwardedAccess off acc) s = .next (raise 342 0x03 0 s))))
    ∧ (alignedAccess off.toNat acc = false →
      (∀ n, acc = .read n → exec (.forwardedAccess off acc) s = .next { s with sent := .readData n (2 ^ (8 * n) - 1) :: s.sent })
      ∧ (∀ n v, acc = .write n v → exec (.forwardedAccess off acc) s = .next s)))
  ∧ (∀ (s : State) (off : BitVec 20) (n : Nat), HostOn s → s.host.bar2Out ≠ [] → exec (.forwardedAccess off (.read n)) s =
      .next { s with host := { s.host with heldReads := s.host.heldReads ++ [(0x100000 + off.toNat, n, s.host.fwdSel)] } })

/-- CFG_STAGE, CFG_READ and the discarding CFG_COMMIT (R37 to R41, R46). Behind a CFG_STAGE that waited at the head for its data the
commands of its SQ for that device go on (R91). -/
def Obligations.StagingReadingDiscarding : Prop :=
  ∀ (s : State) (sq : Fin 1024) (tag : W32) (c : Cmd),
    (∀ bs : List Byte, Starts s sq tag 0x0010 c → (c.origin = .here → pairTarget s c.sq = s.chain.devId) →
        (if stageInline c.packet then bs = slice c.packet 0x20 (pkLen c.packet) else mayRequest s = true ∧ s.chain.head = true) →
        (stageRangesOk (addrBlk (pkTarget c.packet)) (addrInst (pkTarget c.packet)) (addrOff (pkTarget c.packet))
            (padTo (pkLen c.packet) bs) = false →
          exec (.cfgStage sq tag (.data bs)) s = .next (finish c stBadParam 0 0 0 s))
        ∧ (stageRangesOk (addrBlk (pkTarget c.packet)) (addrInst (pkTarget c.packet)) (addrOff (pkTarget c.packet))
            (padTo (pkLen c.packet) bs) = true →
          (stageBusy c s = true → exec (.cfgStage sq tag (.data bs)) s = .next (finish c stBusy 0 0 0 s))
          ∧ (stageBusy c s = false → stageBig c s = true →
            exec (.cfgStage sq tag (.data bs)) s = .next (finish c stBadParam 0 0 0 s))
          ∧ (stageBusy c s = false → stageBig c s = false →
            exec (.cfgStage sq tag (.data bs)) s = .next (finish c stOk 100 0 (pkLen c.packet) { s with cfg := { s.cfg with
              groups := tblSet s.cfg.groups (u8At c.packet 0x18)
                ((coveredFields (addrBlk (pkTarget c.packet)) (addrInst (pkTarget c.packet)) (addrOff (pkTarget c.packet))
                  (padTo (pkLen c.packet) bs)).foldl
                  (fun v x => tblSet v (cfgAddr (addrBlk (pkTarget c.packet)) (addrInst (pkTarget c.packet)) x.1.off) x.2)
                  ((openGroup s (u8At c.packet 0x18)).getD [])) } }))))
    ∧ (∀ bs : List Byte, Starts s sq tag 0x0010 c → c.origin = .here → pairTarget s c.sq ≠ s.chain.devId → mayRequest s = true →
        s.chain.head = true → (stageRangesOk (addrBlk (pkTarget c.packet)) (addrInst (pkTarget c.packet)) (addrOff (pkTarget c.packet))
            (padTo (pkLen c.packet) bs) = false → exec (.cfgStage sq tag (.data bs)) s =
              .next (awayPump c.sq s.cmds.flight.length (finish c stBadParam 0 0 0 s)))
        ∧ (stageRangesOk (addrBlk (pkTarget c.packet)) (addrInst (pkTarget c.packet)) (addrOff (pkTarget c.packet))
            (padTo (pkLen c.packet) bs) = true → exec (.cfgStage sq tag (.data bs)) s =
              .next (awayPump c.sq s.cmds.flight.length (forwardCmd (pairTarget s c.sq) c s))))
    ∧ (Starts s sq tag 0x0012 c → mayRequest s = true → pkOpt8 c.packet = false → exec (.cfgRead sq tag .ok) s =
        .next (finish c stOk 100 0 (pkLen c.packet)
          (hostWrite (pkAddr c.packet) (readConfig s [] (pkTarget c.packet) (pkLen c.packet)) s)))
    ∧ (∀ g, Starts s sq tag 0x0012 c → mayRequest s = true → pkOpt8 c.packet = true →
        validating s (u8At c.packet 0x18) = false → openGroup s (u8At c.packet 0x18) = some g →
        exec (.cfgRead sq tag .ok) s = .next (finish c stOk 100 0 (pkLen c.packet)
          (hostWrite (pkAddr c.packet) (readConfig s g (pkTarget c.packet) (pkLen c.packet)) s)))
    ∧ (∀ g, Starts s sq tag 0x0011 c → pkOpt8 c.packet = true → validating s (u8At c.packet 0x18) = false →
        openGroup s (u8At c.packet 0x18) = some g → exec (.cfgCommitDiscard sq tag) s = .next (finish c stOk 100 0 0
          { s with cfg := { s.cfg with groups := tblErase s.cfg.groups (u8At c.packet 0x18) } }))
    ∧ (Starts s sq tag 0x0011 c → pkOpt8 c.packet = true → validating s (u8At c.packet 0x18) = false →
        openGroup s (u8At c.packet 0x18) = none → exec (.cfgCommitDiscard sq tag) s = .next (finish c stBadParam 0 0 0 s))
    ∧ (Starts s sq tag 0x0011 c → pkOpt8 c.packet = true → validating s (u8At c.packet 0x18) = true →
        exec (.cfgCommitDiscard sq tag) s = .next (finish c stBusy 0 0 0 s))

/-- CFG_COMMIT (R41, R42, R108), in its two rows (log entry 7), and COMMIT_BOUNDARY (R43, R45): where each instance's
boundary lies is the model's deduction (log entries 14, 15). -/
def Obligations.CommitValidatesThenHandsOver : Prop :=
  (∀ (s : State) (sq : Fin 1024) (tag : W32) (c : Cmd), Starts s sq tag 0x0011 c → pkOpt8 c.packet = false →
    (validating s (u8At c.packet 0x18) = true → exec (.cfgCommit sq tag) s = .next (finish c stBusy 0 0 0 s))
    ∧ (validating s (u8At c.packet 0x18) = false → (openGroup s (u8At c.packet 0x18)).getD [] = [] →
      exec (.cfgCommit sq tag) s = .next (finish c stBadParam 0 0 0 s))
    ∧ (validating s (u8At c.packet 0x18) = false → (openGroup s (u8At c.packet 0x18)).getD [] ≠ [] →
      exec (.cfgCommit sq tag) s = .next (beginWork c 0 s).2))
  ∧ (∀ (s : State) (sq : Fin 1024) (tag : W32) (c : Cmd), CarriesOn s sq tag 0x0011 c →
    (∀ g, openGroup s (u8At c.packet 0x18) = some g → g ≠ [] → validate s g = none → exec (.cfgCommit sq tag) s =
      .next (finish c stOk 100 (s.cfg.seq + 1).toNat 0
        (handOver g { s with cfg := { s.cfg with groups := tblErase s.cfg.groups (u8At c.packet 0x18) } })))
    ∧ (∀ g f, openGroup s (u8At c.packet 0x18) = some g → g ≠ [] → validate s g = some f → exec (.cfgCommit sq tag) s =
      .next (finish c stInconsistent (percentOf c) (f.1 + f.2 * 2 ^ 32) c.position s)))
  ∧ (∀ s : State, Ready s →
    (∀ p : Fin 32, freshStripe (stoppedTake s) p (0x02, p.val) = true →
      exec (.commitBoundary 0x02 (BitVec.ofNat 8 p.val)) s = .next (portBoundary p.val (stoppedTake s)))
    ∧ exec (.commitBoundary 0x06 0) s =
        .next (couchTake (some (stoppedTake s).web.couch.minTb) (stoppedTake s))
    ∧ (∀ k : Fin 8, exec (.commitBoundary 0x07 (BitVec.ofNat 8 k.val)) s =
        .next (sliceTake k.val (some (stoppedTake s).web.knot.lastMin) (stoppedTake s)))
    ∧ exec (.commitBoundary 0x07 8) s =
        .next (mergerBoundary (some (stoppedTake s).web.knot.lastMin) (stoppedTake s))
    ∧ (∀ w : Fin 9, let s1 := plansTake (stoppedTake s)
        exec (.commitBoundary 0x03 (BitVec.ofNat 8 w.val)) s = .next (takeSel (tiedWire w) (0x03, w.val) (wireDue s1 w) s1))
    ∧ (∀ r : Fin 64, 1 ≤ rlSource (stoppedTake s) r → rlSource (stoppedTake s) r ≤ 3 →
      exec (.commitBoundary 0x08 (BitVec.ofNat 8 r.val)) s =
        .next (reelBoundary r.val (some (stoppedTake s).web.couch.minTb) (stoppedTake s)))
    ∧ (∀ (p : Fin 4) (f : DFrame), (dry (stoppedTake s) p.val).frame = some f → f.got = 0 → dryShut (stoppedTake s) p = false →
      allBefore (stoppedTake s) (0x05, p.val) f.syncTb = true → exec (.commitBoundary 0x05 (BitVec.ofNat 8 p.val)) s =
        .next (dryBoundary p.val (some f.number) (stoppedTake s))))

/-- An instance takes its waiting parts in sequence order (R42, R43). -/
def Obligations.CommittedValuesInSequence : Prop :=
  ∀ (s : State) (blk inst a : Nat), (∀ g ∈ s.cfg.accepted, (g.vals.map Prod.fst).Nodup) →
    (ofInst blk inst a = true → cfAt (takePart blk inst s) a =
      (s.cfg.accepted.filter fun g => g.parts.contains (blk, inst)).foldl (fun v g => (tblFind g.vals a).getD v) (cfAt s a))
    ∧ (ofInst blk inst a = false → cfAt (takePart blk inst s) a = cfAt s a)
    ∧ partWaits (takePart blk inst s) blk inst = false
    ∧ (∀ b i, (b, i) ≠ (blk, inst) → partWaits (takePart blk inst s) b i = partWaits s b i)
    ∧ (takePart blk inst s).cfg.seq = s.cfg.seq

/-- TABLE_LOAD (R109, R192, R194) and RULES_LOAD (R260): the item is LOADING from acceptance, takes its words, and with the
last byte is VALID or INVALID; POSITION counts the bytes (R104). -/
def Obligations.TableLoads : Prop :=
  ∀ (s : State) (sq : Fin 1024) (tag : W32) (c : Cmd), mayRequest s = true →
    let k := loadItem c
    (∀ d : HostRead, bankInUse s k = true →
      (Starts s sq tag 0x0040 c → exec (.tableLoad sq tag d) s = .next (finish c stBusy 0 0 0 s))
      ∧ (Starts s sq tag 0x0060 c → exec (.rulesLoad sq tag d) s = .next (finish c stBusy 0 0 0 s)))
    ∧ (∀ d : HostRead, bankInUse s k = false → itemState s k ≠ 1 → itemWords s k ≤ storeFree s →
        pkLen c.packet = itemLength s k (u16At c.packet 0x1A) → regionOk s k = true →
        let t := loadRead d (beginWork c (pkLen c.packet) s).1 (setItem k 1 [] (beginWork c (pkLen c.packet) s).2)
        (Starts s sq tag 0x0040 c → exec (.tableLoad sq tag d) s = .next t)
        ∧ (Starts s sq tag 0x0060 c → exec (.rulesLoad sq tag d) s = .next t))
    ∧ (∀ bs : List Byte, s.chain.head = true → c.buf.length + bs.length < pkLen c.packet →
        let t := (progressTo { c with buf := c.buf ++ bs } (c.buf.length + bs.length) (putLoaded k c.buf.length bs s)).2
        (CarriesOn s sq tag 0x0040 c → exec (.tableLoad sq tag (.data bs)) s = .next t)
        ∧ (CarriesOn s sq tag 0x0060 c → exec (.rulesLoad sq tag (.data bs)) s = .next t))
    ∧ (∀ bs : List Byte, s.chain.head = true → c.buf.length + bs.length = pkLen c.packet →
        let im := c.buf ++ bs
        let r := progressTo { c with buf := im } (pkLen c.packet) (putLoaded k c.buf.length bs s)
        itemState r.2 k = 1 →
        let t := if crc32 im = u32At c.packet 0x1C ∧ pkLen c.packet = itemLength r.2 k (u16At c.packet 0x1A) ∧ contentOk r.2 k im = true
          then finish r.1 stOk 100 (crc32 im) (pkLen c.packet) (itemValid k im r.2)
          else finish r.1 stBadParam (percentOf r.1) (crc32 im) (pkLen c.packet) (setItem k 3 [] r.2)
        (CarriesOn s sq tag 0x0040 c → exec (.tableLoad sq tag (.data bs)) s = .next t)
        ∧ (CarriesOn s sq tag 0x0060 c → exec (.rulesLoad sq tag (.data bs)) s = .next t))
    ∧ (s.chain.head = true → itemState s k = 1 →
        let t := finishHostFail c c.position (setItem k 3 [] s)
        (CarriesOn s sq tag 0x0040 c → exec (.tableLoad sq tag .fail) s = .next t)
        ∧ (CarriesOn s sq tag 0x0060 c → exec (.rulesLoad sq tag .fail) s = .next t))

/-- The bring-up of a lane, state by state (Table 6.5): each tap steps at most once a microsecond and stays within its limit
(R126), and what arrives in state 5 tells the polarity, on a 64b/66b lane with its lane ID (R129), and locks the lane: state 6. The
lock is stated for every link but a headbox link that is down with a line in progress, which no run reaches (it would drop it). -/
def Obligations.LaneBringUp : Prop :=
  ∀ (s : State) (n : Fin 80), Ready s →
    (lnOn s n = true → (lane s n).st = 1 → laneWaits (lane s n) = false → ∃ l, exec (.laneSignalDetect n) s = .next (setLane n l s)
      ∧ l = { lane s n with st := 2, signal := true, left1Ns := l.left1Ns })
    ∧ (lnOn s n = true → (lane s n).st ≠ 1 →
        exec (.laneSignalDetect n) s = .next (setLane n { lane s n with signal := true } s))
    ∧ ((lane s n).st = 2 → exec (.laneCdrLock n) s = .next (setLane n { lane s n with st := 3, cdr := true } s))
    ∧ ((lane s n).st = 7 → exec (.laneCdrLock n) s = .next (setLane n { lane s n with cdr := true } s))
    ∧ (∀ ctle : Fin 16, (lane s n).st = 3 → exec (.laneEqDone n ctle) s = .next (setLane n { lane s n with
        st := 4, ctle := if (lane s n).fromSeeds then max (lane s n).ctleMin (min (lane s n).ctleMax ctle) else (lane s n).ctle } s))
    ∧ ((lane s n).st = 4 → exec (.laneAligned n) s = .next (setLane n { lane s n with
        st := 5, aligned := true, winBad := if ln66 s n then [] else (lane s n).winBad } s))
    ∧ (∀ up down : BitVec 5, 3 ≤ (lane s n).st → (lane s n).st ≤ 6 → ∃ t, exec (.dfeAdaptStep n up down) s = .next t
        ∧ (lane t n).taps = (List.range 5).map fun k =>
            let v := (lane s n).taps.getD k 0 + (if !tapMay (lane s n) k s.clk.ns then 0
              else if up.getLsbD k && !down.getLsbD k then 1 else if down.getLsbD k && !up.getLsbD k then -1 else 0)
            max (-((lane s n).limits.getD k 0 : Int)) (min ((lane s n).limits.getD k 0 : Int) v))
    ∧ (∀ (rx : LaneWord) (inv : Bool) (id : Nat), (lane s n).st = 5 → identify (ln66 s n) rx = some (inv, id) →
        exec (.laneRelock n rx) s = .next (laneLocks n inv id s)
        ∧ ((∀ r, laneRef s n = some r → r < 32 → (link s r).st = 0 → (port s r).part = none) → ∃ t, exec (.laneRelock n rx) s = .next t
          ∧ (lane t n).st = 6 ∧ (lane t n).polInv = inv ∧ (lane t n).firstLock = false ∧ (lane t n).unlocks = (lane s n).unlocks))

/-- The timers of R132 (LOCK_FAIL is raised once) and R134 and the unlock of R131: amplitude, phase lock, or 16 invalid headers (8 invalid code groups)
among 64 consecutive ones, whichever commands tell of them (that a command tells of a stretch of blocks is the model's, log entry
63). -/
def Obligations.LaneTimers : Prop :=
  ∀ (s : State) (n : Fin 80), Ready s →
    (∀ t0, (lane s n).unlockNs = some t0 → 1 ≤ (lane s n).st → (lane s n).st ≤ 5 → laneWaits (lane s n) = false →
        lnAuto s n = true → (lane s n).seeded5 = false → t0 + 5000000 ≤ s.clk.ns →
        exec (.laneRetrainTimeout n) s = .next (bringUpSeeds n (setLane n { lane s n with seeded5 := true } s)))
    ∧ (∀ t0, failFrom (lane s n) = some t0 → 1 ≤ (lane s n).st → (lane s n).st ≤ 5 → laneWaits (lane s n) = false →
        t0 + 100000000 ≤ s.clk.ns →
        let s1 := if (lane s n).failNoted then s
          else raise n 0x04 (if (lane s n).unlockNs.isSome then (lane s n).reason else 0) s
        let l := { lane s n with failNoted := true, failNs := some s.clk.ns }
        (lnAuto s n = true → exec (.lockFail n) s = .next (bringUpSeeds n (setLane n l s1)))
        ∧ (lnAuto s n = false → exec (.lockFail n) s = .next (setLane n { restartLane s1 n false l with parked := true } s1)))
    ∧ (∀ (reason : Fin 4) (bad : List Bool), ((lane s n).st ≠ 6 ∨ unlockReason s n reason bad = 0) →
        ∃ at_, exec (.laneUnlock n reason bad) s = .next (setLane n { lane s n with
          codeErr := min ((lane s n).codeErr + bad.countP id) (2 ^ 32 - 1), winAt := at_
          winBad := (windowNow s n bad).filter fun x => decide (at_ < x + 64) } s))
    ∧ (∀ (reason : Fin 4) (bad : List Bool), (lane s n).st = 6 → unlockReason s n reason bad ≠ 0 →
        ∃ t, exec (.laneUnlock n reason bad) s = .next t ∧ (lane t n).st = 1 ∧ (lane t n).unlockNs = some s.clk.ns
          ∧ (lane t n).unlocks = min ((lane s n).unlocks + 1) (2 ^ 32 - 1))
    ∧ (∀ (pre mid post : List Bool), mid.length ≤ 64 → (if ln66 s n then 16 else 8) ≤ mid.countP id →
        unlockReason s n 3 (pre ++ mid ++ post) = 3)
    ∧ (∀ (bad kept new : List Nat), windowNow s n [] = bad ++ kept → (∀ x ∈ kept ++ new, ∀ y ∈ kept ++ new, x < y + 64) →
        (kept ++ new).Pairwise (· < ·) → (if ln66 s n then 16 else 8) ≤ (kept ++ new).length → new ≠ [] →
        ∀ l : List Bool, windowNow s n l = bad ++ kept ++ new → unlockReason s n 3 l = 3)
    ∧ exec (.laneTrainTimeout n) s = .next (((trainsOf s n).filter fun c => decide (c.startNs + 100000000 ≤ s.clk.ns)).foldl
        (fun s c => finish c stOk 100 (trainResult s n) 0 s) s)

/-- LANE_TRAIN (R134), LANE_TEST (R136, R137) and the PRBS checker (R138). The register that a generator starts with is a free
value (log entry 64). That pattern 0 on a lane out of test completes (log entry 63), that a CoaXPress lane asked for its generator
alone goes into test, and what a felt port in service is (log entry 86), are the model's choices. -/
def Obligations.LaneTestAndTrain : Prop :=
  (∀ (s : State) (sq : Fin 1024) (tag : W32) (c : Cmd), Starts s sq tag 0x0020 c →
    let n := pkInst c.packet
    let s1 := (beginWork c 0 s).2
    let free (u : State) : State := setLane n { lane u n with hold := false, parked := false } u
    ((2 ≤ (lane s n).st ∧ (lane s n).st ≤ 5 ∨ (lane s n).st = 7) → exec (.laneTrain sq tag) s = .next (finish c stBusy 0 0 0 s))
    ∧ (((lane s n).st ≤ 1 ∨ (lane s n).st = 6) → lnOn s n = false →
        exec (.laneTrain sq tag) s = .next (finish c stBadParam 0 0 0 s))
    ∧ (((lane s n).st ≤ 1 ∨ (lane s n).st = 6) → lnOn s n = true → u8At c.packet 0x18 = 0 →
        exec (.laneTrain sq tag) s = .next (bringUpSeeds n (free (freshTimers n (leaveLocked n 4 s1)))))
    ∧ ((lane s n).st ≤ 1 → lnOn s n = true → u8At c.packet 0x18 ≠ 0 →
        exec (.laneTrain sq tag) s = .next (bringUpResume n (free (freshTimers n s1))))
    ∧ ((lane s n).st = 6 → lnOn s n = true → u8At c.packet 0x18 ≠ 0 →
        exec (.laneTrain sq tag) s = .next (trainDone n (free s1))))
  ∧ (∀ (s : State) (sq : Fin 1024) (tag : W32) (c : Cmd), Starts s sq tag 0x0021 c →
    let n := pkInst c.packet
    (lnOn s n = false → exec (.laneTest sq tag) s = .next (finish c stBadParam 0 0 0 s))
    ∧ (∀ c1, lnOn s n = true → (lane s n).st ≠ 7 → u8At c.packet 0x18 = 0 →
        u8At c.packet 0x1A = 0 → (beginWork c 0 s).2.cmds.flight.find? (sameCmd c) = some c1 →
        exec (.laneTest sq tag) s = .next (finish c1 stOk 100 0 0 (beginWork c 0 s).2))
    ∧ (lnOn s n = true → ln66 s n = true → laneInService s n = false → u8At c.packet 0x18 ≠ 0 → (lane s n).genOn = false →
        bitOf (u8At c.packet 0x19) 0 = true → u8At c.packet 0x1A = 0 → ∃ t reg, exec (.laneTest sq tag) s = .next t
        ∧ (lane t n).st = 7 ∧ (lane t n).pattern = u8At c.packet 0x18 ∧ (lane t n).genOn = true
        ∧ .lane n 1 [u8At c.packet 0x18, reg] ∈ t.sent ∧ 0 < reg ∧ reg < 2 ^ (prbsTaps (u8At c.packet 0x18)).1)
    ∧ (lnOn s n = true → ln66 s n = false → laneInService s n = false → u8At c.packet 0x18 ≠ 0 →
        (bitOf (u8At c.packet 0x19) 0 = true ∨ bitOf (u8At c.packet 0x19) 1 = true) → u8At c.packet 0x1A = 0 →
        ∃ t, exec (.laneTest sq tag) s = .next t ∧ (lane t n).st = 7 ∧ (lane t n).pattern = u8At c.packet 0x18
        ∧ (lane t n).genOn = false ∧ (lane t n).chkOn = bitOf (u8At c.packet 0x19) 1))
  ∧ (∀ (s : State) (n : Fin 80) (rx : List Bool), Ready s → (lane s n).st = 7 → (lane s n).chkOn = true →
    ((lane s n).prbsSync = false →
      (∀ inv reg, prbsMatches (lane s n).pattern rx = some (inv, reg) → exec (.prbsSync n rx) s = .next (setLane n { lane s n with
        prbsSync := true, prbsInv := inv, prbsSyncNs := s.clk.ns, chkReg := reg, chkPos := 0, chkDiffs := [] } s))
      ∧ (prbsMatches (lane s n).pattern rx = none → exec (.prbsSync n rx) s = .next s))
    ∧ ((lane s n).prbsSync = true → ∀ r e lost,
      prbsCompare (lane s n).pattern (lane s n).prbsInv rx (prbsRunNow s n rx.length) = (r, e, lost) →
      let l := { lane s n with prbsErr := min ((lane s n).prbsErr + e) (2 ^ 32 - 1), chkReg := r.reg, chkPos := r.pos, chkDiffs := r.diffs }
      (lost = false → exec (.prbsSyncLoss n rx) s = .next (setLane n l s))
      ∧ (lost = true → exec (.prbsSyncLoss n rx) s = .next (raise n 0x07 0 (setLane n
          { l with prbsSync := false, prbsBits := ((lane s n).prbsBits + r.pos) % 2 ^ 64 } s)))))

/-- The link state machine of Table 7.6 by its events (R150, R151), and the scrambler of R147: what the receiver descrambles
is what was sent. -/
def Obligations.LinkComesUp : Prop :=
  (∀ (s : State) (r : LinkRef), Ready s →
    (∀ bs : List (List Byte), (link s (refNum r)).st = 1 → trainSet (link s (refNum r)) bs = true →
        groupLocked s (refNum r) (link s (refNum r)).laneOff (link s (refNum r)).widthNow = true →
        exec (.train r bs) s = .next (linkTo (refNum r) 2 s))
    ∧ (∀ (bs : List (List Byte)) (n skew : Nat), (link s (refNum r)).st = 2 → skew ≤ 32 →
        amSet (link s (refNum r)) bs = some n →
        ((link s (refNum r)).amCount = none →
          exec (.am r bs skew) s = .next (setLink (refNum r) { link s (refNum r) with amCount := some n } s))
        ∧ (∀ k, (link s (refNum r)).amCount = some k → n = (k + 1) % 2 ^ 32 →
          exec (.am r bs skew) s = .next (linkActive (refNum r) s)))
    ∧ (∀ (bs : List (List Byte)) (n skew : Nat), (link s (refNum r)).st = 3 → skew ≤ 32 →
        amSet (link s (refNum r)) bs = some n →
        exec (.am r bs skew) s = .next (setLink (refNum r) { link s (refNum r) with amCount := some n } s))
    ∧ (∀ (bs : List (List Byte)) (skew : Nat), (link s (refNum r)).st = 3 →
        (amSet (link s (refNum r)) bs = none ∨ 32 < skew) → exec (.am r bs skew) s = .next (linkTo (refNum r) 5 s))
    ∧ ((link s (refNum r)).st ≠ 0 → (link s (refNum r)).amNext ≤ 100 * s.clk.ns → ∃ j follow, exec (.amSend r) s =
        .next (sendBlocks (refNum r) (link s (refNum r)).laneOff follow ((List.range (link s (refNum r)).widthNow).map fun i =>
            [amBlock ((link s (refNum r)).laneOff + i) (link s (refNum r)).amSent])
          (setLink (refNum r) { link s (refNum r) with
            amSent := ((link s (refNum r)).amSent + 1) % 2 ^ 32, amNext := (link s (refNum r)).amNext + 4194304, txAt := j } s)))
    ∧ ((link s (refNum r)).st = 3 → exec (.linkFault r false) s = .next (linkTo (refNum r) 5 s))
    ∧ (((link s (refNum r)).st = 1 ∨ (link s (refNum r)).st = 2) → (link s (refNum r)).ns + 100000 ≤ s.clk.ns →
        ((link s (refNum r)).prev = none → exec (.linkStateTimeout r) s =
          .next (linkTo (refNum r) 5 (setLink (refNum r) { link s (refNum r) with reqWidth := none } s)))
        ∧ (∀ w o, (link s (refNum r)).prev = some (w, o) → exec (.linkStateTimeout r) s =
          .next (linkTo (refNum r) 5 (setLink (refNum r) { link s (refNum r) with
            widthNow := w, laneOff := o, prev := none, fullFailNs := some s.clk.ns, reqWidth := none } s))))
    ∧ (∀ w, (link s (refNum r)).st = 4 → (link s (refNum r)).ns + 100000 ≤ s.clk.ns → (link s (refNum r)).prev = none →
        (link s (refNum r)).reqWidth = some w → exec (.linkStateTimeout r) s =
          .next (linkTo (refNum r) 5 (setLink (refNum r) { link s (refNum r) with reqWidth := none
                                                                                  fullFailNs := if (link s (refNum r)).widthNow < w
                                                                                    then some s.clk.ns else (link s (refNum r)).fullFailNs } s)))
    ∧ ((link s (refNum r)).st = 5 → (link s (refNum r)).ns + 10000 ≤ s.clk.ns →
        exec (.recoveryEnd r) s = .next (linkPoll (refNum r) (linkTo (refNum r) 0 s))))
  ∧ (∀ before word : Nat, before < 2 ^ 58 → word < 2 ^ 64 → descramble before (scramble 64 before word) = word)

/-- Width changes (R152, R406) and credits (R149, R412). -/
def Obligations.LinkWidthAndCredit : Prop :=
  (∀ (s : State) (r : LinkRef), Ready s →
    (∀ (pkt : BrynPacket) (payload : List Byte) (w : Nat), (link s (refNum r)).st = 4 → (link s (refNum r)).reqWidth = some w →
        w = u8At payload 0 → u8At payload 1 = laneMask w (link s (refNum r)).reqOff → packetSound pkt payload = true →
        pkt.ptype = 0x07 → 32 ≤ refNum r → exec (.widthAck r pkt payload) s =
          .next (linkTo (refNum r) 1 (setLink (refNum r) { link s (refNum r) with
            prev := if (link s (refNum r)).widthNow < w then some ((link s (refNum r)).widthNow, (link s (refNum r)).laneOff) else none
            widthNow := w, laneOff := (link s (refNum r)).reqOff, reqWidth := none } s)))
    ∧ (∀ (pkt : BrynPacket) (payload : List Byte) (s1 : State), (link s (refNum r)).st = 4 → refNum r < 32 →
        packetIn (refNum r) pkt 0x07 payload s = (.taken, s1) → exec (.widthAck r pkt payload) s =
          .next (linkWidthAck (refNum r) (u8At payload 0) (u8At payload 1) s1))
    ∧ (∀ t0, (link s (refNum r)).st = 3 → (link s (refNum r)).widthNow < linkFull s (refNum r) →
        (link s (refNum r)).fullSince = some t0 → t0 + 1000000000 ≤ s.clk.ns →
        (∀ f, (link s (refNum r)).fullFailNs = some f → f + 10000000000 ≤ s.clk.ns) →
        exec (.fullWidthRequest r) s = .next (linkRequest (refNum r) (linkFull s (refNum r)) 0 s))
    ∧ ((link s (refNum r)).st = 3 → (link s (refNum r)).freed ≠ 0 →
        (16 ≤ (link s (refNum r)).freed ∨ (link s (refNum r)).freedNs + 1000 ≤ s.clk.ns) → exec (.credit r) s =
          .next (linkPacket (refNum r) pkCredit (leBytes 4 (((link s (refNum r)).granted + (link s (refNum r)).freed) % 2 ^ 32))
            (setLink (refNum r) { link s (refNum r) with
              granted := ((link s (refNum r)).granted + (link s (refNum r)).freed) % 2 ^ 32, freed := 0 } s))))
  ∧ (∀ (s : State) (k : Fin 4) (pkt : BrynPacket) (payload : List Byte), Ready s → (feltPort s k).link.st = 3 →
    packetSound pkt payload = true →
    (∀ o w : Nat, pkt.ptype = 0x06 → (o, w) ∈ [(0, 1), (1, 1), (2, 1), (3, 1), (0, 2), (2, 2), (0, 4)] → linkMin s (64 + k) ≤ w →
        u8At payload 0 = w → u8At payload 1 = laneMask w o →
        let s1 := linkPacketOn (64 + k) o w pkWidthAck (widthPayload w (laneMask w o)) s
        exec (.widthReq k pkt payload) s =
          .next (linkTo (64 + k) 1 (setLink (64 + k) { link s1 (64 + k) with widthNow := w, laneOff := o } s1)))
    ∧ (pkt.ptype = 0x02 → exec (.creditGrantReceived k pkt payload) s = .next (holdFlush (feltPump k ((feltPort s k).queue.length + 1)
        (setFeltPort k { feltPort s k with link := { (feltPort s k).link with
          credit := (feltPort s k).link.credit + (u32At payload 0 + 2 ^ 32 - (feltPort s k).link.grantIn) % 2 ^ 32
          grantIn := u32At payload 0 } } s)))))

/-- Lines and acknowledgements at a headbox (R144, R145, R148, R154, R156, R160). That a line whose packet lost its data is
known by that packet's header is the model's (log entry 65), as are what a discarded packet frees (R149, log entry 34) and the set-up
message after discovery (log entries 39, 68). -/
def Obligations.LinesArrive : Prop :=
  ∀ (s : State) (p : Fin 32), Live s →
    (∀ (k : BrynPacket) (payload : List Byte), hbProto s p = 2 → (link s p).st = 3 → k.seq.toNat = (port s p).rxSeq →
        linkOver s p k.len.toNat = false →
        (k.ptype ≠ 1 ∨ k.stream.toNat ≠ cf s 0x02 p 0x37 ∨ 16384 < k.len.toNat) → exec (.lineData p k payload) s =
          .next (updPort p (fun x => { x with discard := min (x.discard + 1) (2 ^ 32 - 1) }) (linkFree p k.len.toNat
            (updPort p (fun x => { x with rxSeq := (k.seq.toNat + 1) % 65536 }) s))))
    ∧ (∀ (k : BrynPacket) (payload : List Byte) (s1 : State) (a : Arrival), hbProto s p = 2 → (link s p).st = 3 →
        packetIn p k 0x01 payload s = (a, s1) → (port s1 p).running = true → (port s1 p).cur ≠ none → portOut s1 p = false →
        (port s1 p).part = none → (lineHeader payload).first = true → (lineHeader payload).last = true →
        let s2 := openLine p (some (lineHeader payload).trigSeq) s1
        (a = .taken → exec (.lineData p k payload) s = .next (endLine p (addFragment p (payload.drop 16) (lineHeader payload).offset s2)))
        ∧ (a = .lost → exec (.lineData p k payload) s = .next (endLine p (spoilLine p s2))))
    ∧ (∀ (k : BrynPacket) (payload : List Byte) (s1 : State), hbProto s p = 2 → (link s p).st = 3 →
        packetIn p k 0x05 payload s = (.taken, s1) → exec (.regAck p k payload) s =
          .next (settingAck p (u16At payload 0) (u16At payload 2) s1))
    ∧ (∀ (conn : Fin 4) (k : CxpPacket), hbProto s p = 1 → (port s p).running = true → conn.val < hbWidth s p →
        (k.supported = false ∨ k.stream.toNat ≠ cf s 0x02 p 0x36) → exec (.cxpStreamPacket p conn k) s =
          .next (updPort p (fun x => { x with discard := min (x.discard + 1) (2 ^ 32 - 1) }) s))
    ∧ (∀ (conn : Fin 4) (k : CxpPacket) (s1 : State), hbProto s p = 1 → (port s p).running = true → conn.val < hbWidth s p →
        k.supported = true → k.stream.toNat = cf s 0x02 p 0x36 → laneLocked s (hbBase s p + conn.val) = true →
        s1 = updPort p (fun x => { x with quiet := x.quiet.filter fun m => m ≠ hbBase s p + conn.val }) s →
        (port s1 p).cur ≠ none → portOut s1 p = false → (port s1 p).part = none → k.first = true → k.last = true →
        k.good = true → k.format.toNat = hbFormat s p → exec (.cxpStreamPacket p conn k) s =
          .next (endLine p (updPort p (fun x => { x with part := x.part.map fun l => { l with samples := l.samples ++ k.samples } })
            (openLine p none s1))))
    ∧ (hbProto s p = 1 →
        (∀ tag st : BitVec 16, exec (.cxpControlAck p (.write tag st)) s = .next (settingAck p tag.toNat st.toNat s))
        ∧ exec (.cxpControlAck p .io) s = .next (updPort p (fun x => { x with trigOut := x.trigOut - 1 }) s)
        ∧ ((port s p).running = true → (port s p).discovered = false → (port s p).discRetry = false → (port s p).setup = true →
          exec (.cxpControlAck p (.setup true)) s = .next (portTryStart p (raise (80 + p) 0x03 (3 + 16 * hbWidth s p)
              (updPort p (fun x => { x with discovered := true, link := { x.link with widthNow := hbWidth s p }, hbNs := s.clk.ns }) s)))
          ∧ exec (.cxpControlAck p (.setup false)) s =
              .next (raise (80 + p) 0x09 3 (updPort p (fun x => { x with discRetry := true }) s)))
        ∧ (∀ (ids : List Nat) (offered : Nat), (port s p).running = true → (port s p).discovered = false →
          (port s p).discRetry = false → (port s p).setup = false → (∀ i, i < hbWidth s p → laneLocked s (hbBase s p + i) = true) →
          (offered < hbWidth s p → exec (.cxpControlAck p (.discovery ids offered)) s =
              .next (raise (80 + p) 0x09 1 (updPort p (fun x => { x with discRetry := true }) s)))
          ∧ (hbWidth s p ≤ offered → hbWidth s p ≤ ids.length → (∀ i ∈ ids.take (hbWidth s p), i < hbWidth s p) → ids.Nodup → ∃ t,
              exec (.cxpControlAck p (.discovery ids offered)) s = .next t ∧ (port t p).setup = true
              ∧ t.sent = .camera p camSetup (hbWidth s p :: (List.range (hbWidth s p)).map fun i => lnRate s (hbBase s p + i)) :: s.sent)))
    ∧ (∀ l, (port s p).part = some l → l.firstNs + 1000 * cf s 0x02 p 0x3A ≤ s.clk.ns →
        exec (.lineTimeout p) s = .next (endLine p s))

/-- Triggers (R153, R154) and the watches of a headbox (R145, R146, R158, R160). -/
def Obligations.TriggersAndWatches : Prop :=
  ∀ (s : State) (p : Fin 32), Live s →
    (∀ e : Int, (port s p).trigNext = some e → hbMode s p = 1 → (port s p).running = true → e ≤ encE s (hbEnc s p) →
        encBackward s (hbEnc s p) = false → exec (.triggerEncoder p) s = .next (issueTrigger p
          (updPort p (fun x => { x with trigNext := some (e + (max 1 (hbPitch s p) : Int)) }) s)))
    ∧ (hbMode s p = 3 → (port s p).running = true → (port s p).cur ≠ none → (port s p).trigTimerNs + hbPitch s p ≤ s.clk.ns →
        exec (.triggerTimer p) s = .next (issueTrigger p
          (setPort p { port s p with trigTimerNs := (port s p).trigTimerNs + hbPitch s p } s)))
    ∧ (∀ (u : Trig) (us_ : List Trig) (t0 : Stripe), (port s p).trigs = u :: us_ → u.ns + 1000 * cf s 0x02 p 0x3C ≤ s.clk.ns →
        (port s p).cur = some t0 →
        let s1 := setPort p { port s p with trigs := us_, trigLost := min ((port s p).trigLost + 1) (2 ^ 32 - 1)
                                            cur := some { t0 with trigLostNoted := true } } s
        exec (.trigLost p) s = .next (if t0.trigLostNoted then s1 else raise (80 + p) 0x06 u.seq s1))
    ∧ (hbProto s p = 1 → exec (.cxpHeartbeat p) s =
        .next (updPort p (fun x => { x with hbNs := s.clk.ns, hbLost := false }) s))
    ∧ (hbProto s p = 1 → (port s p).running = true → (port s p).discovered = true → (port s p).hbLost = false →
        (port s p).hbNs + 100000000 ≤ s.clk.ns →
        exec (.heartbeatLost p) s = .next (raise (80 + p) 0x08 0 (setPort p { port s p with hbLost := true } s)))
    ∧ (hbProto s p = 1 → (port s p).running = true → (port s p).discovered = false → (port s p).discNs + 1000000000 ≤ s.clk.ns →
        let s1 := emit (.camera p camDiscover [hbWidth s p]) (updPort p (fun x => { x with
          discNs := s.clk.ns, discRetry := false, setup := false }) s)
        exec (.discoveryFail p) s = .next (if (port s p).discRetry then s1 else raise (80 + p) 0x09 2 s1))
    ∧ (∀ (k : Fin 36) (w : SetWrite), k.val = p.val → (port s p).writes.find? (fun w =>
          !w.acked && !w.failed && decide (w.sentNs + 1000 * cf s 0x02 p 0x32 ≤ s.clk.ns)) = some w →
        exec (.setAckTimeout k) s = .next (settingFails p w 2 s))
    ∧ (∀ (c d : Int) (cs : List Int), (port s p).captures = c :: cs → cs.getLast? = some d → hbMode s p = 0 →
        portOut s p = true →
        let m : Int := (port s p).capLast + (2 * ((port s p).dropK + 1) * (c - d) + cs.length) / (2 * cs.length)
        m ≤ s.clk.tb → exec (.droppedLinePeriod p) s = .next (lineCount p
          { tb := m.toNat, start := .expected } s))

/-- Service, exit, deadline and swap of a wire (R171 to R177). The model's choices: a drain leaves STATE 3 standing (log entry 98),
does not wait for a running REPROCESS (log entry 97), and empties the further context slot (log entry 110). -/
def Obligations.WiresServe : Prop :=
  ∀ s : State, Live s →
    (∀ (w : Fin 9) (p : Nat) (it : Item), wireHeld s w = false →
        let s1 := (List.range 32).foldl (fun s p => flushWait w p (enforceDeadline w p s)) s
        nextInline s1 w = some (p, it) → exec (.wireServe w) s = .next (rawStops p (takeItem w p it s1)))
    ∧ (∀ (w : Fin 9) (p : Nat) (it : Item), wireHeld s w = false →
        let s1 := (List.range 32).foldl (fun s p => flushWait w p (enforceDeadline w p s)) s
        nextInline s1 w = none → nextServing s1 w = some (p, it) →
        exec (.wireServe w) s = .next (rawStops p (takeItem w p it s1)))
    ∧ (∀ (w : Fin 9) (p : Nat) (it : Item),
        let s0 := (List.range 32).foldl (fun s p => flushWait w p s) s
        ((List.range 32).findSome? fun p =>
          (firstLive (port s0 p)).bind fun i => if i.st = .done ∧ i.wire = some w.val then some (p, i) else none) = some (p, it) →
        let s1 := stripeSweep p (putItem p { it with st := .out } s0)
        exec (.wireLineExit w) s = .next (pipePump p (port s1 p).pipe.length s1))
    ∧ (∀ (w : Fin 9) (p : Fin 32) (u : Stripe), closedWaiting s w p = some u → inService s w p u = true →
        u.closeNs + 1000 * u.deadline ≤ s.clk.ns →
        let s1 := passDeadline w p u s
        exec (.deadline w p) s = .next (pipePump p (port s1 p).pipe.length s1))
    ∧ (∀ x, s.ing.swap = some x → handoverDue s x = true → exec .swapHandover s = .next (swapHandover x s))
    ∧ (∀ (x : Swap) (c : Cmd), s.ing.swap = some x → x.handed = true → wireBusy s x.out = false →
        let s1 := raise (112 + x.out) 0x04 (swapDetail x) (updWire x.out
          (fun y => { y with draining := false, serving := none, ctxPort := none, ctx := [] }) { s with ing := { s.ing with swap := none } })
        s1.cmds.flight.find? (fun c => decide (c.cid = x.cid)) = some c →
        exec .swapDone s = .next (finish c stOk 100 x.tb 0 s1))

/-- WIRE_SWAP (R176) and REPROCESS (R179). -/
def Obligations.SwapAndReprocessStart : Prop :=
  ∀ (s : State) (sq : Fin 1024) (tag : W32) (c : Cmd),
    (Starts s sq tag 0x00E0 c →
      (s.ing.swap ≠ none → exec (.wireSwap sq tag) s = .next (finish c stBusy 0 0 0 s))
      ∧ (s.ing.swap = none → (wire s (u8At c.packet 0x19)).reproc = none → wireTested s (u8At c.packet 0x19) = false →
          groupTouchesWire s (u8At c.packet 0x18) = false → groupTouchesWire s (u8At c.packet 0x19) = false →
          ((wireRole s (u8At c.packet 0x18) = 1 ∨ wireRole s (u8At c.packet 0x19) = 0 ∨ (wire s (u8At c.packet 0x19)).state = 3) →
            exec (.wireSwap sq tag) s = .next (finish c stBadParam 0 0 0 s))
          ∧ (wireRole s (u8At c.packet 0x18) ≠ 1 → wireRole s (u8At c.packet 0x19) ≠ 0 → (wire s (u8At c.packet 0x19)).state ≠ 3 →
              wireInline s (u8At c.packet 0x18) < 32 → (port s (wireInline s (u8At c.packet 0x18))).running = true →
            let x : Swap := { out := u8At c.packet 0x18, into := u8At c.packet 0x19, cid := c.cid,
                              sid := (port s (wireInline s (u8At c.packet 0x18))).nextSid }
            exec (.wireSwap sq tag) s = .next (beginWork c 0 { s with ing := { s.ing with swap := some x } }).2)))
    ∧ (Starts s sq tag 0x0041 c → (wire s (pkInst c.packet)).state ≠ 2 → (wire s (pkInst c.packet)).state ≠ 3 →
        s.ing.swap = none → (∀ v, v < 9 → (wire s v).reproc = none) → pkInst c.packet < 9 →
        (u8At c.packet 0x1A = 0xFF ∨ rlSource s (u8At c.packet 0x1A) = 5) →
        bankUnready s (u8At c.packet 0x18) (u8At c.packet 0x19) = false →
        let sel := rawSelected s (u8At c.packet 0x18) (pmS64 c.packet 0x20) (pmS64 c.packet 0x28)
        (∀ r ∈ sel, r.pixels = cf s 0x04 (u8At c.packet 0x18) 0) →
        (rawGone s (u8At c.packet 0x18) (pmS64 c.packet 0x20) = true →
          exec (.reprocess sq tag) s = .next (finish c stTileGone 0 0 0 s))
        ∧ (rawGone s (u8At c.packet 0x18) (pmS64 c.packet 0x20) = false → sel ≠ [] → ∃ t, exec (.reprocess sq tag) s = .next t
          ∧ (wire t (pkInst c.packet)).reproc = some { cid := c.cid, port := u8At c.packet 0x18, bank := u8At c.packet 0x19
                                                       reel := u8At c.packet 0x1A, todo := sel.map RawStripe.block, ctx := { sid := 0 } }
          ∧ t.ing.ports = s.ing.ports ∧ t.hbm = s.hbm ∧ t.host = s.host))

/-- Lines, rows, thermal rows and edge blocks at the couch (R230, R236, R237, R240, R242). That an edge block of a side that the
couch does not name counts in SEAM_DROP is the model's deduction (log entry 45). -/
def Obligations.CouchRows : Prop :=
  ∀ s : State, Live s →
    (∀ (p : Fin 32) (it : Item) (l : List Item), (port s p).pipe = it :: l → cpWant s p = true →
        (it.st = .out ∨ it.st = .dropped) →
        (bitOf it.flags 3 = true → exec (.couchLine p) s = .next (popPipe p it s))
        ∧ (bitOf it.flags 3 = false → lineLate s (rowOf s it.md) = true → exec (.couchLine p) s =
            .next (portCloses p (rowOf s it.md - 1)
              (couchUpd (fun c => { c with lateLines := min (c.lateLines + 1) (2 ^ 32 - 1) }) (popPipe p it s))))
        ∧ (bitOf it.flags 3 = false → lineLate s (rowOf s it.md) = false → it.st = .dropped → exec (.couchLine p) s =
            .next (holdLine p it (rowOf s it.md) false 0 0 (popPipe p it s)))
        ∧ (bitOf it.flags 3 = false → lineLate s (rowOf s it.md) = false → it.st = .out → exec (.couchLine p) s =
            .next (takeLine p it (rowOf s it.md) s)))
    ∧ (∀ k, nextRow s = some k → gCols (rowBoundaryOpen k s) ≠ 0 → rowComplete (rowBoundaryOpen k s) k = true →
        exec .rowEmit s = .next (emitRow k .complete (rowBoundaryOpen k s)))
    ∧ (∀ k t0, nextRow s = some k → firstClosed (rowBoundary k s) k = some t0 → gCols (rowBoundary k s) ≠ 0 →
        rowComplete (rowBoundary k s) k = false → t0 + 1000 * cf (rowBoundary k s) 0x06 0 0x24 ≤ s.clk.ns →
        exec .rowTimeout s = .next (emitRow k .timeout (rowBoundary k s)))
    ∧ (∀ (p : Fin 4) (r : DRow) (l : List DRow), (dry s p).out = r :: l → r.row ≠ 0 → exec (.thermalRowMap p) s =
        .next (couchDryerIdle (thermalMapRow p r (updDry p (fun d => { d with out := l }) s))))
    ∧ (∀ k, thermOldest s = some k → gCols s ≠ 0 → thermComplete s k = true → exec .thermalRowEmit s = .next (emitTherm k s))
    ∧ (∀ k t0, thermOldest s = some k → gCols s ≠ 0 → thermComplete s k = false → thermFirstClosed s k = some t0 →
        t0 + 1000 * cf s 0x06 0 0x44 ≤ s.clk.ns → exec .thermTimeout s = .next (emitTherm k s))
    ∧ (∀ (k : Fin 4) (row : W64) (desc : W32) (cols : List (Nat × List Nat × Nat)),
        let n := 4 + (14 + (cols.map fun c => 6 + 2 * c.2.1.length).sum)
        let s1 := linkFree (64 + k) n s
        feltUsable s k = true → linkOver s (64 + k) n = false → (sideOf s1 k = none → exec (.edge k row desc cols) s = .next (seamDrop s1))
        ∧ (∀ d, sideOf s1 k = some d → gCols s1 ≠ 0 → desc.toNat = gridDescriptor s1 →
            (∀ c ∈ cols, gBase s1 ≤ c.1 ∧ c.1 < gBase s1 + gCols s1) → lineLate s1 row.toInt = false →
            exec (.edge k row desc cols) s = .next (seamTake d row.toInt cols s1)))

/-- Slices, merger, fragments (R250, R257, R258), tiles (R285) and record delivery (R90, R92, R264). That a fragment is forgotten
after twice MERGE_WAIT (log entry 46) and how edge parts answer one another (log entries 25, 79) are the model's. -/
def Obligations.KnotterAndRecords : Prop :=
  (∀ s : State, Live s →
    (∀ (k : Fin 8) (r : GridRow), sliceRow s k = some r →
        let s1 := if r.reproc = none then sliceTake k (some r.minTb) s else s
        thermReady s1 k r = true → exec (.knotterRow k) s =
          .next (knotIdle (sliceRun k r (passTokens (10 + k) (slLast s1 k + 1 - slFirst s1 k) s1))))
    ∧ (∀ g c, nextGroup s = some g → mergerHeld s g = false → (∀ m ∈ g, m.reproc = none) → groupClosed g = some c →
        (groupSides s g = [] → exec .mergerComponent s = .next (knotIdle (formGroup g (mergerTake (some c.2.2) s))))
        ∧ (groupSides s g ≠ [] → edgeWhole s (edgeComp s g) = false →
          exec .mergerComponent s = .next (edgeMarks (edgeComp s g) (edgeSends (edgeComp s g) s)))
        ∧ (groupSides s g ≠ [] → edgeWhole s (edgeComp s g) = true → exec .mergerComponent s =
          .next (knotIdle (formEdge (edgeComp s g) false (mergerUnder (edgeComp s g).groups.flatten
            (knotUpd (fun k => { k with fragOk := true }) (edgeSends (edgeComp s g) s)))))))
    ∧ (∀ (k : Fin 4) (cells : List FragCell) (part split : Bool) (d : Nat), d < 2 → gFelt s d = k.val →
        (d = 1 → gFelt s 0 ≠ k.val) → feltUsable s k = true →
        let n := 4 + (fragPayload part split (cells.any fun c => c.reproc) (fragCells cells)).length
        let f : FragIn := { side := d, cells := fragCells cells, partial_ := part, split := split, ns := s.clk.ns
                            reproc := cells.any fun c => c.reproc }
        linkOver s (64 + k) n = false → exec (.frag k cells part split) s = .next (edgeCut (fragAnswer f (knotUpd (fun y =>
          { y with frags := (y.frags.filter fun f => decide (s.clk.ns ≤ f.ns + 2 * (cf s 0x07 8 0x0C * 1000))) ++ [f] })
          (linkFree (64 + k) n s)))))
    ∧ (∀ g, timedGroup s = some g → s.web.knot.fragOk = false → exec .mergeTimeout s = .next (knotIdle
        (formEdge (timedComp s g) true (mergerUnder (timedComp s g).groups.flatten (knotUpd (fun k => { k with fragOk := false }) s))))))
  ∧ (∀ s : State, Ready s →
    (∀ j l, s.web.hist.tiles = j :: l → ∃ t, exec .tileWrite s = .next t ∧ t.web.hist.tiles = l
        ∧ t.hbm = memWriteN hbmUnlisted s.hbm (tileAddr s (j.block % max 1 (tileN s))) j.bytes ∧ t.host = s.host ∧ t.sent = s.sent)
    ∧ (∀ (r : Rec) (q : Ring), Live s → hostBlocked s = false → nextRec [] s.web.knot.recs = some r → tblFind s.host.dqs r.queue = some q →
        mayRequest s = true → s.chain.head = true → (q.tail - q.head).toNat ≠ 2 ^ q.log2 → ∃ t, exec .recordDelivery s = .next t
        ∧ t.sent = .hostWrite (entryAddr q.base q.tail q.log2 64) r.bytes :: s.sent
        ∧ tblFind t.host.dqs r.queue = some { q with tail := q.tail + 1, uncovered := q.uncovered + 1, dropNoted := false }
        ∧ t.web.knot.recs = s.web.knot.recs.erase r ∧ t.hbm = s.hbm)
    ∧ (∀ r, Live s → hostBlocked s = false → nextRec [] s.web.knot.recs = some r → tblFind s.host.dqs r.queue = none →
        exec .recordDelivery s = .next (knotUpd (fun k => { k with recs := k.recs.erase r, noQueue := min (k.noQueue + 1) (2 ^ 32 - 1) }) s)))

/-- Reels (R277, R279, R415) and look-ups of the history ring (R288). -/
def Obligations.ReelsAndHistory : Prop :=
  (∀ (s : State) (r : Fin 64), Live s →
    (∀ q l, (reel s r).inq = q :: l → rlSource s r = 0 → exec (.reelRow r) s = .next (updReel r (fun x => { x with inq := l }) s))
    ∧ (∀ q l, (reel s r).inq = q :: l → rlSource s r ≠ 0 → (reel s r).grp = [] →
        exec (.reelRow r) s = .next (updReel r (fun x => { x with grp := x.grp ++ [q] }) (updReel r (fun x => { x with inq := l }) s)))
    ∧ (∀ u, (reel s r).unit = some u → u.openNs + 1000000000 ≤ s.clk.ns →
        exec (.reelUnitTimeout r) s = .next (unitCut r s)))
  ∧ (∀ (s : State) (r : Fin 64) (bs : List Byte) (t0 : Nat) (l : List (List Byte × Nat)), Ready s → (reel s r).held = (bs, t0) :: l →
    (hostBlocked s = false → exec (.reelUnitHoldExpiry r) s = .next (unitDeliver r bs (updReel r (fun x => { x with held := l }) s)))
    ∧ (hostBlocked s = true → t0 + 1000000 ≤ s.clk.ns → tblFind s.host.srs (rlf s r 0x14) = none →
        exec (.reelUnitHoldExpiry r) s = .next (updReel r (fun x => { x with held := l, small := false }) s)))
  ∧ (∀ (s : State) (v : W64), HostOn s → exec (.wireHistLookup v) s = .next (histUpd (fun x => { x with
      handle := bits v.toNat 0 32, gen := bits v.toNat 32 16
      status := (histLookup s (bits v.toNat 0 32) (bits v.toNat 32 16)).1
      addr := (histLookup s (bits v.toNat 0 32) (bits v.toNat 32 16)).2 }) s))

/-- PORT_START and PORT_STOP (R142). That PORT_STOP of a port that does not run completes OK is the model's deduction (log
entry 36). -/
def Obligations.PortsStartAndStop : Prop :=
  ∀ (s : State) (sq : Fin 1024) (tag : W32) (c : Cmd),
    (Starts s sq tag 0x0030 c → addrBlk (pkTarget c.packet) = 0x02 →
      ((port s (pkInst c.packet)).running = true → exec (.portStart sq tag) s = .next (finish c stBusy 0 0 0 s))
      ∧ ((port s (pkInst c.packet)).running = false → underTest s 0x02 (pkInst c.packet) = false →
          presetArmed s (hbEnc s (pkInst c.packet)) = false →
          (∀ i, i < 9 → (tab s (pkInst c.packet) (cf s 0x02 (pkInst c.packet) 0x12) i).st ≠ 1) →
          (hbProto s (pkInst c.packet) = 0 → exec (.portStart sq tag) s = .next (finish c stBadParam 0 0 0 s))
          ∧ (hbProto s (pkInst c.packet) ≠ 0 → (∀ i, i < 9 → (tab s (pkInst c.packet) (cf s 0x02 (pkInst c.packet) 0x12) i).st ≠ 3) →
              exec (.portStart sq tag) s = .next (finish c stOk 100 0 0 (startHeadbox (pkInst c.packet) s)))))
    ∧ (Starts s sq tag 0x0030 c → addrBlk (pkTarget c.packet) = 0x05 → (dry s (pkInst c.packet)).running = false →
        underTest s 0x05 (pkInst c.packet) = false → presetArmed s (dpc s (pkInst c.packet) 0x32) = false →
        (∀ i, i < 5 → dTab s (pkInst c.packet) (dBank s (pkInst c.packet)) i ≠ 1 ∧ dTab s (pkInst c.packet) (dBank s (pkInst c.packet)) i ≠ 3) →
        dpc s (pkInst c.packet) 0x00 ≠ 0 →
        exec (.portStart sq tag) s = .next (finish c stOk 100 0 0 (startDryer (pkInst c.packet) s)))
    ∧ (Starts s sq tag 0x0031 c → addrBlk (pkTarget c.packet) = 0x02 →
        ((port s (pkInst c.packet)).running = false →
          exec (.portStop sq tag) s = .next (finish c stOk 100 (lastStripe s (pkInst c.packet)) 0 s))
        ∧ ((port s (pkInst c.packet)).running = true → (port s (pkInst c.packet)).cur ≠ none → u8At c.packet 0x18 = 0 →
          exec (.portStop sq tag) s = .next (updPort (pkInst c.packet) (fun x => { x with stopping := true })
            (putCmd { c with started := true, startNs := s.clk.ns } s))))
    ∧ (Starts s sq tag 0x0031 c → addrBlk (pkTarget c.packet) = 0x05 →
        ((dry s (pkInst c.packet)).running = false →
          exec (.portStop sq tag) s = .next (finish c stOk 100 (lastFrame s (pkInst c.packet)) 0 s))
        ∧ ((dry s (pkInst c.packet)).running = true → (dry s (pkInst c.packet)).frame ≠ none → u8At c.packet 0x18 = 0 →
          exec (.portStop sq tag) s = .next (updDry (pkInst c.packet) (fun d => { d with stopping := true })
            (putCmd { c with started := true, startNs := s.clk.ns } s))))

/-- Frames, rows and biases of a dryer port (R200 to R226). What the outputs of the decimation chain are is given with the row
(log entry 44). -/
def Obligations.DryerFrames : Prop :=
  (∀ (s : State) (p : Fin 4), Live s →
    ((dry s p).running = true → (dry s p).st = 3 → syncEarly s p = false →
        let s1 := dryStopWaiting p (frameClose p true (blankEnds p s))
        exec (.frameSync p) s = .next (if (dry s1 p).running then syncRun p s1 else s1))
    ∧ (∀ (f : DFrame) (tl : W64) (taps : List TapRow), (dry s p).frame = some f →
        (∀ t0, f.lsyncTbs[f.got]? = some t0 → exec (.dryerRow p tl taps) s = .next (rowRun p f t0 taps s))
        ∧ (f.lsyncTbs[f.got]? = none → exec (.dryerRow p tl taps) s = .next (rowRun p f tl.toNat taps s))
        ∧ ∃ t f', exec (.dryerRow p tl taps) s = .next t ∧ (dry t p).frame = some f' ∧ f'.number = f.number
          ∧ (f.got < dpRows s p → f'.got = f.got + 1 ∧ f'.long_ = f.long_)
          ∧ (dpRows s p ≤ f.got → f'.got = f.got ∧ f'.long_ = f.long_ + 1))
    ∧ (∀ f, (dry s p).frame = some f → dpc s p 0x0E = 1 → f.syncNs + 1000 * dpc s p 0x70 ≤ s.clk.ns →
        exec (.frameTimeout p) s = .next (dryStopWaiting p (frameClose p true s)))
    ∧ (∀ r l, (dry s p).fifo = r :: l → r.stamped = true → bitOf r.flags 0 = false →
        ∃ t, exec (.thermalPipeRow p) s = .next t ∧ (dry t p).fifo = l
        ∧ (dry t p).out = (dry s p).out ++ [{ r with
            px := ((List.range r.px.length).map (replaceY (rowYs r) (if r.row = 0 then [] else (dry s p).prevY))).map fun y => match y with
              | some v => (lutMap (lutAt s.free r.lut) v : Int)
              | none => 0
            bad := [], tabs := [], lut := none }]
        ∧ t.hbm = s.hbm ∧ t.web = s.web ∧ t.cfg = s.cfg)
    ∧ (∀ r l, (dry s p).fifo = r :: l → r.stamped = false → exec (.thermalPipeRow p) s = .next s))
  ∧ (∀ (s : State) (p : Fin 4), Ready s →
    (∀ t0, (dry s p).rampNs = some t0 → biasNow s p = (dry s p).biasTo → (dry s p).st ≠ 1 → exec (.biasRampEnd p) s =
        .next (updDry p (fun d => { d with biasFrom := d.biasTo, rampNs := none }) s))
    ∧ (∀ t0, (dry s p).rampNs = some t0 → biasNow s p = (dry s p).biasTo → (dry s p).st = 1 → ∃ u, exec (.biasRampEnd p) s =
        .next (dryTiming p u) ∧ u = (List.range (dpc s p 0x74)).foldl
          (fun v k => roicSend p 1 (dry v p).runNo (dpc v p 0x62) (dpc v p (0x100 + 8 * k)) (dpc v p (0x104 + 8 * k)) v)
          (updDry p (fun d => { d with st := 2, initK := 0 }) (updDry p (fun d => { d with biasFrom := d.biasTo, rampNs := none }) s)))
    ∧ (s.cmds.paused.contains 2 = false → exec (.driftRefine p) s =
        .next (updDry p (fun d => { d with refine := d.refine.map fun r => { r with ready_ := true } }) s)))

/-- SHUTTER (R223): the five actions, and TEMP_INHIBIT of each while the shutter's channel is inhibited. -/
def Obligations.ShutterActions : Prop :=
  ∀ (s : State) (sq : Fin 1024) (tag : W32) (c : Cmd), Starts s sq tag 0x0050 c →
    let p := pkInst c.packet
    ((dry s p).running = false → exec (.shutter sq tag) s = .next (finish c stBadParam 0 0 0 s))
    ∧ ((dry s p).running = true → (chan s (shutChan s p)).inhibit = true →
        exec (.shutter sq tag) s = .next (finish c stTempInhibit 0 0 0 s))
    ∧ ((dry s p).running = true → (chan s (shutChan s p)).inhibit = false →
      (u8At c.packet 0x18 = 0 → (dry s p).closure = none → ∃ t, exec (.shutter sq tag) s = .next t
        ∧ (dry t p).req = joinReason (dry s p).req (some 4) ∧ (dry t p).reqCids = (dry s p).reqCids ++ [c.cid])
      ∧ (u8At c.packet 0x18 = 1 → (dry s p).closure = none → ∃ t, exec (.shutter sq tag) s = .next t
        ∧ (dry t p).req = joinReason (dry s p).req (some 4) ∧ (dry t p).reqHold = true
        ∧ (dry t p).reqHoldCids = (dry s p).reqHoldCids ++ [c.cid])
      ∧ (∀ k, u8At c.packet 0x18 = 1 → (dry s p).closure = some k → (k.step = 3 ∨ k.step = 5) → exec (.shutter sq tag) s =
          .next (finish c stOk 100 s.clk.tb 0 (updDry p (fun d => { d with closure := some { k with hold := true } }) s)))
      ∧ (u8At c.packet 0x18 = 2 → (dry s p).closure = none → exec (.shutter sq tag) s = .next (finish c stOk 100 0 0 s))
      ∧ (u8At c.packet 0x18 = 3 → exec (.shutter sq tag) s = .next (finish c stOk 100 0 0 (shutterInhibit p s)))
      ∧ (u8At c.packet 0x18 = 4 → exec (.shutter sq tag) s =
          .next (finish c stOk 100 0 0 (updDry p (fun d => { d with inhibit := false }) s))))

/-- Jobs, drives and MARK_FIRE (R292 to R305). -/
def Obligations.MarkerJobsAndDrives : Prop :=
  (∀ (s : State) (n : Fin 16), Ready s →
    (∀ j l, (chan s n).incoming = j :: l → j.now_ = false → openNow (updChan n (fun c => { c with incoming := l }) s) n j = false →
        encBackward s (mkEnc s n) = false → exec (.markerJob n) s = .next (updChan n (fun c => { c with
          jobs := insertJob { j with seen := true } c.jobs }) (updChan n (fun c => { c with incoming := l }) s)))
    ∧ (∀ j l, (chan s n).incoming = j :: l → j.now_ = false → encBackward s (mkEnc s n) = true →
        exec (.markerJob n) s = .next (updChan n (fun c => { c with
          jobs := insertJob { j with seen := false } c.jobs }) (updChan n (fun c => { c with incoming := l }) s)))
    ∧ (exec (.driveStart n) s =
        .next (((List.range (n.val % 4 + 1)).map (4 * (n.val / 4) + ·)).foldl (fun s k => tickJobs k s) s))
    ∧ (∀ w, (chan s n).wait = some w → w.shutter = false →
        (w.th = none → exec (.headroomRetry n) s = .next (serveWait n w (updChan n (fun c => { c with wait := none }) s)))
        ∧ (∀ t0, w.th = some t0 → t0 ≤ s.clk.ns →
          exec (.headroomRetry n) s = .next (servePlaced n w (updChan n (fun c => { c with wait := none }) s))))
    ∧ (∀ (d : MDrive) (ma : BitVec 16), (chan s n).drive = some d → (chan s n).phase = 1 → d.peakEndNs ≤ s.clk.ns →
        (9 * mkPeak s n ≤ 10 * ma.toNat → exec (.peakPhaseEnd n ma) s =
          .next (updChan n (fun c => { c with phase := 2, holdNs := s.clk.ns, peakFull := true }) s))
        ∧ (10 * ma.toNat < 9 * mkPeak s n → mkPeak s n ≤ 10 * ma.toNat → (chan s n).peakFull = true →
          exec (.peakPhaseEnd n ma) s = .next (raise (198 + n) 0x07 ma.toNat
            (updChan n (fun c => { c with phase := 2, holdNs := s.clk.ns, peakFull := false }) s)))
        ∧ (10 * ma.toNat < mkPeak s n → exec (.peakPhaseEnd n ma) s =
          .next (raise (198 + n) 0x05 ma.toNat (faultChan n (updChan n (fun c => { c with peakFull := false }) s)))))
    ∧ (∀ d, (chan s n).drive = some d → (chan s n).phase = 2 → d.shutter = false → d.minEndNs ≤ s.clk.ns →
        (d.closeMet = true ∨ d.closeK.all (closeNow s n) = true) → exec (.driveEnd n) s = .next (endDrive n s))
    ∧ ((chan s n).phase = 3 → (chan s n).decayEndNs ≤ s.clk.ns →
        exec (.decayEnd n) s = .next (updChan n (fun c => { c with phase := 0 }) s)))
  ∧ (∀ (s : State) (v : W32), HostOn s → exec (.mrkArm v) s = .next ((List.range 16).foldl (fun s n =>
      if bitOf v.toNat n then armOne n s
      else if mkArmed { s with afe := { s.afe with armWait := setBitN s.afe.armWait n false } } n
        then disarm n { s with afe := { s.afe with armWait := setBitN s.afe.armWait n false } }
        else { s with afe := { s.afe with armWait := setBitN s.afe.armWait n false } }) s))
  ∧ (∀ (s : State) (sq : Fin 1024) (tag : W32) (c : Cmd), Starts s sq tag 0x0080 c →
    (u8At c.packet 0x18 = 0 → (enc s (mkEnc s (pkInst c.packet))).armed ≠ none →
        exec (.markFire sq tag) s = .next (finish c stBusy 0 0 0 s))
    ∧ (mkFunction s (pkInst c.packet) ≠ 1 → (u8At c.packet 0x18 = 1 ∨ (enc s (mkEnc s (pkInst c.packet))).armed = none) →
        exec (.markFire sq tag) s = .next (finish c stBadParam 0 0 0 s))
    ∧ (mkFunction s (pkInst c.packet) = 1 → u8At c.packet 0x18 = 1 → (chan s (pkInst c.packet)).inhibit = true →
        exec (.markFire sq tag) s = .next (finish c stTempInhibit 0 0 0 s))
    ∧ (mkFunction s (pkInst c.packet) = 1 → u8At c.packet 0x18 = 1 → (chan s (pkInst c.packet)).inhibit = false →
        mkArmed s (pkInst c.packet) = true → (chan s (pkInst c.packet)).fault = false → exec (.markFire sq tag) s =
          .next (handJob (pkInst c.packet) { seq := 0xFFFFFF, cid := some c.cid, now_ := true, tol := u32At c.packet 0x28 }
            (beginWork c 0 s).2))
    ∧ (mkFunction s (pkInst c.packet) = 1 → u8At c.packet 0x18 = 0 → (enc s (mkEnc s (pkInst c.packet))).armed = none →
        (chan s (pkInst c.packet)).inhibit = false → mkArmed s (pkInst c.packet) = true → (chan s (pkInst c.packet)).fault = false →
        let o : Int := pmS64 c.packet 0x20 + cfS s 0x09 (pkInst c.packet) 0x10 8
        exec (.markFire sq tag) s = .next (handJob (pkInst c.packet)
          { fOpen := o, fClose := o + mkf s (pkInst c.packet) 0x24, seq := 0xFFFFFF, cid := some c.cid, now_ := false,
            tol := u32At c.packet 0x28 } (beginWork c 0 s).2)))

/-- Faults and supply of the watermark drive (R296, R297, R307), before and after ready, and the keep-alive of the AFE link
(R8). -/
def Obligations.ValveSupplyAndFaults : Prop :=
  (∀ (s : State) (mv : W32),
    ((mv.toNat < 9000 ∨ 34000 < mv.toNat) → let s1 := valveSupply mv.toNat true s
        (s.boot.phase ≠ .ready → exec (.vvalveOut mv) s = .next s1)
        ∧ (Ready s → s.afe.held = true → exec (.vvalveOut mv) s = .next ((List.range 16).foldl (fun s n => cutDrive n s) s1))
        ∧ (Ready s → s.afe.held = false → exec (.vvalveOut mv) s = .next ([0, 1, 2, 3].foldl
            (fun s m => raise (214 + m) 0x01 mv.toNat s) ((List.range 16).foldl (fun s n => cutDrive n s) s1))))
    ∧ (9000 ≤ mv.toNat → mv.toNat ≤ 34000 → let s1 := valveSupply mv.toNat false s
        (s.boot.phase ≠ .ready ∨ s.afe.held = false → exec (.vvalveOk mv) s = .next s1)
        ∧ (Ready s → s.afe.held = true → exec (.vvalveOk mv) s =
            .next ([0, 1, 2, 3].foldl (fun s m => raise (214 + m) 0x02 mv.toNat s) s1))))
  ∧ (∀ s : State, Ready s →
    (∀ n : Fin 16, exec (.overcurrent n) s = .next (raise (198 + n) 0x06 0 (faultChan n s)))
    ∧ (∀ m : Fin 4, exec (.hsOvercurrent m) s = .next (raise (214 + m) 0x03 0 ([0, 1, 2, 3].foldl (fun s k =>
        shutCut (4 * m + k) (skipAll (4 * m + k) (setArm (4 * m + k) false (killDrive (4 * m + k) s)))) s)))
    ∧ (s.afe.coilNs + 1000000 ≤ s.clk.ns → exec .coilUpdate s = .next ((List.range 16).foldl (fun s n => coilStep n s)
        { s with afe := { s.afe with coilNs := s.afe.coilNs + 1000000 } }))
    ∧ (∀ (n : Fin 16) (d : MDrive), (chan s n).drive = some d → (chan s n).phase = 2 →
        let last := !d.endSensed && decide ((chan s n).holdNs + 200000 ≤ s.clk.ns) && endNears s n d
        let s1 := updChan n (fun c => { c with drive := some (if last then { d with endSensed := true }
          else { d with senses := d.senses + 1 }) }) s
        (last = true ∨ (chan s n).holdNs + 100000000 * (d.senses + 1) ≤ s.clk.ns →
          ((chan s n).calEndNs = none → exec (.senseInstant n) s = .next (hkTrigger (n / 4) (n % 4) s1))
          ∧ ((chan s n).calEndNs ≠ none → exec (.senseInstant n) s = .next s1)))
    ∧ exec .afeKeepalive s = .next { s with sent := .keepAlive :: s.sent })

/-- Conversions, triggers and self-calibration (R311 to R318). -/
def Obligations.ConvertersRun : Prop :=
  (∀ (s : State) (u : Fin 4) (v : W32), HostOn s → v.getLsbD 0 = true → hkMode s u ≠ 0 → hkc s u 2 ≠ 0 →
      bitOf (hkc s u 3) 2 = true → (hk s u).st ≠ 3 → (hk s u).pending.contains 6 = false →
      exec (.hkSwtrig u v) s = .next (updHk u (fun x => { x with pending := x.pending ++ [6] }) s))
  ∧ (∀ (s : State) (u : Fin 4), Ready s →
    (∀ k, (hk s u).st ≠ 2 → (hk s u).st ≠ 3 → hkMode s u ≠ 0 → hkc s u 2 ≠ 0 →
        ((List.range 7).find? fun k => (hk s u).pending.contains k) = some k → exec (.injectedStart u) s =
          .next (updHk u (fun x => { x with
            st := 2, src := k, injIn := (List.range (hkc s u 2)).map fun j => hkc s u (0x20 + j), inj := 0
            pending := x.pending.filter fun j => j ≠ k, chan := if k < 4 then 4 * u + k else x.chan, convNs := s.clk.ns, slow := false, fixed := none
            cin := ((List.range (hkc s u 2)).map fun j => hkc s u (0x20 + j)).getD 0 0 }) s))
    ∧ (∀ sig : HkSignal, (hk s u).st = 1 → (hk s u).convNs + (if (hk s u).slow then 4000 else 1000) ≤ s.clk.ns →
        exec (.hkConversionEnd u sig) s = .next (elPassed 2 u (regularEnds u sig s))
        ∧ (tblGet {} (hk (regularEnds u sig s) u).res (hk s u).entry).raw
            = hkRaw s (hk s u).cin ((hk s u).fixed.getD (hkFactors s u (hk s u).cin)) sig)
    ∧ (∀ sig : HkSignal, (hk s u).st = 2 → (hk s u).convNs + (if (hk s u).slow then 4000 else 1000) ≤ s.clk.ns →
        exec (.hkConversionEnd u sig) s = .next (elPassed 2 u (injectedEnds u sig s)))
    ∧ (∀ ofs gain : BitVec 16, (hk s u).st = 3 → (hk s u).calNs + 1600000 ≤ s.clk.ns → t2Paused s = false →
        let r := elJudge 2 u ofs.toInt gain.toNat [] (hkResume u s)
        let s3 := raise (218 + u) 0x02 (b2n r.1)
          (updHk u (fun x => { x with cids := [], temp := if r.1 then effOf r.2 36 else x.temp }) r.2)
        exec (.selfcalDone u ofs gain) s =
          .next (finishCids (hk r.2 u).cids (if r.1 then stOk else stCalRejected) (if r.1 then 1 else 0) 0 s3)))
  ∧ (∀ (s : State) (i signal : Nat) (x : HkSignal) (f : Int × Nat × Bool × Nat), x.signal.toNat = signal → f.2.2.1 = false →
      (i < 24 ∨ i = 25 ∨ i = 27 → hkRaw s i f x = min 4095 ((signal * 8192 + 1200000) / 2400000))
      ∧ (i = 30 → hkRaw s i f x = min 4095 ((signal * 8192 + 6000000) / 12000000))
      ∧ (i = 31 → hkRaw s i f x = min 4095 ((signal * 8192 + 48000000) / 96000000))
      ∧ (i = 29 → hkRaw s i f x = min 4095 ((s.afe.vmv * 8192 + 48000) / 96000)))
  ∧ (∀ (s : State) (i : Nat) (x : HkSignal) (f : Int × Nat × Bool × Nat), (i = 24 ∨ f.2.2.1 = true) →
      (∀ e, x.err = some e → 1 ≤ f.2.2.2 → f.2.2.2 ≤ 1022 →
        4 * (f.2.2.2 : Int) - 4 ≤ hkRaw s i f x ∧ (hkRaw s i f x : Int) ≤ 4 * (f.2.2.2 : Int) + 4)
      ∧ (x.err = none → hkRaw s i f x = x.signal.toNat % 4096))
  ∧ (∀ (s : State) (sq : Fin 1024) (tag : W32) (c : Cmd), Starts s sq tag 0x0090 c → exec (.adcSelfcal sq tag) s =
      .next (selfcalRequest (pkInst c.packet) (updHk (pkInst c.packet) (fun x => { x with cids := x.cids ++ [c.cid] })
        (putCmd { c with started := true, startNs := s.clk.ns } s))))

/-- The calibration engine (R357 to R367), SRAM rows (R366) and HBM errors (R9, R440). -/
def Obligations.CalibrationRuns : Prop :=
  (∀ s : State, Ready s →
    (∀ n : Fin 440000, calMay s = true → refDue s = true → 1000 < (refRatio (n + 1)).natAbs → (refRatio (n + 1)).natAbs ≤ 100000 →
        exec (.refCheck (some n)) s = .next (calOutcome (elKey 5 0) true (raise 327 0x04 (ofS 32 (refRatio (n + 1)))
          (updCal (fun c => { c with refState := 2, refRatio := refRatio (n + 1), refNs := some s.clk.ns }) s))))
    ∧ (calMay s = true → refDue s = true → exec (.refCheck none) s =
        .next (calOutcome (elKey 5 0) true (raise 327 0x05 (ofS 32 (-2147483648))
          (updCal (fun c => { c with refState := 3, refRatio := -2147483648, refNs := some s.clk.ns }) s))))
    ∧ (∀ i : Fin 64, calMay s = true → exec (.calibrationStart (.adc i)) s = .next (adcTry i s))
    ∧ (∀ u : Fin 4, calMay s = true → elWanted s 2 u = true → exec (.calibrationStart (.unit u)) s = .next (selfcalRequest u s))
    ∧ (∀ n : Fin 16, calMay s = true → exec (.calibrationStart (.valve n)) s = .next (valveTry n s))
    ∧ (∀ p : Fin 4, calMay s = true → (dry s p).running = true → (dry s p).st = 3 →
        let is := ((List.range 16).map fun c => 16 * p.val + c).filter (forceDue s p)
        is ≠ [] → rowStarts s p = true → exec (.forced p) s =
          .next (is.foldl (fun s i => raise 327 0x03 i (adcCalStart i true s)) (updDry p (fun d => { d with
            forced := d.forced ++ is.map fun i => (s.clk.tb, s.clk.tb + 240000 + unsettledNs s p, i % 16) }) s)))
    ∧ (∀ (i : Fin 64) (ofs gain : BitVec 16) (parts : List (BitVec 16)),
        exec (.calibrationEnd (.adc i) ofs gain parts) s = .next (calEnds 1 i ofs.toInt gain.toNat (parts.map BitVec.toNat) s))
    ∧ (∀ (i : Fin 16) (ofs gain : BitVec 16) (parts : List (BitVec 16)),
        exec (.calibrationEnd (.valve i) ofs gain parts) s = .next (calEnds 3 i ofs.toInt gain.toNat (parts.map BitVec.toNat) s))
    ∧ (∀ (row : W32) (w : Option StoreWord) (tests : List Bool), tblGet 0 s.afe.cal.sramErrs row.toNat + 1 < 16 →
        exec (.sramEccError row false w tests) s = .next (updCal (fun c => { c with
          sramErrs := tblSet c.sramErrs row.toNat (tblGet 0 s.afe.cal.sramErrs row.toNat + 1) }) s))
    ∧ (∀ a : BitVec 37, exec (.hbmEccUncorr a) s =
        .next (raise (320 + a.toNat / 4096 % 4) 0x01 (a.toNat / 32) (rawFails a.toNat (chestFails a.toNat s)))))
  ∧ (∀ (s : State) (sq : Fin 1024) (tag : W32) (c : Cmd) (tests : List Bool), Starts s sq tag 0x00A0 c → u8At c.packet 0x18 ≠ 4 →
    (calibrateNames s (u8At c.packet 0x18) (u64At c.packet 0x20) = [] → exec (.calibrate sq tag tests) s =
      .next (finish (beginWork c 0 s).1 stOk 100 0 0 { (beginWork c 0 s).2 with
        nvm := { (beginWork c 0 s).2.nvm with calCmdDone := true } }))
    ∧ (∀ l, calibrateNames s (u8At c.packet 0x18) (u64At c.packet 0x20) = l → l ≠ [] → exec (.calibrate sq tag tests) s =
      .next (updCal (fun k => { k with cmds := k.cmds ++ [{ cid := c.cid, ns := s.clk.ns, left := l }] }) (beginWork c l.length s).2)))

/-- Master frames (R328) and the slave view (R330 to R333). -/
def Obligations.SerialPortsRun : Prop :=
  (∀ (s : State) (n : Fin 4) (v : W32), HostOn s → let s1 := updSp n (fun x => { x with
      dir := v.getLsbD 1, useSel := v.getLsbD 2, doneBit := x.doneBit && !v.getLsbD 9 }) s
    spBusy (sp s1 n) = false →
    (goErr s1 n = 0 → exec (.masterGo n v) s = .next (spQueue n (hostFrame (updSp n (fun x => { x with err := 0 }) s1) n)
        (updSp n (fun x => { x with err := 0 }) s1)))
    ∧ (goErr s1 n ≠ 0 → exec (.masterGo n v) s =
        .next (raise (222 + n) 0x05 (goErr s1 n) (updSp n (fun x => { x with err := goErr s1 n }) s1))))
  ∧ (∀ (s : State) (n : Fin 4), Ready s →
    (∀ (f : SpFrame) (bs : List Byte), (sp s n).run = some f → (sp s n).endNs ≤ s.clk.ns → f.kind = 0 →
        f.inLen = bs.length → bs ≠ [] → exec (.masterDone n bs) s = .next (spPump n (raise (222 + n) 0x04 (bs.length + f.outLen)
          (updSp n (fun x => { x with doneBit := true }) (hbmWrite f.buf bs (updSp n (fun x => { x with run := none, lastNs := s.clk.ns }) s))))))
    ∧ (∀ (reg : BitVec 7) (k : Nat), spSlave s n = true →
        let out := leBytes 1 (viewStatus s) ++ (List.range k).flatMap fun j => slice (viewSnap s n) ((reg.toNat + j) % 128) 1
        exec (.slaveReadFrame n reg (8 * (k + 1)) false) s = .next (updSp n
          (fun x => { x with aborted := false, underran := false }) { s with sent := .slaveOut n (slavePins true) out :: s.sent }))
    ∧ (∀ (reg : BitVec 7) (edges : Nat) (bs : List Byte), spSlave s n = true → (edges % 8 ≠ 0 ∨ edges < 16) →
        exec (.slaveWriteFrame n reg edges bs) s =
          .next (frameAborts n edges { s with sent := .slaveOut n (slavePins true) (leBytes 1 (viewStatus s)) :: s.sent }))
    ∧ (∀ (reg : BitVec 7) (bs : List Byte), spSlave s n = true → bs ≠ [] →
        let y := slaveBytes (sp s n) reg.toNat bs
        y.2 = true → y.1.inhibit = (sp s n).inhibit → y.1.override = (sp s n).override →
        exec (.slaveWriteFrame n reg (8 * (bs.length + 1)) bs) s =
          .next (inhibitTake (updSp n (fun _ => { y.1 with aborted := false, underran := false })
            { s with sent := .slaveOut n (slavePins true) (leBytes 1 (viewStatus s)) :: s.sent })))
    ∧ (s.afe.viewNs + 100000 ≤ s.clk.ns → exec .viewRefresh s =
        .next { s with afe := { s.afe with view := viewBytes s, viewNs := s.afe.viewNs + 100000 } }))

/-- Pins (R334), encoders (R336 to R338) and temperatures (R347). -/
def Obligations.PinsEncodersTemperatures : Prop :=
  ∀ s : State, Ready s →
    (∀ (n : Fin 48) (level : Bool), gpioDrives s n = false → bitOf s.afe.gpio n = level → exec (.gpioEdge n level) s =
        .next { s with afe := { s.afe with gpioNew := tblErase s.afe.gpioNew n } })
    ∧ (∀ (n : Fin 48) (inv : Bool), gpioDrives s n = false → tblFind s.afe.gpioNew n = none → pinf s n 2 = 0 → bitOf (pinf s n 1) 0 = inv →
        let g := tblErase (tblSet s.afe.gpioNew n s.clk.ns) n
        (bitOf s.afe.gpio n = !inv →
          let s1 : State := { s with afe := { s.afe with gpio := setBitN s.afe.gpio n inv, gpioNew := g } }
          exec (.gpioEdge n inv) s = .next (if bitOf (pinf s n 1) 2 then raise (230 + n) 0x02 0 s1 else s1))
        ∧ (bitOf s.afe.gpio n = inv →
          let s2 := gpioRises n { s with afe := { s.afe with gpio := setBitN s.afe.gpio n (!inv), gpioNew := g } }
          exec (.gpioEdge n (!inv)) s = .next (if bitOf (pinf s n 1) 1 then raise (230 + n) 0x01 0 s2 else s2)))
    ∧ (∀ n : Fin 48, gpioDrives s n = false → tblFind s.afe.gpioNew n = none → pinf s n 2 ≠ 0 →
        exec (.gpioEdge n (!bitOf s.afe.gpio n)) s =
          .next { s with afe := { s.afe with gpioNew := tblSet s.afe.gpioNew n s.clk.ns } })
    ∧ (∀ (n : Fin 48) (t0 : Nat), gpioDrives s n = false → tblFind s.afe.gpioNew n = some t0 → t0 + 5 * pinf s n 2 ≤ s.clk.ns →
        exec (.gpioEdge n (!bitOf s.afe.gpio n)) s = .next (gpioTake n s))
    ∧ (∀ (n : Fin 48) (t0 : Nat), tblFind s.afe.strobes n = some t0 → t0 + 100 * pinf s n 6 ≤ s.clk.ns →
        exec (.strobePulseEnd n) s = .next { s with afe := { s.afe with strobes := tblErase s.afe.strobes n } })
    ∧ (∀ (e : Fin 4) (a b : Bool), sharedHere s e = false → (a ≠ (enc s e).aIn ∧ b = (enc s e).bIn ∨ a = (enc s e).aIn ∧ b ≠ (enc s e).bIn) →
        ∃ s1 old new, exec (.encoderEdge e a b) s = .next (encMoved e old new s1)
          ∧ (enc s1 e).n = (enc s e).n + (if quadPos a b = (quadPos (enc s e).aIn (enc s e).bIn + 1) % 4 ↔ cf s 0x0C e 0 = 0 then 1 else -1)
          ∧ (enc s1 e).aIn = a ∧ (enc s1 e).bIn = b ∧ old = encE s e)
    ∧ (∀ (e : Fin 4) (a b : Bool), sharedHere s e = false → a ≠ (enc s e).aIn → b ≠ (enc s e).bIn →
        let s1 := setEnc e { enc (setEnc e { enc s e with aIn := a, bIn := b } s) e with
          err := min ((enc s e).err + 1) (2 ^ 32 - 1), errNs := some s.clk.ns } (setEnc e { enc s e with aIn := a, bIn := b } s)
        ((∀ t0, (enc s e).errNs = some t0 → t0 + 1000000000 ≤ s.clk.ns) →
          exec (.encoderEdge e a b) s = .next (raise (226 + e) 0x03 0 s1))
        ∧ (∀ t0, (enc s e).errNs = some t0 → s.clk.ns < t0 + 1000000000 → exec (.encoderEdge e a b) s = .next s1))
    ∧ (∀ e : Fin 4, sharedHere s e = false → (enc s e).zLast = none → (enc s e).armed ≠ some 2 →
        exec (.encoderZ e) s = .next (setEnc e { enc s e with zLast := some (enc s e).n } s))
    ∧ (∀ e : Fin 4, (s.clk.ns < (enc s e).sampleNs + 1000 → exec (.encoderSample e) s = .next s)
        ∧ (sharedHere s e = false → (enc s e).sampleNs + 1000 ≤ s.clk.ns → ∃ l, exec (.encoderSample e) s = .next (setEnc e l s)
          ∧ l = { enc s e with pos := encE s e, sampleNs := s.clk.ns / 1000 * 1000, samples := l.samples }))
    ∧ (∀ temps : List Int, s.afe.therm.evalNs + 1000000 ≤ s.clk.ns → exec (.thermalEvaluation temps) s =
        .next (calDue (nvmWindow (actThermal (senseAll (readings temps)
          (updTherm (fun t => { t with evalNs := t.evalNs + 1000000 }) s))))))

/-- Page writes (R373, R374), counter batches (R384), stores (R381) and log pages (R435). -/
def Obligations.NvmPages : Prop :=
  ∀ s : State, Ready s →
    (∀ (p : PageWrite) (ok : Bool), s.nvm.page = some p → p.startNs + 2000000 ≤ s.clk.ns → ∃ t, exec (.pageWriteEnd ok) s = .next t
        ∧ t.nvm.mem = memWriteN nvmUnlisted s.nvm.mem p.addr p.bytes ∧ t.hbm = s.hbm ∧ t.cfg = s.cfg)
    ∧ (s.nvm.lastBatchNs + 600000000000 ≤ s.clk.ns → exec .counterBatch s =
        .next (nvmPump { s with nvm := { s.nvm with batchDue := true, lastBatchNs := s.nvm.lastBatchNs + 600000000000 } }))
    ∧ (storeDue s = true → exec .calStore s = .next (nvmPump { s with nvm := { s.nvm with
        store := some { bank := 1 - s.nvm.calBank, seq := (bankSeq s s.nvm.calBank + 1) % 2 ^ 32
                        image := bankImage ((bankSeq s s.nvm.calBank + 1) % 2 ^ 32) (calVals s), vals := calVals s }
        lastStoreNs := some s.clk.ns, calCmdDone := false } }))
    ∧ (exec .eventLogWriteInterval s = .next (nvmPump s))
    ∧ (s.nvm.page = none → s.nvm.window = true → s.cmds.paused.contains 3 = false → s.nvm.batchNext = none →
        s.nvm.batchDue = false → logMay s = true → exec .eventLogWriteInterval s = .next (logStart s))

/-- NVM_READ (R374, R378), NVM_WRITE (R377), CERT_READ (R392) and ATTEST (R401). -/
def Obligations.NvmAndCertificateCommands : Prop :=
  ∀ (s : State) (sq : Fin 1024) (tag : W32) (c : Cmd),
    (∀ bs, Starts s sq tag 0x00B0 c → s.nvm.page = none → mayRequest s = true →
        readBytes (beginWork c 0 s).1 (beginWork c 0 s).2 = some bs → mayRequest (beginWork c 0 s).2 = true →
        exec (.nvmRead sq tag .ok) s = .next (finish (beginWork c 0 s).1 stOk 100 0 bs.length
          (hostWrite (pkAddr (beginWork c 0 s).1.packet) bs (beginWork c 0 s).2)))
    ∧ (∀ io, Starts s sq tag 0x00B0 c → s.nvm.page = none → readBytes (beginWork c 0 s).1 (beginWork c 0 s).2 = none →
        exec (.nvmRead sq tag io) s = .next (finish (beginWork c 0 s).1 stBadParam (percentOf (beginWork c 0 s).1) 0
          (beginWork c 0 s).1.position (beginWork c 0 s).2))
    ∧ (∀ d, Starts s sq tag 0x00B1 c → mayRequest s = true → s.nvm.window = false →
        exec (.nvmWrite sq tag d) s = .next (finish c stTempInhibit (percentOf c) 0 c.position s))
    ∧ (∀ bs : List Byte, Starts s sq tag 0x00B1 c → mayRequest s = true → s.nvm.window = true → s.chain.head = true →
        pkOpt8 c.packet = false → 0 < pkLen c.packet → bs.length = pkLen c.packet →
        let total := pageCount (pkTarget c.packet) (pkLen c.packet)
        let r := beginWork c total s
        total ≠ 0 → r.2.chain.head = true → exec (.nvmWrite sq tag (.data bs)) s = .next (nvmPump
          (updNvm (fun x => { x with writers := x.writers ++ [c.cid] })
            (putCmd { r.1 with buf := bs, aux := pkTarget c.packet + 1 } r.2))))
    ∧ (∀ k, Starts s sq tag 0x00C3 c → k < 3 → u8At c.packet 0x18 = k → mayRequest s = true →
        let bs := certArea s (0x1000 + 0x800 * k)
        (bs.length ≤ pkLen c.packet → exec (.certRead sq tag .ok) s =
          .next (finish c stOk 100 bs.length bs.length (hostWrite (pkAddr c.packet) bs s)))
        ∧ (pkLen c.packet < bs.length → exec (.certRead sq tag .ok) s =
          .next (finish c stBadParam (percentOf c) bs.length c.position s)))
    ∧ (Starts s sq tag 0x00C0 c → mayRequest s = true → exec (.attest sq tag .ok) s =
        .next (finish c stOk 100 640 640 (hostWrite (pkAddr c.packet) (report s (slice c.packet 0x18 32)) s)))

/-- FW_STAGE (R395, R396), FW_ACTIVATE (R394, R398), fuses (R400) and debug (R404). That the form is judged at the first 16 bytes,
before BUSY, and where the staging buffer lies are the model's deductions (log entry 52); what a frame that runs on SP0 holds back
is its choice (log entry 92). -/
def Obligations.FirmwareAndDebug : Prop :=
  (∀ (s : State) (sq : Fin 1024) (tag : W32) (c : Cmd),
    (∀ (bs back : List Byte) (n : Nat), Starts s sq tag 0x00C1 c → mayRequest s = true → s.chain.head = true → c.buf = [] →
        16 ≤ bs.length → 16 ≤ pkLen c.packet →
        (stageForm c (bs.take (pkLen c.packet)) = false →
          exec (.fwStage sq tag (.data bs) n back) s = .next (finish c stBadParam 0 0 0 s))
        ∧ (stageForm c (bs.take (pkLen c.packet)) = true → stageTaken c s = true →
          exec (.fwStage sq tag (.data bs) n back) s = .next (finish c stBusy 0 0 0 s)))
    ∧ (∀ (bs back : List Byte) (n : Nat), Starts s sq tag 0x00C1 c → mayRequest s = true → s.chain.head = true → c.buf = [] →
        (16 ≤ bs.length → stageForm c bs = true ∧ stageTaken c s = false) → bs.length < pkLen c.packet →
        exec (.fwStage sq tag (.data bs) n back) s =
          .next (putCmd { c with started := true, buf := bs, total := pkLen c.packet, startNs := s.clk.ns }
            (hbmWrite stagingBase bs s)))
    ∧ (∀ (d : HostRead) (n : Nat) (back : List Byte), CarriesOn s sq tag 0x00C1 c → c.aux = 1 → flashHeld s = false →
        c.total ≤ c.position + n →
        let r := progressTo c c.total (flashProgram (slotFlash s (fwSlot c)) c.position c.total c.buf s)
        let s1 := flashRead (slotFlash s (fwSlot c)) c.buf.length r.2
        (sha384 back = sha384 c.buf → exec (.fwStage sq tag d n back) s = .next (finish r.1 stOk 100 (imVersion c.buf) r.1.position
            (updSec (fun x => { x with slotHash := tblSet x.slotHash (fwSlot c) (imHash c.buf) }) s1)))
        ∧ (sha384 back ≠ sha384 c.buf → exec (.fwStage sq tag d n back) s =
          .next (finish r.1 stAuthFail (percentOf r.1) 0 r.1.position (flashErase (slotFlash s (fwSlot c)) 1 s1))))
    ∧ (∀ im : List Byte, Starts s sq tag 0x00C2 c →
        (s.cmds.flight.any fun d => decide (pkOp d.packet = 0x00C1) && d.started && d.sentTo.isNone) = false → flashHeld s = false →
        let read := flashReadSlot (slotFlash s (fwSlot c)) (slotImageOf im) s
        (fwVerifies s (slotImageOf im) = false →
          exec (.fwActivate sq tag im) s = .next (finish c stAuthFail (percentOf c) 0 c.position read))
        ∧ (fwVerifies s (slotImageOf im) = true → imRollback (slotImageOf im) < s.sec.fuseSteps →
          exec (.fwActivate sq tag im) s = .next (finish c stRollback (percentOf c) 0 c.position read))
        ∧ (fwVerifies s (slotImageOf im) = true → s.sec.fuseSteps ≤ imRollback (slotImageOf im) →
          exec (.fwActivate sq tag im) s = .next (recordWrite 5 [if u8At c.packet 0x18 = 0 then 0 else 1]
            (putCmd { (beginWork c 0 read).1 with aux := 1, buf := (slotImageOf im).take 256 } (beginWork c 0 read).2)))))
  ∧ (∀ s : State, Ready s →
    (s.sec.fuseSteps < s.sec.fuseTarget → exec .fuseStep s = .next (activateEnds (raise 326 0x03 (s.sec.fuseSteps + 1)
        { s with sec := { s.sec with fuseSteps := s.sec.fuseSteps + 1 } })))
    ∧ (s.sec.tapHold = false → lockedOut s = false → exec .dbgChal s = .next { s with
        sent := .jtag (challengeOf s ++ ownSerial) :: s.sent
        sec := { s.sec with challenge := some (challengeOf s), challenges := s.sec.challenges + 1 } })
    ∧ (∀ (scope : Byte) (sig : List Byte), s.sec.tapHold = false → s.sec.challenge = none → exec (.dbgResp scope sig) s =
        .next (raise 326 0x06 0 { s with sec := { s.sec with challenge := none, lockoutNs := some s.clk.ns } }))
    ∧ (∀ (scope : Byte) (sig ch : List Byte), s.sec.tapHold = false → s.sec.challenge = some ch →
        signed (debugKey s) (sha384 (ch ++ [scope])) (padTo 96 sig) = true → exec (.dbgResp scope sig) s =
          .next (raise 326 0x05 scope.toNat { s with sec := { s.sec with challenge := none, debug := s.sec.debug ||| (scope.toNat % 4) } }))
    ∧ (∀ t0, s.sec.lockoutNs = some t0 → t0 + 1000000000 ≤ s.clk.ns →
        exec .debugLockoutEnd s = .next { s with sec := { s.sec with lockoutNs := none } }))

/-- Routed packets (R96 to R100, R412). The REG layout is the model's (log entry 26), and so is that a host write waits at the head
while Bus Master Enable is 0 (log entry 77). -/
def Obligations.RoutedPacketsServed : Prop :=
  ∀ (s : State) (k : Fin 4) (h : RouteHdr), Ready s → feltUsable s k.val = true →
    let got (n : Nat) : State := linkFree (64 + k.val) (4 + n) s
    let fits (n : Nat) : Prop := linkOver s (64 + k.val) (4 + n) = false
    (h.dst.toNat = s.chain.devId →
      (∀ (sq : Fin 1024) (p : List Byte), p.length = 64 → opcodeAccepted s.boot.source (pkOp p) = true → packetOk p = true →
          pkOp p ≠ 0x00F0 → fits 66 → exec (.cmd k h sq p) s = .next (addCmd
            { cid := s.cmds.nextId, sq := sq.val, tag := pkTag p, packet := p
              origin := if s.chain.head then .device h.src.toNat else .head } (got 66)))
      ∧ (∀ (cq : Fin 1024) (b : List Byte) (c : Cmd), b.length = 32 → bitOf (u8At b 7) 1 = false → fits 34 →
          s.cmds.flight.find? (fun c => decide (c.sq = cq.val ∧ c.tag = BitVec.ofNat 32 (u32At b 0) ∧ c.sentTo = some h.src.toNat)) = some c →
          exec (.cpl k h cq b) s = .next (finish c (u16At b 4) (u8At b 6) (u64At b 8) (u64At b 16) (got 34)))
      ∧ (∀ (off : BitVec 20) (n : Nat), let g := got (regPayload off.toNat (.read n)).length
          fits (regPayload off.toNat (.read n)).length → exec (.reg k h (.reg off (.read n))) s =
            .next (feltTo h.src.toNat 0x17 (replyPayload n (regRead n off.toNat spanFar g).1) (regRead n off.toNat spanFar g).2))
      ∧ (∀ (off : BitVec 20) (n : Nat) (v : W64), fits (regPayload off.toNat (.write n v)).length → exec (.reg k h (.reg off (.write n v))) s = .next
          (regWrite n off.toNat (v.toNat % 2 ^ (8 * n)) (got (regPayload off.toNat (.write n v)).length)))
      ∧ (∀ n v : Nat, n ≠ 0 → fits (replyPayload n v).length → exec (.reg k h (.reply n v)) s =
          .next { got (replyPayload n v).length with sent := .readData n v :: s.sent })
      ∧ (∀ v : Nat, fits 4 → exec (.reg k h (.reply 0 v)) s = .next (bar2Landed h.src.toNat (got 4)))
      ∧ (∀ off v : W32, fits 8 → exec (.db k h off v) s = .next (dbWrite s.chain.head off.toNat v.toNat (got 8)))
      ∧ (∀ v : Fin 512, fits 2 → exec (.msi k h v) s = .next (msixSend v.val (got 2)))
      ∧ (∀ (a : W64) (bs : List Byte), mayRequest s = true → fits (8 + bs.length) →
          exec (.hwr k h a bs) s = .next { got (8 + bs.length) with sent := .hostWrite a.toNat bs :: s.sent })
      ∧ (∀ (a : W64) (bs : List Byte), mayRequest s = false → fits (8 + bs.length) → exec (.hwr k h a bs) s = .next (updChain (fun c => { c with
          hold := c.hold ++ [⟨s.chain.devId, h.src.toNat, 1, 0x1B, leBytes 8 a.toNat ++ bs⟩] }) (got (8 + bs.length))))
      ∧ (∀ (a : W64) (n : BitVec 13) (bs : List Byte), mayRequest s = true → fits 12 →
          exec (.hrd k h (.request a n (.data bs))) s = .next (feltTo h.src.toNat 0x1C (bs.take n.toNat) (got 12))))
    ∧ (h.dst.toNat ≠ s.chain.devId → h.dst ≠ 0xFF → 1 < h.ttl.toNat → fits 8 → ∀ off v : W32,
        exec (.db k h off v) s = .next (feltRoute ⟨h.dst.toNat, h.src.toNat, h.ttl.toNat - 1, 0x18, leBytes 4 off.toNat ++ leBytes 4 v.toNat⟩
          (updFelt k.val (fun p => { p with ttlNoted := false }) (got 8))))

/-- Chain time: R416 and R418. A SYNC packet takes its time stamp as it leaves on the lane; a child hears of CHAIN_SYNC and ASYM
before the answer that it judges by them, and how it hears is the model's (log entry 27). -/
def Obligations.ChainTimeFollowsParent : Prop :=
  ∀ s : State, Ready s →
    (∀ (k : Fin 4) (t1 t2 t3 : W64), feltUsable s k.val = true → linkOver s (64 + k.val) 36 = false →
      let g := linkFree (64 + k.val) 36 s
      let t := tb64 s % 2 ^ 64
      exec (.sync k 0 t1 t2 t3) s = .next (feltNb k.val 0x11 (syncBytes 1 t1.toNat t t)
        (feltNb k.val 0x1A (ctrlSync (s.chain.head || s.chain.chainSync) (cfS s 0x11 k.val 2 2)) g))
      ∧ (s.chain.syncT1 = some t1.toNat → s.chain.parentPort = some k.val → ∃ u, exec (.sync k 1 t1 t2 t3) s = .next u
        ∧ u.chain.thetas = ((((t2.toNat : Int) - (t1.toNat : Int)) - ((t : Int) - (t3.toNat : Int))
            - divRound ((cfS s 0x11 k.val 2 2 - s.chain.parentAsym) * 64) 1000) :: s.chain.thetas).take 10
        ∧ u.chain.syncT1 = none ∧ u.clk = s.clk ∧ u.sent = s.sent ∧ u.cfg = s.cfg))
    ∧ (∀ k : Nat, s.chain.parentPort = some k → s.chain.syncNext ≤ s.clk.ns → exec .syncExchange s =
        .next (feltNb k 0x11 (syncBytes 0 0 0 0) (updChain (fun c => { c with
          syncT1 := none, syncNext := nextDue c.syncNext 100000 s.clk.ns }) s)))
    ∧ (∀ q : FeltPacket, q.ptype = 0x11 → q.payload.length = 32 →
        (u8At q.payload 0 = 0 → u64At (syncStamp q s).1.payload 8 = tb64 s % 2 ^ 64
          ∧ (syncStamp q s).2.chain.syncT1 = some (tb64 s % 2 ^ 64))
        ∧ (u8At q.payload 0 ≠ 0 → u64At (syncStamp q s).1.payload 24 = tb64 s % 2 ^ 64 ∧ (syncStamp q s).2 = s)
        ∧ ∀ i, i < 8 → (syncStamp q s).1.payload[i]? = q.payload[i]?)
    ∧ (s.chain.avgNext ≤ s.clk.ns → s.chain.head = false → s.chain.parentPort.isSome = true → s.chain.thetas ≠ [] →
        s.chain.joining = false → s.chain.search = none → ∃ u, exec .syncAverage s = .next u
          ∧ u.chain.theta = divRound s.chain.thetas.sum (2 * s.chain.thetas.length)
          ∧ u.chain.slew = clampI (-20000) 20000 (divRound (u.chain.theta * 100) 64)
          ∧ u.clk = s.clk ∧ u.cfg = s.cfg ∧ u.hbm = s.hbm)
    ∧ (∀ t : Nat, s.chain.parentLostNs = some t → t + 1000000 ≤ s.clk.ns → s.chain.head = false → s.chain.chainSync = true →
        exec .parentLost s = .next (raise 329 0x03 (ofS 32 s.chain.theta)
          (updChain (fun c => { c with goodUpdates := 0, chainSync := false }) s)))

/-- The shared encoder: R419 and R421. -/
def Obligations.SharedEncoderSamples : Prop :=
  ∀ s : State, Ready s →
    (shareSrc s = s.chain.devId → s.chain.encNext ≤ s.clk.ns → exec .encSend s =
      .next (encDown ⟨encE s (shareEnc s), tb64 s, s.chain.encSent⟩ (updChain (fun c => { c with
        encSent := (c.encSent + 1) % 2 ^ 32, encNext := nextDue c.encNext 1000 s.clk.ns }) s)))
    ∧ (∀ (k : Fin 4) (e t : W64) (number : W32), feltUsable s k.val = true → linkOver s (64 + k.val) 24 = false →
        (s.chain.parentPort ≠ some k.val → exec (.enc k e t number) s = .next (linkFree (64 + k.val) 24 s))
        ∧ (s.chain.parentPort = some k.val → shareSrc s ≠ 0xFF → shareSrc s ≠ s.chain.devId →
            ∃ u, exec (.enc k e t number) s = .next u ∧ u.chain.shareOk = true ∧ u.chain.lastSampleNs = s.clk.ns
              ∧ u.chain.samples.head? = some ⟨e.toInt, (t.toNat : Int) - s.chain.theta, number.toNat⟩
              ∧ u.clk = s.clk ∧ u.cfg = s.cfg ∧ u.hbm = s.hbm ∧ u.cmds = s.cmds))
    ∧ (s.chain.shareOk = true → s.chain.lastSampleNs + 100000 ≤ s.clk.ns → ∃ u, exec .shareLost s = .next u
        ∧ u.chain.shareOk = false ∧ pendBit u 329 = true ∧ u.clk = s.clk ∧ u.cfg = s.cfg ∧ u.hbm = s.hbm)
    ∧ (s.clk.ns < s.chain.lastSampleNs + 100000 → exec .shareLost s = .next s)

/-- Enumeration, failures and repair: R406, R408, R410, R423, R424. BUSY while a search runs is the model's choice (log entry 85),
that a search ends at the command's second row its deduction (log entry 53). -/
def Obligations.ChainSearchAndFailures : Prop :=
  (∀ (s : State) (sq : Fin 1024) (tag : W32) (io : HostIo) (c : Cmd),
    (Starts s sq tag 0xF0 c → s.chain.search = none → exec (.chainEnum sq tag io) s =
      .next (searchBegin (some c.cid) (pm8 c.packet 0x18) (beginWork c 0 s).2))
    ∧ (Starts s sq tag 0xF0 c → s.chain.search ≠ none → exec (.chainEnum sq tag io) s = .next (finishCheck c stBusy s))
    ∧ (CarriesOn s sq tag 0xF0 c → mayRequest s = true → ∀ ns, s.chain.search = some ⟨some c.cid, 0, ns⟩ →
        let s1 := searchEnd 0 s
        exec (.chainEnum sq tag io) s = .next (hostOutAt (fun _ => foundCount s1) ((cmdById s1 c.cid).getD c) (mapBytes s1) io
          (fun c s => finishOk c (foundCount s) (foundCount s) (mapStore s)) s1)))
  ∧ (∀ (s : State) (k : Fin 4), Ready s → cf s 0x11 k.val 0 = 1 → (feltPort s k.val).link.st = 3 →
      let n (m : EnumMsg) : Nat := 4 + (enumBytes m).length
      let g (m : EnumMsg) : State := linkFree (64 + k.val) (n m) s
      (∀ m : EnumMsg, linkOver s (64 + k.val) (n m) = false → m.reply = false → m.serial = ownSerial → exec (.enum k m) s = .next
        (if (feltPort s k.val).loopback then g m
          else linkNotice k.val false (recompute (raise (330 + k.val) 0x03 0 (updFelt k.val (fun p => { p with loopback := true }) (g m))))))
      ∧ (∀ m : EnumMsg, linkOver s (64 + k.val) (n m) = false → m.reply = false → m.serial ≠ ownSerial → ownHead s ≠ [] → m.headSerial ≠ [] → ownHead s ≠ m.headSerial →
          (feltPort s k.val).foreign_ = false → exec (.enum k m) s = .next (enumReply k m (linkNotice k.val false (recompute
            (raise (330 + k.val) 0x02 (serial32 m.serial) (updFelt k.val (fun p => { p with foreign_ := true }) (g m))))))))
  ∧ (∀ (s : State) (k : Fin 4) (h : RouteHdr) (id hops parent pport : Byte) (hd : List Byte) (step : W64), Ready s →
      feltUsable s k.val = true →
      linkOver s (64 + k.val) (4 + (ctrlPayload (.join id hops parent pport ownSerial hd step)).length) = false →
      s.host.heldReads = [] → ∃ u, exec (.ctrl k h (.join id hops parent pport ownSerial hd step)) s = .next u
        ∧ u.chain.devId = id.toNat ∧ u.chain.head = false ∧ u.chain.mapped = true ∧ u.chain.headSerial = hd
        ∧ u.clk.ns = s.clk.ns ∧ u.cfg = s.cfg ∧ u.hbm = s.hbm ∧ u.cmds = s.cmds)
  ∧ (∀ (s : State) (k : Fin 4), Ready s →
      ((feltPort s k.val).link.st = 3 → exec (.feltLinkDown k) s = .next s)
      ∧ ((feltPort s k.val).link.st ≠ 3 → exec (.feltLinkDown k) s = .next (readsRelease (linkNotice k.val false (recompute
          (setFeltPort k.val { feltPort s k.val with queue := (feltPort s k.val).queue.filter fun x => decide (x.dst ≠ 0xFF) } s))))))
  ∧ (∀ (s : State) (sq : Fin 1024) (tag : W32) (c : Cmd), Ready s →
      s.cmds.flight.find? (fun c => decide (c.sq = sq.val ∧ c.tag = tag) && c.sentTo.isSome
        && decide (c.sentNs + 1000 * cf s 0x11 4 4 ≤ s.clk.ns)) = some c →
      exec (.routeTimeout sq tag) s = .next (finish c stUnreachable c.aux 0 c.position s))
  ∧ (∀ (s : State) (d : Fin 64) (reset : Bool), Ready s → s.chain.head = true → (mapEntry s d.val).present = true →
      (mapEntry s d.val).unreachable = true → reachable s d.val = true → exec (.deviceJoined d reset) s =
        .next (raise 329 0x09 (d.val + (if reset then 256 else 0)) (joinSend d.val 0 (updMap d.val (fun e => { e with unreachable := false }) s))))

/-- Supplies, start-up and reset: R51 to R53, R58, R59, R66, R67, R403. TDO drives nothing until the device is ready. The order of the
cells that SAMPLE captures is the model's (log entry 111), and so is what a start after a debug instruction finds in the flash (log
entry 115). -/
def Obligations.SuppliesStartAndReset : Prop :=
  (∀ (s : State) (fl : FlashContent) (temps : List Int),
    (s.boot.phase = .unpowered → s.boot.sysRstLow = false → s.sec.tapHold = false → exec (.powerValid fl temps) s =
      .next (beginStart fl temps (updBoot (fun b => { b with phase := .resetHeld, inRange := b.inRange / 4096 * 4096 + 0xFFF }) s)))
    ∧ (s.boot.phase = .resetHeld → s.sec.tapHold = false → exec (.sysRstNRelease fl temps) s =
        .next (beginStart fl temps (updBoot (fun b => { b with sysRstLow := false }) s)))
    ∧ (s.boot.phase = .testHeld → s.sec.tapHold = true → s.boot.sysRstLow = false →
        let t := beginStart fl temps (updSec (fun x => { x with tapHold := false }) s)
        (∀ i : TapInstr, (i = .samplePreload ∨ i = .idcode ∨ ∃ bs, i = .bypass bs) → exec (.testInstruction i fl temps) s = .next t)
        ∧ exec .dbgChal s = .next (beginStart (Config.startFlash s.free) (Config.startTemps s.free)
          (updSec (fun x => { x with tapHold := false }) { s with free := s.free + 1 })))
    ∧ (Ready s → s.sec.tapHold = false →
        exec (.testInstruction .idcode fl temps) s = .next { s with sent := .tdo ((List.range 32).map (bitOf 0x16408B67)) :: s.sent }
        ∧ (∀ (b : Bool) (bs : List Bool), exec (.testInstruction (.bypass (b :: bs)) fl temps) s =
          .next { s with sent := .tdo (false :: (b :: bs).take bs.length) :: s.sent })
        ∧ ∃ cells, exec (.testInstruction .samplePreload fl temps) s =
            .next { s with free := s.free + 1, sent := .tdo cells :: s.sent }
          ∧ cells.length = 100 ∧ (cells.drop 36).take 48 = (List.range 48).map (ballLevel s)
          ∧ cells.drop 96 = [!s.boot.sysRstLow, !s.pcie.perstLow, !s.boot.tripN, s.boot.devReady])
    ∧ (∀ i : TapInstr, (i = .extest ∨ i = .clamp ∨ i = .highz) → s.boot.phase ≠ .unpowered → s.sec.tapHold = false →
        ∃ t, exec (.testInstruction i fl temps) s = .next t
        ∧ t.boot.phase = .testHeld ∧ t.boot.cause = 1 ∧ t.cmds.flight = [] ∧ t.cfg.vals = [] ∧ t.clk.ns = s.clk.ns))
  ∧ (∀ s : State, (readyDue s = false → exec .deviceReady s = .next s)
    ∧ (readyDue s = true → ∃ t, exec .deviceReady s = .next t ∧ t.boot.phase = .ready ∧ t.boot.readyNs = s.clk.ns
        ∧ t.clk.ns = s.clk.ns ∧ t.sec.fuseSteps = s.sec.fuseSteps))
  ∧ (∀ (s : State) (temps : List Int), s.boot.phase = .thermalHold → s.boot.holdNs + 10000000 ≤ s.clk.ns →
      (hotSensor temps 420 = true → exec (.thermalHoldCheck temps) s = .next (updBoot (fun b => { b with holdNs := b.holdNs + 10000000 }) s))
      ∧ (hotSensor temps 420 = false → exec (.thermalHoldCheck temps) s = .next (updBoot (fun b => { b with
          phase := .starting, tripN := false, resumeNs := s.clk.ns }) s)))
  ∧ (∀ (s : State) (rail : Fin 12), s.boot.phase ≠ .unpowered → s.nvm.page = none → ∃ t, exec (.brownOut rail) s = .next t
      ∧ t.boot.phase = .unpowered ∧ t.boot.cause = 2 ∧ t.boot.inRange = setBitN s.boot.inRange rail false ∧ t.cmds.flight = []
      ∧ t.cfg.vals = [] ∧ t.nvm.mem = s.nvm.mem ∧ t.sec.fuseSteps = s.sec.fuseSteps ∧ t.clk.ns = s.clk.ns)
  ∧ (∀ (s : State) (rail : Fin 13), s.boot.phase ≠ .unpowered →
      exec (.railDip rail false) s = .next (updBoot (fun b => { b with
        inRange := setBitN b.inRange rail false, dipped := setBitN b.dipped rail true }) s)
      ∧ exec (.railDip rail true) s = .next (updBoot (fun b => { b with inRange := setBitN b.inRange rail true }) s))
  ∧ (∀ (s : State) (n : Nat) (taken : Bool), (n < 97 → exec (.sysRstN n taken) s = .next s)
      ∧ (Ready s → 103 ≤ n → s.nvm.page = none → ∃ t, exec (.sysRstN n taken) s = .next t ∧ t.boot.phase = .resetHeld
          ∧ t.boot.cause = 1 ∧ t.boot.sysRstLow = true ∧ t.cmds.flight = [] ∧ t.cfg.vals = [] ∧ t.nvm.mem = s.nvm.mem
          ∧ t.sec.fuseSteps = s.sec.fuseSteps ∧ t.clk.ns = s.clk.ns ∧ t.pcie.perstLow = s.pcie.perstLow))

/-- The images of the power-on profile (R64, R380): one that passes makes its item VALID, one that fails INVALID, with
PROFILE_TABLE for a wrong CRC. -/
def Obligations.ProfileImagesLoad : Prop :=
  ∀ (s : State) (crc : W32) (im : List Byte), Live s →
    (s.boot.images = [] → exec (.profileImageLoaded crc im) s = .next s)
    ∧ (s.boot.images ≠ [] → flashHeld s = true → exec (.profileImageLoaded crc im) s = .next s)
    ∧ (∀ i is, s.boot.images = i :: is → flashHeld s = false → ∃ t, exec (.profileImageLoaded crc im) s = .next t
        ∧ t.boot.images = is ∧ t.clk = s.clk
        ∧ (crc32 im ≠ crc.toNat → t.boot.imagesFailed = s.boot.imagesFailed ++ [i] ∧ pendBit t 325 = true))
    ∧ (∀ i is, s.boot.images = i :: is → flashHeld s = false → let e := profEntry s.boot.profile i
        let s1 := setItem (entryItem e) 3 []
          (updBoot (fun b => { b with images := is, imagesFailed := b.imagesFailed ++ [i] }) (imageRead i s))
        1 ≤ u8At e 1 →
        (crc32 im ≠ crc.toNat → exec (.profileImageLoaded crc im) s = .next (raise 325 0x07 i s1))
        ∧ (crc32 im = crc.toNat → (im.length ≠ u32At e 12 ∨ contentOk s (entryItem e) im = false
            ∨ storeFree s < itemWords s (entryItem e)) → exec (.profileImageLoaded crc im) s = .next s1))
    ∧ (∀ i is, s.boot.images = i :: is → flashHeld s = false → let k := entryItem (profEntry s.boot.profile i)
        let s1 := updBoot (fun b => { b with images := is }) (imageRead i s)
        let s2 := mapImage k im (setItem k 2 im (putImage k 0 im s1))
        crc32 im = crc.toNat → im.length = u32At (profEntry s.boot.profile i) 12 → contentOk s k im = true →
        itemWords s k ≤ storeFree s →
        (k.kind < 0x10 → portImages s1 0x01 0x10 k.owner = true → exec (.profileImageLoaded crc im) s = .next s2)
        ∧ (k.kind < 0x10 → portImages s1 0x01 0x10 k.owner = false → exec (.profileImageLoaded crc im) s =
            .next (portTryStart k.owner (updPort k.owner (fun x => { x with imageWait := false }) s2)))
        ∧ (0x10 ≤ k.kind → k.kind < 0x20 → portImages s1 0x10 0x20 k.owner = true →
            exec (.profileImageLoaded crc im) s = .next s2)
        ∧ (0x10 ≤ k.kind → k.kind < 0x20 → portImages s1 0x10 0x20 k.owner = false → exec (.profileImageLoaded crc im) s =
            .next (dryTiming k.owner (updDry k.owner (fun d => { d with imageWait := false }) s2)))
        ∧ (0x20 ≤ k.kind → exec (.profileImageLoaded crc im) s = .next s2))

/-- R74: the three other events do exactly what PERST_N does (R68, R442); only the pin's level differs. That lost counts and
GLB_FWD_SEL stay and only the commands of the own queues go is the model's deduction (log entry 22). -/
def Obligations.EndpointResetsAlike : Prop :=
  ∀ s : State, ∃ t, exec .perstN s = .next t
    ∧ (t.host.pairs = [] ∧ t.host.dqs = [] ∧ t.host.srs = [] ∧ t.host.evts = [] ∧ t.host.route = [] ∧ t.host.msix = []
      ∧ t.host.bar2Base = 0 ∧ t.host.bar2Dev = 0 ∧ t.cfg.groups = [] ∧ t.pcie.bme = false ∧ t.pcie.perstLow = true)
    ∧ (Ready s → (∀ c ∈ t.cmds.flight, c.origin ≠ .here) ∧ ∀ w ∈ t.cmds.waiting, w.origin ≠ .here)
    ∧ (s.cmds.flight = [] → t.ing = s.ing ∧ t.web = s.web ∧ t.afe = s.afe ∧ t.hbm = s.hbm ∧ t.nvm = s.nvm ∧ t.clk = s.clk
      ∧ t.cfg.vals = s.cfg.vals ∧ t.cfg.accepted = s.cfg.accepted ∧ t.cfg.seq = s.cfg.seq
      ∧ t.host.pend = s.host.pend ∧ t.host.ringLost = s.host.ringLost ∧ t.host.fwdSel = s.host.fwdSel)
    ∧ (let u : State := { t with pcie := { t.pcie with perstLow := s.pcie.perstLow } }
       exec .functionLevelReset s = .next u ∧ exec .d3hotEntry s = .next u ∧ exec .dlDown s = .next u)

/-- The endpoint: R60, R72, R75, R97. That host writes of chained devices wait for Bus Master Enable at the head is the model's
choice (log entry 77). -/
def Obligations.EndpointServesHost : Prop :=
  (∀ s : State, exec .perstNRelease s = .next { s with pcie := { s.pcie with perstLow := false } })
  ∧ (∀ (s : State) (gen : Fin 6) (width : Fin 9), s.pcie.perstLow = false → 1 ≤ gen.val →
      (width.val = 1 ∨ width.val = 2 ∨ width.val = 4 ∨ width.val = 8) →
      let s1 : State := { s with pcie := { s.pcie with linkUp := true, gen := gen.val, width := width.val } }
      (Ready s → exec (.linkChange gen width) s = .next (raise 324 0x01 (gen.val + 16 * width.val) s1))
      ∧ (s.boot.phase = .starting → exec (.linkChange gen width) s = .next s1))
  ∧ (∀ s : State, s.pcie.perstLow = false →
      (s.boot.phase = .starting → configAnswer s = some none)
      ∧ (Ready s → configAnswer s = some (some { subVendor := s.pcie.subVendor, subId := s.pcie.subId })))
  ∧ (∀ s : State, HostOn s →
    (∀ status : W32, exec (.aerUncorr status) s = .next (raise 324 0x02 status.toNat
        { s with pcie := { s.pcie with aer := s.pcie.aer ||| status.toNat } }))
    ∧ exec (.busMasterEnable false) s = .next { s with pcie := { s.pcie with bme := false } }
    ∧ exec (.busMasterEnable true) s = .next (waitingWrite ((List.range 512).foldl (fun s v => msixFlush v s)
        (hwrRelease { s with pcie := { s.pcie with bme := true } }))))

/-- Failures of crystal and AFE link, and rate windows: R8, R23, R28. -/
def Obligations.CrystalAndAfeFailures : Prop :=
  ∀ s : State, Ready s →
    (s.clk.xtalFail = false → exec .xtalFail s = .next (calAbandon (dryStopAll (discardAll true (raise 329 0x01 0
      { s with clk := { s.clk with traceable := false, xtalFail := true }, afe := { s.afe with armWait := 0 } })))))
    ∧ (s.clk.xtalFail = true → exec .xtalFail s = .next s)
    ∧ (s.clk.xtalFail = true → exec .xtalOk s = .next (sramAuto [] ((List.range 4).foldl (fun s u => selfcalWaited u s)
        (raise 329 0x02 0 { s with clk := { s.clk with traceable := true, xtalFail := false } }))))
    ∧ (s.afe.linkOk = true → ∃ t, exec .afeLink s = .next t ∧ t.afe.linkOk = false ∧ t.afe.linkLost = true
        ∧ (∀ n : Nat, n < 16 → bitOf t.afe.arm n = false) ∧ (∀ n : Nat, n < 16 → pendBit t (198 + n) = true)
        ∧ t.clk = s.clk ∧ t.cfg.seq = s.cfg.seq)
    ∧ (s.afe.linkOk = false → s.afe.armWait = 0 → (∀ p, p < 4 → (dry s p).running = false) → exec .afeLinkRestored s =
        .next ((List.range 4).foldl (fun s u => selfcalWaited u s) { s with afe := { s.afe with linkOk := true, linkLost := false } }))
    ∧ (∀ caps : List Nat, (s.clk.ns < s.ing.rateNs + 1000000 → exec (.rateWindowEnd caps) s = .next s)
        ∧ (s.ing.rateNs + 1000000 ≤ s.clk.ns → ∃ t, exec (.rateWindowEnd caps) s = .next t
          ∧ t.ing.rateNs = s.ing.rateNs + 1000000 ∧ t.ing.tokens = []
          ∧ (∀ w, w < 9 → (wire t w).cap = caps.getD w 0 ∧ (wire t w).load = tblGet 0 s.ing.tokens w / 1000)
          ∧ t.clk = s.clk ∧ t.cfg = s.cfg ∧ t.hbm = s.hbm ∧ t.cmds = s.cmds))

/-- Self-test: R427, R428, R430, R432. -/
def Obligations.SelfTestRuns : Prop :=
  (∀ (s : State) (sq : Fin 1024) (tag : W32) (c : Cmd), Starts s sq tag 0xD0 c →
    let blk := addrBlk (pkTarget c.packet)
    let inst := pkInst c.packet
    let mask := pm32 c.packet 0x18
    ((s.bist.run.isSome = true ∨ bistIdle s blk inst = false) → exec (.bistRun sq tag) s = .next (finish c stBusy 0 0 0 s))
    ∧ (s.bist.run = none → bistIdle s blk inst = true → exec (.bistRun sq tag) s =
        .next (bistBegin (some c.cid) blk inst mask (beginWork c (bistPlan blk mask).length s).2)))
  ∧ (∀ (s : State) (sig : List Byte) (rows : List W32) (tests : List Bool), Ready s →
    (s.bist.run = none → exec (.bistBlockEnd sig rows tests) s = .next s)
    ∧ (∀ (r : BistRun) (part i : Nat), s.bist.run = some r → (bistPlan r.blk r.mask)[r.done]? = some (part, i) → part ≠ 1 →
        r.cid = none → r.done + 1 < (bistPlan r.blk r.mask).length → exec (.bistBlockEnd sig rows tests) s =
          .next { s with bist := { s.bist with run := some { r with
            done := r.done + 1, failed := r.failed + (if sig = Config.bistSignature r.blk part i then 0 else 1), sigs := r.sigs ++ sig } } }))
  ∧ (∀ s : State, Live s →
    (spareDue s = none → exec .sparePeriod s = .next s)
    ∧ (∀ t : Nat, spareDue s = some t →
      (s.clk.ns < t → exec .sparePeriod s = .next s)
      ∧ (t ≤ s.clk.ns → s.bist.run.isSome = true → exec .sparePeriod s = .next (raise 328 0x02 0
          { s with bist := { s.bist with spareRetryNs := some (t + 3600000000000) } }))
      ∧ (t ≤ s.clk.ns → s.bist.run = none → bistIdle s 3 (spareNow s) = true → ∃ u, exec .sparePeriod s = .next u
          ∧ (∃ r, u.bist.run = some r ∧ r.blk = 3 ∧ r.inst = spareNow s ∧ r.mask = cf s 0x12 0 2 ∧ r.done = 0 ∧ r.cid = none)
          ∧ u.bist.spareRetryNs = none ∧ u.clk = s.clk ∧ u.cfg = s.cfg ∧ u.hbm = s.hbm ∧ u.cmds = s.cmds)))

/-- Tender restarts (R19, R20). A watchdog restart pauses its tender and aborts the running commands that are its own; a command
that only reads shows it by itself. When a restart ends its tender goes on, and with the last one command processing: the
completions that waited are written, the aborted commands complete with ABORTED, an FW_ACTIVATE may complete, and page writes go
on. What T2 deferred (R369) follows its own restart. -/
def Obligations.TenderRestartsAbort : Prop :=
  ∀ (s : State) (t : Fin 4), Ready s →
    (∃ u, exec (.tenderWatchdog t) s = .next u ∧ u.cmds.paused.contains t.val = true ∧ pendBit u (335 + t.val) = true ∧ u.clk = s.clk)
    ∧ (s.cmds.flight = [] → s.bist.run = none → s.cmds.paused.contains t.val = false → exec (.tenderWatchdog t) s =
      .next (raise (335 + t.val) 0x02 0 (countLife 23 { s with cmds := { s.cmds with paused := s.cmds.paused ++ [t.val] } })))
    ∧ (∀ c : Cmd, s.cmds.flight = [c] → c.started = true → c.sentTo = none → pkOp c.packet = 0x00B0 → t.val = 3 →
        s.cmds.paused.contains t.val = false → exec (.tenderWatchdog t) s =
      .next (raise (335 + t.val) 0x02 1 (countLife 23 { s with cmds := { s.cmds with
        flight := [], abortedHeld := s.cmds.abortedHeld ++ [{ c with position := stopPosition s c }]
        paused := s.cmds.paused ++ [t.val] } })))
    ∧ (s.cmds.paused ≠ [] → ∀ (sq : Fin 1024) (tag : W32), exec (.echo sq tag) s = .next s ∧ exec (.progress sq tag) s = .next s
        ∧ exec (.abort sq tag) s = .next s ∧ exec (.bistRun sq tag) s = .next s)
    ∧ (let resumes (u : State) : State := if t.val = 2 then calResumes u else u
       let s1 : State := { s with cmds := { s.cmds with paused := s.cmds.paused.erase t.val } }
       s.cmds.paused.contains t.val = true →
        (s.cmds.paused.erase t.val ≠ [] → exec (.tenderRestartEnd t) s = .next (resumes (nvmPump s1)))
        ∧ (s.cmds.paused.erase t.val = [] → exec (.tenderRestartEnd t) s = .next (resumes (activateEnds (nvmPump (waitingWrite
            (s.cmds.abortedHeld.foldl (fun s c => finish c stAborted (percentOf c) 0 c.position s)
              { s1 with cmds := { s1.cmds with abortedHeld := [] } })))))))
    ∧ (s.cmds.paused.contains t.val = false → exec (.tenderRestartEnd t) s = .next s)

/-- Raising a source: the code of R93, with the meeting of R94. -/
def Obligations.RaiseRunsItsCode : Prop :=
  ∀ (s : State) (met : Bool) (n cause detail : Nat), n < 512 → s.chain.head = true → mayRequest s = true →
    let r := routeOf s n
    let t := raiseCore met n cause detail s
    let msg := bitOf r 9 && (!pendBit s n || met)
    let v := tblGet {} s.host.msix (bits r 0 9)
    let out : List Emit := if msg && !v.masked then [.msix (bits r 0 9) v.addr v.data] else []
    (∀ g : EvtRing, bitOf r 16 = true → tblFind s.host.evts (bits r 10 6) = some g →
      ((g.tail - g.head).toNat < 2 ^ g.log2 →
        t.sent = out ++ .hostWrite (g.base + g.tail.toNat % 2 ^ g.log2 * 16)
          (leBytes 2 n ++ leBytes 1 cause ++ leBytes 1 ((1 - g.tail.toNat / 2 ^ g.log2 % 2) + 2 * (if g.lost then 1 else 0) + 4 * s.chain.devId)
            ++ leBytes 4 detail ++ leBytes 8 s.clk.tb) :: s.sent
        ∧ t.host.evts = tblSet s.host.evts (bits r 10 6) { g with tail := g.tail + 1, lost := false } ∧ t.host.ringLost = s.host.ringLost)
      ∧ (2 ^ g.log2 ≤ (g.tail - g.head).toNat → t.sent = out ++ s.sent
        ∧ t.host.evts = tblSet s.host.evts (bits r 10 6) { g with lost := true }
        ∧ tblGet 0 t.host.ringLost (bits r 10 6) = min 65535 (tblGet 0 s.host.ringLost (bits r 10 6) + 1)))
    ∧ ((bitOf r 16 = false ∨ tblFind s.host.evts (bits r 10 6) = none) →
        t.sent = out ++ s.sent ∧ t.host.evts = s.host.evts ∧ t.host.ringLost = s.host.ringLost)
    ∧ (∀ m : Nat, pendBit t m = (pendBit s m || decide (m = n)))
    ∧ (∀ m : Nat, t.host.pba.getLsbD m = (s.host.pba.getLsbD m || (msg && v.masked && decide (m = bits r 0 9))))
    ∧ t.clk = s.clk ∧ t.cfg = s.cfg ∧ t.cmds = s.cmds ∧ t.hbm = s.hbm ∧ t.nvm = s.nvm ∧ t.chain = s.chain

/-- A final completion: R86, R90, R104 by way of ECHO. -/
def Obligations.FinalCompletionWritten : Prop :=
  ∀ (s : State) (sq : Fin 1024) (tag : W32) (c : Cmd) (p : Pair), Starts s sq tag 4 c → c.origin = .here → c.slot = none →
    s.chain.head = true → mayRequest s = true → tblFind s.host.pairs sq.val = some p → p.group = none →
    s.host.pairs.all (fun x => !x.2.draining) = true →
    ∃ t, exec (.echo sq tag) s = .next t
      ∧ t.sent = .hostWrite (p.cqBase + p.cqTail.toNat % 2 ^ p.cqLog2 * 32)
          (leBytes 4 tag.toNat ++ leBytes 2 0 ++ leBytes 1 100 ++ leBytes 1 (1 - p.cqTail.toNat / 2 ^ p.cqLog2 % 2)
            ++ leBytes 8 (u64At c.packet 0x18) ++ leBytes 8 0 ++ leBytes 4 p.fetch.toNat ++ zeros 4) :: s.sent
      ∧ t.host.pairs = tblSet s.host.pairs sq.val { p with cqTail := p.cqTail + 1 }
      ∧ t.cmds.flight = cmdRemove c s.cmds.flight ∧ t.cmds.finished.contains (sq.val, tag) = true
      ∧ t.hbm = s.hbm ∧ t.nvm = s.nvm ∧ t.cfg = s.cfg ∧ t.clk = s.clk ∧ t.host.pend = s.host.pend ∧ t.pending = s.pending
end

