-- ==== Sys2Proof/Laws/Frames.lean ====
section
/-! SUPPORT. What the lowest operations of outbound traffic change: the felt ports, the hold and the log of what is
sent, and nothing else. -/

namespace Sys2Proof.Machine

/-- `t` is `s` with other felt ports, another hold, another T1 of the exchange in progress and another log of what is sent. -/
def TrafficOnly (s t : State) : Prop :=
  t = { s with chain := { s.chain with ports := t.chain.ports, hold := t.chain.hold, syncT1 := t.chain.syncT1 }, sent := t.sent }

theorem TrafficOnly.refl (s : State) : TrafficOnly s s := rfl

theorem TrafficOnly.trans {s t u : State} (h : TrafficOnly s t) (k : TrafficOnly t u) : TrafficOnly s u := by
  unfold TrafficOnly at *
  rw [k, h]

theorem emit_traffic (e : Emit) (s : State) : TrafficOnly s (emit e s) := rfl

theorem setFeltPort_traffic (k : Nat) (p : FeltPort) (s : State) : TrafficOnly s (setFeltPort k p s) := rfl

theorem syncStamp_traffic (q : FeltPacket) (s : State) : TrafficOnly s (syncStamp q s).2 := by
  simp only [syncStamp]
  split
  · rfl
  · split <;> rfl

theorem feltPump_traffic (k n : Nat) (s : State) : TrafficOnly s (feltPump k n s) := by
  induction n generalizing s with
  | zero => exact .refl s
  | succ n ih =>
    rw [feltPump]
    split
    · exact .refl s
    · split
      · exact .trans (.trans (syncStamp_traffic _ s) (.trans (setFeltPort_traffic k _ _) (emit_traffic _ _))) (ih _)
      · exact .refl s

theorem feltOn_traffic (k : Nat) (p : FeltPacket) (s : State) : TrafficOnly s (feltOn k p s) :=
  .trans (setFeltPort_traffic k _ s) (feltPump_traffic _ _ _)

theorem feltRoute_traffic (p : FeltPacket) (s : State) : TrafficOnly s (feltRoute p s) := by
  simp only [feltRoute]
  split
  · split
    · exact feltOn_traffic _ _ _
    · rfl
  · rfl

theorem feltTo_traffic (d t : Nat) (bs : List Byte) (s : State) : TrafficOnly s (feltTo d t bs s) := feltRoute_traffic _ s

theorem hwrSend_traffic (a : Nat) (cs : List (List Byte)) (s : State) : TrafficOnly s (hwrSend a cs s) := by
  induction cs generalizing a s with
  | nil => exact .refl s
  | cons c cs ih => exact .trans (feltTo_traffic _ _ _ _) (ih _ _)

theorem hostWrite_traffic (a : Nat) (bs : List Byte) (s : State) : TrafficOnly s (hostWrite a bs s) := by
  rw [hostWrite]
  split
  · exact emit_traffic _ _
  · exact hwrSend_traffic _ _ _

/-- Host writes of the head: one entry in the log. -/
theorem hostWrite_head {s : State} (a : Nat) (bs : List Byte) (h : s.chain.head = true) :
    hostWrite a bs s = { s with sent := .hostWrite a bs :: s.sent } := by
  simp [hostWrite, h, emit]

theorem hostWrite_devId (a : Nat) (bs : List Byte) (s : State) : (hostWrite a bs s).chain.devId = s.chain.devId := by
  rw [hostWrite_traffic a bs s]

end Sys2Proof.Machine
end

