-- ==== Sys2Proof/Laws/Events.lean ====
section
/-! SUPPORT. All that a raise, a group notification and a final completion can change: queue and event state of the host
side, the event log in waiting, commands in flight, and outbound traffic. -/

namespace Sys2Proof.Machine

/-- `t` is `s` but for event rings, pending bits, held messages, queue pairs and groups, the waiting event log, the
commands' bookkeeping, felt ports, the hold and the log of what is sent. -/
def BookOnly (s t : State) : Prop :=
  t = { s with
    host := { s.host with evts := t.host.evts, ringLost := t.host.ringLost, pend := t.host.pend, pba := t.host.pba
                          grpRun := t.host.grpRun, pairs := t.host.pairs, q0Draining := t.host.q0Draining, q0Fault := t.host.q0Fault }
    nvm := { s.nvm with logQueue := t.nvm.logQueue, logLast := t.nvm.logLast, lost := t.nvm.lost, lostNoted := t.nvm.lostNoted }
    cmds := t.cmds
    chain := { s.chain with ports := t.chain.ports, hold := t.chain.hold, syncT1 := t.chain.syncT1 }
    sent := t.sent }

theorem BookOnly.refl (s : State) : BookOnly s s := rfl

theorem BookOnly.trans {s t u : State} (h : BookOnly s t) (k : BookOnly t u) : BookOnly s u := by
  unfold BookOnly at *
  rw [k, h]

theorem TrafficOnly.book {s t : State} (h : TrafficOnly s t) : BookOnly s t := by
  unfold BookOnly
  rw [h]

theorem msixSend_book (v : Nat) (s : State) : BookOnly s (msixSend v s) := by
  simp only [msixSend]
  split
  · split
    · rfl
    · exact (emit_traffic _ _).book
  · exact (feltTo_traffic _ _ _ _).book

theorem setPend_book (n : Nat) (s : State) : BookOnly s (setPend n s) := rfl

theorem evtRingWrite_book (e n c d : Nat) (s : State) : BookOnly s (evtRingWrite e n c d s) := by
  simp only [evtRingWrite]
  split
  · exact .refl s
  · split
    · exact .trans (hostWrite_traffic _ _ _).book rfl
    · rfl

theorem raiseCore_book (met : Bool) (n c d : Nat) (s : State) : BookOnly s (raiseCore met n c d s) := by
  have h : BookOnly s (if bitOf (routeOf s n) 16 then evtRingWrite (bits (routeOf s n) 10 6) n c d s else s) := by
    split
    · exact evtRingWrite_book _ _ _ _ _
    · exact .refl s
  rw [raiseCore]
  generalize (if bitOf (routeOf s n) 16 then evtRingWrite (bits (routeOf s n) 10 6) n c d s else s) = s1 at h
  show BookOnly s (if (bitOf (routeOf s n) 9 && (!pendBit s1 n || met)) = true then _ else _)
  split
  · exact .trans h (.trans (setPend_book _ _) (msixSend_book _ _))
  · exact .trans h (setPend_book _ _)

theorem logRaise_book (n c d v : Nat) (s : State) : BookOnly s (logRaise n c d v s) := by
  simp only [logRaise]
  split
  · rfl
  · split <;> rfl

theorem raiseMet_book (met : Bool) (n c d : Nat) (s : State) : BookOnly s (raiseMet met n c d s) := by
  have h := raiseCore_book met n c d s
  simp only [raiseMet]
  split
  · exact h
  · split
    · refine .trans (.trans h (logRaise_book n c d (severity n c d) _)) (.trans ?_ (logRaise_book _ _ _ _ _))
      refine .trans ?_ (raiseCore_book _ _ _ _ _)
      rfl
    · exact .trans h (logRaise_book _ _ _ _ _)

/-- A raise changes bookkeeping alone. -/
theorem raise_book (n c d : Nat) (s : State) : BookOnly s (raise n c d s) := raiseMet_book false n c d s

theorem grpNotify_book (g : Nat) (s : State) : BookOnly s (grpNotify g s) := by
  rw [grpNotify]
  refine .trans ?_ (raise_book _ _ _ _)
  rfl

theorem grpEval_book (g : Nat) (s : State) : BookOnly s (grpEval g s) := by
  rw [grpEval]
  split
  · exact .refl s
  · split
    · exact .refl s
    · split
      · exact grpNotify_book g s
      · split
        · exact grpNotify_book g s
        · exact .refl s

theorem grpAdd_book (g : Option Nat) (n : Nat) (s : State) : BookOnly s (grpAdd g n s) := by
  unfold grpAdd
  split
  · exact .refl s
  · split
    · exact .refl s
    · refine .trans ?_ (grpEval_book _ _)
      rfl

theorem grpSettle_book (g : Option Nat) (s : State) : BookOnly s (grpSettle g s) := by
  unfold grpSettle
  split
  · exact .refl s
  · split
    · exact .refl s
    · rfl

theorem pairs_book (t : Tbl Pair) (s : State) : BookOnly s { s with host := { s.host with pairs := t } } := rfl

theorem writeCqe_book (sq : Nat) (tag : W32) (st pc rs ps : Nat) (i : Bool) (s : State) :
    BookOnly s (writeCqe sq tag st pc rs ps i s) := by
  unfold writeCqe
  split
  · exact .refl s
  · refine .trans ?_ (grpAdd_book _ _ _)
    exact .trans (hostWrite_traffic _ _ _).book (pairs_book _ _)

theorem slotDone_book (c : Cmd) (st pc ps : Nat) (s : State) : BookOnly s (slotDone c st pc ps s) := by
  unfold slotDone
  split <;> rfl

theorem cmds_book (x : Cmds) (s : State) : BookOnly s { s with cmds := x } := rfl

theorem cplWrite_book (w : Waiting) (s : State) : BookOnly s (cplWrite w s) := by
  unfold cplWrite
  split
  · exact writeCqe_book _ _ _ _ _ _ _ _
  · exact (feltTo_traffic _ _ _ _).book
  · exact (feltTo_traffic _ _ _ _).book

theorem finishOnly_book (c : Cmd) (st pc rs ps : Nat) (s : State) : BookOnly s (finishOnly c st pc rs ps s) := by
  simp only [finishOnly]
  generalize hs : slotDone c st pc ps _ = s2
  have h : BookOnly s s2 := by
    rw [← hs]
    exact .trans (cmds_book _ _) (slotDone_book c st pc ps _)
  split
  · exact .trans h (cplWrite_book _ _)
  · exact .trans h (cmds_book _ _)

theorem removePair_book (sq : Nat) (s : State) : BookOnly s (removePair sq s) := by
  simp only [removePair]
  refine .trans ?_ (grpSettle_book _ _)
  split <;> rfl

theorem settlePairs_book (n : Nat) (s : State) : BookOnly s (settlePairs n s) := by
  induction n generalizing s with
  | zero => exact .refl s
  | succ n ih =>
    rw [settlePairs]
    split
    · exact .refl s
    · simp only []
      split
      · exact .trans (removePair_book _ _) (.trans (finishOnly_book _ _ _ _ _ _) (ih _))
      · exact .trans (removePair_book _ _) (ih _)

/-- A final completion changes bookkeeping alone. -/
theorem finish_book (c : Cmd) (st pc rs ps : Nat) (s : State) : BookOnly s (finish c st pc rs ps s) :=
  .trans (finishOnly_book c st pc rs ps s) (settlePairs_book _ _)

/-! What bookkeeping leaves. -/

theorem BookOnly.clk {s t : State} (h : BookOnly s t) : t.clk = s.clk := by rw [h]
theorem BookOnly.boot {s t : State} (h : BookOnly s t) : t.boot = s.boot := by rw [h]
theorem BookOnly.cfg {s t : State} (h : BookOnly s t) : t.cfg = s.cfg := by rw [h]
theorem BookOnly.ing {s t : State} (h : BookOnly s t) : t.ing = s.ing := by rw [h]
theorem BookOnly.web {s t : State} (h : BookOnly s t) : t.web = s.web := by rw [h]
theorem BookOnly.afe {s t : State} (h : BookOnly s t) : t.afe = s.afe := by rw [h]
theorem BookOnly.hbm {s t : State} (h : BookOnly s t) : t.hbm = s.hbm := by rw [h]
theorem BookOnly.nvmMem {s t : State} (h : BookOnly s t) : t.nvm.mem = s.nvm.mem := by rw [h]
theorem BookOnly.pending {s t : State} (h : BookOnly s t) : t.pending = s.pending := by rw [h]

end Sys2Proof.Machine
end

