-- ==== Sys2Proof/Laws/Mem.lean ====
section
/-! SUPPORT. Byte memories: a write keeps the canonical form, reads back, and leaves every other byte. -/

namespace Sys2Proof.Machine

theorem memWfFrom_mono {u : Byte} {lo lo' : Nat} {m : Mem} (h : lo' ≤ lo) (w : memWfFrom u lo m = true) :
    memWfFrom u lo' m = true := by
  cases m with
  | nil => rfl
  | cons x t =>
    obtain ⟨k, b⟩ := x
    simp only [memWfFrom, Bool.and_eq_true, decide_eq_true_eq] at *
    exact ⟨⟨by omega, w.1.2⟩, w.2⟩

theorem memWfFrom_memWrite {u : Byte} {m : Mem} {lo a : Nat} (v : Byte) (w : memWfFrom u lo m = true) (h : lo ≤ a) :
    memWfFrom u lo (memWrite u m a v) = true := by
  induction m generalizing lo with
  | nil =>
    by_cases hv : v = u <;> simp [memWrite, memWfFrom, hv, h]
  | cons x t ih =>
    obtain ⟨k, b⟩ := x
    simp only [memWfFrom, Bool.and_eq_true, decide_eq_true_eq] at w
    simp only [memWrite]
    split
    · rename_i hk
      split
      · exact memWfFrom_mono (by omega) w.2
      · rename_i hv
        simp only [memWfFrom, Bool.and_eq_true, decide_eq_true_eq]
        exact ⟨⟨h, hv⟩, by rw [hk]; exact w.2⟩
    · split
      · rename_i hk hlt
        split
        · simp only [memWfFrom, Bool.and_eq_true, decide_eq_true_eq]; exact w
        · rename_i hv
          simp only [memWfFrom, Bool.and_eq_true, decide_eq_true_eq]
          exact ⟨⟨h, hv⟩, ⟨by omega, w.1.2⟩, w.2⟩
      · simp only [memWfFrom, Bool.and_eq_true, decide_eq_true_eq]
        exact ⟨w.1, ih w.2 (by omega)⟩

/-- Writing one byte keeps the canonical form. -/
theorem memWf_memWrite {u : Byte} {m : Mem} (a : Nat) (v : Byte) (w : memWf u m = true) : memWf u (memWrite u m a v) = true :=
  memWfFrom_memWrite v w (Nat.zero_le a)

/-- Writing bytes keeps the canonical form. -/
theorem memWf_memWriteN {u : Byte} {m : Mem} (a : Nat) (bs : List Byte) (w : memWf u m = true) :
    memWf u (memWriteN u m a bs) = true := by
  induction bs generalizing m a with
  | nil => exact w
  | cons b bs ih => exact ih (a + 1) (memWf_memWrite a b w)

theorem memRead_below {u : Byte} {m : Mem} {lo a : Nat} (w : memWfFrom u lo m = true) (h : a < lo) : memRead u m a = u := by
  cases m with
  | nil => rfl
  | cons x t =>
    obtain ⟨k, b⟩ := x
    simp only [memWfFrom, Bool.and_eq_true, decide_eq_true_eq] at w
    rw [memRead, if_neg (by omega), if_pos (by omega)]

theorem memRead_memWrite_from {u : Byte} {m : Mem} {lo : Nat} (a b : Nat) (v : Byte) (w : memWfFrom u lo m = true) :
    memRead u (memWrite u m a v) b = if b = a then v else memRead u m b := by
  induction m generalizing lo with
  | nil =>
    by_cases hv : v = u
    · simp [memWrite, memRead, hv]
    · by_cases hb : b = a
      · simp [memWrite, memRead, hv, hb]
      · simp [memWrite, memRead, hv, hb]
  | cons x t ih =>
    obtain ⟨k, c⟩ := x
    simp only [memWfFrom, Bool.and_eq_true, decide_eq_true_eq] at w
    simp only [memWrite]
    split
    · rename_i hk
      subst hk
      split
      · rename_i hv
        subst hv
        by_cases hb : b = a
        · subst hb
          rw [if_pos rfl, memRead_below w.2 (by omega)]
        · rw [if_neg hb, memRead, if_neg hb]
          split
          · rename_i hlt
            exact memRead_below w.2 (by omega)
          · rfl
      · by_cases hb : b = a
        · simp [memRead, hb]
        · simp [memRead, hb]
    · rename_i hk
      split
      · rename_i hlt
        split
        · rename_i hv
          subst hv
          by_cases hb : b = a
          · subst hb
            rw [if_pos rfl, memRead, if_neg hk, if_pos hlt]
          · rw [if_neg hb]
        · by_cases hb : b = a
          · simp [memRead, hb]
          · rw [memRead, if_neg hb, if_neg hb]
            split
            · rename_i hlt2
              rw [memRead, if_neg (by omega), if_pos (by omega)]
            · rfl
      · by_cases hb : b = k
        · subst hb
          rw [memRead, if_pos rfl, if_neg (Ne.symm hk), memRead, if_pos rfl]
        · rw [memRead, if_neg hb, memRead, if_neg hb]
          split
          · rename_i hlt2
            rw [if_neg (by omega)]
          · exact ih w.2

/-- A byte written reads back, and every other byte reads as before. -/
theorem memRead_memWrite {u : Byte} {m : Mem} (a b : Nat) (v : Byte) (w : memWf u m = true) :
    memRead u (memWrite u m a v) b = if b = a then v else memRead u m b :=
  memRead_memWrite_from a b v w

/-- Bytes outside those written read as before. -/
theorem memRead_memWriteN_other {u : Byte} {m : Mem} (a b : Nat) (bs : List Byte) (w : memWf u m = true)
    (h : b < a ∨ a + bs.length ≤ b) : memRead u (memWriteN u m a bs) b = memRead u m b := by
  induction bs generalizing m a with
  | nil => rfl
  | cons c bs ih =>
    simp only [List.length_cons] at h
    rw [memWriteN, ih (a + 1) (memWf_memWrite a c w) (by omega), memRead_memWrite a b c w, if_neg (by omega)]

/-- Bytes written read back. -/
theorem memReadN_memWriteN {u : Byte} {m : Mem} (a : Nat) (bs : List Byte) (w : memWf u m = true) :
    memReadN u (memWriteN u m a bs) a bs.length = bs := by
  induction bs generalizing m a with
  | nil => rfl
  | cons c bs ih =>
    have w1 := memWf_memWrite a c w
    simp only [List.length_cons, memReadN, memWriteN]
    rw [ih (a + 1) w1, memRead_memWriteN_other (a + 1) a bs w1 (by omega), memRead_memWrite a a c w, if_pos rfl]

end Sys2Proof.Machine
end

