-- ==== Sys2Proof/Laws/PerInstr.lean ====
section
/-! SUPPORT. Per command: the opcode table gives its row no bits, so no word of the table spells it. -/

namespace Sys2Proof.Laws.Unspelled

/-- No word of the table's bits spells the command. -/
def Statement (i : Instr) : Prop := ∀ nbits w : Nat, decodeTableWord nbits w ≠ some i

/-- The decoder answers no command. -/
theorem of_none (i : Instr) : Statement i := fun _ _ h => nomatch h

theorem identify (sq : Fin 1024) (tag : W32) (io : HostIo) : Statement (.identify sq tag io) := of_none _
theorem progress (sq : Fin 1024) (tag : W32) : Statement (.progress sq tag) := of_none _
theorem abort (sq : Fin 1024) (tag : W32) : Statement (.abort sq tag) := of_none _
theorem echo (sq : Fin 1024) (tag : W32) : Statement (.echo sq tag) := of_none _
theorem cfgStage (sq : Fin 1024) (tag : W32) (data : HostRead) : Statement (.cfgStage sq tag data) := of_none _
theorem cfgCommit (sq : Fin 1024) (tag : W32) : Statement (.cfgCommit sq tag) := of_none _
theorem cfgCommitDiscard (sq : Fin 1024) (tag : W32) : Statement (.cfgCommitDiscard sq tag) := of_none _
theorem cfgRead (sq : Fin 1024) (tag : W32) (io : HostIo) : Statement (.cfgRead sq tag io) := of_none _
theorem laneTrain (sq : Fin 1024) (tag : W32) : Statement (.laneTrain sq tag) := of_none _
theorem laneTest (sq : Fin 1024) (tag : W32) : Statement (.laneTest sq tag) := of_none _
theorem portStart (sq : Fin 1024) (tag : W32) : Statement (.portStart sq tag) := of_none _
theorem portStop (sq : Fin 1024) (tag : W32) : Statement (.portStop sq tag) := of_none _
theorem tableLoad (sq : Fin 1024) (tag : W32) (data : HostRead) : Statement (.tableLoad sq tag data) := of_none _
theorem reprocess (sq : Fin 1024) (tag : W32) : Statement (.reprocess sq tag) := of_none _
theorem shutter (sq : Fin 1024) (tag : W32) : Statement (.shutter sq tag) := of_none _
theorem rulesLoad (sq : Fin 1024) (tag : W32) (data : HostRead) : Statement (.rulesLoad sq tag data) := of_none _
theorem queueCreate (sq : Fin 1024) (tag : W32) : Statement (.queueCreate sq tag) := of_none _
theorem queueDelete (sq : Fin 1024) (tag : W32) : Statement (.queueDelete sq tag) := of_none _
theorem markFire (sq : Fin 1024) (tag : W32) : Statement (.markFire sq tag) := of_none _
theorem adcSelfcal (sq : Fin 1024) (tag : W32) : Statement (.adcSelfcal sq tag) := of_none _
theorem calibrate (sq : Fin 1024) (tag : W32) (tests : List Bool) : Statement (.calibrate sq tag tests) := of_none _
theorem nvmRead (sq : Fin 1024) (tag : W32) (io : HostIo) : Statement (.nvmRead sq tag io) := of_none _
theorem nvmWrite (sq : Fin 1024) (tag : W32) (data : HostRead) : Statement (.nvmWrite sq tag data) := of_none _
theorem attest (sq : Fin 1024) (tag : W32) (io : HostIo) : Statement (.attest sq tag io) := of_none _
theorem fwStage (sq : Fin 1024) (tag : W32) (data : HostRead) (n : Nat) (back : List Byte) : Statement (.fwStage sq tag data n back) := of_none _
theorem fwActivate (sq : Fin 1024) (tag : W32) (image : List Byte) : Statement (.fwActivate sq tag image) := of_none _
theorem certRead (sq : Fin 1024) (tag : W32) (io : HostIo) : Statement (.certRead sq tag io) := of_none _
theorem bistRun (sq : Fin 1024) (tag : W32) : Statement (.bistRun sq tag) := of_none _
theorem wireSwap (sq : Fin 1024) (tag : W32) : Statement (.wireSwap sq tag) := of_none _
theorem chainEnum (sq : Fin 1024) (tag : W32) (io : HostIo) : Statement (.chainEnum sq tag io) := of_none _
theorem commandFetch (sq : Fin 1024) (entry : Fetched) : Statement (.commandFetch sq entry) := of_none _
theorem interimCompletion (sq : Fin 1024) (tag : W32) : Statement (.interimCompletion sq tag) := of_none _
theorem pair0Create (value : W32) : Statement (.pair0Create value) := of_none _
theorem pair0Delete (value : W32) : Statement (.pair0Delete value) := of_none _
theorem dbSqTail (q : Fin 1024) (v : W32) : Statement (.dbSqTail q v) := of_none _
theorem dbCqHead (q : Fin 1024) (v : W32) : Statement (.dbCqHead q v) := of_none _
theorem dbSrHead (r : Fin 256) (v : W32) : Statement (.dbSrHead r v) := of_none _
theorem dbEvtHead (e : Fin 64) (v : W32) : Statement (.dbEvtHead e v) := of_none _
theorem dbDqHead (v : W32) : Statement (.dbDqHead v) := of_none _
theorem doorbellPageWrite (dev : Fin 64) (off : BitVec 16) (v : W32) : Statement (.doorbellPageWrite dev off v) := of_none _
theorem glbBar2Base (v : W64) : Statement (.glbBar2Base v) := of_none _
theorem bar2Access (off : BitVec 36) (acc : Bar2) : Statement (.bar2Access off acc) := of_none _
theorem forwardedAccess (off : BitVec 20) (acc : RegAccess) : Statement (.forwardedAccess off acc) := of_none _
theorem evtGrp (g : Fin 160) (v : W32) : Statement (.evtGrp g v) := of_none _
theorem evtPend (w : Fin 16) (v : W32) (met : Option (Fin 32 × BitVec 8 × W32)) : Statement (.evtPend w v met) := of_none _
theorem mrkArm (v : W32) : Statement (.mrkArm v) := of_none _
theorem wireHistLookup (v : W64) : Statement (.wireHistLookup v) := of_none _
theorem hkSwtrig (u : Fin 4) (v : W32) : Statement (.hkSwtrig u v) := of_none _
theorem masterGo (port : Fin 4) (v : W32) : Statement (.masterGo port v) := of_none _
theorem registerWrite (bar : HostBar) (off : BitVec 24) (size : Nat) (v : W64) : Statement (.registerWrite bar off size v) := of_none _
theorem registerReadClear (bar : HostBar) (off : BitVec 24) (size : Nat) : Statement (.registerReadClear bar off size) := of_none _
theorem splitReadLow (off : BitVec 24) : Statement (.splitReadLow off) := of_none _
theorem splitReadHigh (off : BitVec 24) : Statement (.splitReadHigh off) := of_none _
theorem powerValid (flash : FlashContent) (temps : List Int) : Statement (.powerValid flash temps) := of_none _
theorem deviceReady : Statement (.deviceReady) := of_none _
theorem profileImageLoaded (crc : W32) (image : List Byte) : Statement (.profileImageLoaded crc image) := of_none _
theorem thermalHoldCheck (temps : List Int) : Statement (.thermalHoldCheck temps) := of_none _
theorem brownOut (rail : Fin 12) : Statement (.brownOut rail) := of_none _
theorem railDip (rail : Fin 13) (back : Bool) : Statement (.railDip rail back) := of_none _
theorem sysRstN (lowNs : Nat) (taken : Bool) : Statement (.sysRstN lowNs taken) := of_none _
theorem perstN : Statement (.perstN) := of_none _
theorem functionLevelReset : Statement (.functionLevelReset) := of_none _
theorem d3hotEntry : Statement (.d3hotEntry) := of_none _
theorem dlDown : Statement (.dlDown) := of_none _
theorem busMasterEnable (on : Bool) : Statement (.busMasterEnable on) := of_none _
theorem vvalveOut (mv : W32) : Statement (.vvalveOut mv) := of_none _
theorem vvalveOk (mv : W32) : Statement (.vvalveOk mv) := of_none _
theorem xtalFail : Statement (.xtalFail) := of_none _
theorem xtalOk : Statement (.xtalOk) := of_none _
theorem afeKeepalive : Statement (.afeKeepalive) := of_none _
theorem afeLink : Statement (.afeLink) := of_none _
theorem afeLinkRestored : Statement (.afeLinkRestored) := of_none _
theorem tenderWatchdog (t : Fin 4) : Statement (.tenderWatchdog t) := of_none _
theorem tenderRestartEnd (t : Fin 4) : Statement (.tenderRestartEnd t) := of_none _
theorem rateWindowEnd (caps : List Nat) : Statement (.rateWindowEnd caps) := of_none _
theorem commitBoundary (blk : BitVec 8) (inst : BitVec 8) : Statement (.commitBoundary blk inst) := of_none _
theorem groupTimer (g : Fin 160) : Statement (.groupTimer g) := of_none _
theorem tailMirrorWrite (r : MirrorRing) : Statement (.tailMirrorWrite r) := of_none _
theorem recordDelivery : Statement (.recordDelivery) := of_none _
theorem laneSignalDetect (n : Fin 80) : Statement (.laneSignalDetect n) := of_none _
theorem laneCdrLock (n : Fin 80) : Statement (.laneCdrLock n) := of_none _
theorem laneEqDone (n : Fin 80) (ctle : Fin 16) : Statement (.laneEqDone n ctle) := of_none _
theorem dfeAdaptStep (n : Fin 80) (up down : BitVec 5) : Statement (.dfeAdaptStep n up down) := of_none _
theorem laneAligned (n : Fin 80) : Statement (.laneAligned n) := of_none _
theorem laneRelock (n : Fin 80) (rx : LaneWord) : Statement (.laneRelock n rx) := of_none _
theorem laneUnlock (n : Fin 80) (reason : Fin 4) (bad : List Bool) : Statement (.laneUnlock n reason bad) := of_none _
theorem laneRetrainTimeout (n : Fin 80) : Statement (.laneRetrainTimeout n) := of_none _
theorem lockFail (n : Fin 80) : Statement (.lockFail n) := of_none _
theorem prbsSync (n : Fin 80) (rx : List Bool) : Statement (.prbsSync n rx) := of_none _
theorem prbsSyncLoss (n : Fin 80) (rx : List Bool) : Statement (.prbsSyncLoss n rx) := of_none _
theorem train (r : LinkRef) (blocks : List (List Byte)) : Statement (.train r blocks) := of_none _
theorem am (r : LinkRef) (blocks : List (List Byte)) (skew : Nat) : Statement (.am r blocks skew) := of_none _
theorem amSend (r : LinkRef) : Statement (.amSend r) := of_none _
theorem lineData (p : Fin 32) (pkt : BrynPacket) (payload : List Byte) : Statement (.lineData p pkt payload) := of_none _
theorem regAck (p : Fin 32) (pkt : BrynPacket) (payload : List Byte) : Statement (.regAck p pkt payload) := of_none _
theorem widthAck (r : LinkRef) (pkt : BrynPacket) (payload : List Byte) : Statement (.widthAck r pkt payload) := of_none _
theorem linkFault (r : LinkRef) (unlock : Bool) : Statement (.linkFault r unlock) := of_none _
theorem linkStateTimeout (r : LinkRef) : Statement (.linkStateTimeout r) := of_none _
theorem recoveryEnd (r : LinkRef) : Statement (.recoveryEnd r) := of_none _
theorem fullWidthRequest (r : LinkRef) : Statement (.fullWidthRequest r) := of_none _
theorem credit (r : LinkRef) : Statement (.credit r) := of_none _
theorem cxpStreamPacket (p : Fin 32) (conn : Fin 4) (pkt : CxpPacket) : Statement (.cxpStreamPacket p conn pkt) := of_none _
theorem cxpControlAck (p : Fin 32) (ack : CxpAck) : Statement (.cxpControlAck p ack) := of_none _
theorem cxpHeartbeat (p : Fin 32) : Statement (.cxpHeartbeat p) := of_none _
theorem heartbeatLost (p : Fin 32) : Statement (.heartbeatLost p) := of_none _
theorem discoveryFail (p : Fin 32) : Statement (.discoveryFail p) := of_none _
theorem triggerEncoder (p : Fin 32) : Statement (.triggerEncoder p) := of_none _
theorem triggerTimer (p : Fin 32) : Statement (.triggerTimer p) := of_none _
theorem trigLost (p : Fin 32) : Statement (.trigLost p) := of_none _
theorem lineTimeout (p : Fin 32) : Statement (.lineTimeout p) := of_none _
theorem droppedLinePeriod (p : Fin 32) : Statement (.droppedLinePeriod p) := of_none _
theorem setAckTimeout (p : Fin 36) : Statement (.setAckTimeout p) := of_none _
theorem wireServe (w : Fin 9) : Statement (.wireServe w) := of_none _
theorem wireLineExit (w : Fin 9) : Statement (.wireLineExit w) := of_none _
theorem deadline (w : Fin 9) (p : Fin 32) : Statement (.deadline w p) := of_none _
theorem swapHandover : Statement (.swapHandover) := of_none _
theorem swapDone : Statement (.swapDone) := of_none _
theorem couchLine (p : Fin 32) : Statement (.couchLine p) := of_none _
theorem rowEmit : Statement (.rowEmit) := of_none _
theorem rowTimeout : Statement (.rowTimeout) := of_none _
theorem thermalRowMap (p : Fin 4) : Statement (.thermalRowMap p) := of_none _
theorem thermalRowEmit : Statement (.thermalRowEmit) := of_none _
theorem thermTimeout : Statement (.thermTimeout) := of_none _
theorem edge (k : Fin 4) (row : W64) (desc : W32) (cols : List (Nat × List Nat × Nat)) : Statement (.edge k row desc cols) := of_none _
theorem knotterRow (k : Fin 8) : Statement (.knotterRow k) := of_none _
theorem mergerComponent : Statement (.mergerComponent) := of_none _
theorem frag (k : Fin 4) (cells : List FragCell) (part split : Bool) : Statement (.frag k cells part split) := of_none _
theorem mergeTimeout : Statement (.mergeTimeout) := of_none _
theorem tileWrite : Statement (.tileWrite) := of_none _
theorem reelRow (r : Fin 64) : Statement (.reelRow r) := of_none _
theorem reelUnitTimeout (r : Fin 64) : Statement (.reelUnitTimeout r) := of_none _
theorem frameSync (p : Fin 4) : Statement (.frameSync p) := of_none _
theorem dryerRow (p : Fin 4) (tl : W64) (taps : List TapRow) : Statement (.dryerRow p tl taps) := of_none _
theorem thermalPipeRow (p : Fin 4) : Statement (.thermalPipeRow p) := of_none _
theorem frameTimeout (p : Fin 4) : Statement (.frameTimeout p) := of_none _
theorem driftRefine (p : Fin 4) : Statement (.driftRefine p) := of_none _
theorem markerJob (n : Fin 16) : Statement (.markerJob n) := of_none _
theorem driveStart (n : Fin 16) : Statement (.driveStart n) := of_none _
theorem peakPhaseEnd (n : Fin 16) (ma : BitVec 16) : Statement (.peakPhaseEnd n ma) := of_none _
theorem driveEnd (n : Fin 16) : Statement (.driveEnd n) := of_none _
theorem decayEnd (n : Fin 16) : Statement (.decayEnd n) := of_none _
theorem headroomRetry (n : Fin 16) : Statement (.headroomRetry n) := of_none _
theorem coilUpdate : Statement (.coilUpdate) := of_none _
theorem senseInstant (n : Fin 16) : Statement (.senseInstant n) := of_none _
theorem overcurrent (n : Fin 16) : Statement (.overcurrent n) := of_none _
theorem hsOvercurrent (m : Fin 4) : Statement (.hsOvercurrent m) := of_none _
theorem hkConversionEnd (u : Fin 4) (sig : HkSignal) : Statement (.hkConversionEnd u sig) := of_none _
theorem injectedStart (u : Fin 4) : Statement (.injectedStart u) := of_none _
theorem selfcalDone (u : Fin 4) (ofs gain : BitVec 16) : Statement (.selfcalDone u ofs gain) := of_none _
theorem masterDone (port : Fin 4) (data : List Byte) : Statement (.masterDone port data) := of_none _
theorem slaveReadFrame (port : Fin 4) (reg : BitVec 7) (edges : Nat) (late : Bool) : Statement (.slaveReadFrame port reg edges late) := of_none _
theorem slaveWriteFrame (port : Fin 4) (reg : BitVec 7) (edges : Nat) (data : List Byte) : Statement (.slaveWriteFrame port reg edges data) := of_none _
theorem viewRefresh : Statement (.viewRefresh) := of_none _
theorem gpioEdge (n : Fin 48) (level : Bool) : Statement (.gpioEdge n level) := of_none _
theorem encoderEdge (e : Fin 4) (a b : Bool) : Statement (.encoderEdge e a b) := of_none _
theorem encoderZ (e : Fin 4) : Statement (.encoderZ e) := of_none _
theorem encoderSample (e : Fin 4) : Statement (.encoderSample e) := of_none _
theorem thermalEvaluation (temps : List Int) : Statement (.thermalEvaluation temps) := of_none _
theorem refCheck (n2 : Option (Fin 440000)) : Statement (.refCheck n2) := of_none _
theorem calibrationStart (t : CalTarget) : Statement (.calibrationStart t) := of_none _
theorem forced (p : Fin 4) : Statement (.forced p) := of_none _
theorem calibrationEnd (t : CalTarget) (ofs gain : BitVec 16) (parts : List (BitVec 16)) : Statement (.calibrationEnd t ofs gain parts) := of_none _
theorem sramEccError (row : W32) (uncorr : Bool) (word : Option StoreWord) (tests : List Bool) : Statement (.sramEccError row uncorr word tests) := of_none _
theorem hbmEccUncorr (addr : BitVec 37) : Statement (.hbmEccUncorr addr) := of_none _
theorem pageWriteEnd (sound : Bool) : Statement (.pageWriteEnd sound) := of_none _
theorem counterBatch : Statement (.counterBatch) := of_none _
theorem calStore : Statement (.calStore) := of_none _
theorem fuseStep : Statement (.fuseStep) := of_none _
theorem testInstruction (tap : TapInstr) (flash : FlashContent) (temps : List Int) : Statement (.testInstruction tap flash temps) := of_none _
theorem dbgChal : Statement (.dbgChal) := of_none _
theorem dbgResp (scope : Byte) (sig : List Byte) : Statement (.dbgResp scope sig) := of_none _
theorem enum (k : Fin 4) (msg : EnumMsg) : Statement (.enum k msg) := of_none _
theorem sync (k : Fin 4) (kind : Fin 2) (t1 t2 t3 : W64) : Statement (.sync k kind t1 t2 t3) := of_none _
theorem syncExchange : Statement (.syncExchange) := of_none _
theorem syncAverage : Statement (.syncAverage) := of_none _
theorem enc (k : Fin 4) (e t : W64) (number : W32) : Statement (.enc k e t number) := of_none _
theorem encSend : Statement (.encSend) := of_none _
theorem shareLost : Statement (.shareLost) := of_none _
theorem cmd (k : Fin 4) (hdr : RouteHdr) (sq : Fin 1024) (packet : List Byte) : Statement (.cmd k hdr sq packet) := of_none _
theorem cpl (k : Fin 4) (hdr : RouteHdr) (cq : Fin 1024) (completion : List Byte) : Statement (.cpl k hdr cq completion) := of_none _
theorem reg (k : Fin 4) (hdr : RouteHdr) (msg : RegMsg) : Statement (.reg k hdr msg) := of_none _
theorem db (k : Fin 4) (hdr : RouteHdr) (off v : W32) : Statement (.db k hdr off v) := of_none _
theorem msi (k : Fin 4) (hdr : RouteHdr) (vector : Fin 512) : Statement (.msi k hdr vector) := of_none _
theorem ctrl (k : Fin 4) (hdr : RouteHdr) (msg : CtrlMsg) : Statement (.ctrl k hdr msg) := of_none _
theorem hwr (k : Fin 4) (hdr : RouteHdr) (addr : W64) (bytes : List Byte) : Statement (.hwr k hdr addr bytes) := of_none _
theorem hrd (k : Fin 4) (hdr : RouteHdr) (msg : HrdMsg) : Statement (.hrd k hdr msg) := of_none _
theorem feltLinkDown (k : Fin 4) : Statement (.feltLinkDown k) := of_none _
theorem routeTimeout (sq : Fin 1024) (tag : W32) : Statement (.routeTimeout sq tag) := of_none _
theorem deviceJoined (d : Fin 64) (reset : Bool) : Statement (.deviceJoined d reset) := of_none _
theorem parentLost : Statement (.parentLost) := of_none _
theorem bistBlockEnd (sig : List Byte) (rows : List W32) (tests : List Bool) : Statement (.bistBlockEnd sig rows tests) := of_none _
theorem sparePeriod : Statement (.sparePeriod) := of_none _
theorem debugLockoutEnd : Statement (.debugLockoutEnd) := of_none _
theorem sysRstNRelease (flash : FlashContent) (temps : List Int) : Statement (.sysRstNRelease flash temps) := of_none _
theorem perstNRelease : Statement (.perstNRelease) := of_none _
theorem linkChange (gen : Fin 6) (width : Fin 9) : Statement (.linkChange gen width) := of_none _
theorem aerUncorr (status : W32) : Statement (.aerUncorr status) := of_none _
theorem laneTrainTimeout (n : Fin 80) : Statement (.laneTrainTimeout n) := of_none _
theorem widthReq (k : Fin 4) (pkt : BrynPacket) (payload : List Byte) : Statement (.widthReq k pkt payload) := of_none _
theorem creditGrantReceived (k : Fin 4) (pkt : BrynPacket) (payload : List Byte) : Statement (.creditGrantReceived k pkt payload) := of_none _
theorem reelUnitHoldExpiry (r : Fin 64) : Statement (.reelUnitHoldExpiry r) := of_none _
theorem eventLogWriteInterval : Statement (.eventLogWriteInterval) := of_none _
theorem strobePulseEnd (n : Fin 48) : Statement (.strobePulseEnd n) := of_none _
theorem biasRampEnd (p : Fin 4) : Statement (.biasRampEnd p) := of_none _

end Sys2Proof.Laws.Unspelled
end

