-- ==== Sys2Proof/Laws/Rows.lean ====
section
/-! SUPPORT. What the guards of the rows answer: each meaning runs its effect where its guard holds. -/

namespace Sys2Proof.Machine

theorem whenReady_of_ready {s : State} (f : State → State) (h : Ready s) : whenReady f s = .next (f s) := by
  simp [whenReady, show s.boot.phase = .ready from h]

theorem whenReady_of_not_ready {s : State} (f : State → State) (h : ¬ Ready s) : whenReady f s = .next s := by
  simp [whenReady, show ¬ s.boot.phase = .ready from h]

theorem whenHost_of_on {s : State} (f : State → State) (h : HostOn s) : whenHost f s = .next (f s) := by
  simp [whenHost, h.1, h.2]

theorem whenLive_of_live {s : State} (f : State → State) (h : Live s) : whenLive f s = .next (f s) := by
  simp [whenLive, h.1, h.2]

theorem HostOn.ready {s : State} (h : HostOn s) : Ready s := h.1

theorem Live.ready {s : State} (h : Live s) : Ready s := h.1

/-- A row that starts its command answers the start. -/
theorem opcodeRow_of_starts {s : State} {sq : Fin 1024} {tag : W32} {op : Nat} {c : Cmd}
    (start cont : Cmd → State → State) (h : Starts s sq tag op c) :
    opcodeRow sq tag op start cont s = .next (start c s) := by
  obtain ⟨⟨hr, hf, hp, ht⟩, hs, -⟩ := h
  rw [opcodeRow, whenReady_of_ready _ hr, runCmd, hf]
  rcases ht with ht | ht <;> simp only [ht] <;> simp [hp, hs]

/-- A row that carries on its command answers the continuation. -/
theorem opcodeRow_of_carriesOn {s : State} {sq : Fin 1024} {tag : W32} {op : Nat} {c : Cmd}
    (start cont : Cmd → State → State) (h : CarriesOn s sq tag op c) :
    opcodeRow sq tag op start cont s = .next (cont c s) := by
  obtain ⟨⟨hr, hf, hp, ht⟩, hs⟩ := h
  rw [opcodeRow, whenReady_of_ready _ hr, runCmd, hf]
  rcases ht with ht | ht <;> simp only [ht] <;> simp [hp, hs]

/-- A row without a command in flight changes nothing. -/
theorem opcodeRow_of_none {s : State} {sq : Fin 1024} {tag : W32} {op : Nat} (start cont : Cmd → State → State)
    (h : rowCmd s sq.val tag op = none) : opcodeRow sq tag op start cont s = .next s := by
  by_cases hr : s.boot.phase = .ready <;> simp [opcodeRow, whenReady, runCmd, hr, h]

end Sys2Proof.Machine
end

