-- ==== Sys2Proof/Laws/State.lean ====
section
/-! SUPPORT. What each update of the state leaves as it was, field by field, and what it makes of its own field: no later
proof unfolds a record update. -/

namespace Sys2Proof.Machine

/-! updChan -/

@[simp] theorem updChan_clk (n : Nat) (f : Chan → Chan) (s : State) : (updChan n f s).clk = s.clk := rfl
@[simp] theorem updChan_boot (n : Nat) (f : Chan → Chan) (s : State) : (updChan n f s).boot = s.boot := rfl
@[simp] theorem updChan_pcie (n : Nat) (f : Chan → Chan) (s : State) : (updChan n f s).pcie = s.pcie := rfl
@[simp] theorem updChan_host (n : Nat) (f : Chan → Chan) (s : State) : (updChan n f s).host = s.host := rfl
@[simp] theorem updChan_cfg (n : Nat) (f : Chan → Chan) (s : State) : (updChan n f s).cfg = s.cfg := rfl
@[simp] theorem updChan_cmds (n : Nat) (f : Chan → Chan) (s : State) : (updChan n f s).cmds = s.cmds := rfl
@[simp] theorem updChan_nvm (n : Nat) (f : Chan → Chan) (s : State) : (updChan n f s).nvm = s.nvm := rfl
@[simp] theorem updChan_sec (n : Nat) (f : Chan → Chan) (s : State) : (updChan n f s).sec = s.sec := rfl
@[simp] theorem updChan_chain (n : Nat) (f : Chan → Chan) (s : State) : (updChan n f s).chain = s.chain := rfl
@[simp] theorem updChan_bist (n : Nat) (f : Chan → Chan) (s : State) : (updChan n f s).bist = s.bist := rfl
@[simp] theorem updChan_ing (n : Nat) (f : Chan → Chan) (s : State) : (updChan n f s).ing = s.ing := rfl
@[simp] theorem updChan_web (n : Nat) (f : Chan → Chan) (s : State) : (updChan n f s).web = s.web := rfl
@[simp] theorem updChan_hbm (n : Nat) (f : Chan → Chan) (s : State) : (updChan n f s).hbm = s.hbm := rfl
@[simp] theorem updChan_sent (n : Nat) (f : Chan → Chan) (s : State) : (updChan n f s).sent = s.sent := rfl
@[simp] theorem updChan_free (n : Nat) (f : Chan → Chan) (s : State) : (updChan n f s).free = s.free := rfl
@[simp] theorem updChan_pending (n : Nat) (f : Chan → Chan) (s : State) : (updChan n f s).pending = s.pending := rfl

/-! updDry -/

@[simp] theorem updDry_clk (p : Nat) (f : Dry → Dry) (s : State) : (updDry p f s).clk = s.clk := rfl
@[simp] theorem updDry_boot (p : Nat) (f : Dry → Dry) (s : State) : (updDry p f s).boot = s.boot := rfl
@[simp] theorem updDry_pcie (p : Nat) (f : Dry → Dry) (s : State) : (updDry p f s).pcie = s.pcie := rfl
@[simp] theorem updDry_host (p : Nat) (f : Dry → Dry) (s : State) : (updDry p f s).host = s.host := rfl
@[simp] theorem updDry_cfg (p : Nat) (f : Dry → Dry) (s : State) : (updDry p f s).cfg = s.cfg := rfl
@[simp] theorem updDry_cmds (p : Nat) (f : Dry → Dry) (s : State) : (updDry p f s).cmds = s.cmds := rfl
@[simp] theorem updDry_nvm (p : Nat) (f : Dry → Dry) (s : State) : (updDry p f s).nvm = s.nvm := rfl
@[simp] theorem updDry_sec (p : Nat) (f : Dry → Dry) (s : State) : (updDry p f s).sec = s.sec := rfl
@[simp] theorem updDry_chain (p : Nat) (f : Dry → Dry) (s : State) : (updDry p f s).chain = s.chain := rfl
@[simp] theorem updDry_bist (p : Nat) (f : Dry → Dry) (s : State) : (updDry p f s).bist = s.bist := rfl
@[simp] theorem updDry_ing (p : Nat) (f : Dry → Dry) (s : State) : (updDry p f s).ing = s.ing := rfl
@[simp] theorem updDry_web (p : Nat) (f : Dry → Dry) (s : State) : (updDry p f s).web = s.web := rfl
@[simp] theorem updDry_hbm (p : Nat) (f : Dry → Dry) (s : State) : (updDry p f s).hbm = s.hbm := rfl
@[simp] theorem updDry_sent (p : Nat) (f : Dry → Dry) (s : State) : (updDry p f s).sent = s.sent := rfl
@[simp] theorem updDry_free (p : Nat) (f : Dry → Dry) (s : State) : (updDry p f s).free = s.free := rfl
@[simp] theorem updDry_pending (p : Nat) (f : Dry → Dry) (s : State) : (updDry p f s).pending = s.pending := rfl

/-! updHk -/

@[simp] theorem updHk_clk (u : Nat) (f : Hk → Hk) (s : State) : (updHk u f s).clk = s.clk := rfl
@[simp] theorem updHk_boot (u : Nat) (f : Hk → Hk) (s : State) : (updHk u f s).boot = s.boot := rfl
@[simp] theorem updHk_pcie (u : Nat) (f : Hk → Hk) (s : State) : (updHk u f s).pcie = s.pcie := rfl
@[simp] theorem updHk_host (u : Nat) (f : Hk → Hk) (s : State) : (updHk u f s).host = s.host := rfl
@[simp] theorem updHk_cfg (u : Nat) (f : Hk → Hk) (s : State) : (updHk u f s).cfg = s.cfg := rfl
@[simp] theorem updHk_cmds (u : Nat) (f : Hk → Hk) (s : State) : (updHk u f s).cmds = s.cmds := rfl
@[simp] theorem updHk_nvm (u : Nat) (f : Hk → Hk) (s : State) : (updHk u f s).nvm = s.nvm := rfl
@[simp] theorem updHk_sec (u : Nat) (f : Hk → Hk) (s : State) : (updHk u f s).sec = s.sec := rfl
@[simp] theorem updHk_chain (u : Nat) (f : Hk → Hk) (s : State) : (updHk u f s).chain = s.chain := rfl
@[simp] theorem updHk_bist (u : Nat) (f : Hk → Hk) (s : State) : (updHk u f s).bist = s.bist := rfl
@[simp] theorem updHk_ing (u : Nat) (f : Hk → Hk) (s : State) : (updHk u f s).ing = s.ing := rfl
@[simp] theorem updHk_web (u : Nat) (f : Hk → Hk) (s : State) : (updHk u f s).web = s.web := rfl
@[simp] theorem updHk_hbm (u : Nat) (f : Hk → Hk) (s : State) : (updHk u f s).hbm = s.hbm := rfl
@[simp] theorem updHk_sent (u : Nat) (f : Hk → Hk) (s : State) : (updHk u f s).sent = s.sent := rfl
@[simp] theorem updHk_free (u : Nat) (f : Hk → Hk) (s : State) : (updHk u f s).free = s.free := rfl
@[simp] theorem updHk_pending (u : Nat) (f : Hk → Hk) (s : State) : (updHk u f s).pending = s.pending := rfl

/-! updSp -/

@[simp] theorem updSp_clk (n : Nat) (f : Sp → Sp) (s : State) : (updSp n f s).clk = s.clk := rfl
@[simp] theorem updSp_boot (n : Nat) (f : Sp → Sp) (s : State) : (updSp n f s).boot = s.boot := rfl
@[simp] theorem updSp_pcie (n : Nat) (f : Sp → Sp) (s : State) : (updSp n f s).pcie = s.pcie := rfl
@[simp] theorem updSp_host (n : Nat) (f : Sp → Sp) (s : State) : (updSp n f s).host = s.host := rfl
@[simp] theorem updSp_cfg (n : Nat) (f : Sp → Sp) (s : State) : (updSp n f s).cfg = s.cfg := rfl
@[simp] theorem updSp_cmds (n : Nat) (f : Sp → Sp) (s : State) : (updSp n f s).cmds = s.cmds := rfl
@[simp] theorem updSp_nvm (n : Nat) (f : Sp → Sp) (s : State) : (updSp n f s).nvm = s.nvm := rfl
@[simp] theorem updSp_sec (n : Nat) (f : Sp → Sp) (s : State) : (updSp n f s).sec = s.sec := rfl
@[simp] theorem updSp_chain (n : Nat) (f : Sp → Sp) (s : State) : (updSp n f s).chain = s.chain := rfl
@[simp] theorem updSp_bist (n : Nat) (f : Sp → Sp) (s : State) : (updSp n f s).bist = s.bist := rfl
@[simp] theorem updSp_ing (n : Nat) (f : Sp → Sp) (s : State) : (updSp n f s).ing = s.ing := rfl
@[simp] theorem updSp_web (n : Nat) (f : Sp → Sp) (s : State) : (updSp n f s).web = s.web := rfl
@[simp] theorem updSp_hbm (n : Nat) (f : Sp → Sp) (s : State) : (updSp n f s).hbm = s.hbm := rfl
@[simp] theorem updSp_sent (n : Nat) (f : Sp → Sp) (s : State) : (updSp n f s).sent = s.sent := rfl
@[simp] theorem updSp_free (n : Nat) (f : Sp → Sp) (s : State) : (updSp n f s).free = s.free := rfl
@[simp] theorem updSp_pending (n : Nat) (f : Sp → Sp) (s : State) : (updSp n f s).pending = s.pending := rfl

/-! updEl -/

@[simp] theorem updEl_clk (c i : Nat) (f : CalEl → CalEl) (s : State) : (updEl c i f s).clk = s.clk := rfl
@[simp] theorem updEl_boot (c i : Nat) (f : CalEl → CalEl) (s : State) : (updEl c i f s).boot = s.boot := rfl
@[simp] theorem updEl_pcie (c i : Nat) (f : CalEl → CalEl) (s : State) : (updEl c i f s).pcie = s.pcie := rfl
@[simp] theorem updEl_host (c i : Nat) (f : CalEl → CalEl) (s : State) : (updEl c i f s).host = s.host := rfl
@[simp] theorem updEl_cfg (c i : Nat) (f : CalEl → CalEl) (s : State) : (updEl c i f s).cfg = s.cfg := rfl
@[simp] theorem updEl_cmds (c i : Nat) (f : CalEl → CalEl) (s : State) : (updEl c i f s).cmds = s.cmds := rfl
@[simp] theorem updEl_nvm (c i : Nat) (f : CalEl → CalEl) (s : State) : (updEl c i f s).nvm = s.nvm := rfl
@[simp] theorem updEl_sec (c i : Nat) (f : CalEl → CalEl) (s : State) : (updEl c i f s).sec = s.sec := rfl
@[simp] theorem updEl_chain (c i : Nat) (f : CalEl → CalEl) (s : State) : (updEl c i f s).chain = s.chain := rfl
@[simp] theorem updEl_bist (c i : Nat) (f : CalEl → CalEl) (s : State) : (updEl c i f s).bist = s.bist := rfl
@[simp] theorem updEl_ing (c i : Nat) (f : CalEl → CalEl) (s : State) : (updEl c i f s).ing = s.ing := rfl
@[simp] theorem updEl_web (c i : Nat) (f : CalEl → CalEl) (s : State) : (updEl c i f s).web = s.web := rfl
@[simp] theorem updEl_hbm (c i : Nat) (f : CalEl → CalEl) (s : State) : (updEl c i f s).hbm = s.hbm := rfl
@[simp] theorem updEl_sent (c i : Nat) (f : CalEl → CalEl) (s : State) : (updEl c i f s).sent = s.sent := rfl
@[simp] theorem updEl_free (c i : Nat) (f : CalEl → CalEl) (s : State) : (updEl c i f s).free = s.free := rfl
@[simp] theorem updEl_pending (c i : Nat) (f : CalEl → CalEl) (s : State) : (updEl c i f s).pending = s.pending := rfl

/-! updCal -/

@[simp] theorem updCal_clk (f : Cal → Cal) (s : State) : (updCal f s).clk = s.clk := rfl
@[simp] theorem updCal_boot (f : Cal → Cal) (s : State) : (updCal f s).boot = s.boot := rfl
@[simp] theorem updCal_pcie (f : Cal → Cal) (s : State) : (updCal f s).pcie = s.pcie := rfl
@[simp] theorem updCal_host (f : Cal → Cal) (s : State) : (updCal f s).host = s.host := rfl
@[simp] theorem updCal_cfg (f : Cal → Cal) (s : State) : (updCal f s).cfg = s.cfg := rfl
@[simp] theorem updCal_cmds (f : Cal → Cal) (s : State) : (updCal f s).cmds = s.cmds := rfl
@[simp] theorem updCal_nvm (f : Cal → Cal) (s : State) : (updCal f s).nvm = s.nvm := rfl
@[simp] theorem updCal_sec (f : Cal → Cal) (s : State) : (updCal f s).sec = s.sec := rfl
@[simp] theorem updCal_chain (f : Cal → Cal) (s : State) : (updCal f s).chain = s.chain := rfl
@[simp] theorem updCal_bist (f : Cal → Cal) (s : State) : (updCal f s).bist = s.bist := rfl
@[simp] theorem updCal_ing (f : Cal → Cal) (s : State) : (updCal f s).ing = s.ing := rfl
@[simp] theorem updCal_web (f : Cal → Cal) (s : State) : (updCal f s).web = s.web := rfl
@[simp] theorem updCal_hbm (f : Cal → Cal) (s : State) : (updCal f s).hbm = s.hbm := rfl
@[simp] theorem updCal_sent (f : Cal → Cal) (s : State) : (updCal f s).sent = s.sent := rfl
@[simp] theorem updCal_free (f : Cal → Cal) (s : State) : (updCal f s).free = s.free := rfl
@[simp] theorem updCal_pending (f : Cal → Cal) (s : State) : (updCal f s).pending = s.pending := rfl

/-! setArm -/

@[simp] theorem setArm_clk (n : Nat) (b : Bool) (s : State) : (setArm n b s).clk = s.clk := rfl
@[simp] theorem setArm_boot (n : Nat) (b : Bool) (s : State) : (setArm n b s).boot = s.boot := rfl
@[simp] theorem setArm_pcie (n : Nat) (b : Bool) (s : State) : (setArm n b s).pcie = s.pcie := rfl
@[simp] theorem setArm_host (n : Nat) (b : Bool) (s : State) : (setArm n b s).host = s.host := rfl
@[simp] theorem setArm_cfg (n : Nat) (b : Bool) (s : State) : (setArm n b s).cfg = s.cfg := rfl
@[simp] theorem setArm_cmds (n : Nat) (b : Bool) (s : State) : (setArm n b s).cmds = s.cmds := rfl
@[simp] theorem setArm_nvm (n : Nat) (b : Bool) (s : State) : (setArm n b s).nvm = s.nvm := rfl
@[simp] theorem setArm_sec (n : Nat) (b : Bool) (s : State) : (setArm n b s).sec = s.sec := rfl
@[simp] theorem setArm_chain (n : Nat) (b : Bool) (s : State) : (setArm n b s).chain = s.chain := rfl
@[simp] theorem setArm_bist (n : Nat) (b : Bool) (s : State) : (setArm n b s).bist = s.bist := rfl
@[simp] theorem setArm_ing (n : Nat) (b : Bool) (s : State) : (setArm n b s).ing = s.ing := rfl
@[simp] theorem setArm_web (n : Nat) (b : Bool) (s : State) : (setArm n b s).web = s.web := rfl
@[simp] theorem setArm_hbm (n : Nat) (b : Bool) (s : State) : (setArm n b s).hbm = s.hbm := rfl
@[simp] theorem setArm_sent (n : Nat) (b : Bool) (s : State) : (setArm n b s).sent = s.sent := rfl
@[simp] theorem setArm_free (n : Nat) (b : Bool) (s : State) : (setArm n b s).free = s.free := rfl
@[simp] theorem setArm_pending (n : Nat) (b : Bool) (s : State) : (setArm n b s).pending = s.pending := rfl

/-! updTherm -/

@[simp] theorem updTherm_clk (f : Therm → Therm) (s : State) : (updTherm f s).clk = s.clk := rfl
@[simp] theorem updTherm_boot (f : Therm → Therm) (s : State) : (updTherm f s).boot = s.boot := rfl
@[simp] theorem updTherm_pcie (f : Therm → Therm) (s : State) : (updTherm f s).pcie = s.pcie := rfl
@[simp] theorem updTherm_host (f : Therm → Therm) (s : State) : (updTherm f s).host = s.host := rfl
@[simp] theorem updTherm_cfg (f : Therm → Therm) (s : State) : (updTherm f s).cfg = s.cfg := rfl
@[simp] theorem updTherm_cmds (f : Therm → Therm) (s : State) : (updTherm f s).cmds = s.cmds := rfl
@[simp] theorem updTherm_nvm (f : Therm → Therm) (s : State) : (updTherm f s).nvm = s.nvm := rfl
@[simp] theorem updTherm_sec (f : Therm → Therm) (s : State) : (updTherm f s).sec = s.sec := rfl
@[simp] theorem updTherm_chain (f : Therm → Therm) (s : State) : (updTherm f s).chain = s.chain := rfl
@[simp] theorem updTherm_bist (f : Therm → Therm) (s : State) : (updTherm f s).bist = s.bist := rfl
@[simp] theorem updTherm_ing (f : Therm → Therm) (s : State) : (updTherm f s).ing = s.ing := rfl
@[simp] theorem updTherm_web (f : Therm → Therm) (s : State) : (updTherm f s).web = s.web := rfl
@[simp] theorem updTherm_hbm (f : Therm → Therm) (s : State) : (updTherm f s).hbm = s.hbm := rfl
@[simp] theorem updTherm_sent (f : Therm → Therm) (s : State) : (updTherm f s).sent = s.sent := rfl
@[simp] theorem updTherm_free (f : Therm → Therm) (s : State) : (updTherm f s).free = s.free := rfl
@[simp] theorem updTherm_pending (f : Therm → Therm) (s : State) : (updTherm f s).pending = s.pending := rfl

/-! updChain -/

@[simp] theorem updChain_clk (f : Chain → Chain) (s : State) : (updChain f s).clk = s.clk := rfl
@[simp] theorem updChain_boot (f : Chain → Chain) (s : State) : (updChain f s).boot = s.boot := rfl
@[simp] theorem updChain_pcie (f : Chain → Chain) (s : State) : (updChain f s).pcie = s.pcie := rfl
@[simp] theorem updChain_host (f : Chain → Chain) (s : State) : (updChain f s).host = s.host := rfl
@[simp] theorem updChain_cfg (f : Chain → Chain) (s : State) : (updChain f s).cfg = s.cfg := rfl
@[simp] theorem updChain_cmds (f : Chain → Chain) (s : State) : (updChain f s).cmds = s.cmds := rfl
@[simp] theorem updChain_nvm (f : Chain → Chain) (s : State) : (updChain f s).nvm = s.nvm := rfl
@[simp] theorem updChain_sec (f : Chain → Chain) (s : State) : (updChain f s).sec = s.sec := rfl
@[simp] theorem updChain_bist (f : Chain → Chain) (s : State) : (updChain f s).bist = s.bist := rfl
@[simp] theorem updChain_ing (f : Chain → Chain) (s : State) : (updChain f s).ing = s.ing := rfl
@[simp] theorem updChain_web (f : Chain → Chain) (s : State) : (updChain f s).web = s.web := rfl
@[simp] theorem updChain_afe (f : Chain → Chain) (s : State) : (updChain f s).afe = s.afe := rfl
@[simp] theorem updChain_hbm (f : Chain → Chain) (s : State) : (updChain f s).hbm = s.hbm := rfl
@[simp] theorem updChain_sent (f : Chain → Chain) (s : State) : (updChain f s).sent = s.sent := rfl
@[simp] theorem updChain_free (f : Chain → Chain) (s : State) : (updChain f s).free = s.free := rfl
@[simp] theorem updChain_pending (f : Chain → Chain) (s : State) : (updChain f s).pending = s.pending := rfl

/-! updFelt -/

@[simp] theorem updFelt_clk (k : Nat) (f : FeltPort → FeltPort) (s : State) : (updFelt k f s).clk = s.clk := rfl
@[simp] theorem updFelt_boot (k : Nat) (f : FeltPort → FeltPort) (s : State) : (updFelt k f s).boot = s.boot := rfl
@[simp] theorem updFelt_pcie (k : Nat) (f : FeltPort → FeltPort) (s : State) : (updFelt k f s).pcie = s.pcie := rfl
@[simp] theorem updFelt_host (k : Nat) (f : FeltPort → FeltPort) (s : State) : (updFelt k f s).host = s.host := rfl
@[simp] theorem updFelt_cfg (k : Nat) (f : FeltPort → FeltPort) (s : State) : (updFelt k f s).cfg = s.cfg := rfl
@[simp] theorem updFelt_cmds (k : Nat) (f : FeltPort → FeltPort) (s : State) : (updFelt k f s).cmds = s.cmds := rfl
@[simp] theorem updFelt_nvm (k : Nat) (f : FeltPort → FeltPort) (s : State) : (updFelt k f s).nvm = s.nvm := rfl
@[simp] theorem updFelt_sec (k : Nat) (f : FeltPort → FeltPort) (s : State) : (updFelt k f s).sec = s.sec := rfl
@[simp] theorem updFelt_bist (k : Nat) (f : FeltPort → FeltPort) (s : State) : (updFelt k f s).bist = s.bist := rfl
@[simp] theorem updFelt_ing (k : Nat) (f : FeltPort → FeltPort) (s : State) : (updFelt k f s).ing = s.ing := rfl
@[simp] theorem updFelt_web (k : Nat) (f : FeltPort → FeltPort) (s : State) : (updFelt k f s).web = s.web := rfl
@[simp] theorem updFelt_afe (k : Nat) (f : FeltPort → FeltPort) (s : State) : (updFelt k f s).afe = s.afe := rfl
@[simp] theorem updFelt_hbm (k : Nat) (f : FeltPort → FeltPort) (s : State) : (updFelt k f s).hbm = s.hbm := rfl
@[simp] theorem updFelt_sent (k : Nat) (f : FeltPort → FeltPort) (s : State) : (updFelt k f s).sent = s.sent := rfl
@[simp] theorem updFelt_free (k : Nat) (f : FeltPort → FeltPort) (s : State) : (updFelt k f s).free = s.free := rfl
@[simp] theorem updFelt_pending (k : Nat) (f : FeltPort → FeltPort) (s : State) : (updFelt k f s).pending = s.pending := rfl

/-! setFeltPort -/

@[simp] theorem setFeltPort_clk (k : Nat) (p : FeltPort) (s : State) : (setFeltPort k p s).clk = s.clk := rfl
@[simp] theorem setFeltPort_boot (k : Nat) (p : FeltPort) (s : State) : (setFeltPort k p s).boot = s.boot := rfl
@[simp] theorem setFeltPort_pcie (k : Nat) (p : FeltPort) (s : State) : (setFeltPort k p s).pcie = s.pcie := rfl
@[simp] theorem setFeltPort_host (k : Nat) (p : FeltPort) (s : State) : (setFeltPort k p s).host = s.host := rfl
@[simp] theorem setFeltPort_cfg (k : Nat) (p : FeltPort) (s : State) : (setFeltPort k p s).cfg = s.cfg := rfl
@[simp] theorem setFeltPort_cmds (k : Nat) (p : FeltPort) (s : State) : (setFeltPort k p s).cmds = s.cmds := rfl
@[simp] theorem setFeltPort_nvm (k : Nat) (p : FeltPort) (s : State) : (setFeltPort k p s).nvm = s.nvm := rfl
@[simp] theorem setFeltPort_sec (k : Nat) (p : FeltPort) (s : State) : (setFeltPort k p s).sec = s.sec := rfl
@[simp] theorem setFeltPort_bist (k : Nat) (p : FeltPort) (s : State) : (setFeltPort k p s).bist = s.bist := rfl
@[simp] theorem setFeltPort_ing (k : Nat) (p : FeltPort) (s : State) : (setFeltPort k p s).ing = s.ing := rfl
@[simp] theorem setFeltPort_web (k : Nat) (p : FeltPort) (s : State) : (setFeltPort k p s).web = s.web := rfl
@[simp] theorem setFeltPort_afe (k : Nat) (p : FeltPort) (s : State) : (setFeltPort k p s).afe = s.afe := rfl
@[simp] theorem setFeltPort_hbm (k : Nat) (p : FeltPort) (s : State) : (setFeltPort k p s).hbm = s.hbm := rfl
@[simp] theorem setFeltPort_sent (k : Nat) (p : FeltPort) (s : State) : (setFeltPort k p s).sent = s.sent := rfl
@[simp] theorem setFeltPort_free (k : Nat) (p : FeltPort) (s : State) : (setFeltPort k p s).free = s.free := rfl
@[simp] theorem setFeltPort_pending (k : Nat) (p : FeltPort) (s : State) : (setFeltPort k p s).pending = s.pending := rfl

/-! updMap -/

@[simp] theorem updMap_clk (d : Nat) (f : MapEntry → MapEntry) (s : State) : (updMap d f s).clk = s.clk := rfl
@[simp] theorem updMap_boot (d : Nat) (f : MapEntry → MapEntry) (s : State) : (updMap d f s).boot = s.boot := rfl
@[simp] theorem updMap_pcie (d : Nat) (f : MapEntry → MapEntry) (s : State) : (updMap d f s).pcie = s.pcie := rfl
@[simp] theorem updMap_host (d : Nat) (f : MapEntry → MapEntry) (s : State) : (updMap d f s).host = s.host := rfl
@[simp] theorem updMap_cfg (d : Nat) (f : MapEntry → MapEntry) (s : State) : (updMap d f s).cfg = s.cfg := rfl
@[simp] theorem updMap_cmds (d : Nat) (f : MapEntry → MapEntry) (s : State) : (updMap d f s).cmds = s.cmds := rfl
@[simp] theorem updMap_nvm (d : Nat) (f : MapEntry → MapEntry) (s : State) : (updMap d f s).nvm = s.nvm := rfl
@[simp] theorem updMap_sec (d : Nat) (f : MapEntry → MapEntry) (s : State) : (updMap d f s).sec = s.sec := rfl
@[simp] theorem updMap_bist (d : Nat) (f : MapEntry → MapEntry) (s : State) : (updMap d f s).bist = s.bist := rfl
@[simp] theorem updMap_ing (d : Nat) (f : MapEntry → MapEntry) (s : State) : (updMap d f s).ing = s.ing := rfl
@[simp] theorem updMap_web (d : Nat) (f : MapEntry → MapEntry) (s : State) : (updMap d f s).web = s.web := rfl
@[simp] theorem updMap_afe (d : Nat) (f : MapEntry → MapEntry) (s : State) : (updMap d f s).afe = s.afe := rfl
@[simp] theorem updMap_hbm (d : Nat) (f : MapEntry → MapEntry) (s : State) : (updMap d f s).hbm = s.hbm := rfl
@[simp] theorem updMap_sent (d : Nat) (f : MapEntry → MapEntry) (s : State) : (updMap d f s).sent = s.sent := rfl
@[simp] theorem updMap_free (d : Nat) (f : MapEntry → MapEntry) (s : State) : (updMap d f s).free = s.free := rfl
@[simp] theorem updMap_pending (d : Nat) (f : MapEntry → MapEntry) (s : State) : (updMap d f s).pending = s.pending := rfl

/-! putCmd -/

@[simp] theorem putCmd_clk (c : Cmd) (s : State) : (putCmd c s).clk = s.clk := rfl
@[simp] theorem putCmd_boot (c : Cmd) (s : State) : (putCmd c s).boot = s.boot := rfl
@[simp] theorem putCmd_pcie (c : Cmd) (s : State) : (putCmd c s).pcie = s.pcie := rfl
@[simp] theorem putCmd_host (c : Cmd) (s : State) : (putCmd c s).host = s.host := rfl
@[simp] theorem putCmd_cfg (c : Cmd) (s : State) : (putCmd c s).cfg = s.cfg := rfl
@[simp] theorem putCmd_nvm (c : Cmd) (s : State) : (putCmd c s).nvm = s.nvm := rfl
@[simp] theorem putCmd_sec (c : Cmd) (s : State) : (putCmd c s).sec = s.sec := rfl
@[simp] theorem putCmd_chain (c : Cmd) (s : State) : (putCmd c s).chain = s.chain := rfl
@[simp] theorem putCmd_bist (c : Cmd) (s : State) : (putCmd c s).bist = s.bist := rfl
@[simp] theorem putCmd_ing (c : Cmd) (s : State) : (putCmd c s).ing = s.ing := rfl
@[simp] theorem putCmd_web (c : Cmd) (s : State) : (putCmd c s).web = s.web := rfl
@[simp] theorem putCmd_afe (c : Cmd) (s : State) : (putCmd c s).afe = s.afe := rfl
@[simp] theorem putCmd_hbm (c : Cmd) (s : State) : (putCmd c s).hbm = s.hbm := rfl
@[simp] theorem putCmd_sent (c : Cmd) (s : State) : (putCmd c s).sent = s.sent := rfl
@[simp] theorem putCmd_free (c : Cmd) (s : State) : (putCmd c s).free = s.free := rfl
@[simp] theorem putCmd_pending (c : Cmd) (s : State) : (putCmd c s).pending = s.pending := rfl

/-! setSlot -/

@[simp] theorem setSlot_clk (n : Nat) (x : Slot) (s : State) : (setSlot n x s).clk = s.clk := rfl
@[simp] theorem setSlot_boot (n : Nat) (x : Slot) (s : State) : (setSlot n x s).boot = s.boot := rfl
@[simp] theorem setSlot_pcie (n : Nat) (x : Slot) (s : State) : (setSlot n x s).pcie = s.pcie := rfl
@[simp] theorem setSlot_host (n : Nat) (x : Slot) (s : State) : (setSlot n x s).host = s.host := rfl
@[simp] theorem setSlot_cfg (n : Nat) (x : Slot) (s : State) : (setSlot n x s).cfg = s.cfg := rfl
@[simp] theorem setSlot_nvm (n : Nat) (x : Slot) (s : State) : (setSlot n x s).nvm = s.nvm := rfl
@[simp] theorem setSlot_sec (n : Nat) (x : Slot) (s : State) : (setSlot n x s).sec = s.sec := rfl
@[simp] theorem setSlot_chain (n : Nat) (x : Slot) (s : State) : (setSlot n x s).chain = s.chain := rfl
@[simp] theorem setSlot_bist (n : Nat) (x : Slot) (s : State) : (setSlot n x s).bist = s.bist := rfl
@[simp] theorem setSlot_ing (n : Nat) (x : Slot) (s : State) : (setSlot n x s).ing = s.ing := rfl
@[simp] theorem setSlot_web (n : Nat) (x : Slot) (s : State) : (setSlot n x s).web = s.web := rfl
@[simp] theorem setSlot_afe (n : Nat) (x : Slot) (s : State) : (setSlot n x s).afe = s.afe := rfl
@[simp] theorem setSlot_hbm (n : Nat) (x : Slot) (s : State) : (setSlot n x s).hbm = s.hbm := rfl
@[simp] theorem setSlot_sent (n : Nat) (x : Slot) (s : State) : (setSlot n x s).sent = s.sent := rfl
@[simp] theorem setSlot_free (n : Nat) (x : Slot) (s : State) : (setSlot n x s).free = s.free := rfl
@[simp] theorem setSlot_pending (n : Nat) (x : Slot) (s : State) : (setSlot n x s).pending = s.pending := rfl

/-! addCmd -/

@[simp] theorem addCmd_clk (c : Cmd) (s : State) : (addCmd c s).clk = s.clk := rfl
@[simp] theorem addCmd_boot (c : Cmd) (s : State) : (addCmd c s).boot = s.boot := rfl
@[simp] theorem addCmd_pcie (c : Cmd) (s : State) : (addCmd c s).pcie = s.pcie := rfl
@[simp] theorem addCmd_host (c : Cmd) (s : State) : (addCmd c s).host = s.host := rfl
@[simp] theorem addCmd_cfg (c : Cmd) (s : State) : (addCmd c s).cfg = s.cfg := rfl
@[simp] theorem addCmd_nvm (c : Cmd) (s : State) : (addCmd c s).nvm = s.nvm := rfl
@[simp] theorem addCmd_sec (c : Cmd) (s : State) : (addCmd c s).sec = s.sec := rfl
@[simp] theorem addCmd_chain (c : Cmd) (s : State) : (addCmd c s).chain = s.chain := rfl
@[simp] theorem addCmd_bist (c : Cmd) (s : State) : (addCmd c s).bist = s.bist := rfl
@[simp] theorem addCmd_ing (c : Cmd) (s : State) : (addCmd c s).ing = s.ing := rfl
@[simp] theorem addCmd_web (c : Cmd) (s : State) : (addCmd c s).web = s.web := rfl
@[simp] theorem addCmd_afe (c : Cmd) (s : State) : (addCmd c s).afe = s.afe := rfl
@[simp] theorem addCmd_hbm (c : Cmd) (s : State) : (addCmd c s).hbm = s.hbm := rfl
@[simp] theorem addCmd_sent (c : Cmd) (s : State) : (addCmd c s).sent = s.sent := rfl
@[simp] theorem addCmd_free (c : Cmd) (s : State) : (addCmd c s).free = s.free := rfl
@[simp] theorem addCmd_pending (c : Cmd) (s : State) : (addCmd c s).pending = s.pending := rfl

/-! setEnc -/

@[simp] theorem setEnc_clk (e : Nat) (x : Enc) (s : State) : (setEnc e x s).clk = s.clk := rfl
@[simp] theorem setEnc_boot (e : Nat) (x : Enc) (s : State) : (setEnc e x s).boot = s.boot := rfl
@[simp] theorem setEnc_pcie (e : Nat) (x : Enc) (s : State) : (setEnc e x s).pcie = s.pcie := rfl
@[simp] theorem setEnc_host (e : Nat) (x : Enc) (s : State) : (setEnc e x s).host = s.host := rfl
@[simp] theorem setEnc_cfg (e : Nat) (x : Enc) (s : State) : (setEnc e x s).cfg = s.cfg := rfl
@[simp] theorem setEnc_cmds (e : Nat) (x : Enc) (s : State) : (setEnc e x s).cmds = s.cmds := rfl
@[simp] theorem setEnc_nvm (e : Nat) (x : Enc) (s : State) : (setEnc e x s).nvm = s.nvm := rfl
@[simp] theorem setEnc_sec (e : Nat) (x : Enc) (s : State) : (setEnc e x s).sec = s.sec := rfl
@[simp] theorem setEnc_chain (e : Nat) (x : Enc) (s : State) : (setEnc e x s).chain = s.chain := rfl
@[simp] theorem setEnc_bist (e : Nat) (x : Enc) (s : State) : (setEnc e x s).bist = s.bist := rfl
@[simp] theorem setEnc_web (e : Nat) (x : Enc) (s : State) : (setEnc e x s).web = s.web := rfl
@[simp] theorem setEnc_afe (e : Nat) (x : Enc) (s : State) : (setEnc e x s).afe = s.afe := rfl
@[simp] theorem setEnc_hbm (e : Nat) (x : Enc) (s : State) : (setEnc e x s).hbm = s.hbm := rfl
@[simp] theorem setEnc_sent (e : Nat) (x : Enc) (s : State) : (setEnc e x s).sent = s.sent := rfl
@[simp] theorem setEnc_free (e : Nat) (x : Enc) (s : State) : (setEnc e x s).free = s.free := rfl
@[simp] theorem setEnc_pending (e : Nat) (x : Enc) (s : State) : (setEnc e x s).pending = s.pending := rfl

/-! setPort -/

@[simp] theorem setPort_clk (p : Nat) (x : Port) (s : State) : (setPort p x s).clk = s.clk := rfl
@[simp] theorem setPort_boot (p : Nat) (x : Port) (s : State) : (setPort p x s).boot = s.boot := rfl
@[simp] theorem setPort_pcie (p : Nat) (x : Port) (s : State) : (setPort p x s).pcie = s.pcie := rfl
@[simp] theorem setPort_host (p : Nat) (x : Port) (s : State) : (setPort p x s).host = s.host := rfl
@[simp] theorem setPort_cfg (p : Nat) (x : Port) (s : State) : (setPort p x s).cfg = s.cfg := rfl
@[simp] theorem setPort_cmds (p : Nat) (x : Port) (s : State) : (setPort p x s).cmds = s.cmds := rfl
@[simp] theorem setPort_nvm (p : Nat) (x : Port) (s : State) : (setPort p x s).nvm = s.nvm := rfl
@[simp] theorem setPort_sec (p : Nat) (x : Port) (s : State) : (setPort p x s).sec = s.sec := rfl
@[simp] theorem setPort_chain (p : Nat) (x : Port) (s : State) : (setPort p x s).chain = s.chain := rfl
@[simp] theorem setPort_bist (p : Nat) (x : Port) (s : State) : (setPort p x s).bist = s.bist := rfl
@[simp] theorem setPort_web (p : Nat) (x : Port) (s : State) : (setPort p x s).web = s.web := rfl
@[simp] theorem setPort_afe (p : Nat) (x : Port) (s : State) : (setPort p x s).afe = s.afe := rfl
@[simp] theorem setPort_hbm (p : Nat) (x : Port) (s : State) : (setPort p x s).hbm = s.hbm := rfl
@[simp] theorem setPort_sent (p : Nat) (x : Port) (s : State) : (setPort p x s).sent = s.sent := rfl
@[simp] theorem setPort_free (p : Nat) (x : Port) (s : State) : (setPort p x s).free = s.free := rfl
@[simp] theorem setPort_pending (p : Nat) (x : Port) (s : State) : (setPort p x s).pending = s.pending := rfl

/-! updPort -/

@[simp] theorem updPort_clk (p : Nat) (f : Port → Port) (s : State) : (updPort p f s).clk = s.clk := rfl
@[simp] theorem updPort_boot (p : Nat) (f : Port → Port) (s : State) : (updPort p f s).boot = s.boot := rfl
@[simp] theorem updPort_pcie (p : Nat) (f : Port → Port) (s : State) : (updPort p f s).pcie = s.pcie := rfl
@[simp] theorem updPort_host (p : Nat) (f : Port → Port) (s : State) : (updPort p f s).host = s.host := rfl
@[simp] theorem updPort_cfg (p : Nat) (f : Port → Port) (s : State) : (updPort p f s).cfg = s.cfg := rfl
@[simp] theorem updPort_cmds (p : Nat) (f : Port → Port) (s : State) : (updPort p f s).cmds = s.cmds := rfl
@[simp] theorem updPort_nvm (p : Nat) (f : Port → Port) (s : State) : (updPort p f s).nvm = s.nvm := rfl
@[simp] theorem updPort_sec (p : Nat) (f : Port → Port) (s : State) : (updPort p f s).sec = s.sec := rfl
@[simp] theorem updPort_chain (p : Nat) (f : Port → Port) (s : State) : (updPort p f s).chain = s.chain := rfl
@[simp] theorem updPort_bist (p : Nat) (f : Port → Port) (s : State) : (updPort p f s).bist = s.bist := rfl
@[simp] theorem updPort_web (p : Nat) (f : Port → Port) (s : State) : (updPort p f s).web = s.web := rfl
@[simp] theorem updPort_afe (p : Nat) (f : Port → Port) (s : State) : (updPort p f s).afe = s.afe := rfl
@[simp] theorem updPort_hbm (p : Nat) (f : Port → Port) (s : State) : (updPort p f s).hbm = s.hbm := rfl
@[simp] theorem updPort_sent (p : Nat) (f : Port → Port) (s : State) : (updPort p f s).sent = s.sent := rfl
@[simp] theorem updPort_free (p : Nat) (f : Port → Port) (s : State) : (updPort p f s).free = s.free := rfl
@[simp] theorem updPort_pending (p : Nat) (f : Port → Port) (s : State) : (updPort p f s).pending = s.pending := rfl

/-! setLane -/

@[simp] theorem setLane_clk (n : Nat) (l : Lane) (s : State) : (setLane n l s).clk = s.clk := rfl
@[simp] theorem setLane_boot (n : Nat) (l : Lane) (s : State) : (setLane n l s).boot = s.boot := rfl
@[simp] theorem setLane_pcie (n : Nat) (l : Lane) (s : State) : (setLane n l s).pcie = s.pcie := rfl
@[simp] theorem setLane_host (n : Nat) (l : Lane) (s : State) : (setLane n l s).host = s.host := rfl
@[simp] theorem setLane_cfg (n : Nat) (l : Lane) (s : State) : (setLane n l s).cfg = s.cfg := rfl
@[simp] theorem setLane_cmds (n : Nat) (l : Lane) (s : State) : (setLane n l s).cmds = s.cmds := rfl
@[simp] theorem setLane_nvm (n : Nat) (l : Lane) (s : State) : (setLane n l s).nvm = s.nvm := rfl
@[simp] theorem setLane_sec (n : Nat) (l : Lane) (s : State) : (setLane n l s).sec = s.sec := rfl
@[simp] theorem setLane_chain (n : Nat) (l : Lane) (s : State) : (setLane n l s).chain = s.chain := rfl
@[simp] theorem setLane_bist (n : Nat) (l : Lane) (s : State) : (setLane n l s).bist = s.bist := rfl
@[simp] theorem setLane_web (n : Nat) (l : Lane) (s : State) : (setLane n l s).web = s.web := rfl
@[simp] theorem setLane_afe (n : Nat) (l : Lane) (s : State) : (setLane n l s).afe = s.afe := rfl
@[simp] theorem setLane_hbm (n : Nat) (l : Lane) (s : State) : (setLane n l s).hbm = s.hbm := rfl
@[simp] theorem setLane_sent (n : Nat) (l : Lane) (s : State) : (setLane n l s).sent = s.sent := rfl
@[simp] theorem setLane_free (n : Nat) (l : Lane) (s : State) : (setLane n l s).free = s.free := rfl
@[simp] theorem setLane_pending (n : Nat) (l : Lane) (s : State) : (setLane n l s).pending = s.pending := rfl

/-! updWire -/

@[simp] theorem updWire_clk (w : Nat) (f : Wire → Wire) (s : State) : (updWire w f s).clk = s.clk := rfl
@[simp] theorem updWire_boot (w : Nat) (f : Wire → Wire) (s : State) : (updWire w f s).boot = s.boot := rfl
@[simp] theorem updWire_pcie (w : Nat) (f : Wire → Wire) (s : State) : (updWire w f s).pcie = s.pcie := rfl
@[simp] theorem updWire_host (w : Nat) (f : Wire → Wire) (s : State) : (updWire w f s).host = s.host := rfl
@[simp] theorem updWire_cfg (w : Nat) (f : Wire → Wire) (s : State) : (updWire w f s).cfg = s.cfg := rfl
@[simp] theorem updWire_cmds (w : Nat) (f : Wire → Wire) (s : State) : (updWire w f s).cmds = s.cmds := rfl
@[simp] theorem updWire_nvm (w : Nat) (f : Wire → Wire) (s : State) : (updWire w f s).nvm = s.nvm := rfl
@[simp] theorem updWire_sec (w : Nat) (f : Wire → Wire) (s : State) : (updWire w f s).sec = s.sec := rfl
@[simp] theorem updWire_chain (w : Nat) (f : Wire → Wire) (s : State) : (updWire w f s).chain = s.chain := rfl
@[simp] theorem updWire_bist (w : Nat) (f : Wire → Wire) (s : State) : (updWire w f s).bist = s.bist := rfl
@[simp] theorem updWire_web (w : Nat) (f : Wire → Wire) (s : State) : (updWire w f s).web = s.web := rfl
@[simp] theorem updWire_afe (w : Nat) (f : Wire → Wire) (s : State) : (updWire w f s).afe = s.afe := rfl
@[simp] theorem updWire_hbm (w : Nat) (f : Wire → Wire) (s : State) : (updWire w f s).hbm = s.hbm := rfl
@[simp] theorem updWire_sent (w : Nat) (f : Wire → Wire) (s : State) : (updWire w f s).sent = s.sent := rfl
@[simp] theorem updWire_free (w : Nat) (f : Wire → Wire) (s : State) : (updWire w f s).free = s.free := rfl
@[simp] theorem updWire_pending (w : Nat) (f : Wire → Wire) (s : State) : (updWire w f s).pending = s.pending := rfl

/-! updNvm -/

@[simp] theorem updNvm_clk (f : Nvm → Nvm) (s : State) : (updNvm f s).clk = s.clk := rfl
@[simp] theorem updNvm_boot (f : Nvm → Nvm) (s : State) : (updNvm f s).boot = s.boot := rfl
@[simp] theorem updNvm_pcie (f : Nvm → Nvm) (s : State) : (updNvm f s).pcie = s.pcie := rfl
@[simp] theorem updNvm_host (f : Nvm → Nvm) (s : State) : (updNvm f s).host = s.host := rfl
@[simp] theorem updNvm_cfg (f : Nvm → Nvm) (s : State) : (updNvm f s).cfg = s.cfg := rfl
@[simp] theorem updNvm_cmds (f : Nvm → Nvm) (s : State) : (updNvm f s).cmds = s.cmds := rfl
@[simp] theorem updNvm_sec (f : Nvm → Nvm) (s : State) : (updNvm f s).sec = s.sec := rfl
@[simp] theorem updNvm_chain (f : Nvm → Nvm) (s : State) : (updNvm f s).chain = s.chain := rfl
@[simp] theorem updNvm_bist (f : Nvm → Nvm) (s : State) : (updNvm f s).bist = s.bist := rfl
@[simp] theorem updNvm_ing (f : Nvm → Nvm) (s : State) : (updNvm f s).ing = s.ing := rfl
@[simp] theorem updNvm_web (f : Nvm → Nvm) (s : State) : (updNvm f s).web = s.web := rfl
@[simp] theorem updNvm_afe (f : Nvm → Nvm) (s : State) : (updNvm f s).afe = s.afe := rfl
@[simp] theorem updNvm_hbm (f : Nvm → Nvm) (s : State) : (updNvm f s).hbm = s.hbm := rfl
@[simp] theorem updNvm_sent (f : Nvm → Nvm) (s : State) : (updNvm f s).sent = s.sent := rfl
@[simp] theorem updNvm_free (f : Nvm → Nvm) (s : State) : (updNvm f s).free = s.free := rfl
@[simp] theorem updNvm_pending (f : Nvm → Nvm) (s : State) : (updNvm f s).pending = s.pending := rfl

/-! nvmStore -/

@[simp] theorem nvmStore_clk (a : Nat) (bs : List Byte) (s : State) : (nvmStore a bs s).clk = s.clk := rfl
@[simp] theorem nvmStore_boot (a : Nat) (bs : List Byte) (s : State) : (nvmStore a bs s).boot = s.boot := rfl
@[simp] theorem nvmStore_pcie (a : Nat) (bs : List Byte) (s : State) : (nvmStore a bs s).pcie = s.pcie := rfl
@[simp] theorem nvmStore_host (a : Nat) (bs : List Byte) (s : State) : (nvmStore a bs s).host = s.host := rfl
@[simp] theorem nvmStore_cfg (a : Nat) (bs : List Byte) (s : State) : (nvmStore a bs s).cfg = s.cfg := rfl
@[simp] theorem nvmStore_cmds (a : Nat) (bs : List Byte) (s : State) : (nvmStore a bs s).cmds = s.cmds := rfl
@[simp] theorem nvmStore_sec (a : Nat) (bs : List Byte) (s : State) : (nvmStore a bs s).sec = s.sec := rfl
@[simp] theorem nvmStore_chain (a : Nat) (bs : List Byte) (s : State) : (nvmStore a bs s).chain = s.chain := rfl
@[simp] theorem nvmStore_bist (a : Nat) (bs : List Byte) (s : State) : (nvmStore a bs s).bist = s.bist := rfl
@[simp] theorem nvmStore_ing (a : Nat) (bs : List Byte) (s : State) : (nvmStore a bs s).ing = s.ing := rfl
@[simp] theorem nvmStore_web (a : Nat) (bs : List Byte) (s : State) : (nvmStore a bs s).web = s.web := rfl
@[simp] theorem nvmStore_afe (a : Nat) (bs : List Byte) (s : State) : (nvmStore a bs s).afe = s.afe := rfl
@[simp] theorem nvmStore_hbm (a : Nat) (bs : List Byte) (s : State) : (nvmStore a bs s).hbm = s.hbm := rfl
@[simp] theorem nvmStore_sent (a : Nat) (bs : List Byte) (s : State) : (nvmStore a bs s).sent = s.sent := rfl
@[simp] theorem nvmStore_free (a : Nat) (bs : List Byte) (s : State) : (nvmStore a bs s).free = s.free := rfl
@[simp] theorem nvmStore_pending (a : Nat) (bs : List Byte) (s : State) : (nvmStore a bs s).pending = s.pending := rfl

/-! countLife -/

@[simp] theorem countLife_clk (i : Nat) (s : State) : (countLife i s).clk = s.clk := rfl
@[simp] theorem countLife_boot (i : Nat) (s : State) : (countLife i s).boot = s.boot := rfl
@[simp] theorem countLife_pcie (i : Nat) (s : State) : (countLife i s).pcie = s.pcie := rfl
@[simp] theorem countLife_host (i : Nat) (s : State) : (countLife i s).host = s.host := rfl
@[simp] theorem countLife_cfg (i : Nat) (s : State) : (countLife i s).cfg = s.cfg := rfl
@[simp] theorem countLife_cmds (i : Nat) (s : State) : (countLife i s).cmds = s.cmds := rfl
@[simp] theorem countLife_sec (i : Nat) (s : State) : (countLife i s).sec = s.sec := rfl
@[simp] theorem countLife_chain (i : Nat) (s : State) : (countLife i s).chain = s.chain := rfl
@[simp] theorem countLife_bist (i : Nat) (s : State) : (countLife i s).bist = s.bist := rfl
@[simp] theorem countLife_ing (i : Nat) (s : State) : (countLife i s).ing = s.ing := rfl
@[simp] theorem countLife_web (i : Nat) (s : State) : (countLife i s).web = s.web := rfl
@[simp] theorem countLife_afe (i : Nat) (s : State) : (countLife i s).afe = s.afe := rfl
@[simp] theorem countLife_hbm (i : Nat) (s : State) : (countLife i s).hbm = s.hbm := rfl
@[simp] theorem countLife_sent (i : Nat) (s : State) : (countLife i s).sent = s.sent := rfl
@[simp] theorem countLife_free (i : Nat) (s : State) : (countLife i s).free = s.free := rfl
@[simp] theorem countLife_pending (i : Nat) (s : State) : (countLife i s).pending = s.pending := rfl

/-! putDq -/

@[simp] theorem putDq_clk (n : Nat) (r : Ring) (s : State) : (putDq n r s).clk = s.clk := rfl
@[simp] theorem putDq_boot (n : Nat) (r : Ring) (s : State) : (putDq n r s).boot = s.boot := rfl
@[simp] theorem putDq_pcie (n : Nat) (r : Ring) (s : State) : (putDq n r s).pcie = s.pcie := rfl
@[simp] theorem putDq_cfg (n : Nat) (r : Ring) (s : State) : (putDq n r s).cfg = s.cfg := rfl
@[simp] theorem putDq_cmds (n : Nat) (r : Ring) (s : State) : (putDq n r s).cmds = s.cmds := rfl
@[simp] theorem putDq_nvm (n : Nat) (r : Ring) (s : State) : (putDq n r s).nvm = s.nvm := rfl
@[simp] theorem putDq_sec (n : Nat) (r : Ring) (s : State) : (putDq n r s).sec = s.sec := rfl
@[simp] theorem putDq_chain (n : Nat) (r : Ring) (s : State) : (putDq n r s).chain = s.chain := rfl
@[simp] theorem putDq_bist (n : Nat) (r : Ring) (s : State) : (putDq n r s).bist = s.bist := rfl
@[simp] theorem putDq_ing (n : Nat) (r : Ring) (s : State) : (putDq n r s).ing = s.ing := rfl
@[simp] theorem putDq_web (n : Nat) (r : Ring) (s : State) : (putDq n r s).web = s.web := rfl
@[simp] theorem putDq_afe (n : Nat) (r : Ring) (s : State) : (putDq n r s).afe = s.afe := rfl
@[simp] theorem putDq_hbm (n : Nat) (r : Ring) (s : State) : (putDq n r s).hbm = s.hbm := rfl
@[simp] theorem putDq_sent (n : Nat) (r : Ring) (s : State) : (putDq n r s).sent = s.sent := rfl
@[simp] theorem putDq_free (n : Nat) (r : Ring) (s : State) : (putDq n r s).free = s.free := rfl
@[simp] theorem putDq_pending (n : Nat) (r : Ring) (s : State) : (putDq n r s).pending = s.pending := rfl

/-! putSr -/

@[simp] theorem putSr_clk (n : Nat) (r : Ring) (s : State) : (putSr n r s).clk = s.clk := rfl
@[simp] theorem putSr_boot (n : Nat) (r : Ring) (s : State) : (putSr n r s).boot = s.boot := rfl
@[simp] theorem putSr_pcie (n : Nat) (r : Ring) (s : State) : (putSr n r s).pcie = s.pcie := rfl
@[simp] theorem putSr_cfg (n : Nat) (r : Ring) (s : State) : (putSr n r s).cfg = s.cfg := rfl
@[simp] theorem putSr_cmds (n : Nat) (r : Ring) (s : State) : (putSr n r s).cmds = s.cmds := rfl
@[simp] theorem putSr_nvm (n : Nat) (r : Ring) (s : State) : (putSr n r s).nvm = s.nvm := rfl
@[simp] theorem putSr_sec (n : Nat) (r : Ring) (s : State) : (putSr n r s).sec = s.sec := rfl
@[simp] theorem putSr_chain (n : Nat) (r : Ring) (s : State) : (putSr n r s).chain = s.chain := rfl
@[simp] theorem putSr_bist (n : Nat) (r : Ring) (s : State) : (putSr n r s).bist = s.bist := rfl
@[simp] theorem putSr_ing (n : Nat) (r : Ring) (s : State) : (putSr n r s).ing = s.ing := rfl
@[simp] theorem putSr_web (n : Nat) (r : Ring) (s : State) : (putSr n r s).web = s.web := rfl
@[simp] theorem putSr_afe (n : Nat) (r : Ring) (s : State) : (putSr n r s).afe = s.afe := rfl
@[simp] theorem putSr_hbm (n : Nat) (r : Ring) (s : State) : (putSr n r s).hbm = s.hbm := rfl
@[simp] theorem putSr_sent (n : Nat) (r : Ring) (s : State) : (putSr n r s).sent = s.sent := rfl
@[simp] theorem putSr_free (n : Nat) (r : Ring) (s : State) : (putSr n r s).free = s.free := rfl
@[simp] theorem putSr_pending (n : Nat) (r : Ring) (s : State) : (putSr n r s).pending = s.pending := rfl

/-! setPend -/

@[simp] theorem setPend_clk (n : Nat) (s : State) : (setPend n s).clk = s.clk := rfl
@[simp] theorem setPend_boot (n : Nat) (s : State) : (setPend n s).boot = s.boot := rfl
@[simp] theorem setPend_pcie (n : Nat) (s : State) : (setPend n s).pcie = s.pcie := rfl
@[simp] theorem setPend_cfg (n : Nat) (s : State) : (setPend n s).cfg = s.cfg := rfl
@[simp] theorem setPend_cmds (n : Nat) (s : State) : (setPend n s).cmds = s.cmds := rfl
@[simp] theorem setPend_nvm (n : Nat) (s : State) : (setPend n s).nvm = s.nvm := rfl
@[simp] theorem setPend_sec (n : Nat) (s : State) : (setPend n s).sec = s.sec := rfl
@[simp] theorem setPend_chain (n : Nat) (s : State) : (setPend n s).chain = s.chain := rfl
@[simp] theorem setPend_bist (n : Nat) (s : State) : (setPend n s).bist = s.bist := rfl
@[simp] theorem setPend_ing (n : Nat) (s : State) : (setPend n s).ing = s.ing := rfl
@[simp] theorem setPend_web (n : Nat) (s : State) : (setPend n s).web = s.web := rfl
@[simp] theorem setPend_afe (n : Nat) (s : State) : (setPend n s).afe = s.afe := rfl
@[simp] theorem setPend_hbm (n : Nat) (s : State) : (setPend n s).hbm = s.hbm := rfl
@[simp] theorem setPend_sent (n : Nat) (s : State) : (setPend n s).sent = s.sent := rfl
@[simp] theorem setPend_free (n : Nat) (s : State) : (setPend n s).free = s.free := rfl
@[simp] theorem setPend_pending (n : Nat) (s : State) : (setPend n s).pending = s.pending := rfl

/-! updReel -/

@[simp] theorem updReel_clk (r : Nat) (f : Reel → Reel) (s : State) : (updReel r f s).clk = s.clk := rfl
@[simp] theorem updReel_boot (r : Nat) (f : Reel → Reel) (s : State) : (updReel r f s).boot = s.boot := rfl
@[simp] theorem updReel_pcie (r : Nat) (f : Reel → Reel) (s : State) : (updReel r f s).pcie = s.pcie := rfl
@[simp] theorem updReel_host (r : Nat) (f : Reel → Reel) (s : State) : (updReel r f s).host = s.host := rfl
@[simp] theorem updReel_cfg (r : Nat) (f : Reel → Reel) (s : State) : (updReel r f s).cfg = s.cfg := rfl
@[simp] theorem updReel_cmds (r : Nat) (f : Reel → Reel) (s : State) : (updReel r f s).cmds = s.cmds := rfl
@[simp] theorem updReel_nvm (r : Nat) (f : Reel → Reel) (s : State) : (updReel r f s).nvm = s.nvm := rfl
@[simp] theorem updReel_sec (r : Nat) (f : Reel → Reel) (s : State) : (updReel r f s).sec = s.sec := rfl
@[simp] theorem updReel_chain (r : Nat) (f : Reel → Reel) (s : State) : (updReel r f s).chain = s.chain := rfl
@[simp] theorem updReel_bist (r : Nat) (f : Reel → Reel) (s : State) : (updReel r f s).bist = s.bist := rfl
@[simp] theorem updReel_ing (r : Nat) (f : Reel → Reel) (s : State) : (updReel r f s).ing = s.ing := rfl
@[simp] theorem updReel_afe (r : Nat) (f : Reel → Reel) (s : State) : (updReel r f s).afe = s.afe := rfl
@[simp] theorem updReel_hbm (r : Nat) (f : Reel → Reel) (s : State) : (updReel r f s).hbm = s.hbm := rfl
@[simp] theorem updReel_sent (r : Nat) (f : Reel → Reel) (s : State) : (updReel r f s).sent = s.sent := rfl
@[simp] theorem updReel_free (r : Nat) (f : Reel → Reel) (s : State) : (updReel r f s).free = s.free := rfl
@[simp] theorem updReel_pending (r : Nat) (f : Reel → Reel) (s : State) : (updReel r f s).pending = s.pending := rfl

/-! updSec -/

@[simp] theorem updSec_clk (f : Sec → Sec) (s : State) : (updSec f s).clk = s.clk := rfl
@[simp] theorem updSec_boot (f : Sec → Sec) (s : State) : (updSec f s).boot = s.boot := rfl
@[simp] theorem updSec_pcie (f : Sec → Sec) (s : State) : (updSec f s).pcie = s.pcie := rfl
@[simp] theorem updSec_host (f : Sec → Sec) (s : State) : (updSec f s).host = s.host := rfl
@[simp] theorem updSec_cfg (f : Sec → Sec) (s : State) : (updSec f s).cfg = s.cfg := rfl
@[simp] theorem updSec_cmds (f : Sec → Sec) (s : State) : (updSec f s).cmds = s.cmds := rfl
@[simp] theorem updSec_nvm (f : Sec → Sec) (s : State) : (updSec f s).nvm = s.nvm := rfl
@[simp] theorem updSec_chain (f : Sec → Sec) (s : State) : (updSec f s).chain = s.chain := rfl
@[simp] theorem updSec_bist (f : Sec → Sec) (s : State) : (updSec f s).bist = s.bist := rfl
@[simp] theorem updSec_ing (f : Sec → Sec) (s : State) : (updSec f s).ing = s.ing := rfl
@[simp] theorem updSec_web (f : Sec → Sec) (s : State) : (updSec f s).web = s.web := rfl
@[simp] theorem updSec_afe (f : Sec → Sec) (s : State) : (updSec f s).afe = s.afe := rfl
@[simp] theorem updSec_hbm (f : Sec → Sec) (s : State) : (updSec f s).hbm = s.hbm := rfl
@[simp] theorem updSec_sent (f : Sec → Sec) (s : State) : (updSec f s).sent = s.sent := rfl
@[simp] theorem updSec_free (f : Sec → Sec) (s : State) : (updSec f s).free = s.free := rfl
@[simp] theorem updSec_pending (f : Sec → Sec) (s : State) : (updSec f s).pending = s.pending := rfl

/-! updBoot -/

@[simp] theorem updBoot_clk (f : Boot → Boot) (s : State) : (updBoot f s).clk = s.clk := rfl
@[simp] theorem updBoot_pcie (f : Boot → Boot) (s : State) : (updBoot f s).pcie = s.pcie := rfl
@[simp] theorem updBoot_host (f : Boot → Boot) (s : State) : (updBoot f s).host = s.host := rfl
@[simp] theorem updBoot_cfg (f : Boot → Boot) (s : State) : (updBoot f s).cfg = s.cfg := rfl
@[simp] theorem updBoot_cmds (f : Boot → Boot) (s : State) : (updBoot f s).cmds = s.cmds := rfl
@[simp] theorem updBoot_nvm (f : Boot → Boot) (s : State) : (updBoot f s).nvm = s.nvm := rfl
@[simp] theorem updBoot_sec (f : Boot → Boot) (s : State) : (updBoot f s).sec = s.sec := rfl
@[simp] theorem updBoot_chain (f : Boot → Boot) (s : State) : (updBoot f s).chain = s.chain := rfl
@[simp] theorem updBoot_bist (f : Boot → Boot) (s : State) : (updBoot f s).bist = s.bist := rfl
@[simp] theorem updBoot_ing (f : Boot → Boot) (s : State) : (updBoot f s).ing = s.ing := rfl
@[simp] theorem updBoot_web (f : Boot → Boot) (s : State) : (updBoot f s).web = s.web := rfl
@[simp] theorem updBoot_afe (f : Boot → Boot) (s : State) : (updBoot f s).afe = s.afe := rfl
@[simp] theorem updBoot_hbm (f : Boot → Boot) (s : State) : (updBoot f s).hbm = s.hbm := rfl
@[simp] theorem updBoot_sent (f : Boot → Boot) (s : State) : (updBoot f s).sent = s.sent := rfl
@[simp] theorem updBoot_free (f : Boot → Boot) (s : State) : (updBoot f s).free = s.free := rfl
@[simp] theorem updBoot_pending (f : Boot → Boot) (s : State) : (updBoot f s).pending = s.pending := rfl

/-! hbmWrite -/

@[simp] theorem hbmWrite_clk (a : Nat) (bs : List Byte) (s : State) : (hbmWrite a bs s).clk = s.clk := rfl
@[simp] theorem hbmWrite_boot (a : Nat) (bs : List Byte) (s : State) : (hbmWrite a bs s).boot = s.boot := rfl
@[simp] theorem hbmWrite_pcie (a : Nat) (bs : List Byte) (s : State) : (hbmWrite a bs s).pcie = s.pcie := rfl
@[simp] theorem hbmWrite_host (a : Nat) (bs : List Byte) (s : State) : (hbmWrite a bs s).host = s.host := rfl
@[simp] theorem hbmWrite_cfg (a : Nat) (bs : List Byte) (s : State) : (hbmWrite a bs s).cfg = s.cfg := rfl
@[simp] theorem hbmWrite_cmds (a : Nat) (bs : List Byte) (s : State) : (hbmWrite a bs s).cmds = s.cmds := rfl
@[simp] theorem hbmWrite_nvm (a : Nat) (bs : List Byte) (s : State) : (hbmWrite a bs s).nvm = s.nvm := rfl
@[simp] theorem hbmWrite_sec (a : Nat) (bs : List Byte) (s : State) : (hbmWrite a bs s).sec = s.sec := rfl
@[simp] theorem hbmWrite_chain (a : Nat) (bs : List Byte) (s : State) : (hbmWrite a bs s).chain = s.chain := rfl
@[simp] theorem hbmWrite_bist (a : Nat) (bs : List Byte) (s : State) : (hbmWrite a bs s).bist = s.bist := rfl
@[simp] theorem hbmWrite_ing (a : Nat) (bs : List Byte) (s : State) : (hbmWrite a bs s).ing = s.ing := rfl
@[simp] theorem hbmWrite_web (a : Nat) (bs : List Byte) (s : State) : (hbmWrite a bs s).web = s.web := rfl
@[simp] theorem hbmWrite_afe (a : Nat) (bs : List Byte) (s : State) : (hbmWrite a bs s).afe = s.afe := rfl
@[simp] theorem hbmWrite_sent (a : Nat) (bs : List Byte) (s : State) : (hbmWrite a bs s).sent = s.sent := rfl
@[simp] theorem hbmWrite_free (a : Nat) (bs : List Byte) (s : State) : (hbmWrite a bs s).free = s.free := rfl
@[simp] theorem hbmWrite_pending (a : Nat) (bs : List Byte) (s : State) : (hbmWrite a bs s).pending = s.pending := rfl

/-! emit -/

@[simp] theorem emit_clk (e : Emit) (s : State) : (emit e s).clk = s.clk := rfl
@[simp] theorem emit_boot (e : Emit) (s : State) : (emit e s).boot = s.boot := rfl
@[simp] theorem emit_pcie (e : Emit) (s : State) : (emit e s).pcie = s.pcie := rfl
@[simp] theorem emit_host (e : Emit) (s : State) : (emit e s).host = s.host := rfl
@[simp] theorem emit_cfg (e : Emit) (s : State) : (emit e s).cfg = s.cfg := rfl
@[simp] theorem emit_cmds (e : Emit) (s : State) : (emit e s).cmds = s.cmds := rfl
@[simp] theorem emit_nvm (e : Emit) (s : State) : (emit e s).nvm = s.nvm := rfl
@[simp] theorem emit_sec (e : Emit) (s : State) : (emit e s).sec = s.sec := rfl
@[simp] theorem emit_chain (e : Emit) (s : State) : (emit e s).chain = s.chain := rfl
@[simp] theorem emit_bist (e : Emit) (s : State) : (emit e s).bist = s.bist := rfl
@[simp] theorem emit_ing (e : Emit) (s : State) : (emit e s).ing = s.ing := rfl
@[simp] theorem emit_web (e : Emit) (s : State) : (emit e s).web = s.web := rfl
@[simp] theorem emit_afe (e : Emit) (s : State) : (emit e s).afe = s.afe := rfl
@[simp] theorem emit_hbm (e : Emit) (s : State) : (emit e s).hbm = s.hbm := rfl
@[simp] theorem emit_free (e : Emit) (s : State) : (emit e s).free = s.free := rfl
@[simp] theorem emit_pending (e : Emit) (s : State) : (emit e s).pending = s.pending := rfl

end Sys2Proof.Machine
end

