-- ==== Sys2Proof/Laws/Tables.lean ====
section
/-! SUPPORT. Sparse tables: what is found after a setting or an erasure, and what follows for the per-instance records of
the state. -/

namespace Sys2Proof.Machine

@[simp] theorem tblFind_tblSet_self {α : Type} (t : Tbl α) (i : Nat) (v : α) : tblFind (tblSet t i v) i = some v := by
  induction t with
  | nil => simp [tblSet, tblFind]
  | cons x t ih =>
    obtain ⟨k, w⟩ := x
    simp only [tblSet]
    split
    · simp [tblFind]
    · split
      · simp [tblFind]
      · simp [tblFind, *]

theorem tblFind_tblSet_other {α : Type} (t : Tbl α) {i j : Nat} (v : α) (h : j ≠ i) :
    tblFind (tblSet t i v) j = tblFind t j := by
  induction t with
  | nil => simp [tblSet, tblFind, h]
  | cons x t ih =>
    obtain ⟨k, w⟩ := x
    simp only [tblSet]
    split
    · rename_i hk
      subst hk
      simp [tblFind, h]
    · split
      · simp [tblFind, h]
      · simp only [tblFind, ih]

@[simp] theorem tblGet_tblSet_self {α : Type} (d : α) (t : Tbl α) (i : Nat) (v : α) : tblGet d (tblSet t i v) i = v := by
  simp [tblGet]

theorem tblGet_tblSet_other {α : Type} (d : α) (t : Tbl α) {i j : Nat} (v : α) (h : j ≠ i) :
    tblGet d (tblSet t i v) j = tblGet d t j := by
  simp [tblGet, tblFind_tblSet_other t v h]

@[simp] theorem tblGet_tblUpd_self {α : Type} (d : α) (t : Tbl α) (i : Nat) (f : α → α) :
    tblGet d (tblUpd d t i f) i = f (tblGet d t i) := by
  simp [tblUpd]

theorem tblGet_tblUpd_other {α : Type} (d : α) (t : Tbl α) {i j : Nat} (f : α → α) (h : j ≠ i) :
    tblGet d (tblUpd d t i f) j = tblGet d t j :=
  tblGet_tblSet_other d t _ h

theorem tblFind_tblErase_self {α : Type} (t : Tbl α) (i : Nat) : tblFind (tblErase t i) i = none := by
  induction t with
  | nil => rfl
  | cons x t ih =>
    obtain ⟨k, w⟩ := x
    simp only [tblErase]
    split
    · exact ih
    · simp [tblFind, *]

@[simp] theorem chan_updChan_self (n : Nat) (f : Chan → Chan) (s : State) : chan (updChan n f s) n = f (chan s n) :=
  tblGet_tblUpd_self _ _ _ _
@[simp] theorem dry_updDry_self (p : Nat) (f : Dry → Dry) (s : State) : dry (updDry p f s) p = f (dry s p) :=
  tblGet_tblUpd_self _ _ _ _
@[simp] theorem hk_updHk_self (u : Nat) (f : Hk → Hk) (s : State) : hk (updHk u f s) u = f (hk s u) :=
  tblGet_tblUpd_self _ _ _ _
@[simp] theorem sp_updSp_self (n : Nat) (f : Sp → Sp) (s : State) : sp (updSp n f s) n = f (sp s n) :=
  tblGet_tblUpd_self _ _ _ _
@[simp] theorem wire_updWire_self (w : Nat) (f : Wire → Wire) (s : State) : wire (updWire w f s) w = f (wire s w) :=
  tblGet_tblUpd_self _ _ _ _
@[simp] theorem port_updPort_self (p : Nat) (f : Port → Port) (s : State) : port (updPort p f s) p = f (port s p) :=
  tblGet_tblSet_self _ _ _ _
@[simp] theorem lane_setLane_self (n : Nat) (l : Lane) (s : State) : lane (setLane n l s) n = l :=
  tblGet_tblSet_self _ _ _ _
@[simp] theorem enc_setEnc_self (e : Nat) (x : Enc) (s : State) : enc (setEnc e x s) e = x :=
  tblGet_tblSet_self _ _ _ _
@[simp] theorem feltPort_setFeltPort_self (k : Nat) (p : FeltPort) (s : State) : feltPort (setFeltPort k p s) k = p :=
  tblGet_tblSet_self _ _ _ _

end Sys2Proof.Machine
end

