-- ==== Sys2Proof/WellFormed.lean ====
section
/-! DEFINITION. Well-formed commands: what the types of the operands leave open and the tables of the spec fix. -/

namespace Sys2Proof

/-- An access size that PCIe carries. -/
def sizeWf (n : Nat) : Bool := decide (n = 1 ∨ n = 2 ∨ n = 4 ∨ n = 8)
/-- The readings of sensors 0 to 37 and of HBM stacks 0 to 3, s16 in 1/4 °C; a stack's readout is in whole °C (R341). -/
def tempsWf (t : List Int) : Bool :=
  decide (t.length = 42) && t.all (fun x => decide (-32768 ≤ x ∧ x ≤ 32767)) && (t.drop 38).all fun x => decide (x % 4 = 0)
/-- A command packet is 64 bytes (chapter 5). -/
def Fetched.wf : Fetched → Bool
  | .packet bs => decide (bs.length = 64)
  | .failed => true
/-- Host data of a row: one byte at least. -/
def HostRead.wf : HostRead → Bool
  | .data bs => decide (bs ≠ [])
  | .fail => true
/-- An access carries a value of its size. -/
def RegAccess.wf : RegAccess → Bool
  | .read n => sizeWf n
  | .write n v => sizeWf n && decide (v.toNat < 2 ^ (8 * n))
/-- A window access has one byte at least. -/
def Bar2.wf : Bar2 → Bool
  | .read n => decide (1 ≤ n)
  | .write bs => decide (bs ≠ [])
/-- A flash that answers returns a header of 256 bytes (R393). -/
def FlashContent.wf (f : FlashContent) : Bool := !f.answers || decide (f.header.length = 256)
/-- Blocks are of eight bytes (R147). -/
def blocksWf (bs : List (List Byte)) : Bool := bs.all fun b => decide (b.length = 8)
/-- A lane word: an idle word has four octets (R129). -/
def LaneWord.wf : LaneWord → Bool
  | .block _ _ _ => true
  | .idle os => decide (os.length = 4)
/-- A discovery acknowledgement names one to four connections. -/
def CxpAck.wf : CxpAck → Bool
  | .discovery ids n => decide (ids.length ≤ 4 ∧ n ≤ 4)
  | .setup _ => true
  | .write _ _ => true
  | .io => true
/-- Serial numbers are of 16 bytes; a device without a head names none. -/
def serialWf (x : List Byte) : Bool := decide (x.length = 16)
/-- Probes and replies (Table 21.3). -/
def EnumMsg.wf (m : EnumMsg) : Bool :=
  serialWf m.serial && (decide (m.headSerial = []) || serialWf m.headSerial) && (decide (m.via = []) || serialWf m.via)
    && decide (m.path = [] ∨ m.path.length = 257)
/-- Forwarded accesses and replies. -/
def RegMsg.wf : RegMsg → Bool
  | .reg _ a => a.wf
  | .bar2 _ a => a.wf
  | .reply n v => decide (v < 2 ^ (8 * n))
/-- Notices: serial numbers whole, four felt ports. -/
def CtrlMsg.wf : CtrlMsg → Bool
  | .join _ _ _ _ serial hd _ => serialWf serial && serialWf hd
  | .entry _ ids ports => decide (ids.length = 4 ∧ ports.length = 4)
  | .link _ _ _ _ => true
  | .loss _ => true
  | .syncState _ a => decide (-32768 ≤ a ∧ a ≤ 32767)
/-- A request of 1 to 4,096 bytes, or its data (Table 21.3). -/
def HrdMsg.wf : HrdMsg → Bool
  | .request _ n d => decide (1 ≤ n.toNat ∧ n.toNat ≤ 4096) && d.wf
  | .data bs => decide (bs.length ≤ 4096)

/-- Is the command one that the outside world can give? Operands whose types say everything are always sound. -/
def Instr.wf : Instr → Bool
  | .identify _ _ _ => true
  | .progress _ _ => true
  | .abort _ _ => true
  | .echo _ _ => true
  | .cfgStage _ _ d => d.wf
  | .cfgCommit _ _ => true
  | .cfgCommitDiscard _ _ => true
  | .cfgRead _ _ _ => true
  | .laneTrain _ _ => true
  | .laneTest _ _ => true
  | .portStart _ _ => true
  | .portStop _ _ => true
  | .tableLoad _ _ d => d.wf
  | .reprocess _ _ => true
  | .shutter _ _ => true
  | .rulesLoad _ _ d => d.wf
  | .queueCreate _ _ => true
  | .queueDelete _ _ => true
  | .markFire _ _ => true
  | .adcSelfcal _ _ => true
  | .calibrate _ _ _ => true
  | .nvmRead _ _ _ => true
  | .nvmWrite _ _ d => d.wf
  | .attest _ _ _ => true
  | .fwStage _ _ d _ _ => d.wf
  | .fwActivate _ _ _ => true
  | .certRead _ _ _ => true
  | .bistRun _ _ => true
  | .wireSwap _ _ => true
  | .chainEnum _ _ _ => true
  | .commandFetch _ e => e.wf
  | .interimCompletion _ _ => true
  | .pair0Create _ => true
  | .pair0Delete _ => true
  | .dbSqTail _ _ => true
  | .dbCqHead _ _ => true
  | .dbSrHead _ _ => true
  | .dbEvtHead _ _ => true
  | .dbDqHead _ => true
  | .doorbellPageWrite _ _ _ => true
  | .glbBar2Base _ => true
  | .bar2Access _ a => a.wf
  | .forwardedAccess _ a => a.wf
  | .evtGrp _ _ => true
  | .evtPend _ _ _ => true
  | .mrkArm _ => true
  | .wireHistLookup _ => true
  | .hkSwtrig _ _ => true
  | .masterGo _ _ => true
  | .registerWrite _ _ n v => sizeWf n && decide (v.toNat < 2 ^ (8 * n))
  | .registerReadClear _ _ n => sizeWf n
  | .splitReadLow _ => true
  | .splitReadHigh _ => true
  | .powerValid f t => f.wf && tempsWf t
  | .deviceReady => true
  | .profileImageLoaded _ im => decide (im ≠ [])
  | .thermalHoldCheck t => tempsWf t
  | .brownOut _ => true
  | .railDip _ _ => true
  | .sysRstN _ _ => true
  | .perstN => true
  | .functionLevelReset => true
  | .d3hotEntry => true
  | .dlDown => true
  | .busMasterEnable _ => true
  | .vvalveOut _ => true
  | .vvalveOk _ => true
  | .xtalFail => true
  | .xtalOk => true
  | .afeKeepalive => true
  | .afeLink => true
  | .afeLinkRestored => true
  | .tenderWatchdog _ => true
  | .tenderRestartEnd _ => true
  | .rateWindowEnd a => decide (a.length = 23)
  | .commitBoundary _ _ => true
  | .groupTimer _ => true
  | .tailMirrorWrite _ => true
  | .recordDelivery => true
  | .laneSignalDetect _ => true
  | .laneCdrLock _ => true
  | .laneEqDone _ _ => true
  | .dfeAdaptStep _ _ _ => true
  | .laneAligned _ => true
  | .laneRelock _ rx => rx.wf
  | .laneUnlock _ _ _ => true
  | .laneRetrainTimeout _ => true
  | .lockFail _ => true
  | .prbsSync _ _ => true
  | .prbsSyncLoss _ _ => true
  | .train _ bs => blocksWf bs
  | .am _ bs _ => blocksWf bs
  | .amSend _ => true
  | .lineData _ k pl => decide (k.ptype ≠ 0x01 ∨ 16 ≤ pl.length)
  | .regAck _ k pl => decide (k.ptype = 0x05 ∧ pl.length = 8)
  | .widthAck _ k pl => decide (k.ptype = 0x07 ∧ pl.length = 8)
  | .linkFault _ _ => true
  | .linkStateTimeout _ => true
  | .recoveryEnd _ => true
  | .fullWidthRequest _ => true
  | .credit _ => true
  | .cxpStreamPacket _ _ k => k.samples.all fun x => decide (x < 65536)
  | .cxpControlAck _ a => a.wf
  | .cxpHeartbeat _ => true
  | .heartbeatLost _ => true
  | .discoveryFail _ => true
  | .triggerEncoder _ => true
  | .triggerTimer _ => true
  | .trigLost _ => true
  | .lineTimeout _ => true
  | .droppedLinePeriod _ => true
  | .setAckTimeout _ => true
  | .wireServe _ => true
  | .wireLineExit _ => true
  | .deadline _ _ => true
  | .swapHandover => true
  | .swapDone => true
  | .couchLine _ => true
  | .rowEmit => true
  | .rowTimeout => true
  | .thermalRowMap _ => true
  | .thermalRowEmit => true
  | .thermTimeout => true
  | .edge _ _ _ cs => cs.all fun x => decide (x.2.1.length ≤ 4)
  | .knotterRow _ => true
  | .mergerComponent => true
  | .frag _ cs _ _ => decide (cs ≠ []) && (cs.all (fun c => c.reproc) || cs.all fun c => !c.reproc)
  | .mergeTimeout => true
  | .tileWrite => true
  | .reelRow _ => true
  | .reelUnitTimeout _ => true
  | .frameSync _ => true
  | .dryerRow _ _ ts => decide (1 ≤ ts.length ∧ ts.length ≤ 16)
  | .thermalPipeRow _ => true
  | .frameTimeout _ => true
  | .driftRefine _ => true
  | .markerJob _ => true
  | .driveStart _ => true
  | .peakPhaseEnd _ _ => true
  | .driveEnd _ => true
  | .decayEnd _ => true
  | .headroomRetry _ => true
  | .coilUpdate => true
  | .senseInstant _ => true
  | .overcurrent _ => true
  | .hsOvercurrent _ => true
  | .hkConversionEnd _ _ => true
  | .injectedStart _ => true
  | .selfcalDone _ _ _ => true
  | .masterDone _ bs => decide (bs.length ≤ 65536)
  | .slaveReadFrame _ _ _ _ => true
  | .slaveWriteFrame _ _ n bs => decide (bs.length ≤ n / 8)
  | .viewRefresh => true
  | .gpioEdge _ _ => true
  | .encoderEdge _ _ _ => true
  | .encoderZ _ => true
  | .encoderSample _ => true
  | .thermalEvaluation t => tempsWf t
  | .refCheck _ => true
  | .calibrationStart _ => true
  | .forced _ => true
  | .calibrationEnd (.valve _) _ _ ps => decide (ps.length = 12)
  | .calibrationEnd _ _ _ _ => true
  | .sramEccError _ _ _ _ => true
  | .hbmEccUncorr _ => true
  | .pageWriteEnd _ => true
  | .counterBatch => true
  | .calStore => true
  | .fuseStep => true
  | .testInstruction _ f t => f.wf && tempsWf t
  | .dbgChal => true
  | .dbgResp _ sig => decide (sig.length = 96)
  | .enum _ m => m.wf
  | .sync _ _ _ _ _ => true
  | .syncExchange => true
  | .syncAverage => true
  | .enc _ _ _ _ => true
  | .encSend => true
  | .shareLost => true
  | .cmd _ _ _ p => decide (p.length = 64)
  | .cpl _ _ _ b => decide (b.length = 32)
  | .reg _ _ m => m.wf
  | .db _ _ _ _ => true
  | .msi _ _ _ => true
  | .ctrl _ _ m => m.wf
  | .hwr _ _ _ bs => decide (1 ≤ bs.length ∧ bs.length ≤ 512)
  | .hrd _ _ m => m.wf
  | .feltLinkDown _ => true
  | .routeTimeout _ _ => true
  | .deviceJoined _ _ => true
  | .parentLost => true
  | .bistBlockEnd _ _ _ => true
  | .sparePeriod => true
  | .debugLockoutEnd => true
  | .sysRstNRelease f t => f.wf && tempsWf t
  | .perstNRelease => true
  | .linkChange g w => decide (1 ≤ g.val) && [1, 2, 4, 8].contains w.val
  | .aerUncorr _ => true
  | .laneTrainTimeout _ => true
  | .widthReq _ k pl => decide (k.ptype = 0x06 ∧ pl.length = 8)
  | .creditGrantReceived _ k pl => decide (k.ptype = 0x02 ∧ pl.length = 4)
  | .reelUnitHoldExpiry _ => true
  | .eventLogWriteInterval => true
  | .strobePulseEnd _ => true
  | .biasRampEnd _ => true

end Sys2Proof
end

