-- ==== Sys2Proof/Tests/Slice0.lean ====
section
/-! SUPPORT. Tests: ill-formed commands are refused; small steps with results worked out from the spec's tables; and for
every statement a state and operands that meet its hypotheses. -/

namespace Sys2Proof.Tests

open Sys2Proof.Machine

set_option Elab.async false

/-! ### Helper states -/

/-- A packet: opcode, then bytes at offsets. -/
def pkt (op : Nat) (l : List (Nat × Nat)) : List Byte :=
  let all := (0, op % 256) :: (1, op / 256) :: l
  (List.range 64).map fun i => BitVec.ofNat 8 (((all.find? fun x => decide (x.1 = i)).map Prod.snd).getD 0)

/-- A fetched command of SQ 0 with tag 0. -/
def cm (op : Nat) (l : List (Nat × Nat)) : Cmd := { cid := 0, sq := 0, tag := 0, packet := pkt op l }

/-- A command of SQ 1 with tag 5. -/
def other (op : Nat) (started : Bool) : Cmd := { cid := 9, sq := 1, tag := 5, packet := pkt op [(4, 5)], started := started }

/-- Reset, with commands in flight and Bus Master Enable 1. -/
def infl (cs : List Cmd) : State := { cmds := { nextId := 10, flight := cs }, pcie := { bme := true } }

/-- Reset at a crystal time, with Bus Master Enable 1 and values in force. -/
def at_ (ns : Nat) (vals : Tbl Nat) : State := { clk := { ns := ns, tb := ns }, pcie := { bme := true }, cfg := { vals := vals } }
/-- What `Named` asks of a state, as one check. -/
def named (s : State) (sq : Fin 1024) (tag : W32) (op : Nat) (c : Cmd) : Bool :=
  decide (s.boot.phase = .ready) && decide (rowCmd s sq.val tag op = some c) && s.cmds.paused.isEmpty && !s.boot.tripped

theorem named_of {s : State} {sq : Fin 1024} {tag : W32} {op : Nat} {c : Cmd} (h : named s sq tag op c = true) :
    Named s sq tag op c := by
  simp only [named, Bool.and_eq_true, decide_eq_true_eq, List.isEmpty_iff, Bool.not_eq_true'] at h
  exact ⟨h.1.1.1, h.1.1.2, h.1.2, .inl h.2⟩

theorem starts_of {s : State} {sq : Fin 1024} {tag : W32} {op : Nat} {c : Cmd}
    (h : named s sq tag op c = true ∧ c.started = false ∧ mayStart s c = true) : Starts s sq tag op c := ⟨named_of h.1, h.2⟩

theorem carries_of {s : State} {sq : Fin 1024} {tag : W32} {op : Nat} {c : Cmd}
    (h : named s sq tag op c = true ∧ c.started = true) : CarriesOn s sq tag op c := ⟨named_of h.1, h.2⟩

theorem hostOn_of {s : State} (h : s.boot.phase = .ready ∧ s.pcie.perstLow = false) : HostOn s := h
theorem live_of {s : State} (h : s.boot.phase = .ready ∧ s.boot.tripped = false) : Live s := h
theorem ready_of {s : State} (h : s.boot.phase = .ready) : Ready s := h

/-! ### Witnesses: step, host commands, queues -/

theorem wit_IdleStepTicks : State.reset.pending = [] ∧ Ready State.reset ∧ State.reset.web.hist.viewJobs = []
    ∧ State.reset.ing.lateStamps = [] ∧ State.reset.ing.awaiting = [] ∧ State.reset.afe.gpioNew = []
    ∧ (∀ n, n < 16 → (chan State.reset n).jobs = [] ∧ (chan State.reset n).drive = none)
    ∧ State.reset.host.heldReads = [] ∧ State.reset.cmds.flight = []
    ∧ ∀ p, p < 4 → (dry State.reset p).frame = none ∧ (dry State.reset p).marks = []
      ∧ ∀ r ∈ (dry State.reset p).fifo, r.stamped = true := ⟨rfl, ready_of (by decide), by decide +kernel⟩
/-- With a command of a pair that this device serves. -/
theorem wit_IdleStepTicks_cmd : ∀ c ∈ (infl [cm 4 []]).cmds.flight, c.origin = .here → pairTarget (infl [cm 4 []]) c.sq = (infl [cm 4 []]).chain.devId := by
  decide +kernel
/-- Reset held in system reset. -/
def heldS : State := { State.reset with boot := { State.reset.boot with phase := .resetHeld } }
theorem wit_IdleStepTicks_held : heldS.pending = [] ∧ ¬ Ready heldS := ⟨rfl, by intro h; cases h⟩
theorem wit_StepKeepsMemoryCanonical : ∃ t, MemCanonical State.reset ∧ step State.reset = .next t :=
  ⟨_, ⟨by decide, by decide⟩, rfl⟩
theorem wit_OnlyTheWindowFaults : let s : State := { State.reset with pending := [.bar2Access 0xFFFFFFFFF (.read 8)], host := { bar2Base := 64 } }
    HostOn s ∧ 0x2000000000 < s.host.bar2Base * 2 ^ 30 + (0xFFFFFFFFF : BitVec 36).toNat + bar2Size (.read 8) := ⟨hostOn_of (by decide), by decide⟩
theorem wit_CommandsLeaveQueueAlone : ∃ t, step { State.reset with pending := [.afeKeepalive] } = .next t := ⟨_, rfl⟩
theorem wit_CrystalTimeNeverRunsBack : ∃ t, step State.reset = .next t := ⟨_, rfl⟩

/-- A command that the head has sent to device 1. -/
def away (op : Nat) : Cmd := { other op false with sentTo := some 1 }
theorem wit_Echo : Starts (infl [cm 4 []]) 0 0 0x0004 (cm 4 []) := starts_of (by decide +kernel)
theorem wit_Progress_none : Starts (infl [cm 2 [(0x1C, 1)]]) 0 0 0x0002 (cm 2 [(0x1C, 1)])
    ∧ cmdNamed (infl [cm 2 [(0x1C, 1)]]) 0 1 = none ∧ namedElsewhere (infl [cm 2 [(0x1C, 1)]]) 0 1 = none := ⟨starts_of (by decide +kernel), by decide +kernel⟩
theorem wit_Progress_some : Starts (infl [cm 2 []]) 0 0 0x0002 (cm 2 []) ∧ cmdNamed (infl [cm 2 []]) 0 0 = some (cm 2 [])
    ∧ namedElsewhere (infl [cm 2 []]) 0 0 = none := ⟨starts_of (by decide +kernel), by decide +kernel⟩
/-- A PROGRESS of the command with SQ 1 and tag 5. -/
def pg : Cmd := cm 2 [(0x18, 1), (0x1C, 5)]
theorem wit_Progress_away : Starts (infl [away 0x20, pg]) 0 0 2 pg ∧ namedElsewhere (infl [away 0x20, pg]) 1 5 = some 1
    ∧ namedElsewhere { infl [pg] with chain := { head := false, devId := 1 } } 1 5 = some 0 := ⟨starts_of (by decide +kernel), by decide +kernel⟩
theorem wit_Identify : Starts (infl [cm 1 []]) 0 0 0x0001 (cm 1 []) ∧ mayRequest (infl [cm 1 []]) = true ∧ 4096 ≤ 4096 :=
  ⟨starts_of (by decide +kernel), by decide +kernel⟩

/-- An ABORT of the command with SQ 1 and tag 5. -/
def ab : Cmd := cm 3 [(0x18, 1), (0x1C, 5)]
theorem wit_Abort_none : Starts (infl [ab]) 0 0 3 ab ∧ cmdNamed (infl [ab]) 1 5 = none :=
  ⟨starts_of (by decide +kernel), by decide +kernel⟩
theorem wit_Abort_self : Starts (infl [other 2 false, ab]) 0 0 3 ab ∧ cmdNamed (infl [other 2 false, ab]) 1 5 = some (other 2 false)
    ∧ pkOp (other 2 false).packet = 2 := ⟨starts_of (by decide +kernel), by decide +kernel⟩
theorem wit_Abort_waiting : Starts (infl [other 0x20 false, ab]) 0 0 3 ab
    ∧ cmdNamed (infl [other 0x20 false, ab]) 1 5 = some (other 0x20 false) ∧ pkOp (other 0x20 false).packet = 0x20
    ∧ (other 0x20 false).sentTo = none := ⟨starts_of (by decide +kernel), by decide +kernel⟩
theorem wit_Abort_running : Starts (infl [other 0x20 true, ab]) 0 0 3 ab
    ∧ cmdNamed (infl [other 0x20 true, ab]) 1 5 = some (other 0x20 true) ∧ abortable (infl [other 0x20 true, ab]) (other 0x20 true) = true
    ∧ stageWaits (infl [other 0x20 true, ab]) (other 0x20 true) = false :=
  ⟨starts_of (by decide +kernel), by decide +kernel⟩
theorem wit_Abort_past : Starts (infl [other 0x71 true, ab]) 0 0 3 ab
    ∧ cmdNamed (infl [other 0x71 true, ab]) 1 5 = some (other 0x71 true) ∧ abortable (infl [other 0x71 true, ab]) (other 0x71 true) = false :=
  ⟨starts_of (by decide +kernel), by decide +kernel⟩
/-- An FW_STAGE that programs its slot, while a frame runs on SP0. -/
def fsHeld : State := { infl [other 0xC1 true, ab] with afe := { sp := [(0, { run := some { kind := 0, out := [], inLen := 0, buf := 0 } })] } }
theorem wit_Abort_held : Starts fsHeld 0 0 3 ab ∧ cmdNamed fsHeld 1 5 = some (other 0xC1 true) ∧ abortable fsHeld (other 0xC1 true) = true
    ∧ stageWaits fsHeld (other 0xC1 true) = true := ⟨starts_of (by decide +kernel), by decide +kernel⟩
theorem wit_Abort_away : Starts (infl [away 0x20, ab]) 0 0 3 ab ∧ cmdNamed (infl [away 0x20, ab]) 1 5 = some (away 0x20)
    ∧ (away 0x20).sentTo = some 1 := ⟨starts_of (by decide +kernel), by decide +kernel⟩

/-- A queue pair of 16 entries in use. -/
def pr : Pair := { sqBase := 0x1000, sqLog2 := 4, cqBase := 0x2000, cqLog2 := 4, group := none, target := 0, sqTail := 3, cqTail := 2 }
/-- A ring of 64 entries with one entry. -/
def rg : Ring := { base := 0x4000, log2 := 6, mirror := 0x8000, group := none, tail := 1, uncovered := 1 }
/-- Reset with pair 1, pair 0, defect queue 0, stream ring 255 and event ring 63. -/
def rings (cs : List Cmd) : State := { infl cs with
  host := { q0Enable := true, pairs := [(0, pr), (1, pr)], dqs := [(0, rg)], srs := [(255, rg)]
            evts := [(63, { base := 0x6000, log2 := 6, tail := 1 })], grpRun := [(159, { count := 2, since := 0 })]
            route := [(0, 0x10000 + 63 * 1024 + 0x200 + 511)], msix := [(511, { addr := 0xFEE00000, data := 7, masked := false })] } }
/-- The same as device 1 of a chain. -/
def atDev1 (s : State) : State := { s with chain := { s.chain with head := false, devId := 1 } }

theorem wit_QueueCreate : let c := cm 0x70 [(0x18, 1)]
    Starts (rings [c]) 0 0 0x70 c ∧ ringExists (rings [c]) 1 0 = true ∧ Starts (infl [c]) 0 0 0x70 c
      ∧ ringExists (infl [c]) 1 0 = false ∧ u8At c.packet 0x18 ≠ 0 :=
  ⟨starts_of (by decide +kernel), by decide +kernel, starts_of (by decide +kernel), by decide +kernel⟩
theorem wit_QueueCreate_pair : let c := cm 0x70 [(0x1C, 1)]
    Starts (infl [c]) 0 0 0x70 c ∧ ringExists (infl [c]) 0 1 = false ∧ (infl [c]).chain.head = true
      ∧ Starts (atDev1 (infl [c])) 0 0 0x70 c ∧ ringExists (atDev1 (infl [c])) 0 1 = false ∧ u8At c.packet 0x18 = 0 :=
  ⟨starts_of (by decide +kernel), by decide +kernel, by decide, starts_of (by decide +kernel), by decide +kernel⟩
theorem wit_QueueDelete : Starts (rings [cm 0x71 [(0x18, 2), (0x1C, 255)]]) 0 0 0x71 (cm 0x71 [(0x18, 2), (0x1C, 255)])
    ∧ ringExists (rings [cm 0x71 [(0x18, 2), (0x1C, 255)]]) 2 255 = true ∧ ringExists (rings [cm 0x71 [(0x18, 2)]]) 2 0 = false :=
  ⟨starts_of (by decide +kernel), by decide +kernel⟩
theorem wit_QueueDelete_pair : Starts (rings [cm 0x71 [(0x1C, 1)]]) 0 0 0x71 (cm 0x71 [(0x1C, 1)])
    ∧ tblFind (rings [cm 0x71 [(0x1C, 1)]]).host.pairs 1 = some pr ∧ pr.draining = false
    ∧ u32At (cm 0x71 [(0x1C, 1)]).packet 0x1C ≠ (cm 0x71 [(0x1C, 1)]).sq := ⟨starts_of (by decide +kernel), by decide +kernel⟩
theorem wit_Pair0Create : HostOn { State.reset with host := { q0SqBase := 0x1000, q0CqBase := 0x2000 } }
    ∧ bits 0x00FF0210 0 5 = 16 ∧ bits 0x00FF0210 5 5 = 16 ∧ bits 0x00FF0210 16 8 = 255 := ⟨hostOn_of (by decide), by decide⟩
theorem wit_Pair0Delete : HostOn (rings []) ∧ (rings []).host.q0Enable = true ∧ tblFind (rings []).host.pairs 0 = some pr
    ∧ ∀ x ∈ (rings []).host.pairs, x.2.draining = false := ⟨hostOn_of (by decide), by decide⟩

theorem wit_CommandFetch : Ready (rings []) ∧ tblFind (rings []).host.pairs 1 = some pr ∧ mayFetch (rings []) 1 pr = true
    ∧ pr.target = (rings []).chain.devId ∧ (pkt 4 []).length = 64 ∧ opcodeAccepted 0 (pkOp (pkt 4 [])) = true
    ∧ packetOk (pkt 4 []) = true ∧ opcodeAccepted 0 (pkOp (pkt 5 [])) = false
    ∧ packetOk (pkt 4 [(8, 1)]) = false := ⟨ready_of (by decide), by decide +kernel⟩
/-- A TABLE_LOAD whose POSITION has moved. -/
def mv : Cmd := { other 0x40 true with moved := true }
theorem wit_InterimCompletion : Ready (rings [mv]) ∧ interimOf (rings [mv]) 1 5 = some mv ∧ mv.origin = .here
    ∧ interimRoom (rings [mv]) 1 = true ∧ interimOf (infl [mv]) 1 5 = some mv ∧ interimRoom (infl [mv]) 1 = false :=
  ⟨ready_of (by decide), by decide +kernel⟩

theorem wit_Doorbells : HostOn (rings []) ∧ pairForDb (rings []) 1 = some pr ∧ ((16 : W32) - pr.fetch).toNat = 2 ^ pr.sqLog2
    ∧ 2 ^ pr.sqLog2 < ((17 : W32) - pr.fetch).toNat ∧ ((2 : W32) - pr.cqHead).toNat = (pr.cqTail - pr.cqHead).toNat
    ∧ (pr.cqTail - pr.cqHead).toNat < ((3 : W32) - pr.cqHead).toNat ∧ pairForDb (rings []) 1023 = none
    ∧ tblFind (rings []).host.srs 255 = some rg ∧ (rg.tail - rg.head).toNat < ((2 : W32) - rg.head).toNat
    ∧ tblFind (rings []).host.srs 0 = none ∧ tblFind (rings []).host.evts 63 = some { base := 0x6000, log2 := 6, tail := 1 }
    ∧ tblFind (rings []).host.evts 0 = none := ⟨hostOn_of (by decide), by decide +kernel⟩
theorem wit_DbDqHead : tblFind (rings []).host.dqs ((1 : W32).toNat / 2 ^ 14) = some rg ∧ (1 : W32).toNat % 2 ^ 14 = 1
    ∧ ((1 : W32) - rg.head).toNat = (rg.tail - rg.head).toNat ∧ (rg.tail - rg.head).toNat < ((16383 : W32) - rg.head).toNat
    ∧ tblFind (rings []).host.dqs ((16384 : W32).toNat / 2 ^ 14) = none ∧ (rings []).chain.devId = 0 := by decide +kernel

theorem wit_HbmWindow : HostOn (rings []) ∧ bits 0x1000000000 30 7 = 64 ∧ devicePresent (rings []) 0 = true
    ∧ 64 < bits (65 * 2 ^ 30) 30 7 ∧ (rings []).host.bar2Dev = (rings []).chain.devId ∧ MemCanonical (rings [])
    ∧ (rings []).host.bar2Base * 2 ^ 30 + 0x10000000 + 4 ≤ 0x2000000000
    ∧ (rings []).host.bar2Base * 2 ^ 30 + 0 < 0x10000000 :=
  ⟨hostOn_of (by decide), by decide +kernel, by decide +kernel, by decide, by decide, ⟨by decide, by decide⟩, by decide⟩

theorem wit_Groups : HostOn (rings []) ∧ tblFind (rings []).host.grpRun 0 = none
    ∧ tblFind (rings []).host.grpRun 159 = some { count := 2, since := 0 } ∧ max 1 (bits 2 0 16) ≤ 2 := ⟨hostOn_of (by decide), by decide +kernel⟩
theorem wit_GroupTimer : let s : State := { rings [] with clk := { ns := 5000 }, host := { (rings []).host with grp := [(159, 0x50000 + 9)] } }
    Ready s ∧ tblFind s.host.grpRun 159 = some { count := 2, since := 0 } ∧ grpTime s 159 = 5 ∧ 0 + 1000 * grpTime s 159 ≤ s.clk.ns :=
  ⟨ready_of (by decide), by decide +kernel⟩
theorem wit_TailMirror : Ready (rings []) ∧ tblFind (rings []).host.dqs 0 = some rg ∧ tblFind (rings []).host.srs 255 = some rg
    ∧ mayRequest (rings []) = true ∧ (rings []).chain.head = true ∧ rg.uncovered ≠ 0 := ⟨ready_of (by decide), by decide +kernel⟩

theorem wit_SplitWrite : HostOn State.reset ∧ writable64.contains 0x28 = true ∧ writable64.contains 0xC1108 = true := ⟨hostOn_of (by decide), by decide +kernel⟩
theorem wit_SplitRead : HostOn State.reset ∧ State.reset.host.bar2Out = [] ∧ regVal State.reset 0x30000 = some (64, 0)
    ∧ is64 State.reset 0x30004 = false := ⟨hostOn_of (by decide), by decide +kernel⟩
theorem wit_SplitRead_pair : let u : State := { State.reset with host := { shadows := [(0x30000, ⟨0, 0⟩)] }, clk := { ns := 1000 } }
    HostOn u ∧ regVal u 0x30000 = some (64, 0) ∧ tblFind u.host.shadows 0x30000 = some ⟨0, 0⟩ ∧ u.clk.ns ≤ 0 + 1000 :=
  ⟨hostOn_of (by decide), by decide +kernel⟩
theorem wit_SplitRead_late : let u : State := { State.reset with host := { shadows := [(0x30000, ⟨0, 0⟩)] }, clk := { ns := 1001 } }
    HostOn u ∧ tblFind u.host.shadows 0x30000 = some ⟨0, 0⟩ ∧ 0 + 1000 < u.clk.ns := ⟨hostOn_of (by decide), by decide +kernel⟩
theorem wit_Misaligned : HostOn State.reset ∧ State.reset.host.bar2Out = [] ∧ regVal State.reset 0xFFFFC = none
    ∧ is64 State.reset 0xFFFF8 = false ∧ regVal State.reset 0xFFFF8 = none ∧ 0xFFFFC / 0x10000 ≠ 1 ∧ 0x200000 % 8 = 0
    ∧ ¬ (4 = 4 ∧ 0xFFFFE % 4 = 0 ∨ 4 = 8 ∧ 0xFFFFE % 8 = 0) := ⟨hostOn_of (by decide), by decide +kernel⟩
/-- A 64-bit register, and two 32-bit ones side by side. -/
theorem wit_Misaligned_halves : regVal State.reset 0x30000 = some (64, 0) ∧ is64 State.reset 0x20000 = false ∧ writable64.contains 0x20000 = false
    ∧ regVal State.reset 0x20000 = some (32, 0) ∧ regVal State.reset 0x20004 = some (32, 0) := by decide +kernel
theorem wit_RegisterAccess : HostOn State.reset ∧ State.reset.host.bar2Out = [] ∧ regVal State.reset 0x30000 = some (64, 0)
    ∧ State.reset.host.fwdSel = State.reset.chain.devId ∧ alignedAccess 0xFFFFC (.read 4) = true ∧ alignedAccess 0xFFFFC (.read 8) = false :=
  ⟨hostOn_of (by decide), by decide +kernel⟩
/-- RC: GLB_NVM_LOST and the last encoder's error count. RO: GLB_VENDOR, the upper half of a 64-bit register, an unused offset. -/
theorem wit_RegisterAccess_types : regVal State.reset 0x140 = some (32, 0) ∧ rcAt 0x140 = true ∧ is64 State.reset 0x148 = false
    ∧ regVal State.reset 0xC1270 = some (32, 0) ∧ rcAt 0xC1270 = true ∧ rcAt 0 = false ∧ (regVal State.reset 0).isSome = true
    ∧ writable32 0 = false ∧ writable32 4 = false ∧ writable64.contains 0 = false ∧ is64 State.reset 0x30000 = true
    ∧ writable64.contains 0x30000 = false ∧ writable32 0xFFFFC = false ∧ writable32 0xFFFF8 = false ∧ writable64.contains 0xFFFF8 = false := by
  decide +kernel
/-- The forwarding window names device 1, which has a route, and one that has none; a write of the window is on its way. -/
theorem wit_ForwardedAccess : let s : State := { State.reset with host := { fwdSel := 63 }, chain := { routes := [(63, 3)], ports := [(3, { link := { st := 3 } })] } }
    HostOn s ∧ s.host.fwdSel ≠ s.chain.devId ∧ s.host.bar2Out = [] ∧ reachable s s.host.fwdSel = true
      ∧ (let u : State := { State.reset with host := { fwdSel := 63 } }
         HostOn u ∧ u.host.fwdSel ≠ u.chain.devId ∧ reachable u u.host.fwdSel = false) :=
  ⟨hostOn_of (by decide), by decide, rfl, by decide +kernel, hostOn_of (by decide), by decide, by decide +kernel⟩
theorem wit_ForwardedAccess_held : let s : State := { State.reset with host := { bar2Out := [1] } }
    HostOn s ∧ s.host.bar2Out ≠ [] := ⟨hostOn_of (by decide), by decide⟩

/-! ### Witnesses: configuration, tables, lanes and links -/

/-- CFG_STAGE of group 3, MODE of headbox 0 at offset 0, inline, one byte. -/
def stageC : Cmd := cm 0x10 [(0x0B, 2), (0x0C, 1), (0x18, 3), (0x20, 1)]
theorem wit_CfgStage : Starts (infl [stageC]) 0 0 0x10 stageC ∧ stageBusy stageC (infl [stageC]) = false
    ∧ stageBig stageC (infl [stageC]) = false ∧ stageInline stageC.packet = true ∧ slice stageC.packet 0x20 1 = [1]
    ∧ stageRangesOk 2 0 0 [1] = true ∧ pairTarget (infl [stageC]) 0 = 0 := ⟨starts_of (by decide +kernel), by decide +kernel⟩
/-- A pair that device 1 serves. -/
def farS : State := { infl [stageC] with host := { pairs := [(0, { pr with target := 1 })] } }
theorem wit_CfgStage_far : Starts farS 0 0 0x10 stageC ∧ stageC.origin = .here ∧ pairTarget farS stageC.sq ≠ farS.chain.devId
    ∧ mayRequest farS = true ∧ farS.chain.head = true := ⟨starts_of (by decide +kernel), by decide +kernel⟩
theorem wit_CfgStage_busy : let s : State := { infl [stageC] with cfg := { groups := [(4, [(0x02000000, 1)])] } }
    Starts s 0 0 0x10 stageC ∧ stageBusy stageC s = true := ⟨starts_of (by decide +kernel), by decide +kernel⟩
/-- A group of 65,536 bytes, which no further byte may join. -/
def stageBigS : State := { infl [stageC] with cfg := { groups := [(3, List.replicate 8192 (0x09000010, 0))] } }
theorem wit_CfgStage_big : Starts stageBigS 0 0 0x10 stageC ∧ stageBusy stageC stageBigS = false ∧ stageBig stageC stageBigS = true :=
  ⟨starts_of (by decide +kernel), by decide +kernel⟩
/-- The same by way of host memory. -/
def stageH : Cmd := cm 0x10 [(0x0B, 2), (0x0C, 1), (0x11, 0x10), (0x18, 3)]
theorem wit_CfgStage_host : Starts (infl [stageH]) 0 0 0x10 stageH ∧ stageInline stageH.packet = false
    ∧ mayRequest (infl [stageH]) = true ∧ (infl [stageH]).chain.head = true ∧ stageRangesOk 2 0 0 (padTo 1 [200]) = false :=
  ⟨starts_of (by decide +kernel), by decide +kernel⟩
theorem wit_CfgRead : Starts (infl [cm 0x12 [(0x0B, 2), (0x0C, 1)]]) 0 0 0x12 (cm 0x12 [(0x0B, 2), (0x0C, 1)])
    ∧ mayRequest (infl [cm 0x12 []]) = true ∧ pkOpt8 (cm 0x12 []).packet = false := ⟨starts_of (by decide +kernel), by decide +kernel⟩
theorem wit_CfgRead_staged : let c := cm 0x12 [(3, 1), (0x0B, 2), (0x0C, 1), (0x18, 3)]
    let s : State := { infl [c] with cfg := { groups := [(3, [(0x02000000, 1)])] } }
    Starts s 0 0 0x12 c ∧ pkOpt8 c.packet = true ∧ validating s 3 = false ∧ openGroup s 3 = some [(0x02000000, 1)] :=
  ⟨starts_of (by decide +kernel), by decide +kernel⟩
/-- A CFG_COMMIT of group 3 that validates. -/
def valC : Cmd := { cm 0x11 [(0x18, 3)] with cid := 9, sq := 1, started := true }
/-- CFG_COMMIT of group 3 with DISCARD 1, and a plain one. -/
def discC : Cmd := cm 0x11 [(3, 1), (0x18, 3)]
def comm : Cmd := cm 0x11 [(0x18, 3)]
theorem wit_CfgDiscard : let s : State := { infl [discC] with cfg := { groups := [(3, [(0x02000000, 1)])] } }
    Starts s 0 0 0x11 discC ∧ pkOpt8 discC.packet = true ∧ validating s 3 = false ∧ openGroup s 3 = some [(0x02000000, 1)]
      ∧ Starts (infl [discC]) 0 0 0x11 discC ∧ openGroup (infl [discC]) 3 = none :=
  ⟨starts_of (by decide +kernel), by decide +kernel, by decide +kernel, by decide +kernel, starts_of (by decide +kernel), by decide +kernel⟩
theorem wit_CfgDiscard_busy : Starts (infl [valC, discC]) 0 0 0x11 discC ∧ validating (infl [valC, discC]) 3 = true :=
  ⟨starts_of (by decide +kernel), by decide +kernel⟩

/-- Group 3 holds one value. -/
def commS (c : Cmd) (a v : Nat) : State := { infl [c] with cfg := { groups := [(3, [(a, v)])] } }
theorem wit_CfgCommit : Starts (commS comm 0x07080003 0) 0 0 0x11 comm ∧ pkOpt8 comm.packet = false
    ∧ validating (commS comm 0x07080003 0) 3 = false ∧ (openGroup (commS comm 0x07080003 0) 3).getD [] ≠ []
    ∧ Starts (infl [valC, comm]) 0 0 0x11 comm ∧ validating (infl [valC, comm]) 3 = true
    ∧ Starts (infl [comm]) 0 0 0x11 comm ∧ (openGroup (infl [comm]) 3).getD [] = [] :=
  ⟨starts_of (by decide +kernel), by decide +kernel, by decide +kernel, by decide +kernel, starts_of (by decide +kernel), by decide +kernel,
   starts_of (by decide +kernel), by decide +kernel⟩
/-- The same, started. -/
def commRun : Cmd := { comm with started := true }
theorem wit_CfgCommit_valid : let s := commS commRun 0x07080003 0
    CarriesOn s 0 0 0x11 commRun ∧ openGroup s 3 = some [(0x07080003, 0)] ∧ validate s [(0x07080003, 0)] = none :=
  ⟨carries_of (by decide +kernel), by decide +kernel⟩
/-- Lane 0 of headbox 0 runs at no rate. -/
theorem wit_CfgCommit_refused : let s := commS commRun 0x02000000 2
    CarriesOn s 0 0 0x11 commRun ∧ openGroup s 3 = some [(0x02000000, 2)] ∧ (validate s [(0x02000000, 2)]).isSome = true :=
  ⟨carries_of (by decide +kernel), by decide +kernel⟩
theorem wit_CommitBoundary : let s : State := { at_ 5 [(0x02000000, 2)] with
      ing := { ports := [(31, { running := true, cur := some { sid := 0, number := 0, epoch := 0, height := 8, first := 0, beginTb := 5 } })] } }
    Ready s ∧ freshStripe (stoppedTake s) 31 (0x02, 31) = true ∧ allBefore (stoppedTake s) (0x08, 63) 0 = true :=
  ⟨ready_of (by decide), by decide +kernel⟩
theorem wit_CommitBoundary_reel : let s := at_ 5 [(0x083F0000, 3)]
    Ready s ∧ rlSource (stoppedTake s) 63 = 3 ∧ rlSource (stoppedTake (at_ 5 [(0x083F0000, 1)])) 63 = 1 :=
  ⟨ready_of (by decide), by decide +kernel⟩
/-- A dryer frame at its sync. -/
def fr0 : DFrame := { number := 0, syncTb := 9, syncNs := 9, t := 0, stale := false, deliver := true, setChange := false }
theorem wit_CommitBoundary_dryer : let s : State := { at_ 9 [] with afe := { dry := [(3, { running := true, st := 3, frame := some fr0 })] } }
    Ready s ∧ (dry (stoppedTake s) 3).frame = some fr0 ∧ fr0.got = 0 ∧ dryShut (stoppedTake s) 3 = false
      ∧ allBefore (stoppedTake s) (0x05, 3) fr0.syncTb = true := ⟨ready_of (by decide), by decide +kernel⟩
theorem wit_CommittedValues : let g : Accepted := { seq := 1, tv := 0, parts := [(2, 0)], vals := [(0x02000000, 2)] }
    (∀ h ∈ [g], (h.vals.map Prod.fst).Nodup) ∧ ofInst 2 0 0x02000000 = true ∧ ofInst 2 0 0x02010000 = false := by decide +kernel

/-- TABLE_LOAD of FLAT (0x05, 32 bytes) into bank 1 of headbox 0, and RULES_LOAD of one rule into bank 1. -/
def ldT : Cmd := cm 0x40 [(0x0B, 4), (0x0C, 32), (0x11, 0x10), (0x18, 5), (0x19, 1)]
def ldR : Cmd := cm 0x60 [(0x0B, 7), (0x0A, 8), (0x0C, 64), (0x11, 0x10), (0x18, 1), (0x1A, 1)]
theorem wit_TableLoad : Starts (infl [ldT]) 0 0 0x40 ldT ∧ mayRequest (infl [ldT]) = true ∧ bankInUse (infl [ldT]) (loadItem ldT) = false
    ∧ itemState (infl [ldT]) (loadItem ldT) ≠ 1 ∧ itemWords (infl [ldT]) (loadItem ldT) ≤ storeFree (infl [ldT])
    ∧ pkLen ldT.packet = itemLength (infl [ldT]) (loadItem ldT) 0 ∧ regionOk (infl [ldT]) (loadItem ldT) = true :=
  ⟨starts_of (by decide +kernel), by decide +kernel⟩
theorem wit_RulesLoad : Starts (infl [ldR]) 0 0 0x60 ldR ∧ bankInUse (infl [ldR]) (loadItem ldR) = false
    ∧ itemState (infl [ldR]) (loadItem ldR) ≠ 1 ∧ itemWords (infl [ldR]) (loadItem ldR) ≤ storeFree (infl [ldR])
    ∧ pkLen ldR.packet = itemLength (infl [ldR]) (loadItem ldR) 1 ∧ regionOk (infl [ldR]) (loadItem ldR) = true :=
  ⟨starts_of (by decide +kernel), by decide +kernel⟩
/-- Loads into bank 0, which an accepted group is about to use. -/
def ldB : Cmd := cm 0x60 [(0x0B, 7), (0x0A, 8), (0x0C, 64), (0x1A, 1)]
def ldTB : Cmd := cm 0x40 [(0x0B, 4), (0x0C, 32), (0x11, 0x10), (0x18, 5)]
def ldBS (c : Cmd) : State := { infl [c] with cfg := { accepted := [{ seq := 1, tv := 0, parts := [], vals := [(bankField (loadItem c), 0)] }] } }
theorem wit_Loads_busy : Starts (ldBS ldB) 0 0 0x60 ldB ∧ bankInUse (ldBS ldB) (loadItem ldB) = true ∧ Starts (ldBS ldTB) 0 0 0x40 ldTB
    ∧ bankInUse (ldBS ldTB) (loadItem ldTB) = true :=
  ⟨starts_of (by decide +kernel), by decide +kernel, starts_of (by decide +kernel), by decide +kernel⟩

/-- The same, started, with the item LOADING. -/
def ldRun : Cmd := { ldR with started := true }
def ldRunS : State := { infl [ldRun] with web := { knot := { rules := [(1, { st := 1 })] } } }
theorem wit_RulesLoad_ends : CarriesOn ldRunS 0 0 0x60 ldRun ∧ ldRunS.chain.head = true
    ∧ ldRun.buf.length + (zeros 64).length = pkLen ldRun.packet ∧ ldRun.buf.length + (zeros 63).length < pkLen ldRun.packet
    ∧ itemState (progressTo { ldRun with buf := zeros 64 } 64 (putLoaded (loadItem ldRun) 0 (zeros 64) ldRunS)).2 (loadItem ldRun) = 1
    ∧ itemState ldRunS (loadItem ldRun) = 1 := ⟨carries_of (by decide +kernel), by decide +kernel⟩
def ldTRun : Cmd := { ldT with started := true }
def ldTRunS : State := setItem (loadItem ldTRun) 1 [] (infl [ldTRun])
theorem wit_TableLoad_ends : CarriesOn ldTRunS 0 0 0x40 ldTRun ∧ ldTRun.buf.length + (zeros 32).length = pkLen ldTRun.packet
    ∧ itemState (progressTo { ldTRun with buf := zeros 32 } 32 (putLoaded (loadItem ldTRun) 0 (zeros 32) ldTRunS)).2 (loadItem ldTRun) = 1
    ∧ itemState ldTRunS (loadItem ldTRun) = 1 := ⟨carries_of (by decide +kernel), by decide +kernel⟩

/-- A lane in service: ENABLE 1 and a RATE. -/
def lnVals (n rate : Nat) : Tbl Nat := [(0x01000000 + n * 65536, 1), (0x01000001 + n * 65536, rate)]
/-- Reset at 1 s with one lane. -/
def lnS (n : Nat) (l : Lane) : State := { at_ 1000000000 (lnVals n 8) with ing := { lanes := [(n, l)] } }
theorem wit_LaneBringUp : Ready (lnS 79 { st := 1 }) ∧ lnOn (lnS 79 { st := 1 }) 79 = true ∧ laneWaits (lane (lnS 79 { st := 1 }) 79) = false
    ∧ lnOn (lnS 0 { st := 2 }) 0 = true ∧ (lane (lnS 0 { st := 2 }) 0).st = 2 ∧ (lane (lnS 0 { st := 7 }) 0).st = 7
    ∧ 3 ≤ (lane (lnS 0 { st := 6 }) 0).st ∧ (lane (lnS 0 { st := 6 }) 0).st ≤ 6 := ⟨ready_of (by decide), by decide +kernel⟩
/-- The TRAIN block of a sender in TRAIN, for the position given of four lanes, scrambled after zeros; and complemented. -/
def trainRx (id : Nat) (inv : Bool) : LaneWord :=
  let w := scramble 64 0 (leNat (trainBlock id 4 1 15).bytes)
  if inv then .block (BitVec.allOnes 58) 0b01 (~~~ (BitVec.ofNat 64 w)) else .block 0 0b10 (BitVec.ofNat 64 w)
theorem wit_LaneRelock : Ready (lnS 79 { st := 5 }) ∧ (lane (lnS 79 { st := 5 }) 79).st = 5 ∧ ln66 (lnS 79 { st := 5 }) 79 = true
    ∧ identify true (trainRx 3 false) = some (false, 3) ∧ identify true (trainRx 0 true) = some (true, 0)
    ∧ laneRef (lnS 79 { st := 5 }) 79 = some 67 ∧ (port (lnS 0 { st := 5 }) 0).part = none := ⟨ready_of (by decide), by decide +kernel⟩
theorem wit_LaneRelock_camera : let s : State := { lnS 63 { st := 5 } with cfg := { vals := lnVals 63 2 } }
    lnOn s 63 = true ∧ ln66 s 63 = false ∧ laneRef s 63 = none ∧ identify false (.idle [0xBC, 0x3C, 0x3C, 0xB5]) = some (false, 0x3F)
      ∧ identify false (.idle [0xBC, 0x3C, 0x3C, 0x4A]) = some (true, 0x3F) := by decide +kernel
theorem wit_LaneTimers : Ready (lnS 79 { st := 5, unlockNs := some 0, failNoted := true }) ∧
    (let s := lnS 79 { st := 5, unlockNs := some 0, failNoted := true }
     lnAuto s 79 = true ∧ failFrom (lane s 79) = some 0 ∧ 0 + 100000000 ≤ s.clk.ns ∧ laneWaits (lane s 79) = false)
    ∧ (lane (lnS 0 { st := 1, left1Ns := some 900000000 }) 0).failNoted = false ∧ failFrom (lane (lnS 0 { st := 1, left1Ns := some 900000000 }) 0) = some 900000000
    ∧ lnAuto { lnS 79 { st := 1 } with cfg := { vals := (0x014F0002, 0) :: lnVals 79 8 } } 79 = false :=
  ⟨ready_of (by decide), by decide +kernel⟩
theorem wit_LaneRetrain : let s := lnS 79 { st := 1, unlockNs := some 995000000 }
    Ready s ∧ (lane s 79).unlockNs = some 995000000 ∧ laneWaits (lane s 79) = false ∧ lnAuto s 79 = true ∧ (lane s 79).seeded5 = false
      ∧ 995000000 + 5000000 ≤ s.clk.ns := ⟨ready_of (by decide), by decide +kernel⟩
theorem wit_LaneUnlock : unlockReason (lnS 79 {}) 79 3 (List.replicate 15 true) = 0 ∧ unlockReason (lnS 79 {}) 79 3 (List.replicate 16 true) = 3
    ∧ unlockReason (lnS 79 {}) 79 1 [] = 1 ∧ (lane (lnS 79 { st := 6 }) 79).st = 6
    ∧ ((List.replicate 16 true).countP id = 16 ∧ (List.replicate 16 true).length ≤ 64) := by decide +kernel
/-- Fifteen invalid headers kept, and one more, the last of the 390,625,000 blocks of 1 s, within 64 of the first. -/
theorem wit_LaneWindow : let l := List.range' 390624936 15
    let s := lnS 79 { st := 6, winAt := 390624951, winBad := l }
    windowNow s 79 [] = [] ++ l ∧ windowNow s 79 [true] = [] ++ l ++ [390624999] ∧ (l ++ [390624999]).length = 16
      ∧ [390624999] ≠ [] ∧ (l ++ [390624999]).Pairwise (· < ·) ∧ ∀ x ∈ l ++ [390624999], ∀ y ∈ l ++ [390624999], x < y + 64 := by decide +kernel
theorem wit_LaneTrainTimeout : let c : Cmd := { cm 0x20 [(0x0B, 1)] with started := true }
    let s : State := { infl [c] with clk := { ns := 100000000 } }
    Ready s ∧ (trainsOf s 0).filter (fun c => decide (c.startNs + 100000000 ≤ s.clk.ns)) = [c] := ⟨ready_of (by decide), by decide +kernel⟩
/-- LANE_TRAIN of lane 0, modes 0 and 1, with the lane in a state. -/
def trC (mode : Nat) : Cmd := cm 0x20 [(0x0B, 1), (0x18, mode)]
def trS (mode st : Nat) : State := { infl [trC mode] with cfg := { vals := lnVals 0 8 }, ing := { lanes := [(0, { st := st })] } }
theorem wit_LaneTrain : Starts (trS 0 6) 0 0 0x20 (trC 0) ∧ (lane (trS 0 6) 0).st = 6 ∧ lnOn (trS 0 6) 0 = true ∧ Starts (trS 1 1) 0 0 0x20 (trC 1)
    ∧ (lane (trS 1 1) 0).st ≤ 1 ∧ Starts (trS 1 6) 0 0 0x20 (trC 1) ∧ (lane (trS 1 6) 0).st = 6 ∧ u8At (trC 1).packet 0x18 ≠ 0 :=
  ⟨starts_of (by decide +kernel), by decide +kernel, by decide +kernel, starts_of (by decide +kernel), by decide +kernel,
   starts_of (by decide +kernel), by decide +kernel⟩
theorem wit_LaneTrain_refused : Starts (trS 0 2) 0 0 0x20 (trC 0) ∧ (lane (trS 0 2) 0).st = 2 ∧ Starts (infl [trC 0]) 0 0 0x20 (trC 0)
    ∧ (lane (infl [trC 0]) 0).st ≤ 1 ∧ lnOn (infl [trC 0]) 0 = false :=
  ⟨starts_of (by decide +kernel), by decide +kernel, starts_of (by decide +kernel), by decide +kernel⟩
/-- LANE_TEST of lane 0 with both functions, and a state with the lane at a rate. -/
def tsC : Cmd := cm 0x21 [(0x0B, 1), (0x18, 1), (0x19, 3)]
def tsS (c : Cmd) (rate : Nat) : State := { infl [c] with cfg := { vals := lnVals 0 rate } }
theorem wit_LaneTest : Starts (tsS tsC 8) 0 0 0x21 tsC ∧ lnOn (tsS tsC 8) 0 = true ∧ ln66 (tsS tsC 8) 0 = true ∧ laneInService (tsS tsC 8) 0 = false
    ∧ u8At tsC.packet 0x18 ≠ 0 ∧ (lane (tsS tsC 8) 0).genOn = false ∧ bitOf (u8At tsC.packet 0x19) 0 = true ∧ u8At tsC.packet 0x1A = 0
    ∧ Starts (infl [tsC]) 0 0 0x21 tsC ∧ lnOn (infl [tsC]) 0 = false ∧ Starts (tsS tsC 7) 0 0 0x21 tsC ∧ lnOn (tsS tsC 7) 0 = true
    ∧ ln66 (tsS tsC 7) 0 = false ∧ laneInService (tsS tsC 7) 0 = false ∧ bitOf (u8At tsC.packet 0x19) 1 = true := by
  refine ⟨starts_of (by decide +kernel), ?_, ?_, ?_, ?_, ?_, ?_, ?_, starts_of (by decide +kernel), ?_, starts_of (by decide +kernel), ?_, ?_, ?_, ?_⟩
  all_goals decide +kernel
theorem wit_LaneTest_off : let c := cm 0x21 [(0x0B, 1)]
    Starts (tsS c 8) 0 0 0x21 c ∧ lnOn (tsS c 8) 0 = true ∧ (lane (tsS c 8) 0).st ≠ 7 ∧ u8At c.packet 0x1A = 0
      ∧ (beginWork c 0 (tsS c 8)).2.cmds.flight.find? (sameCmd c) = some { c with started := true } := ⟨starts_of (by decide +kernel), by decide +kernel⟩
/-- The first bits of PRBS-7 from a register of ones, as the checker of a lane receives them. -/
def p7 (k : Nat) : List Bool := (List.range k).map fun i => bitOf (prbsRun 1 k 127).1 i
/-- A lane under test whose checker runs; in sync, 255 of its last 1,023 bits have differed. -/
def ckS (sync : Bool) : State :=
  lnS 0 { st := 7, chkOn := true, pattern := 1, prbsSync := sync, chkReg := 127, chkPos := 255, chkDiffs := List.range 255, prbsSyncNs := 1000000000 }
theorem wit_Prbs : Ready (ckS false) ∧ (lane (ckS false) 0).chkOn = true ∧ (lane (ckS false) 0).prbsSync = false
    ∧ prbsMatches 1 (p7 135) = some (false, (prbsRun 1 135 127).2) ∧ prbsMatches 1 (p7 134) = none := ⟨ready_of (by decide), by decide +kernel⟩
theorem wit_Prbs_loss : Ready (ckS true) ∧ (lane (ckS true) 0).prbsSync = true ∧ (prbsCompare 1 false [false] (prbsRunNow (ckS true) 0 1)).2 = (1, true)
    ∧ (prbsCompare 1 false [true] (prbsRunNow (ckS true) 0 1)).2 = (0, false) := ⟨ready_of (by decide), by decide +kernel⟩

/-- Reset with the link of headbox 0 in a state. -/
def lkS (l : Link) : State := { at_ 20000000000 [(0x02000000, 2)] with ing := { ports := [(0, { link := l })], lanes := [(0, { st := 6, position := 0 })] } }
/-- The bytes of a TRAIN block and of an AM block of position 0, alone. -/
def tb1 : List Byte := (trainBlock 0 1 1 1).bytes
def am1 (n : Nat) : List Byte := (amBlock 0 n).bytes
theorem wit_LinkTrain : let s : State := { lkS { st := 1, widthNow := 1 } with cfg := { vals := [(0x01000000, 1), (0x01000001, 8), (0x02000000, 2), (0x02000001, 1)] } }
    Ready s ∧ (link s 0).st = 1 ∧ trainSet (link s 0) [tb1] = true ∧ groupLocked s 0 0 1 = true := ⟨ready_of (by decide), by decide +kernel⟩
theorem wit_LinkAm : let l : Link := { st := 2, widthNow := 1, amCount := some 0xFFFFFFFF }
    Ready (lkS l) ∧ (link (lkS l) 0).amCount = some 0xFFFFFFFF ∧ amSet (link (lkS l) 0) [am1 0] = some 0 ∧ 0 = (0xFFFFFFFF + 1) % 2 ^ 32
      ∧ (link (lkS { st := 2 }) 0).amCount = none ∧ (link (lkS { st := 3 }) 0).st = 3 ∧ amSet l [tb1] = none ∧ 32 ≤ 32 :=
  ⟨ready_of (by decide), by decide +kernel⟩
theorem wit_LinkTimers : (link (lkS { st := 1 }) 0).ns + 100000 ≤ (lkS { st := 1 }).clk.ns ∧ (link (lkS { st := 1 }) 0).prev = none
    ∧ (link (lkS { st := 2, prev := some (1, 0) }) 0).prev = some (1, 0) ∧ (link (lkS { st := 4, reqWidth := some 2 }) 0).reqWidth = some 2
    ∧ (link (lkS { st := 5 }) 0).ns + 10000 ≤ (lkS { st := 5 }).clk.ns ∧ (link (lkS { st := 3 }) 0).amNext ≤ 100 * (lkS { st := 3 }).clk.ns := by decide +kernel
theorem wit_Scrambler : 2 ^ 58 - 1 < 2 ^ 58 ∧ 2 ^ 64 - 1 < 2 ^ 64 := by decide
/-- A packet of a payload on stream 0. -/
def bryn (ptype seq : Nat) (payload : List Byte) : BrynPacket :=
  { ptype := BitVec.ofNat 8 ptype, stream := 0, seq := BitVec.ofNat 16 seq, len := BitVec.ofNat 16 payload.length
    crc := BitVec.ofNat 32 (packetCrc ptype 0 seq payload) }
/-- A width request or echo of two lanes from position 0. -/
def w2 : List Byte := widthPayload 2 3
theorem wit_WidthAck : let s := lkS { st := 4, reqWidth := some 2, granted := 256 }
    (link s 0).reqWidth = some 2 ∧ laneMask 2 0 = 3 ∧ (packetIn 0 (bryn 7 0 w2) 0x07 w2 s).1 = .taken ∧ u8At w2 0 = 2 ∧ u8At w2 1 = 3 := by decide +kernel
theorem wit_WidthAck_felt : let s : State := { at_ 0 [] with chain := { ports := [(3, { link := { st := 4, reqWidth := some 2 } })] } }
    Ready s ∧ (link s 67).st = 4 ∧ (link s 67).reqWidth = some (u8At w2 0) ∧ u8At w2 1 = laneMask 2 (link s 67).reqOff
      ∧ packetSound (bryn 7 0 w2) w2 = true ∧ (bryn 7 0 w2).ptype = 0x07 := ⟨ready_of (by decide), by decide +kernel⟩
theorem wit_FullWidth : let s := { lkS { st := 3, widthNow := 1, fullSince := some 0, fullFailNs := some 0 } with
      cfg := { vals := [(0x02000000, 2), (0x02000001, 2)] } }
    (link s 0).fullSince = some 0 ∧ (link s 0).widthNow < linkFull s 0 ∧ 0 + 1000000000 ≤ s.clk.ns ∧ 0 + 10000000000 ≤ s.clk.ns := by decide +kernel
theorem wit_Credit : (link (lkS { st := 3, freed := 16 }) 0).freed ≠ 0 ∧ 16 ≤ (link (lkS { st := 3, freed := 16 }) 0).freed := by decide +kernel
theorem wit_WidthReq : let s : State := { at_ 0 [] with chain := { ports := [(3, { link := { st := 3 } })] } }
    Ready s ∧ (feltPort s 3).link.st = 3 ∧ linkMin s 67 ≤ 4 ∧ packetSound (bryn 6 0 (widthPayload 4 15)) (widthPayload 4 15) = true
      ∧ (bryn 6 0 w2).ptype = 0x06 ∧ u8At (widthPayload 4 15) 1 = laneMask 4 0 := ⟨ready_of (by decide), by decide +kernel⟩
theorem wit_FeltCredit : let p := leBytes 4 1024
    packetSound (bryn 2 0 p) p = true ∧ (bryn 2 0 p).ptype = 0x02 := by decide +kernel

/-! ### Witnesses: headboxes, wires, couch, knotter and reels -/

/-- A stripe in progress, and a line waiting. -/
def str0 : Stripe := { sid := 0, number := 0, epoch := 0, height := 8, first := 0 }
def it0 (st : ItemSt) (flags : Nat) : Item :=
  { num := 0, sid := 0, tb := 0, md := 0, flags := flags, st := st, wire := some 0, samples := [], bank := 0, ffSet := 0
    format := 3, pixels := 64, pad := 0, stripeTb := 0 }
/-- Reset at 20 s with headbox 0 of a protocol and trigger mode. -/
def hbS (proto mode : Nat) (x : Port) : State :=
  { at_ 20000000000 [(0x02000000, proto), (0x02000010, mode), (0x02000014, 1000)] with ing := { ports := [(0, x)] } }
def linked : Port := { running := true, cur := some str0, link := { st := 3, widthNow := 1, granted := 256 }, discovered := true }
/-- LINE_DATA of a whole empty line: the header of Table 7.8 with the marks FIRST and LAST. -/
def hdr0 : List Byte := zeros 10 ++ leBytes 1 3 ++ zeros 5

theorem wit_LineData_other : Live (hbS 2 0 linked) ∧ hbProto (hbS 2 0 linked) 0 = 2 ∧ (link (hbS 2 0 linked) 0).st = 3
    ∧ (bryn 2 0 (zeros 16)).seq.toNat = (port (hbS 2 0 linked) 0).rxSeq ∧ linkOver (hbS 2 0 linked) 0 16385 = false
    ∧ (bryn 2 0 (zeros 16)).ptype ≠ 1 := ⟨live_of (by decide), by decide +kernel⟩
theorem wit_LineData : let s := hbS 2 0 linked
    let r := packetIn 0 (bryn 1 0 hdr0) 0x01 hdr0 s
    r.1 = .taken ∧ (port r.2 0).running = true ∧ (port r.2 0).cur ≠ none ∧ portOut r.2 0 = false ∧ (port r.2 0).part = none
      ∧ (lineHeader hdr0).first = true ∧ (lineHeader hdr0).last = true
      ∧ (packetIn 0 { bryn 1 0 hdr0 with crc := 0 } 0x01 hdr0 s).1 = .lost := by decide +kernel
theorem wit_RegAck : (packetIn 0 (bryn 5 0 (zeros 8)) 0x05 (zeros 8) (hbS 2 0 linked)).1 = .taken := by decide +kernel
theorem wit_Cxp : let s := hbS 1 0 linked
    Live s ∧ hbProto s 0 = 1 ∧ (port s 0).running = true ∧ 0 < hbWidth s 0 ∧ cf s 0x02 0 0x36 < 256 :=
  ⟨live_of (by decide), by decide +kernel⟩
theorem wit_CxpStream : let s : State := { hbS 1 0 linked with ing := { ports := [(0, linked)], lanes := [(0, { st := 6 })] } }
    let s1 := updPort 0 (fun x => { x with quiet := x.quiet.filter fun m => m ≠ hbBase s 0 + 0 }) s
    laneLocked s (hbBase s 0 + 0) = true ∧ (port s1 0).cur ≠ none ∧ portOut s1 0 = false ∧ (port s1 0).part = none
      ∧ hbFormat s 0 < 256 := by decide +kernel
theorem wit_CxpAck : let s : State := { hbS 1 0 { linked with discovered := false, setup := true } with ing :=
      { ports := [(0, { linked with discovered := false, setup := true })], lanes := [(0, { st := 6 })] } }
    (port s 0).running = true ∧ (port s 0).discovered = false ∧ (port s 0).discRetry = false ∧ (port s 0).setup = true
      ∧ (port (hbS 1 0 { linked with discovered := false }) 0).setup = false
      ∧ (∀ i, i < hbWidth s 0 → laneLocked s (hbBase s 0 + i) = true) ∧ hbWidth s 0 = 1 ∧ [0].Nodup := by decide +kernel
theorem wit_LineTimeout : let x : Port := { linked with part := some { trig := none, firstTb := 0, firstNs := 0 } }
    (port (hbS 2 0 x) 0).part = some { trig := none, firstTb := 0, firstNs := 0 }
      ∧ 0 + 1000 * cf (hbS 2 0 x) 0x02 0 0x3A ≤ (hbS 2 0 x).clk.ns := by decide +kernel
theorem wit_TriggerEncoder : let s := hbS 2 1 { linked with trigNext := some 0 }
    Live s ∧ (port s 0).trigNext = some 0 ∧ hbMode s 0 = 1 ∧ (0 : Int) ≤ encE s (hbEnc s 0) ∧ encBackward s (hbEnc s 0) = false :=
  ⟨live_of (by decide), by decide +kernel⟩
theorem wit_TriggerTimer : let s := hbS 2 3 linked
    hbMode s 0 = 3 ∧ (port s 0).cur ≠ none ∧ (port s 0).trigTimerNs + hbPitch s 0 ≤ s.clk.ns := by decide +kernel
theorem wit_TrigLost : let s := hbS 2 1 { linked with trigs := [⟨1, 0, 0⟩] }
    (port s 0).trigs = [⟨1, 0, 0⟩] ∧ 0 + 1000 * cf s 0x02 0 0x3C ≤ s.clk.ns ∧ (port s 0).cur = some str0 := by decide +kernel
theorem wit_CxpWatches : let s := hbS 1 0 linked
    hbProto s 0 = 1 ∧ (port s 0).discovered = true ∧ (port s 0).hbLost = false ∧ (port s 0).hbNs + 100000000 ≤ s.clk.ns
      ∧ (port (hbS 1 0 { linked with discovered := false }) 0).discNs + 1000000000 ≤ s.clk.ns := by decide +kernel
theorem wit_SetAckTimeout : let w : SetWrite := { seq := 0, sentNs := 0, target := 0, vals := [], grp := 0 }
    let s := hbS 2 0 { linked with writes := [w] }
    (port s 0).writes.find? (fun w => !w.acked && !w.failed && decide (w.sentNs + 1000 * cf s 0x02 0 0x32 ≤ s.clk.ns)) = some w := by
  decide +kernel
theorem wit_DroppedLine : let s := hbS 2 0 { linked with captures := [2000, 1000], capLast := 2000, link := { st := 0 } }
    (port s 0).captures = [2000, 1000] ∧ [(1000 : Int)].getLast? = some 1000 ∧ hbMode s 0 = 0 ∧ portOut s 0 = true
      ∧ (port s 0).capLast + (2 * (((port s 0).dropK : Int) + 1) * (2000 - 1000) + 1) / (2 * 1) ≤ s.clk.tb := by decide +kernel

/-- Reset with headbox 0 and its lines, wire 0 in-line for it. -/
def wrS (l : List Item) (x : Port) : State := hbS 2 0 { x with running := true, pipe := l }
theorem wit_WireServe : let s := wrS [it0 .fifo 0] { cur := some str0 }
    Live s ∧ wireHeld s 0 = false
      ∧ nextInline ((List.range 32).foldl (fun s p => flushWait 0 p (enforceDeadline 0 p s)) s) 0 = some (0, it0 .fifo 0) :=
  ⟨live_of (by decide), by decide +kernel⟩
theorem wit_WireServe_chest : let x : Port := { old := [{ str0 with buffered := true, closed := true, wire := some 0, closeNs := 20000000000 }] }
    let s : State := { wrS [it0 (.chest 0) 0] x with ing := { ports := [(0, { x with running := true, pipe := [it0 (.chest 0) 0] })]
                                                              wires := [(0, { serving := some (0, 0) })] } }
    let s1 := (List.range 32).foldl (fun s p => flushWait 0 p (enforceDeadline 0 p s)) s
    wireHeld s 0 = false ∧ nextInline s1 0 = none ∧ (nextServing s1 0).isSome = true := by decide +kernel
theorem wit_WireExit : let s0 := (List.range 32).foldl (fun s p => flushWait 0 p s) (wrS [it0 .done 0] { cur := some str0 })
    ((List.range 32).findSome? fun p => (firstLive (port s0 p)).bind fun i =>
      if i.st = .done ∧ i.wire = some 0 then some (p, i) else none) = some (0, it0 .done 0) := by decide +kernel
theorem wit_Deadline : let u : Stripe := { str0 with closed := true, wire := some 0, deadline := 20000000 }
    let s := wrS [it0 .fifo 0] { old := [u] }
    closedWaiting s 0 0 = some u ∧ inService s 0 0 u = true ∧ u.closeNs + 1000 * u.deadline ≤ s.clk.ns := by decide +kernel
/-- A swap of wire 0 by wire 8 whose in-line port has begun its next stripe. -/
def sw0 (handed : Bool) : Swap := { out := 0, into := 8, cid := 0, sid := 0, handed := handed }
theorem wit_SwapHandover : let s : State := { at_ 0 [(0x03000001, 0)] with ing := { swap := some (sw0 false), ports := [(0, linked)] } }
    Live s ∧ s.ing.swap = some (sw0 false) ∧ handoverDue s (sw0 false) = true := ⟨live_of (by decide), by decide +kernel⟩
theorem wit_SwapDone : let c : Cmd := { cm 0xE0 [(0x19, 8)] with started := true }
    let s : State := { infl [c] with ing := { swap := some (sw0 true) } }
    let s1 := raise (112 + 0) 0x04 (swapDetail (sw0 true)) (updWire 0
      (fun y => { y with draining := false, serving := none, ctxPort := none, ctx := [] }) { s with ing := { s.ing with swap := none } })
    wireBusy s 0 = false ∧ s1.cmds.flight.find? (fun c => decide (c.cid = 0)) = some c := by decide +kernel
theorem wit_WireSwap : let c := cm 0xE0 [(0x19, 8)]
    let s : State := { infl [c] with cfg := { vals := [(0x03000001, 0)] }, ing := { ports := [(0, linked)] } }
    Starts s 0 0 0xE0 c ∧ s.ing.swap = none ∧ (wire s 8).reproc = none ∧ wireTested s 8 = false ∧ groupTouchesWire s 0 = false
      ∧ groupTouchesWire s 8 = false ∧ wireRole s 0 ≠ 1 ∧ wireRole s 8 ≠ 0 ∧ (wire s 8).state ≠ 3 ∧ wireInline s 0 < 32
      ∧ (port s (wireInline s 0)).running = true := ⟨starts_of (by decide +kernel), by decide +kernel⟩
theorem wit_WireSwap_refused : Starts (infl [cm 0xE0 [(0x18, 8)]]) 0 0 0xE0 (cm 0xE0 [(0x18, 8)])
    ∧ wireRole (infl [cm 0xE0 [(0x18, 8)]]) 8 = 1 := ⟨starts_of (by decide +kernel), by decide +kernel⟩
theorem wit_WireSwap_busy : let c := cm 0xE0 [(0x19, 8)]
    let s : State := { infl [c] with ing := { swap := some (sw0 false) } }
    Starts s 0 0 0xE0 c ∧ s.ing.swap ≠ none := ⟨starts_of (by decide +kernel), by decide +kernel⟩
/-- REPROCESS by the spare of headbox 0 from 0 to 256, with no reel. -/
def rpC : Cmd := cm 0x41 [(0x0B, 3), (0x0A, 8), (0x1A, 0xFF), (0x29, 1)]
def rpS (pixels : Nat) : State := { infl [rpC] with web := { hist := { raw := [
  { port := 0, number := 0, epoch := 0, block := 0, blocks := 1, lines := 1, pixels := pixels, format := 3, mdFirst := 0, mdLast := 9
    mdMin := 0, mdMax := 9, closed := true }] } } }
theorem wit_Reprocess : let s := rpS (cf State.reset 0x04 0 0)
    Starts s 0 0 0x41 rpC ∧ pkInst rpC.packet = 8 ∧ (wire s 8).state ≠ 2 ∧ (wire s 8).state ≠ 3 ∧ s.ing.swap = none
      ∧ (∀ v, v < 9 → (wire s v).reproc = none) ∧ u8At rpC.packet 0x1A = 0xFF
      ∧ bankUnready s 0 0 = false ∧ (∀ r ∈ rawSelected s 0 0 256, r.pixels = cf s 0x04 0 0) ∧ rawGone s 0 0 = false
      ∧ rawSelected s 0 0 256 ≠ [] := ⟨starts_of (by decide +kernel), by decide +kernel⟩
theorem wit_Reprocess_gone : let s : State := { infl [rpC] with web := { hist := { rawLost := [(0, 0, 0)] } } }
    Starts s 0 0 0x41 rpC ∧ rawSelected s 0 0 256 = [] ∧ rawGone s 0 0 = true := ⟨starts_of (by decide +kernel), by decide +kernel⟩

/-- Headbox 0 feeds the couch, whose grid has 256 columns. -/
def ccV : Tbl Nat := [(0x02000000, 2), (0x06000004, 256), (0x06000100, 1)]
def ccS (l : List Item) (c : Couch) : State := { at_ 20000000000 ccV with ing := { ports := [(0, { linked with pipe := l })] }, web := { couch := c } }
theorem wit_CouchLine : let s := ccS [it0 .out 0] {}
    Live s ∧ (port s 0).pipe = [it0 .out 0] ∧ cpWant s 0 = true ∧ bitOf (it0 .out 0).flags 3 = false ∧ lineLate s (rowOf s 0) = false
      ∧ bitOf (it0 .out 8).flags 3 = true := ⟨live_of (by decide), by decide +kernel⟩
theorem wit_CouchLine_late : let s := ccS [it0 .dropped 0] { lastRow := some 0 }
    cpWant s 0 = true ∧ lineLate s (rowOf s 0) = true ∧ lineLate (ccS [it0 .dropped 0] {}) (rowOf s 0) = false := by decide +kernel
theorem wit_RowEmit : let s := ccS [] { lastRow := some 4, contribs := [(0, { closed := some 5 })] }
    nextRow s = some 5 ∧ gCols (rowBoundaryOpen 5 s) ≠ 0 ∧ rowComplete (rowBoundaryOpen 5 s) 5 = true := by decide +kernel
theorem wit_RowTimeout : let s := ccS [] { lastRow := some 4, firstClose := [(0, 5, 0)] }
    nextRow s = some 5 ∧ firstClosed (rowBoundary 5 s) 5 = some 0 ∧ gCols (rowBoundary 5 s) ≠ 0 ∧ rowComplete (rowBoundary 5 s) 5 = false
      ∧ 0 + 1000 * cf (rowBoundary 5 s) 0x06 0 0x24 ≤ s.clk.ns := by decide +kernel
/-- A thermal row of a dryer frame. -/
def dr (row : Nat) : DRow := { frame := 0, row := row, md := 0, tb := 0, flags := 0, px := [], bad := [], t := 0, syncTb := 0 }
theorem wit_ThermalMap : let s : State := { at_ 0 [] with afe := { dry := [(3, { out := [dr 1] })] } }
    Live s ∧ (dry s 3).out = [dr 1] ∧ (dr 1).row ≠ 0 := ⟨live_of (by decide), by decide +kernel⟩
/-- Dryer port 0 runs and feeds the couch. -/
def thV : Tbl Nat := [(0x05000000, 1), (0x06000004, 256), (0x06000900, 1)]
def thS (c : Couch) : State := { at_ 20000000000 thV with afe := { dry := [(0, { running := true, st := 3 })] }, web := { couch := c } }
theorem wit_ThermRow : let s := thS { thermLast := some 1, thermClosed := [(0, 2)] }
    thermOldest s = some 2 ∧ gCols s ≠ 0 ∧ thermComplete s 2 = true := by decide +kernel
theorem wit_ThermTimeout : let s := thS { thermLast := some 1, thermFirst := [(2, 0)] }
    thermOldest s = some 2 ∧ thermComplete s 2 = false ∧ thermFirstClosed s 2 = some 0 ∧ 0 + 1000 * cf s 0x06 0 0x44 ≤ s.clk.ns := by
  decide +kernel
theorem wit_Edge : let s : State := { at_ 0 [(0x06000004, 256), (0x06000048, 3)] with chain := { ports := [(3, { link := { st := 3, granted := 256 } })] } }
    let s1 := linkFree 67 18 s
    feltUsable s 3 = true ∧ linkOver s 67 18 = false ∧
    gFelt s1 1 = 0xFF ∧ gFelt s1 0 = 3 ∧ sideOf s1 3 = some 0 ∧ gCols s1 ≠ 0 ∧ gBase s1 ≤ 255 ∧ 255 < gBase s1 + gCols s1 ∧ lineLate s1 0 = false
      ∧ gridDescriptor s1 < 2 ^ 32 ∧ sideOf (linkFree 67 18 State.reset) 3 = none := by decide +kernel

/-- A row of the grid for slice 0, and a component of it. -/
def gr (rep : Option Nat) : GridRow := { k := 0, cells := [], forced := false, therm := none, reproc := rep, todo := [7], ns := 0, minTb := 0 }
def kn (k : Knot) : State := { at_ 20000000000 [] with web := { knot := k } }
theorem wit_KnotterRow : Live (kn { rows := [gr none] }) ∧ sliceRow (kn { rows := [gr none] }) 7 = some (gr none)
    ∧ thermReady (sliceTake 7 (some 0) (kn { rows := [gr none] })) 7 (gr none) = true ∧ sliceRow (kn { rows := [gr (some 8)] }) 7 = some (gr (some 8))
    ∧ thermReady (kn { rows := [gr (some 8)] }) 7 (gr (some 8)) = true := ⟨live_of (by decide), by decide +kernel⟩
def kc : KCell := { row := 0, col := 5, x4 := 4, mu := 0, samples := [0], bright := 1, dark := 0, hot := false, cold := false, therm := none }
def co (sentLo : Bool) (col : Nat) : Comp := { slice := 0, cells := [{ kc with col := col }], closed := some (0, 0, 0), sentLo := sentLo }
theorem wit_Merger : let s := kn { comps := [co false 5] }
    nextGroup s = some [co false 5] ∧ mergerHeld s [co false 5] = false ∧ (∀ m ∈ [co false 5], m.reproc = none)
      ∧ groupClosed [co false 5] = some (0, 0, 0) ∧ groupSides s [co false 5] = [] := by decide +kernel
/-- Reset with a neighbour on felt port 3 at the low edge, and a component there. -/
def ke (k : Knot) : State := { at_ 20000000000 [(0x06000004, 256), (0x06000008, 256), (0x06000048, 3)] with web := { knot := k } }
/-- The neighbour's part of it. -/
def fg : FragIn := { side := 0, cells := [], partial_ := false, split := false, ns := 0 }
theorem wit_MergerEdge : let g := [co false 0]
    let s := ke { comps := g }
    nextGroup s = some g ∧ mergerHeld s g = false ∧ groupClosed g = some (0, 0, 0) ∧ groupSides s g = [0]
      ∧ edgeWhole s (edgeComp s g) = false := by decide +kernel
theorem wit_MergerWhole : let g := [co true 0]
    let f : FragIn := { fg with cells := (groupCells (ke {}) g).map fun c => { c with col := c.col - 1 } }
    let s := ke { comps := g, frags := [f] }
    nextGroup s = some g ∧ mergerHeld s g = false ∧ groupSides s g ≠ [] ∧ edgeWhole s (edgeComp s g) = true := by decide +kernel
theorem wit_MergeTimeout : let s := ke { comps := [co true 0] }
    timedGroup s = some [co true 0] ∧ s.web.knot.fragOk = false := by decide +kernel
theorem wit_Frag : (let s : State := { ke {} with chain := { ports := [(3, { link := { st := 3, granted := 256 } })] } }
      feltUsable s 3 = true ∧ linkOver s 67 (4 + (fragPayload false false false []).length) = false)
    ∧ gFelt { at_ 0 [] with cfg := { vals := [(0x06000048, 3)] } } 0 = 3 ∧ gFelt State.reset 1 ≠ 3
    ∧ gFelt { at_ 0 [] with cfg := { vals := [(0x06000049, 3)] } } 1 = 3 ∧ gFelt State.reset 0 = 0xFF := by decide +kernel
theorem wit_TileWrite : let s : State := { at_ 0 [] with web := { hist := { tiles := [⟨0, [1]⟩] } } }
    Ready s ∧ s.web.hist.tiles = [⟨0, [1]⟩] := ⟨ready_of (by decide), by decide⟩
theorem wit_RecordDelivery : let r : Rec := ⟨0, 0, zeros 64, none⟩
    let s : State := { rings [] with web := { knot := { recs := [r] } } }
    Live s ∧ hostBlocked s = false ∧ nextRec [] s.web.knot.recs = some r ∧ tblFind s.host.dqs r.queue = some rg ∧ mayRequest s = true
      ∧ s.chain.head = true ∧ (rg.tail - rg.head).toNat ≠ 2 ^ rg.log2 ∧ tblFind (infl []).host.dqs 0 = none := ⟨live_of (by decide), by decide +kernel⟩

/-- A row at a reel, and an open unit. -/
def rin : ReelIn := { idx := 0, md := 0, samples := [] }
def rlS (src : Nat) (x : Reel) : State := { at_ 20000000000 [(0x083F0000, src)] with web := { reels := [(63, x)] } }
theorem wit_Reel : Live (rlS 0 { inq := [rin] }) ∧ (reel (rlS 0 { inq := [rin] }) 63).inq = [rin] ∧ rlSource (rlS 0 { inq := [rin] }) 63 = 0
    ∧ rlSource (rlS 1 { inq := [rin] }) 63 ≠ 0 ∧ (reel (rlS 1 { inq := [rin] }) 63).grp = [] := ⟨live_of (by decide), by decide +kernel⟩
theorem wit_ReelUnit : let u : RUnit := { first := 0, md := 0, lines := [], openNs := 0, flags := 0 }
    (reel (rlS 1 { unit := some u }) 63).unit = some u ∧ u.openNs + 1000000000 ≤ (rlS 1 {}).clk.ns := by decide +kernel
theorem wit_ReelHold : let s := rlS 1 { held := [([1], 0)] }
    let b : State := atDev1 s
    Ready s ∧ (reel s 63).held = [([1], 0)] ∧ hostBlocked s = false ∧ hostBlocked b = true ∧ 0 + 1000000 ≤ b.clk.ns
      ∧ tblFind b.host.srs (rlf b 63 0x14) = none := ⟨ready_of (by decide), by decide +kernel⟩
theorem wit_HistLookup : HostOn State.reset := hostOn_of (by decide)

/-! ### Witnesses: ports, dryer, marker, converters, calibration, serial ports and pins -/

/-- PORT_START and PORT_STOP of headbox 0 and of dryer port 0. -/
def psC (op blk : Nat) : Cmd := cm op [(0x0B, blk)]
def psS (op blk : Nat) (vals : Tbl Nat) (x : Port) (d : Dry) : State :=
  { infl [psC op blk] with cfg := { vals := vals }, ing := { ports := [(0, x)] }, afe := { dry := [(0, d)] } }
theorem wit_PortStart : let s := psS 0x30 2 [(0x02000000, 2)] {} {}
    Starts s 0 0 0x30 (psC 0x30 2) ∧ addrBlk (pkTarget (psC 0x30 2).packet) = 2 ∧ (port s 0).running = false ∧ underTest s 2 0 = false
      ∧ presetArmed s (hbEnc s 0) = false ∧ (∀ i, i < 9 → (tab s 0 (cf s 2 0 0x12) i).st ≠ 1 ∧ (tab s 0 (cf s 2 0 0x12) i).st ≠ 3)
      ∧ hbProto s 0 ≠ 0 := ⟨starts_of (by decide +kernel), by decide +kernel⟩
theorem wit_PortStart_refused : Starts (psS 0x30 2 [] { running := true } {}) 0 0 0x30 (psC 0x30 2)
    ∧ (port (psS 0x30 2 [] { running := true } {}) 0).running = true ∧ Starts (psS 0x30 2 [] {} {}) 0 0 0x30 (psC 0x30 2)
    ∧ hbProto (psS 0x30 2 [] {} {}) 0 = 0 ∧ (∀ i, i < 9 → (tab (psS 0x30 2 [] {} {}) 0 (cf (psS 0x30 2 [] {} {}) 2 0 0x12) i).st ≠ 1) :=
  ⟨starts_of (by decide +kernel), by decide, starts_of (by decide +kernel), by decide +kernel⟩
theorem wit_PortStart_dryer : let s := psS 0x30 5 [(0x05000000, 1)] {} {}
    Starts s 0 0 0x30 (psC 0x30 5) ∧ (dry s 0).running = false ∧ underTest s 5 0 = false ∧ presetArmed s (dpc s 0 0x32) = false
      ∧ (∀ i, i < 5 → dTab s 0 (dBank s 0) i ≠ 1 ∧ dTab s 0 (dBank s 0) i ≠ 3) ∧ dpc s 0 0x00 ≠ 0 :=
  ⟨starts_of (by decide +kernel), by decide +kernel⟩
theorem wit_PortStop : let s := psS 0x31 2 [] { running := true, cur := some str0 } {}
    Starts s 0 0 0x31 (psC 0x31 2) ∧ (port s 0).running = true ∧ (port s 0).cur ≠ none ∧ u8At (psC 0x31 2).packet 0x18 = 0
      ∧ (port (psS 0x31 2 [] {} {}) 0).running = false := ⟨starts_of (by decide +kernel), by decide +kernel⟩
theorem wit_PortStop_dryer : let s := psS 0x31 5 [] {} { running := true, frame := some fr0 }
    Starts s 0 0 0x31 (psC 0x31 5) ∧ (dry s 0).running = true ∧ (dry s 0).frame ≠ none ∧ u8At (psC 0x31 5).packet 0x18 = 0
      ∧ (dry (psS 0x31 5 [] {} {}) 0).running = false := ⟨starts_of (by decide +kernel), by decide +kernel⟩

/-- Reset at 20 s with dryer port 3. -/
def dpS (vals : Tbl Nat) (d : Dry) : State := { at_ 20000000000 vals with afe := { dry := [(3, d)] } }
theorem wit_FrameSync : let s := dpS [] { running := true, st := 3 }
    Live s ∧ (dry s 3).running = true ∧ (dry s 3).st = 3 ∧ syncEarly s 3 = false := ⟨live_of (by decide), by decide +kernel⟩
theorem wit_DryerRow : let s := dpS [] { running := true, st := 3, frame := some fr0 }
    let u := dpS [(0x0503000E, 1)] { running := true, st := 3, frame := some { fr0 with got := 65535 } }
    (dry s 3).frame = some fr0 ∧ fr0.lsyncTbs[fr0.got]? = none ∧ ({ fr0 with lsyncTbs := [9] } : DFrame).lsyncTbs[fr0.got]? = some 9 ∧ fr0.got < dpRows s 3 ∧ dpc u 3 0x0E ≠ 0 ∧ dpRows u 3 ≤ 65535 := by decide +kernel
theorem wit_FrameTimeout : let s := dpS [(0x0503000E, 1)] { running := true, st := 3, frame := some fr0 }
    (dry s 3).frame = some fr0 ∧ dpc s 3 0x0E = 1 ∧ fr0.syncNs + 1000 * dpc s 3 0x70 ≤ s.clk.ns := by decide +kernel
theorem wit_ThermalPipe : let s := dpS [] { fifo := [dr 1] }
    (dry s 3).fifo = [dr 1] ∧ (dr 1).stamped = true ∧ bitOf (dr 1).flags 0 = false
      ∧ (dry (dpS [] { fifo := [{ dr 1 with stamped := false }] }) 3).fifo = [{ dr 1 with stamped := false }] := by decide +kernel
theorem wit_BiasRamp : let d : Dry := { running := true, rampNs := some 0 }
    Ready (dpS [] d) ∧ biasNow (dpS [] { d with st := 3 }) 3 = d.biasTo ∧ (dry (dpS [] { d with st := 1 }) 3).st = 1 := ⟨ready_of (by decide), by decide +kernel⟩
theorem wit_DriftRefine : (dpS [] {}).cmds.paused.contains 2 = false := by decide

/-- SHUTTER of dryer port 0 with an action. -/
def shC (a : Nat) : Cmd := cm 0x50 [(0x0B, 5), (0x18, a)]
def shS (a : Nat) (d : Dry) (inh : Bool) : State :=
  { infl [shC a] with afe := { dry := [(0, d)], chans := (List.range 16).map fun n => (n, { inhibit := inh }) } }
/-- A closure that has settled. -/
def cl3 : Closure := { reason := 4, step := 3, left := 1, settle := 1, reopen := 1 }
theorem wit_Shutter : let s := shS 1 { running := true } false
    Starts s 0 0 0x50 (shC 1) ∧ pkInst (shC 1).packet = 0 ∧ (dry s 0).running = true ∧ (chan s (shutChan s 0)).inhibit = false
      ∧ (dry s 0).closure = none ∧ (dry (shS 1 { running := true, closure := some cl3 } false) 0).closure = some cl3 ∧ cl3.step = 3
      ∧ ∀ a, a < 5 → u8At (shC a).packet 0x18 = a := ⟨starts_of (by decide +kernel), by decide +kernel⟩
theorem wit_Shutter_refused : Starts (shS 4 {} false) 0 0 0x50 (shC 4) ∧ (dry (shS 4 {} false) 0).running = false
    ∧ Starts (shS 4 { running := true } true) 0 0 0x50 (shC 4)
    ∧ (chan (shS 4 { running := true } true) (shutChan (shS 4 { running := true } true) 0)).inhibit = true :=
  ⟨starts_of (by decide +kernel), by decide, starts_of (by decide +kernel), by decide +kernel⟩

/-- Reset at 20 s with marker channel 15. -/
def mkS (vals : Tbl Nat) (c : Chan) (arm : Nat) : State := { at_ 20000000000 vals with afe := { chans := [(15, c)], arm := arm } }
/-- A job far ahead, and one that opens at the encoder's place. -/
def jb (o : Int) : MJob := { fOpen := o, fClose := o + 1, seq := 0 }
theorem wit_MarkerJob : let s := mkS [] { incoming := [jb (2 ^ 60)] } 0
    Ready s ∧ (chan s 15).incoming = [jb (2 ^ 60)] ∧ (jb (2 ^ 60)).now_ = false
      ∧ openNow (updChan 15 (fun c => { c with incoming := [] }) s) 15 (jb (2 ^ 60)) = false ∧ encBackward s (mkEnc s 15) = false
      ∧ encBackward (setEnc (mkEnc s 15) { backward := true } s) (mkEnc (setEnc (mkEnc s 15) { backward := true } s) 15) = true :=
  ⟨ready_of (by decide), by decide +kernel⟩
theorem wit_HeadroomRetry : let s := mkS [] { wait := some { tp := 0, th := some 20000000000 } } 0x8000
    (chan s 15).wait = some { tp := 0, th := some 20000000000 } ∧ 20000000000 ≤ s.clk.ns
      ∧ (chan (mkS [] { wait := some { tp := 0 } } 0x8000) 15).wait = some { tp := 0, th := none } := by decide +kernel
/-- A drive in its peak, and in its hold. -/
def mdr : MDrive := { startNs := 0, peakEndNs := 0, minEndNs := 0 }
theorem wit_PeakPhaseEnd : let s := mkS [] { drive := some mdr, phase := 1 } 0x8000
    (chan s 15).drive = some mdr ∧ (chan s 15).phase = 1 ∧ mdr.peakEndNs ≤ s.clk.ns ∧ 9 * mkPeak s 15 ≤ 10 * 65535 ∧ 10 * 0 < mkPeak s 15
      ∧ (∃ ma : BitVec 16, 10 * ma.toNat < 9 * mkPeak s 15 ∧ mkPeak s 15 ≤ 10 * ma.toNat) ∧ (chan s 15).peakFull = true :=
  ⟨by decide +kernel, by decide +kernel, by decide, by decide +kernel, by decide +kernel,
   ⟨BitVec.ofNat 16 ((mkPeak (mkS [] {} 0) 15 + 9) / 10), by decide +kernel⟩, by decide +kernel⟩
theorem wit_DriveEnd : let s := mkS [] { drive := some mdr, phase := 2 } 0x8000
    (chan s 15).drive = some mdr ∧ (chan s 15).phase = 2 ∧ mdr.minEndNs ≤ s.clk.ns ∧ mdr.closeK.all (closeNow s 15) = true
      ∧ mdr.shutter = false ∧ ({ mdr with closeMet := true } : MDrive).closeMet = true
      ∧ (chan (mkS [] { phase := 3 } 0) 15).decayEndNs ≤ s.clk.ns := by decide +kernel
theorem wit_MrkArm : HostOn (mkS [] {} 0) := hostOn_of (by decide)
/-- MARK_FIRE of channel 0 in a mode. -/
def mfC (mode : Nat) : Cmd := cm 0x80 [(0x0B, 9), (0x18, mode)]
def mfS (mode fn : Nat) (c : Chan) : State := { infl [mfC mode] with cfg := { vals := [(0x09000000, fn)] }, afe := { chans := [(0, c)], arm := 1 } }
theorem wit_MarkFire : ∀ m, m < 2 → let s := mfS m 1 {}
    named s 0 0 0x80 (mfC m) = true ∧ mayStart s (mfC m) = true ∧ pkInst (mfC m).packet = 0 ∧ u8At (mfC m).packet 0x18 = m
      ∧ mkFunction s 0 = 1 ∧ (enc s (mkEnc s 0)).armed = none ∧ (chan s 0).inhibit = false ∧ mkArmed s 0 = true ∧ (chan s 0).fault = false := by
  decide +kernel
theorem wit_MarkFire_refused : Starts (mfS 1 0 {}) 0 0 0x80 (mfC 1) ∧ mkFunction (mfS 1 0 {}) 0 ≠ 1
    ∧ Starts (mfS 1 1 { inhibit := true }) 0 0 0x80 (mfC 1) ∧ (chan (mfS 1 1 { inhibit := true }) 0).inhibit = true :=
  ⟨starts_of (by decide +kernel), by decide +kernel, starts_of (by decide +kernel), by decide⟩
theorem wit_MarkFire_preset : let s := setEnc 0 { armed := some 0 } (mfS 0 1 {})
    Starts s 0 0 0x80 (mfC 0) ∧ (enc s (mkEnc s 0)).armed ≠ none := ⟨starts_of (by decide +kernel), by decide +kernel⟩

theorem wit_VvalveOut : ((8999 : W32).toNat < 9000 ∧ 34000 < (34001 : W32).toNat ∧ 9000 ≤ (9000 : W32).toNat ∧ (34000 : W32).toNat ≤ 34000)
    ∧ heldS.boot.phase ≠ .ready ∧ State.reset.afe.held = false ∧ ({ State.reset with afe := { held := true } } : State).afe.held = true := by decide
theorem wit_ValveEvents : let s := mkS [] { drive := some mdr, phase := 2 } 0
    Ready s ∧ s.afe.coilNs + 1000000 ≤ s.clk.ns ∧ (chan s 15).drive = some mdr ∧ (chan s 15).phase = 2
      ∧ (chan s 15).holdNs + 100000000 * (mdr.senses + 1) ≤ s.clk.ns ∧ (chan s 15).calEndNs = none
      ∧ (!mdr.endSensed && decide ((chan s 15).holdNs + 200000 ≤ s.clk.ns) && endNears s 15 mdr) = true
      ∧ (chan (mkS [] { drive := some mdr, phase := 2, calEndNs := some 0 } 0) 15).calEndNs ≠ none :=
  ⟨ready_of (by decide), by decide +kernel⟩

/-- Reset at 20 s with a housekeeping unit: MODE 1, two injected inputs and every trigger source. -/
def hkS (x : Hk) : State := { at_ 20000000000 [(0x0A030000, 1), (0x0A030002, 2), (0x0A030003, 127)] with afe := { hk := [(3, x)] } }
theorem wit_HkSwtrig : let s := hkS { st := 1 }
    HostOn s ∧ (1 : W32).getLsbD 0 = true ∧ hkMode s 3 ≠ 0 ∧ hkc s 3 2 ≠ 0 ∧ bitOf (hkc s 3 3) 2 = true ∧ (hk s 3).st ≠ 3
      ∧ (hk s 3).pending.contains 6 = false := ⟨hostOn_of (by decide), by decide +kernel⟩
theorem wit_Injected : let s := hkS { st := 4, pending := [6, 2] }
    Ready s ∧ (hk s 3).st ≠ 2 ∧ ((List.range 7).find? fun k => (hk s 3).pending.contains k) = some 2 := ⟨ready_of (by decide), by decide +kernel⟩
theorem wit_Conversions : (hk (hkS { st := 1, slow := true }) 3).convNs + 4000 ≤ 20000000000 ∧ (hk (hkS { st := 2 }) 3).st = 2
    ∧ (hk (hkS { st := 3 }) 3).calNs + 1600000 ≤ 20000000000 ∧ t2Paused (hkS {}) = false := by decide
/-- R309, R310, R319: 300 mV at an external input, and TEST_CODE 512 on the test DAC's path, sound or damaged. -/
theorem wit_Raw : (HkSignal.mk 300000 (some 4)).err = some 4 ∧ (HkSignal.mk 300000 none).err = none ∧ (HkSignal.mk 300000 none).signal.toNat = 300000 ∧ ((0, 0, false, 0) : Int × Nat × Bool × Nat).2.2.1 = false ∧ 23 < 24
    ∧ ((0, 0, true, 512) : Int × Nat × Bool × Nat).2.2.1 = true ∧ 1 ≤ 512 ∧ 512 ≤ 1022 := by decide
theorem wit_AdcSelfcal : Starts (infl [cm 0x90 [(0x0B, 10)]]) 0 0 0x90 (cm 0x90 [(0x0B, 10)]) := starts_of (by decide +kernel)

theorem wit_RefCheck : let s := at_ 20000000000 []
    Ready s ∧ calMay s = true ∧ refDue s = true ∧ 1000 < (refRatio 199600).natAbs ∧ (refRatio 199600).natAbs ≤ 100000
      ∧ 199599 < 440000 := ⟨ready_of (by decide), by decide +kernel⟩
/-- Calibration elements that are due: unit 3, and channel 63 of running dryer port 3, whose LSYNC the FPA drives. -/
def elS : State := { dpS [(0x0503000E, 1)] { running := true, st := 3, frame := some fr0 } with afe := { (dpS [] { running := true, st := 3, frame := some fr0 }).afe with
  cal := { els := [(elKey 2 3, { due := true }), (elKey 1 63, { due := true })] } } }
theorem wit_Calibration : calMay elS = true ∧ elWanted elS 2 3 = true ∧ (dry elS 3).running = true ∧ (dry elS 3).st = 3
    ∧ ((List.range 16).map fun c => 16 * 3 + c).filter (forceDue elS 3) ≠ [] ∧ rowStarts elS 3 = true := by decide +kernel
theorem wit_SramEcc : tblGet 0 State.reset.afe.cal.sramErrs 0 + 1 < 16
    ∧ tblGet 0 ({ sramErrs := [(7, 14)] } : Cal).sramErrs 7 + 1 < 16 := by decide
theorem wit_Calibrate : let c := cm 0xA0 [(0x18, 1)]
    Starts (infl [c]) 0 0 0xA0 c ∧ u8At c.packet 0x18 ≠ 4 ∧ calibrateNames (infl [c]) 1 0 ≠ []
      ∧ Starts (infl [cm 0xA0 []]) 0 0 0xA0 (cm 0xA0 [])
      ∧ calibrateNames { infl [cm 0xA0 []] with afe := { cal := { els := (List.range 4).flatMap fun c => (List.range 64).map fun i => (elKey c i, { due := false }) } } } 0 0 = [] :=
  ⟨starts_of (by decide +kernel), by decide +kernel, by decide +kernel, starts_of (by decide +kernel), by decide +kernel⟩

/-- Reset at 20 s with serial port 3, master or slave, and a descriptor at the base of HBM's free area. -/
def spS (slave : Nat) (x : Sp) : State := { at_ 20000000000 [(0x0B030000, slave)] with afe := { sp := [(3, { x with data := 0x10000000 })] } }
theorem wit_MasterGo : HostOn (spS 0 {}) ∧ spBusy (sp (spS 0 {}) 3) = false ∧ goErr (spS 0 {}) 3 = 0 ∧ goErr (spS 1 {}) 3 = 1 :=
  ⟨hostOn_of (by decide), by decide +kernel⟩
theorem wit_MasterDone : let f : SpFrame := { kind := 0, out := [], inLen := 1, buf := 0x10000000 }
    (sp (spS 0 { run := some f }) 3).run = some f ∧ (sp (spS 0 { run := some f }) 3).endNs ≤ 20000000000 ∧ f.kind = 0 ∧ f.inLen = [(0 : Byte)].length := by decide
theorem wit_Slave : Ready (spS 1 {}) ∧ spSlave (spS 1 {}) 3 = true ∧ (15 % 8 ≠ 0 ∧ 8 < 16)
    ∧ (∃ r : Fin 128, let y := slaveBytes (sp (spS 1 {}) 3) r [0]
        y.2 = true ∧ y.1.inhibit = (sp (spS 1 {}) 3).inhibit ∧ y.1.override = (sp (spS 1 {}) 3).override)
    ∧ (spS 1 {}).afe.viewNs + 100000 ≤ (spS 1 {}).clk.ns :=
  ⟨ready_of (by decide), by decide +kernel⟩

/-- Reset at 20 s with pin 47 high and the strobe of pin 0. -/
def pinS : State := { at_ 20000000000 [] with afe := { gpio := 2 ^ 47, strobes := [(0, 0)] } }
theorem wit_Gpio : Ready pinS ∧ gpioDrives pinS 47 = false ∧ gpioDrives pinS 0 = false ∧ tblFind pinS.afe.gpioNew 47 = none ∧ pinf pinS 47 2 = 0 ∧ pinf pinS 0 2 = 0 ∧ bitOf pinS.afe.gpio 47 = true ∧ bitOf pinS.afe.gpio 0 = false ∧ bitOf (pinf pinS 47 1) 0 = false
    ∧ bitOf (pinf pinS 0 1) 0 = false ∧ tblFind pinS.afe.strobes 0 = some 0 ∧ 0 + 100 * pinf pinS 0 6 ≤ pinS.clk.ns :=
  ⟨ready_of (by decide), by decide +kernel⟩
/-- The same with INVERT 1 on pin 0. -/
theorem wit_GpioInvert : let s : State := { pinS with cfg := { vals := [(0x0C040101, 1)] } }
    gpioDrives s 0 = false ∧ pinf s 0 2 = 0 ∧ bitOf (pinf s 0 1) 0 = true ∧ bitOf s.afe.gpio 0 = !true
      ∧ bitOf { s with afe := { s.afe with gpio := 1 } }.afe.gpio 0 = true := by decide +kernel
/-- The same with FILTER 255 on pin 47, which another level has reached 1,275 ns ago. -/
def pinF : State := { pinS with cfg := { vals := [(0x0C04027A, 255)] }, afe := { pinS.afe with gpioNew := [(47, 19999998725)] } }
theorem wit_GpioFilter : gpioDrives pinF 47 = false ∧ tblFind pinF.afe.gpioNew 47 = some 19999998725 ∧ 19999998725 + 5 * pinf pinF 47 2 ≤ pinF.clk.ns
    ∧ pinf pinF 47 2 ≠ 0 ∧ tblFind { pinF with afe := pinS.afe }.afe.gpioNew 47 = none ∧ bitOf pinF.afe.gpio 47 = true := by decide +kernel
theorem wit_Encoder : sharedHere pinS 3 = false ∧ (enc pinS 3).aIn = false ∧ (enc pinS 3).bIn = false ∧ (enc pinS 3).errNs = none
    ∧ (enc pinS 3).zLast = none ∧ (enc pinS 3).armed ≠ some 2 ∧ (enc pinS 3).sampleNs + 1000 ≤ pinS.clk.ns
    ∧ pinS.clk.ns < (enc (setEnc 3 { sampleNs := 20000000000 } pinS) 3).sampleNs + 1000 := by decide +kernel
/-- An error 1 s ago, and one a nanosecond later. -/
theorem wit_QuadError : let s (t0 : Nat) : State := setEnc 3 { errNs := some t0 } pinS
    (enc (s 19000000000) 3).errNs = some 19000000000 ∧ 19000000000 + 1000000000 ≤ (s 19000000000).clk.ns
      ∧ (s 19000000001).clk.ns < 19000000001 + 1000000000 := by decide +kernel
theorem wit_ThermalEvaluation : pinS.afe.therm.evalNs + 1000000 ≤ pinS.clk.ns := by decide

/-! ### Witnesses: NVM, firmware and security -/

theorem wit_PageWriteEnd : let p : PageWrite := { job := .command 0 0, addr := 0x4000, bytes := [1], startNs := 0 }
    let s : State := { at_ 2000000 [] with nvm := { page := some p } }
    Ready s ∧ s.nvm.page = some p ∧ p.startNs + 2000000 ≤ s.clk.ns := ⟨ready_of (by decide), by decide⟩
theorem wit_NvmTimers : let s : State := { at_ 600000000000 [] with nvm := { calUnstored := true } }
    s.nvm.lastBatchNs + 600000000000 ≤ s.clk.ns ∧ storeDue s = true := by decide +kernel
theorem wit_LogPage : let s : State := { at_ 0 [] with nvm := { logQueue := [⟨1, 1, 1, 0, 0, 0, 0, 0⟩] } }
    s.nvm.page = none ∧ s.nvm.window = true ∧ s.cmds.paused.contains 3 = false ∧ s.nvm.batchNext = none ∧ s.nvm.batchDue = false
      ∧ logMay s = true := by decide +kernel
/-- NVM_READ of two bytes at 0, and of the newest slot where none is sound. -/
def nrC : Cmd := cm 0xB0 [(0x0C, 2)]
def nrR : Cmd := cm 0xB0 [(3, 1), (0x0C, 2), (0x09, 0x40)]
theorem wit_NvmRead : Starts (infl [nrC]) 0 0 0xB0 nrC ∧ (infl [nrC]).nvm.page = none
    ∧ readBytes (beginWork nrC 0 (infl [nrC])).1 (beginWork nrC 0 (infl [nrC])).2 = some [0xFF, 0xFF]
    ∧ mayRequest (beginWork nrC 0 (infl [nrC])).2 = true ∧ Starts (infl [nrR]) 0 0 0xB0 nrR
    ∧ readBytes (beginWork nrR 0 (infl [nrR])).1 (beginWork nrR 0 (infl [nrR])).2 = none :=
  ⟨starts_of (by decide +kernel), by decide, by decide +kernel, by decide +kernel, starts_of (by decide +kernel), by decide +kernel⟩
/-- NVM_WRITE of one byte at 0x4000, with the window open or closed. -/
def nwC : Cmd := cm 0xB1 [(0x09, 0x40), (0x0C, 1), (0x11, 0x10)]
def nwS (w : Bool) : State := { infl [nwC] with nvm := { window := w } }
theorem wit_NvmWrite : Starts (nwS true) 0 0 0xB1 nwC ∧ mayRequest (nwS true) = true ∧ (nwS true).chain.head = true
    ∧ pkOpt8 nwC.packet = false ∧ [(7 : Byte)].length = pkLen nwC.packet ∧ pageCount (pkTarget nwC.packet) (pkLen nwC.packet) = 1
    ∧ (beginWork nwC 1 (nwS true)).2.chain.head = true ∧ Starts (nwS false) 0 0 0xB1 nwC ∧ (nwS false).nvm.window = false :=
  ⟨starts_of (by decide +kernel), by decide, by decide, by decide +kernel, by decide +kernel, by decide +kernel, by decide +kernel,
   starts_of (by decide +kernel), by decide⟩
/-- CERT_READ of the device certificate with room for three bytes; the area holds two, or none that fits. -/
def crC : Cmd := cm 0xC3 [(0x0C, 3), (0x11, 0x10)]
def crS (n : Nat) : State := { infl [crC] with nvm := { mem := [(0x1000, BitVec.ofNat 8 n), (0x1001, 0)] } }
theorem wit_CertRead : Starts (crS 3) 0 0 0xC3 crC ∧ u8At crC.packet 0x18 = 0 ∧ (certArea (crS 3) 0x1000).length ≤ pkLen crC.packet
    ∧ Starts (crS 4) 0 0 0xC3 crC ∧ pkLen crC.packet < (certArea (crS 4) 0x1000).length :=
  ⟨starts_of (by decide +kernel), by decide +kernel, by decide +kernel, starts_of (by decide +kernel), by decide +kernel⟩
theorem wit_Attest : Starts (infl [cm 0xC0 []]) 0 0 0xC0 (cm 0xC0 []) := starts_of (by decide +kernel)

/-- FW_STAGE of 257 bytes into a slot; the image that runs came from slot 0. -/
def fsC (slot : Nat) : Cmd := cm 0xC1 [(0x0C, 1), (0x0D, 1), (0x11, 0x10), (0x18, slot)]
/-- The first 16 bytes of a TYPE 1 image of one body byte. -/
def stHead : List Byte := zeros 6 ++ [1] ++ zeros 5 ++ leBytes 4 1
theorem wit_FwStage : Starts (infl [fsC 1]) 0 0 0xC1 (fsC 1) ∧ mayRequest (infl [fsC 1]) = true ∧ (infl [fsC 1]).chain.head = true
    ∧ stageTaken (fsC 1) (infl [fsC 1]) = false ∧ (fsC 1).buf = [] ∧ stageForm (fsC 1) stHead = true ∧ stageForm (fsC 1) (zeros 16) = false
    ∧ 16 ≤ stHead.length ∧ stHead.length < pkLen (fsC 1).packet
    ∧ Starts (infl [fsC 0]) 0 0 0xC1 (fsC 0) ∧ stageTaken (fsC 0) (infl [fsC 0]) = true ∧ stageForm (fsC 0) stHead = true :=
  ⟨starts_of (by decide +kernel), by decide, by decide, by decide +kernel, by decide, by decide +kernel, by decide +kernel, by decide +kernel,
   by decide +kernel, starts_of (by decide +kernel), by decide +kernel, by decide +kernel⟩
/-- The same with its image checked and partly programmed. -/
def fsRun : Cmd := { fsC 1 with started := true, aux := 1, total := 257, position := 256 }
theorem wit_FwStage_ends : CarriesOn (infl [fsRun]) 0 0 0xC1 fsRun ∧ fsRun.aux = 1 ∧ flashHeld (infl [fsRun]) = false
    ∧ fsRun.total ≤ fsRun.position + 1 ∧ sha384 [] = sha384 fsRun.buf ∧ sha384 [0] ≠ sha384 fsRun.buf :=
  ⟨carries_of (by decide +kernel), by decide, by decide +kernel, by decide, rfl, by decide +kernel⟩
/-- The frames of the boot flash on one lane, in SPI mode 0 at 1,600 MHz ÷ 64. -/
def fl1 (cmd : Byte) (rest : List SpPhase) : Emit := .serial 0 ⟨true, 0, 64, 0, 2⟩ (⟨1, [.output, .input], 8, [cmd]⟩ :: rest)
def ph1 (cycles : Nat) (bs : List Byte) : SpPhase := ⟨1, [.output, .input], cycles, bs⟩
/-- R325, R393: a read longer than 65,536 bytes takes two frames; a page program is enabled before and its end awaited after. -/
theorem test_flash_frames : (flashRead 0x10000 65537 State.reset).sent.take 2
      = [fl1 3 [ph1 24 [2, 0, 0], ph1 8 []], fl1 3 [ph1 24 [1, 0, 0], ph1 524288 []]]
    ∧ (flashWrite 2 0x10100 [7] State.reset).sent.take 3 = [fl1 5 [ph1 8 []], fl1 2 [ph1 24 [1, 1, 0], ph1 8 [7]], fl1 6 []] := by decide +kernel
/-- R396: the body's pages and then the header. -/
theorem test_image_pages : imagePages 513 = [(256, 256), (257, 512), (513, 0)] := by decide
/-- FW_ACTIVATE. Whether a signature holds is the outside's to say: the witness of an image that verifies names one. -/
def faC : Cmd := cm 0xC2 []
theorem wit_FwActivate : Starts (infl [faC]) 0 0 0xC2 faC
    ∧ ((infl [faC]).cmds.flight.any fun d => decide (pkOp d.packet = 0x00C1) && d.started && d.sentTo.isNone) = false
    ∧ flashHeld (infl [faC]) = false ∧ fwVerifies (infl [faC]) (slotImageOf []) = false := ⟨starts_of (by decide +kernel), by decide +kernel⟩
theorem wit_FwActivate_fuses : let s : State := { infl [faC] with sec := { fuseSteps := 1 } }
    Starts s 0 0 0xC2 faC ∧ imRollback (slotImageOf []) < s.sec.fuseSteps ∧ (infl [faC]).sec.fuseSteps ≤ imRollback (slotImageOf []) :=
  ⟨starts_of (by decide +kernel), by decide +kernel⟩
theorem wit_Debug : let s : State := { at_ 1000000000 [] with sec := { fuseSteps := 3, fuseTarget := 4, lockoutNs := some 0 } }
    Ready s ∧ s.sec.tapHold = false ∧ s.sec.fuseSteps < s.sec.fuseTarget ∧ lockedOut s = false ∧ s.sec.challenge = none ∧ s.sec.lockoutNs = some 0
      ∧ 0 + 1000000000 ≤ s.clk.ns := ⟨ready_of (by decide), by decide⟩

/-! ### Witnesses: chain -/

/-- Device 1 of a chain at 1 s, whose felt port 3 carries traffic and leads to its parent. -/
def chS (own : Nat) : State := { at_ 1000000000 [] with
  chain := { devId := own, head := decide (own = 0), ports := [(3, { link := { st := 3, granted := 4096 } })], parentPort := some 3, thetas := [1]
             parentLostNs := some 999000000, syncT1 := some 7 } }
/-- A route header. -/
def rh (dst ttl : Nat) : RouteHdr := { dst := BitVec.ofNat 8 dst, src := 2, ttl := BitVec.ofNat 8 ttl }
theorem wit_Routed : Ready (chS 1) ∧ feltUsable (chS 1) 3 = true ∧ (rh 1 0).dst.toNat = (chS 1).chain.devId ∧ mayRequest (chS 1) = true
    ∧ (rh 9 2).dst.toNat ≠ (chS 1).chain.devId ∧ (rh 9 2).dst ≠ 0xFF ∧ 1 < (rh 9 2).ttl.toNat
    ∧ mayRequest { chS 0 with pcie := { bme := false } } = false ∧ (pkt 4 []).length = 64 ∧ pkOp (pkt 4 []) ≠ 0xF0
    ∧ opcodeAccepted 0 (pkOp (pkt 4 [])) = true ∧ packetOk (pkt 4 []) = true ∧ linkOver (chS 1) 67 4100 = false := ⟨ready_of (by decide), by decide +kernel⟩
theorem wit_Routed_cpl : let c : Cmd := { other 4 false with sentTo := some 2 }
    let s : State := { chS 0 with cmds := { nextId := 10, flight := [c] } }
    feltUsable s 3 = true ∧ (zeros 32).length = 32 ∧ bitOf (u8At (zeros 32) 7) 1 = false
      ∧ s.cmds.flight.find? (fun c => decide (c.sq = 1 ∧ c.tag = BitVec.ofNat 32 5 ∧ c.sentTo = some (rh 0 0).src.toNat)) = some c := by
  decide +kernel
theorem wit_ChainTime : Ready (chS 1) ∧ (chS 1).chain.syncT1 = some 7 ∧ (chS 1).chain.parentPort = some 3 ∧ (chS 1).chain.syncNext ≤ (chS 1).clk.ns
    ∧ (chS 1).chain.avgNext ≤ (chS 1).clk.ns ∧ (chS 1).chain.head = false ∧ (chS 1).chain.thetas ≠ [] ∧ (chS 1).chain.joining = false
    ∧ (chS 1).chain.search = none ∧ (chS 1).chain.parentLostNs = some 999000000 ∧ 999000000 + 1000000 ≤ (chS 1).clk.ns
    ∧ (chS 1).chain.chainSync = true := ⟨ready_of (by decide), by decide⟩
theorem wit_SyncStamp : ∀ k, k < 2 → let q : FeltPacket := ⟨1, 0, 0, 0x11, syncBytes k 0 0 0⟩
    q.payload.length = 32 ∧ u8At q.payload 0 = k := by decide +kernel
/-- The same with the shared encoder of a source device. -/
def shS1 (own src : Nat) : State := { chS own with cfg := { vals := [(0x11040000, src)] }, chain := { (chS own).chain with shareOk := true } }
theorem wit_SharedEncoder : Ready (shS1 1 1) ∧ shareSrc (shS1 1 1) = (shS1 1 1).chain.devId ∧ (shS1 1 1).chain.encNext ≤ (shS1 1 1).clk.ns
    ∧ feltUsable (shS1 1 2) 3 = true ∧ (shS1 1 2).chain.parentPort = some 3 ∧ shareSrc (shS1 1 2) ≠ 0xFF ∧ shareSrc (shS1 1 2) ≠ 1
    ∧ (shS1 1 2).chain.shareOk = true ∧ (shS1 1 2).chain.lastSampleNs + 100000 ≤ (shS1 1 2).clk.ns
    ∧ State.reset.clk.ns < State.reset.chain.lastSampleNs + 100000 := ⟨ready_of (by decide), by decide +kernel⟩
/-- CHAIN_ENUM of pair 0, and started with its search. -/
def ceC : Cmd := cm 0xF0 []
def ceRun : Cmd := { ceC with started := true }
def ceS (c : Cmd) : State := { infl [c] with chain := { search := some ⟨some 0, 0, 0⟩ } }
theorem wit_ChainEnum : Starts (infl [ceC]) 0 0 0xF0 ceC ∧ (infl [ceC]).chain.search = none ∧ Starts (ceS ceC) 0 0 0xF0 ceC
    ∧ (ceS ceC).chain.search ≠ none ∧ CarriesOn (ceS ceRun) 0 0 0xF0 ceRun ∧ mayRequest (ceS ceRun) = true :=
  ⟨starts_of (by decide +kernel), by decide, starts_of (by decide +kernel), by decide, carries_of (by decide +kernel), by decide⟩
/-- A probe of a device under a head. -/
def prb (serial : List Byte) : EnumMsg := { reply := false, serial := serial, id := 0xFF, port := 0, headSerial := [1], via := [], viaPort := 0, tb := 0, path := [] }
def prS : State := { chS 1 with chain := { (chS 1).chain with headSerial := [2] } }
theorem wit_Probes : Ready prS ∧ cf prS 0x11 3 0 = 1 ∧ (feltPort prS 3).link.st = 3 ∧ (prb ownSerial).serial = ownSerial ∧ (prb []).serial ≠ ownSerial
      ∧ ownHead prS ≠ [] ∧ ownHead prS ≠ (prb []).headSerial ∧ (feltPort prS 3).foreign_ = false
      ∧ linkOver prS 67 (4 + (enumBytes (prb [])).length) = false ∧ linkOver prS 67 (4 + (enumBytes (prb ownSerial)).length) = false := by
  refine ⟨ready_of (by decide), by decide +kernel, by decide, rfl, ?_, by decide, by decide, by decide, by decide +kernel, by decide +kernel⟩
  intro h
  have := congrArg List.length h
  simp [prb, ownSerial] at this
theorem wit_Join : Ready (chS 1) ∧ feltUsable (chS 1) 3 = true ∧ linkOver (chS 1) 67 64 = false ∧ (chS 1).host.heldReads = [] := ⟨ready_of (by decide), by decide +kernel⟩
theorem wit_FeltLinkDown : (feltPort (chS 1) 3).link.st = 3 ∧ (feltPort State.reset 3).link.st ≠ 3 := by decide
theorem wit_RouteTimeout : let s : State := { infl [away 4] with clk := { ns := 10000000000 } }
    Ready s ∧ s.cmds.flight.find? (fun c => decide (c.sq = 1 ∧ c.tag = 5) && c.sentTo.isSome
      && decide (c.sentNs + 1000 * cf s 0x11 4 4 ≤ s.clk.ns)) = some (away 4) := ⟨ready_of (by decide), by decide +kernel⟩
theorem wit_DeviceJoined : let s : State := { chS 0 with chain := { (chS 0).chain with
      map := [(63, { present := true, unreachable := true })], routes := [(63, 3)] } }
    s.chain.head = true ∧ (mapEntry s 63).present = true ∧ (mapEntry s 63).unreachable = true ∧ reachable s 63 = true := by decide +kernel

/-! ### Witnesses: supplies, start-up, endpoint, failures and self-test -/

/-- Reset in a phase before ready. -/
def phS (ph : Phase) : State := { State.reset with boot := { State.reset.boot with phase := ph }, clk := { ns := 72000000 } }
theorem wit_Starts : (phS .unpowered).boot.phase = .unpowered ∧ (phS .unpowered).boot.sysRstLow = false ∧ (phS .unpowered).sec.tapHold = false
    ∧ (phS .resetHeld).boot.phase = .resetHeld
    ∧ ({ phS .testHeld with sec := { tapHold := true } } : State).sec.tapHold = true ∧ (phS .testHeld).boot.phase = .testHeld
    ∧ (phS .testHeld).boot.sysRstLow = false
    ∧ readyDue (phS .starting) = true ∧ readyDue (phS .resetHeld) = false ∧ (phS .starting).boot.phase ≠ .unpowered
    ∧ (phS .starting).nvm.page = none ∧ State.reset.boot.phase = .ready ∧ State.reset.sec.tapHold = false := by decide +kernel
theorem wit_ThermalHold : (phS .thermalHold).boot.holdNs + 10000000 ≤ (phS .thermalHold).clk.ns ∧ hotSensor (List.replicate 42 420) 420 = true
    ∧ hotSensor (List.replicate 42 419) 420 = false := by decide +kernel
theorem wit_SysRstN : 96 < 97 ∧ Ready State.reset ∧ 103 ≤ 103 ∧ State.reset.nvm.page = none := ⟨by decide, ready_of (by decide), by decide⟩

/-- A profile of table entries for FLAT of headbox 0, the offsets of dryer port 0 and the first rule image, each once, or
the first two twice. -/
def entryOf (kind blk : Nat) : List Byte := [1, BitVec.ofNat 8 kind, 0, 0, 0, 0, 0, BitVec.ofNat 8 blk, 0, 0, 0, 0, 1, 0, 0, 0]
def profS (images : List Nat) : State := { State.reset with boot := { State.reset.boot with
  profile := zeros 16 ++ entryOf 5 4 ++ entryOf 0x14 5 ++ entryOf 0x40 7 ++ entryOf 5 4 ++ entryOf 0x14 5, images := images } }
theorem wit_ProfileImages : Live (profS [0]) ∧ (profS [0]).boot.images = [0] ∧ State.reset.boot.images = [] ∧ flashHeld (profS [0]) = false
    ∧ flashHeld { profS [0] with afe := fsHeld.afe } = true ∧ 1 ≤ u8At (profEntry (profS []).boot.profile 0) 1
    ∧ ([] : List Byte).length ≠ u32At (profEntry (profS []).boot.profile 0) 12
    ∧ crc32 [0] ≠ (0 : W32).toNat ∧ [(0 : Byte)].length = u32At (profEntry (profS []).boot.profile 0) 12
    ∧ (entryItem (profEntry (profS []).boot.profile 0)).kind = 5 ∧ portImages (profS [3]) 0x01 0x10 0 = true ∧ portImages (profS []) 0x01 0x10 0 = false
    ∧ (entryItem (profEntry (profS []).boot.profile 1)).kind = 0x14 ∧ portImages (profS [4]) 0x10 0x20 0 = true
    ∧ portImages (profS []) 0x10 0x20 0 = false ∧ (entryItem (profEntry (profS []).boot.profile 2)).kind = 0x40 :=
  ⟨live_of (by decide), by decide +kernel⟩
theorem wit_ProfileImages_sound : ∀ i, i < 2 → let k := entryItem (profEntry (profS []).boot.profile i)
    contentOk (profS [i]) k [0] = true ∧ itemWords (profS [i]) k ≤ storeFree (profS [i]) := by decide +kernel

theorem wit_EndpointReset : Ready State.reset ∧ State.reset.cmds.flight = [] := ⟨ready_of (by decide), by decide⟩
theorem wit_Link : State.reset.pcie.perstLow = false ∧ (phS .starting).boot.phase = .starting ∧ 1 ≤ (5 : Fin 6).val ∧ (8 : Fin 9).val = 8 := by decide
theorem wit_Failures : let s : State := { at_ 1000000 [] with clk := { ns := 1000000, xtalFail := true }, afe := { linkOk := false, linkLost := true } }
    Ready s ∧ State.reset.clk.xtalFail = false ∧ s.clk.xtalFail = true ∧ State.reset.afe.linkOk = true ∧ s.afe.linkOk = false
      ∧ s.afe.armWait = 0 ∧ (∀ p, p < 4 → (dry s p).running = false) ∧ s.ing.rateNs + 1000000 ≤ s.clk.ns
      ∧ State.reset.clk.ns < State.reset.ing.rateNs + 1000000 := ⟨ready_of (by decide), by decide⟩

/-- BIST_RUN of the spare, and a test that runs. -/
def brC : Cmd := cm 0xD0 [(0x0B, 3), (0x0A, 8), (0x18, 1)]
def brun : BistRun := { blk := 3, inst := 8, mask := 15 }
theorem wit_BistRun : Starts (infl [brC]) 0 0 0xD0 brC ∧ (infl [brC]).bist.run = none ∧ bistIdle (infl [brC]) 3 8 = true
    ∧ addrBlk (pkTarget brC.packet) = 3 ∧ pkInst brC.packet = 8 ∧ bistIdle (infl [brC]) 3 0 = false
    ∧ Starts { infl [brC] with bist := { run := some brun } } 0 0 0xD0 brC :=
  ⟨starts_of (by decide +kernel), by decide, by decide +kernel, by decide +kernel, by decide +kernel, by decide +kernel, starts_of (by decide +kernel)⟩
theorem wit_BistBlock : brun.cid = none ∧ brun.done + 1 < (bistPlan brun.blk brun.mask).length
    ∧ ∃ part i, (bistPlan brun.blk brun.mask)[brun.done]? = some (part, i) ∧ part ≠ 1 :=
  ⟨rfl, by decide +kernel, _, _, rfl, by decide +kernel⟩
theorem wit_SparePeriod : let s := at_ 3600000000000 [(0x12000000, 1)]
    Live s ∧ spareDue s = some 3600000000000 ∧ 3600000000000 ≤ s.clk.ns ∧ s.bist.run = none ∧ bistIdle s 3 (spareNow s) = true
      ∧ spareDue (at_ 0 [(0x12000000, 0)]) = none := ⟨live_of (by decide), by decide +kernel⟩
/-- An NVM_READ that runs. -/
def nrun : Cmd := { cm 0xB0 [] with started := true }
theorem wit_Tenders : let s : State := { State.reset with cmds := { paused := [3] } }
    Ready s ∧ State.reset.cmds.flight = [] ∧ State.reset.bist.run = none ∧ State.reset.cmds.paused.contains 3 = false ∧ s.cmds.paused ≠ []
      ∧ s.cmds.paused.contains 3 = true ∧ s.cmds.paused.erase 3 = [] ∧ ({ paused := [3, 2] } : Cmds).paused.erase 3 ≠ []
      ∧ s.cmds.paused.contains 0 = false ∧ (infl [nrun]).cmds.flight = [nrun] ∧ nrun.started = true ∧ nrun.sentTo = none
      ∧ pkOp nrun.packet = 0xB0 ∧ (infl [nrun]).cmds.paused.contains 3 = false := ⟨ready_of (by decide), by decide +kernel⟩
/-- An event ring that is full. -/
def fullRing : EvtRing := { base := 0x6000, log2 := 6, tail := 64 }
theorem wit_Raise : let s := rings []
    let s2 : State := { s with host := { s.host with evts := [(63, fullRing)] } }
    s.chain.head = true ∧ mayRequest s = true ∧ bitOf (routeOf s 0) 16 = true ∧ bits (routeOf s 0) 10 6 = 63 ∧ bits (routeOf s 0) 0 9 = 511
      ∧ tblFind s.host.evts 63 = some { base := 0x6000, log2 := 6, tail := 1 } ∧ tblFind s2.host.evts 63 = some fullRing
      ∧ 2 ^ fullRing.log2 ≤ (fullRing.tail - fullRing.head).toNat ∧ bitOf (routeOf s 511) 16 = false := by decide +kernel
theorem wit_FinalCompletion : let s := rings [cm 4 []]
    Starts s 0 0 4 (cm 4 []) ∧ (cm 4 []).origin = .here ∧ (cm 4 []).slot = none ∧ s.chain.head = true ∧ mayRequest s = true
      ∧ tblFind s.host.pairs 0 = some pr ∧ pr.group = none ∧ s.host.pairs.all (fun x => !x.2.draining) = true :=
  ⟨starts_of (by decide +kernel), by decide +kernel⟩

/-! ### Ill-formed commands, which the check refuses -/

/-- A flash that answers with a short header, and one that does not answer. -/
def badFlash : FlashContent := ⟨true, [], [], []⟩
def noFlash : FlashContent := ⟨false, [], [], []⟩
/-- Forty-two readings, one too few, and one that is no whole degree for a stack. -/
def t42 : List Int := List.replicate 42 160
def t41 : List Int := List.replicate 41 160
def tHalf : List Int := List.replicate 41 160 ++ [2]
/-- A serial number. -/
def s16 : List Byte := zeros 16

theorem smoke_host_data : Instr.wf (.cfgStage 0 0 (.data [])) = false ∧ Instr.wf (.tableLoad 0 0 (.data [])) = false
    ∧ Instr.wf (.rulesLoad 0 0 (.data [])) = false ∧ Instr.wf (.nvmWrite 0 0 (.data [])) = false
    ∧ Instr.wf (.fwStage 0 0 (.data []) 0 []) = false ∧ Instr.wf (.tableLoad 0 0 (.data [0])) = true := by decide
theorem smoke_accesses : Instr.wf (.commandFetch 0 (.packet (zeros 63))) = false ∧ Instr.wf (.bar2Access 0 (.read 0)) = false
    ∧ Instr.wf (.bar2Access 0 (.write [])) = false ∧ Instr.wf (.forwardedAccess 0 (.read 3)) = false
    ∧ Instr.wf (.forwardedAccess 0 (.write 1 256)) = false ∧ Instr.wf (.registerWrite .bar0 0 3 0) = false
    ∧ Instr.wf (.registerWrite .bar0 0 4 0x100000000) = false ∧ Instr.wf (.registerReadClear .bar0 0 16) = false
    ∧ Instr.wf (.registerWrite .bar0 0 4 0xFFFFFFFF) = true := by decide
theorem smoke_supplies : Instr.wf (.powerValid badFlash t42) = false ∧ Instr.wf (.powerValid noFlash t41) = false
    ∧ Instr.wf (.sysRstNRelease badFlash t42) = false ∧ Instr.wf (.testInstruction .extest badFlash t42) = false
    ∧ Instr.wf (.thermalHoldCheck t41) = false ∧ Instr.wf (.thermalEvaluation t41) = false ∧ Instr.wf (.thermalEvaluation tHalf) = false ∧ Instr.wf (.profileImageLoaded 0 []) = false
    ∧ Instr.wf (.rateWindowEnd []) = false ∧ Instr.wf (.linkChange 0 1) = false ∧ Instr.wf (.linkChange 5 3) = false
    ∧ Instr.wf (.powerValid noFlash t42) = true ∧ Instr.wf (.linkChange 5 8) = true := by decide
theorem smoke_links : Instr.wf (.train (.port 0) [[]]) = false ∧ Instr.wf (.am (.felt 3) [zeros 7] 0) = false
    ∧ Instr.wf (.laneRelock 0 (.idle [])) = false ∧ Instr.wf (.lineData 0 (bryn 1 0 []) (zeros 15)) = false
    ∧ Instr.wf (.regAck 0 (bryn 4 0 []) (zeros 8)) = false ∧ Instr.wf (.regAck 0 (bryn 5 0 []) (zeros 7)) = false
    ∧ Instr.wf (.widthAck (.port 0) (bryn 7 0 []) []) = false ∧ Instr.wf (.widthReq 0 (bryn 7 0 []) (zeros 8)) = false
    ∧ Instr.wf (.creditGrantReceived 0 (bryn 2 0 []) (zeros 3)) = false ∧ Instr.wf (.cxpControlAck 0 (.discovery [0, 1, 2, 3, 4] 4)) = false
    ∧ Instr.wf (.cxpStreamPacket 0 0 ⟨true, 0, 0, true, true, true, [65536]⟩) = false
    ∧ Instr.wf (.lineData 0 (bryn 1 0 []) (zeros 16)) = true := by decide +kernel
theorem smoke_web : Instr.wf (.edge 0 0 0 [(0, [1, 2, 3, 4, 5], 0)]) = false ∧ Instr.wf (.frag 0 [] false false) = false
    ∧ Instr.wf (.dryerRow 0 0 []) = false ∧ Instr.wf (.slaveWriteFrame 0 0 15 [0, 0]) = false
    ∧ Instr.wf (.masterDone 0 (zeros 65537)) = false ∧ Instr.wf (.dbgResp 0 (zeros 95)) = false := by decide +kernel
/-- A cell of a fragment. -/
def fcl (rep : Bool) : FragCell := ⟨0, 0, 0, 0, [], 1, 0, false, false, none, rep⟩
theorem smoke_mixed : Instr.wf (.frag 0 [fcl true, fcl false] false false) = false ∧ Instr.wf (.frag 0 [fcl true, fcl true] false false) = true
    ∧ Instr.wf (.calibrationEnd (.valve 0) 0 0 (List.replicate 11 0)) = false
    ∧ Instr.wf (.calibrationEnd (.valve 0) 0 0 (List.replicate 12 0)) = true := by decide
theorem smoke_felt : Instr.wf (.enum 0 { prb [] with headSerial := [] }) = false ∧ Instr.wf (.enum 0 { prb s16 with headSerial := [1] }) = false
    ∧ Instr.wf (.enum 0 { prb s16 with headSerial := [], via := [1] }) = false ∧ Instr.wf (.cmd 0 (rh 0 0) 0 []) = false
    ∧ Instr.wf (.cpl 0 (rh 0 0) 0 []) = false ∧ Instr.wf (.reg 0 (rh 0 0) (.reg 0 (.read 0))) = false
    ∧ Instr.wf (.reg 0 (rh 0 0) (.bar2 0 (.read 0))) = false ∧ Instr.wf (.reg 0 (rh 0 0) (.reply 1 256)) = false
    ∧ Instr.wf (.ctrl 0 (rh 0 0) (.join 0 0 0 0 [] s16 0)) = false ∧ Instr.wf (.ctrl 0 (rh 0 0) (.entry 0 [] [0, 0, 0, 0])) = false
    ∧ Instr.wf (.ctrl 0 (rh 0 0) (.syncState true 32768)) = false ∧ Instr.wf (.hwr 0 (rh 0 0) 0 (zeros 513)) = false
    ∧ Instr.wf (.hrd 0 (rh 0 0) (.request 0 0 .fail)) = false ∧ Instr.wf (.hrd 0 (rh 0 0) (.data (zeros 4097))) = false
    ∧ Instr.wf (.enum 0 { prb s16 with headSerial := [] }) = true := by decide +kernel

/-! ### Small steps, with results from the spec's worked examples and tables -/

/-- Chapter 4's worked example: defect queue 37,431 wraps. DB_DQ_HEAD 0x248D_C3B8 moves the head by 3,000. -/
def dqS : State := { State.reset with host := { dqs := [(37431, { base := 0, log2 := 12, mirror := 0, group := none, tail := 0x410, head := 0xFFFFF800 })] } }
theorem test_dqHead_wraps : ∃ t, exec (.dbDqHead 0x248DC3B8) dqS = .next t ∧ (tblFind t.host.dqs 37431).map Ring.head = some 0x3B8 := ⟨_, rfl, by decide +kernel⟩

/-- HK_SWTRIG[3] at 0x000C_0C04 takes bit 0 alone and triggers source 6 (R314). -/
theorem test_swtrig_bits : ∃ t u, exec (.registerWrite .bar0 0xC0C04 4 2) (hkS { st := 1 }) = .next t
    ∧ exec (.registerWrite .bar0 0xC0C04 4 3) (hkS { st := 1 }) = .next u ∧ (hk t 3).pending = [] ∧ (hk u 3).pending = [6] :=
  ⟨_, _, rfl, rfl, by decide +kernel⟩

/-- Chapter 6's worked example: the lane table entry of CL12. -/
def cl12 : List Byte := [0x01, 0x09, 0x07, 0x0B, 0x14, 0xFA, 0x03, 0x00, 0xFF, 0x28, 0x10, 0x0C, 0x08, 0x08, 0x04, 0x08]
theorem test_laneEntry : laneEntryOk cl12 = true ∧ (let l := seedLane (some cl12) {}
    l.ctle = 9 ∧ l.ctleMin = 7 ∧ l.ctleMax = 11 ∧ l.taps = [20, -6, 3, 0, -1] ∧ l.limits = [40, 16, 12, 8, 8] ∧ l.txPre = 4 ∧ l.txPost = 8) := by decide

/-- R126: a tap that has just stepped stays for a microsecond. -/
theorem test_tap_waits : ∃ t, exec (.dfeAdaptStep 0 3 0) (lnS 0 { st := 4, tapNs := [some 999999500, none, none, none, none] }) = .next t
    ∧ (lane t 0).taps = [0, 1, 0, 0, 0] := ⟨_, rfl, by decide +kernel⟩

/-- Chapter 9's worked example: columns 4 and 5 of a bilinear-Bayer line through stages 1, 2 and 3. -/
def xt : XTalk := ⟨0, 16384, 16512, [⟨0, [2000, 2000, 2000], [4352, -256, 0, -128, 4352, -128, 0, -256, 4352]⟩]⟩
theorem test_stage1 : stage1Cell xt 4 [27520, 38656] [39680, 19840] = [[24783, 37919], [38657, 16623]] := by decide +kernel
theorem test_stages23 : stage2 (some (leBytes 4 0x000FF803 ++ leBytes 4 0x00001400)) [[24783, 37919], [38657, 16623]] = [[24771, 37927], [38657, 16603]]
    ∧ stage3 (some (leBytes 4 0x0007D214 ++ leBytes 4 0x00087200)) [[24771, 37927], [38657, 16603]] = [[25013, 37705], [38657, 16830]] := by
  decide +kernel

/-- Chapter 11's worked example: the weights of HB0 and HB1 over their seam, and the blend of cell (k, 12,540). -/
def seamV : Tbl Nat := [(0x06000104, 0), (0x06000108, 12559), (0x06000103, 32), (0x06000144, 12497), (0x06000148, 25055), (0x06000142, 32)]
theorem test_seam_weights : [12497, 12520, 12528, 12540, 12559].map (fun g => (portWeight (at_ 0 seamV) 0 g, portWeight (at_ 0 seamV) 1 g))
    = [(256, 7), (256, 186), (248, 248), (155, 256), (7, 256)] := by decide +kernel
theorem test_blend : blend 1 [([32650], 155), ([32714], 256)] = some [32690] := by decide

/-- Chapter 12's worked example: a hole of 6 columns and 20 rows. Mean 25,000, darkest cell 21,500, μ 32,000. -/
def hole : List KCell := (List.range 120).map fun i =>
  { row := 19975981 + (i / 6 : Nat), col := 75300 + i % 6, x4 := 4 * (if i = 50 then 21500 else if i = 51 then 28500 else 25000), mu := 256 * 32000
    samples := [0], bright := 0, dark := 4, hot := false, cold := false, therm := some (-125 * 256) }
theorem test_hole : let s := at_ 0 [(0x06000000, 12800), (0x06000010, 800), (0x06000016, 1)]
    (match hole with
     | [] => none
     | c :: cs => some (features s c cs 0)) = some { cls := 0, flags := 2, md := 15980784400, len := 16000, left := 60239600, right := 60244400
                                                     area := 120, mean := 25000, peak := 21500, contrast := 7000, elong := 853, orient := 0
                                                     hue := 0xFFFF, therm := -125 } := by decide +kernel

/-- Chapter 14's worked example: the job of that record on LS7. -/
theorem test_recordJob : let s : State := { at_ 0 [(0x09070000, 1), (0x09070028, 8), (0x09070018, 56000000), (0x0907001C, 63999999), (0x09070010, 96000000),
      (0x09070024, 800000)] with afe := { arm := 128 } }
    (chan (recordJobs { cls := 3, flags := 0, md := 15980784400, left := 60239600, right := 60244400, len := 16000 } 9 s) 7).incoming
      = [{ fOpen := 16076784400, fClose := 16077584400, seq := 9 }] := by decide +kernel

/-- Chapter 8's worked example: the planned load of a wire with an in-line and three chest ports. -/
theorem test_plannedLoad : planOf (at_ 0 ([0, 1, 16, 17].flatMap (fun p => [(0x02000004 + p * 65536, 12560), (0x03000040 + 4 * p, 333334)])
    ++ [(0x03000001, 0), (0x03000004, 2 ^ 1 + 2 ^ 16 + 2 ^ 17)])) 0 = 16750700168 := by decide +kernel

/-- Chapter 10's worked example: P of DP1 at 412.100 s, 0.419 × 0.051 + 0.026172 K. -/
theorem test_prediction : let s : State := { at_ 261720000000 [] with afe := { dry := [(1, { t := 303540, q := 419, tr := 0, tabs := [(1, 2)], tabRef := [(0, 303489)] })] } }
    dryPred s 1 = 47541000000000 := by decide +kernel

/-- R131: 15 wrong bits of 64 leave a lane locked, 16 unlock it with reason 3; the lane starts again. -/
theorem test_unlock_window : ∃ t u, exec (.laneUnlock 79 3 (List.replicate 15 true ++ List.replicate 49 false)) (lnS 79 { st := 6 }) = .next t
    ∧ exec (.laneUnlock 79 3 (List.replicate 16 true ++ List.replicate 48 false)) (lnS 79 { st := 6 }) = .next u
    ∧ (lane t 79).st = 6 ∧ (lane t 79).codeErr = 15 ∧ (lane u 79).st = 1 ∧ (lane u 79).unlocks = 1 := ⟨_, _, rfl, rfl, by decide +kernel⟩

/-- R309, R319: 0.3 V at an external input reads 1,024; TEST_CODE 256 as the DAC gives it without error too. -/
theorem test_raw : hkRaw State.reset 0 (0, 0, false, 0) ⟨300000, some 0⟩ = 1024 ∧ hkRaw State.reset 24 (0, 0, false, 256) ⟨0, some 4⟩ = 1024 := by decide +kernel
/-- R330: the view holds a first refresh at ready. -/
theorem test_view_at_ready : viewBytes State.reset = State.reset.afe.view := by decide +kernel
/-- R341: sensor 38 is the greater of stacks 0 and 1. -/
theorem test_stack_readings : (readings (List.replicate 38 160 ++ [200, 240, 320, 280])).drop 38 = [240, 320] := by decide +kernel
/-- R403: in service, the 32 bits of IDCODE come out of TDO from the least significant on (log entry 96). -/
theorem test_idcode : ∃ t, exec (.testInstruction .idcode noFlash t42) State.reset = .next t ∧ t.sent.head? = some (.tdo ((List.range 32).map (bitOf 0x16408B67)))
    ∧ bitOf 0x16408B67 0 = true := ⟨_, rfl, by decide +kernel⟩

/-- R72, Table 4.1: the identity that configuration space shows. -/
theorem test_identity : (configSpace State.reset).vendor = 0x1F2D ∧ (configSpace State.reset).device = 0x6408 ∧ (configSpace State.reset).revision = 0xB0 := by decide

end Sys2Proof.Tests
end

/-! PROOFS. Reads and writes of the register blocks of BAR0 and the forwarding window: what each access does by the access
type of its register (Table 0.4, R4, R32, R35, R76, R100). -/

namespace Sys2Proof.Machine

/-! ### RC registers: what their clear changes, and what it leaves -/

/-- `t` is `s` but for counters: those of the ingest, web and AFE blocks, GLB_NVM_LOST and EVT_RING_LOST. -/
def CountersOnly (s t : State) : Prop :=
  t = { s with ing := t.ing, web := t.web, afe := t.afe, nvm := { s.nvm with lost := t.nvm.lost }
               host := { s.host with ringLost := t.host.ringLost } }

theorem rcLane_countersOnly (n k : Nat) (s : State) : CountersOnly s (rcLane n k s) := by
  unfold rcLane; split <;> rfl

theorem rcPort_countersOnly (p k : Nat) (s : State) : CountersOnly s (rcPort p k s) := by
  unfold rcPort; split <;> rfl

theorem rcWires_countersOnly (o : Nat) (s : State) : CountersOnly s (rcWires o s) := by
  unfold rcWires; repeat' split
  all_goals rfl

theorem rcDry_countersOnly (p k : Nat) (s : State) : CountersOnly s (rcDry p k s) := by
  unfold rcDry; split <;> rfl

theorem rcAfe_countersOnly (off : Nat) (s : State) : CountersOnly s (rcAfe off s) := by
  simp only [rcAfe]; repeat' split
  all_goals rfl

theorem rcClear_countersOnly (off : Nat) (s : State) : CountersOnly s (rcClear off s) := by
  simp only [rcClear]
  split
  case h_1 => split <;> rfl
  case h_2 => split <;> rfl
  case h_3 =>
    split
    · exact rcLane_countersOnly _ _ s
    · rfl
  case h_4 =>
    split
    · exact rcPort_countersOnly _ _ s
    · rfl
  case h_5 => exact rcWires_countersOnly _ s
  case h_6 =>
    split
    · exact rcDry_countersOnly _ _ s
    · rfl
  case h_7 => exact rcAfe_countersOnly off s
  case h_8 => exact rcAfe_countersOnly off s
  case h_9 => rfl

/-! ### A read of any other register clears nothing -/

theorem rcLane_of_not_rc {k : Nat} (n : Nat) (s : State) (h : ¬ (0x10 ≤ k ∧ k ≤ 0x18)) : rcLane n k s = s := by
  unfold rcLane; split
  case h_4 => rfl
  all_goals omega

theorem rcPort_of_not_rc {k : Nat} (p : Nat) (s : State) (h : ¬ (0x20 ≤ k ∧ k < 0x40)) : rcPort p k s = s := by
  unfold rcPort; split
  case h_9 => rfl
  all_goals omega

theorem rcDry_of_not_rc {k : Nat} (p : Nat) (s : State) (h : ¬ (0x30 ≤ k ∧ k ≤ 0x44)) : rcDry p k s = s := by
  unfold rcDry; split
  case h_7 => rfl
  all_goals omega

theorem rcWires_of_not_rc {o : Nat} (s : State) (hw : ¬ (o < 0x900 ∧ (o % 0x100 = 0x18 ∨ o % 0x100 = 0x1C)))
    (hc : ¬ (0xA20 ≤ o ∧ o ≤ 0xA3C)) (hs : ¬ (0xB00 ≤ o ∧ o < 0xB80 ∧ o % 0x10 = 4)) (hm : ¬ (0xB98 ≤ o ∧ o ≤ 0xBB0))
    (hr : ¬ (0x1000 ≤ o ∧ o < 0x1400 ∧ o % 0x10 = 4)) : rcWires o s = s := by
  unfold rcWires
  rw [if_neg hs, if_neg hr]
  split
  · split
    case h_3 => rfl
    all_goals omega
  · split
    case h_16 => rfl
    all_goals omega

theorem rcAfe_mrk_of_not_rc {off : Nat} (s : State) (hb : off / 0x10000 = 0xB)
    (h : ¬ (0x100 ≤ off % 0x10000 ∧ off % 0x10000 < 0x300 ∧ 0x18 ≤ off % 0x10000 % 0x20)) : rcAfe off s = s := by
  simp only [rcAfe, if_pos hb]
  split
  · split
    case h_3 => rfl
    all_goals omega
  · rfl

theorem rcAfe_hk_of_not_rc {off : Nat} (s : State) (hb : off / 0x10000 = 0xC)
    (hu : ¬ (off % 0x10000 < 0x1000 ∧ off % 0x10000 % 0x400 = 0x10))
    (he : ¬ (0x1200 ≤ off % 0x10000 ∧ off % 0x10000 < 0x1280 ∧ off % 0x10000 % 0x20 = 0x10)) : rcAfe off s = s := by
  have hn : ¬ off / 0x10000 = 0xB := by omega
  simp only [rcAfe, if_neg hn, if_neg he]
  split
  · exact if_neg fun h => hu ⟨‹_›, h⟩
  · rfl

/-- The clear of a read acts at the RC registers alone (Table 0.4). -/
theorem rcClear_of_not_rc {off : Nat} (s : State) (h : rcAt off = false) : rcClear off s = s := by
  unfold rcAt at h
  split at h
  case h_1 hb =>
    simp only [rcClear, hb]
    exact if_neg (of_decide_eq_false h)
  case h_2 hb =>
    simp only [rcClear, hb]
    exact if_neg (of_decide_eq_false h)
  case h_3 hb =>
    have h := of_decide_eq_false h
    simp only [rcClear, hb]
    split
    · exact rcLane_of_not_rc _ s (by omega)
    · rfl
  case h_4 hb =>
    have h := of_decide_eq_false h
    simp only [rcClear, hb]
    split
    · exact rcPort_of_not_rc _ s (by omega)
    · rfl
  case h_5 hb =>
    simp only [Bool.or_eq_false_iff, decide_eq_false_iff_not] at h
    obtain ⟨⟨⟨⟨hw, hc⟩, hs⟩, hm⟩, hr⟩ := h
    simp only [rcClear, hb]
    exact rcWires_of_not_rc s hw hc hs hm hr
  case h_6 hb =>
    have h := of_decide_eq_false h
    simp only [rcClear, hb]
    split
    · exact rcDry_of_not_rc _ s (by omega)
    · rfl
  case h_7 hb =>
    have hr := rcAfe_mrk_of_not_rc s hb (of_decide_eq_false h)
    simp only [rcClear, hb, hr]
  case h_8 hb =>
    simp only [Bool.or_eq_false_iff, decide_eq_false_iff_not] at h
    have hr := rcAfe_hk_of_not_rc s hb h.1 h.2
    simp only [rcClear, hb, hr]
  case h_9 => simp only [rcClear]

/-! ### A read of an RC register leaves it 0 -/

/-- A counter that its clear has set to 0 reads 0. -/
@[simp] theorem r32_zero : r32 0 = some (32, 0) := rfl

theorem regLane_rcLane {k : Nat} (n : Nat) (s : State) (h : k = 0x10 ∨ k = 0x14 ∨ k = 0x18) :
    regLane (rcLane n k s) n k = some (32, 0) := by
  rcases h with rfl | rfl | rfl <;> simp [regLane, rcLane]

theorem regPort_rcPort {k : Nat} (p : Nat) (s : State)
    (h : k = 0x20 ∨ k = 0x24 ∨ k = 0x28 ∨ k = 0x2C ∨ k = 0x30 ∨ k = 0x34 ∨ k = 0x38 ∨ k = 0x3C) :
    regPort (rcPort p k s) p k = some (32, 0) := by
  rcases h with rfl | rfl | rfl | rfl | rfl | rfl | rfl | rfl <;> simp [regPort, rcPort]

theorem regDry_rcDry {k : Nat} (p : Nat) (s : State)
    (h : k = 0x30 ∨ k = 0x34 ∨ k = 0x38 ∨ k = 0x3C ∨ k = 0x40 ∨ k = 0x44) :
    regDry (rcDry p k s) p k = some (32, 0) := by
  rcases h with rfl | rfl | rfl | rfl | rfl | rfl <;> simp [regDry, rcDry]

theorem regWires_rcWires_wire {o : Nat} (s : State) (ho : o < 0x900) (h : o % 0x100 = 0x18 ∨ o % 0x100 = 0x1C) :
    regWires (rcWires o s) o = some (32, 0) := by
  rcases h with h | h <;> simp [regWires, rcWires, regWire, ho, h]

theorem regWires_rcWires_couch {o : Nat} (s : State) (h : o = 0xA20 ∨ o = 0xA24 ∨ o = 0xA28 ∨ o = 0xA2C ∨ o = 0xA30
    ∨ o = 0xA34 ∨ o = 0xA38 ∨ o = 0xA3C) : regWires (rcWires o s) o = some (32, 0) := by
  rcases h with rfl | rfl | rfl | rfl | rfl | rfl | rfl | rfl <;> simp [regWires, rcWires, regCouch, couchUpd]

theorem regWires_rcWires_slice {o : Nat} (s : State) (h : 0xB00 ≤ o ∧ o < 0xB80 ∧ o % 0x10 = 4) :
    regWires (rcWires o s) o = some (32, 0) := by
  have hw : ¬ o < 0x900 := by omega
  have hc : ¬ (0xA00 ≤ o ∧ o < 0xB00) := by omega
  have hk : 0xB00 ≤ o ∧ o < 0xC00 := by omega
  have hl : o - 0xB00 < 0x80 := by omega
  have hm : (o - 0xB00) % 0x10 = 4 := by omega
  simp only [regWires, rcWires, regKnot, knotUpd, if_neg hw, if_neg hc, if_pos hk, if_pos hl, hm,
    if_pos h, tblGet_tblUpd_self, r32_zero]

theorem regWires_rcWires_merge {o : Nat} (s : State) (h : o = 0xB98 ∨ o = 0xB9C ∨ o = 0xBA0 ∨ o = 0xBA4 ∨ o = 0xBA8
    ∨ o = 0xBAC ∨ o = 0xBB0) : regWires (rcWires o s) o = some (32, 0) := by
  rcases h with rfl | rfl | rfl | rfl | rfl | rfl | rfl <;> simp [regWires, rcWires, regKnot, knotUpd]

@[simp] theorem reel_updReel_self (r : Nat) (f : Reel → Reel) (s : State) : reel (updReel r f s) r = f (reel s r) :=
  tblGet_tblSet_self _ _ _ _

theorem regWires_rcWires_reel {o : Nat} (s : State) (h : 0x1000 ≤ o ∧ o < 0x1400 ∧ o % 0x10 = 4) :
    regWires (rcWires o s) o = some (32, 0) := by
  have hw : ¬ o < 0x900 := by omega
  have hc : ¬ (0xA00 ≤ o ∧ o < 0xB00) := by omega
  have hk : ¬ (0xB00 ≤ o ∧ o < 0xC00) := by omega
  have hs : ¬ (0xC00 ≤ o ∧ o < 0xE00) := by omega
  have hr : 0x1000 ≤ o ∧ o < 0x2000 := by omega
  have hn : ¬ (0xB00 ≤ o ∧ o < 0xB80 ∧ o % 0x10 = 4) := by omega
  have hl : o - 0x1000 < 0x400 := by omega
  have hm : (o - 0x1000) % 0x10 = 4 := by omega
  simp only [regWires, rcWires, regReel, if_neg hw, if_neg hc, if_neg hk, if_neg hs, if_pos hr, if_pos hl, hm, if_neg hn,
    if_pos h, reel_updReel_self, r32_zero]

theorem regMrk_rcAfe {off : Nat} (s : State) (hb : off / 0x10000 = 0xB)
    (ho : 0x100 ≤ off % 0x10000 ∧ off % 0x10000 < 0x300)
    (h : off % 0x10000 % 0x20 = 0x18 ∨ off % 0x10000 % 0x20 = 0x1C) :
    regMrk (rcAfe off s) (off % 0x10000) = some (32, 0) := by
  have hn : ¬ off % 0x10000 < 0x100 := by omega
  have hm : (off % 0x10000 - 0x100) % 0x20 = off % 0x10000 % 0x20 := by omega
  rcases h with h | h <;> simp [regMrk, rcAfe, hb, ho, hn, hm, h]

theorem regHks_rcAfe_unit {off : Nat} (s : State) (hb : off / 0x10000 = 0xC) (ho : off % 0x10000 < 0x1000)
    (h : off % 0x10000 % 0x400 = 0x10) : regHks (rcAfe off s) (off % 0x10000) = some (32, 0) := by
  simp [regHks, rcAfe, regHk, hb, ho, h]

theorem regHks_rcAfe_encoder {off : Nat} (s : State) (hb : off / 0x10000 = 0xC)
    (ho : 0x1200 ≤ off % 0x10000 ∧ off % 0x10000 < 0x1280) (h : off % 0x10000 % 0x20 = 0x10) :
    regHks (rcAfe off s) (off % 0x10000) = some (32, 0) := by
  have hu : ¬ off % 0x10000 < 0x1000 := by omega
  have hp : ¬ off % 0x10000 < 0x1080 := by omega
  have hi : ¬ off % 0x10000 = 0x1100 := by omega
  have hg : ¬ off % 0x10000 = 0x1108 := by omega
  simp [regHks, rcAfe, regEnc, hb, ho, hu, hp, hi, hg, h]

theorem regEvt_ringLost_erased {o : Nat} (s : State) (ha : o % 4 = 0) (ho : 0xC00 ≤ o ∧ o < 0xD00) :
    regEvt { s with host := { s.host with ringLost := tblErase s.host.ringLost ((o - 0xC00) / 4) } } o = some (32, 0) := by
  have hr : ¬ o < 0x800 := by omega
  have hp : ¬ o < 0x840 := by omega
  have hg : ¬ (0x900 ≤ o ∧ o < 0xB80) := by omega
  simp [regEvt, ha, ho, hr, hp, hg, tblGet, tblFind_tblErase_self]

/-- An RC register reads 0 after its clear (Table 0.4). -/
theorem regVal_rcClear {off : Nat} (s : State) (ha : off % 4 = 0) (h : rcAt off = true) :
    regVal (rcClear off s) off = some (32, 0) := by
  unfold rcAt at h
  split at h
  case h_1 hb =>
    simp only [regVal, rcClear, hb, of_decide_eq_true h, if_true, regGlb, r32_zero]
  case h_2 hb =>
    have h := of_decide_eq_true h
    simp only [regVal, rcClear, hb, if_pos h]
    exact regEvt_ringLost_erased s (by omega) h
  case h_3 hb =>
    have h := of_decide_eq_true h
    simp only [regVal, rcClear, hb, if_pos h.1]
    exact regLane_rcLane _ s (by omega)
  case h_4 hb =>
    have h := of_decide_eq_true h
    simp only [regVal, rcClear, hb, if_pos h.1]
    exact regPort_rcPort _ s (by omega)
  case h_5 hb =>
    simp only [Bool.or_eq_true, decide_eq_true_eq] at h
    simp only [regVal, rcClear, hb]
    obtain (((hw | hc) | hs) | hm) | hr := h
    · exact regWires_rcWires_wire s hw.1 hw.2
    · exact regWires_rcWires_couch s (by omega)
    · exact regWires_rcWires_slice s hs
    · exact regWires_rcWires_merge s (by omega)
    · exact regWires_rcWires_reel s hr
  case h_6 hb =>
    have h := of_decide_eq_true h
    simp only [regVal, rcClear, hb, if_pos h.1]
    exact regDry_rcDry _ s (by omega)
  case h_7 hb =>
    have h := of_decide_eq_true h
    simp only [regVal, rcClear, hb]
    exact regMrk_rcAfe s hb ⟨h.1, h.2.1⟩ (by omega)
  case h_8 hb =>
    simp only [Bool.or_eq_true, decide_eq_true_eq] at h
    simp only [regVal, rcClear, hb]
    obtain ⟨ho, hl⟩ | ⟨hlo, hhi, he⟩ := h
    · exact regHks_rcAfe_unit s hb ho hl
    · exact regHks_rcAfe_encoder s hb ⟨hlo, hhi⟩ he
  case h_9 => cases h

/-- What a read answers is logged beside the clear: neither touches what the other changes. -/
theorem rcClear_emit (off : Nat) (e : Emit) (s : State) : rcClear off (emit e s) = emit e (rcClear off s) := by
  simp only [rcClear, rcLane, rcPort, rcWires, rcDry, rcAfe]
  repeat' split
  all_goals rfl

/-! ### Reads of the register blocks -/

theorem is64_of_regVal {s : State} {off w v : Nat} (h : regVal s off = some (w, v)) : is64 s off = decide (w = 64) := by
  simp only [is64, h]
  split <;> simp_all

theorem regShown_of_regVal {s : State} {off w v : Nat} (h : regVal s off = some (w, v)) : regShown s off = v := by
  simp [regShown, h]

/-- A read of a 64-bit register answers its value and changes nothing (R32). -/
theorem regRead_of_64 {s : State} {off v : Nat} (span : Nat) (ha : off % 8 = 0) (h : regVal s off = some (64, v)) :
    regRead 8 off span s = (v, s) := by
  simp [regRead, ha, is64_of_regVal h, regShown_of_regVal h]

/-- A read of a 32-bit register answers its value and clears it where it is RC (R32). -/
theorem regRead_of_32 {s : State} {off v : Nat} (span : Nat) (ha : off % 4 = 0) (h : regVal s off = some (32, v))
    (hh : off % 8 = 4 → is64 s (off - 4) = false) : regRead 4 off span s = (v, rcClear off s) := by
  have hhigh : (decide (off % 8 = 4) && is64 s (off - 4)) = false := by simpa using hh
  simp [regRead, read32, ha, is64_of_regVal h, regShown_of_regVal h, hhigh]

/-! ### Writes to offsets that are not writable, and to registers of 32 bits -/

theorem dbWrite_of_unused {o : Nat} (own : Bool) (v : Nat) (s : State) (h : ¬ (o < 0x2500 ∨ o = 0x2800)) :
    dbWrite own o v s = s := by
  have hq : ¬ o < 0x2000 := by omega
  have hs : ¬ o < 0x2400 := by omega
  have he : ¬ o < 0x2500 := by omega
  have hd : ¬ o = 0x2800 := by omega
  simp [dbWrite, hq, hs, he, hd]

/-- Where no register of type RW, W1C or WO lies a write of 32 bits does nothing (Table 0.4, R76). -/
theorem write32Reg_of_not_writable {off : Nat} (v : Nat) (s : State) (h : writable32 off = false) :
    write32Reg off v s = s := by
  unfold writable32 at h
  split at h
  case h_1 hb =>
    simp only [List.contains_eq_mem, List.mem_cons, List.not_mem_nil, or_false, decide_eq_false_iff_not, not_or] at h
    obtain ⟨hstatus, hsupply, hsel, hq0⟩ := h
    simp only [write32Reg, hb, if_neg hstatus, if_neg hsupply, if_neg hsel, if_neg hq0]
  case h_2 hb =>
    simp only [write32Reg, hb]
    exact dbWrite_of_unused _ v s (of_decide_eq_false h)
  case h_3 hb =>
    simp only [Bool.or_eq_false_iff, decide_eq_false_iff_not] at h
    simp only [write32Reg, hb]
    rw [if_neg (by omega), if_neg h.1, if_neg h.2]
  case h_4 hb =>
    simp only [write32Reg, hb]
    exact if_neg (of_decide_eq_false h)
  case h_5 hb =>
    simp only [Bool.or_eq_false_iff, decide_eq_false_iff_not] at h
    simp only [write32Reg, hb]
    split
    · exact if_neg (by omega)
    · split
      · exact if_neg (by omega)
      · rfl
  case h_6 => simp only [write32Reg]

theorem write32_of_not_writable {off : Nat} (v : Nat) (s : State) (h : writable32 off = false)
    (hw : writable64.contains (off - off % 8) = false) : write32 off v s = s := by
  simp only [write32, hw, write32Reg_of_not_writable v s h, ite_self, Bool.false_eq_true, if_false]

/-- A write of 32 bits that touches no 64-bit register acts by the access type of its register. -/
theorem write32_of_no_64 {s : State} {off : Nat} (v : Nat) (hw : writable64.contains (off - off % 8) = false)
    (h64 : is64 s (off - off % 8) = false) : write32 off v s = write32Reg off v s := by
  simp only [write32, hw, h64, Bool.false_eq_true, if_false]

theorem regWrite_4 {off : Nat} (v : Nat) (s : State) (ha : off % 4 = 0) :
    regWrite 4 off v s = write32 off (v % 2 ^ 32) s := by
  simp [regWrite, ha]

/-- A 64-bit register that the host does not write ignores a write of 8 bytes. -/
theorem regWrite_8_of_64 {s : State} {off : Nat} (v : Nat) (ha : off % 8 = 0) (h : is64 s off = true)
    (hw : writable64.contains off = false) : regWrite 8 off v s = s := by
  simp only [regWrite, ha, h, hw, and_self, if_true, Bool.false_eq_true, if_false]

theorem regWrite_8_of_not_writable {off : Nat} (v : Nat) (s : State) (ha : off % 8 = 0)
    (hw : writable64.contains off = false) (hlo : writable32 off = false) (hhi : writable32 (off + 4) = false) :
    regWrite 8 off v s = s := by
  have el : off - off % 8 = off := by omega
  have eh : off + 4 - (off + 4) % 8 = off := by omega
  have l (u : Nat) : write32 off u s = s := write32_of_not_writable u s hlo (by rwa [el])
  have r (u : Nat) : write32 (off + 4) u s = s := write32_of_not_writable u s hhi (by rwa [eh])
  simp only [regWrite, ha, hw, l, r, ite_self, and_self, Bool.false_eq_true, if_false]

theorem width_of_regEvt {s : State} {o w v : Nat} (h : regEvt s o = some (w, v)) : w = 32 := by
  simp only [regEvt, r32] at h
  repeat' split at h
  all_goals cases h
  all_goals rfl

/-- The event registers have 32 bits (Table 23.1). -/
theorem is64_of_evt {off : Nat} (s : State) (h : off / 0x10000 = 2) : is64 s off = false := by
  simp only [is64, regVal, h]
  split
  · rename_i heq
    exact absurd (width_of_regEvt heq) (by decide)
  · rfl

/-! ### Accesses to BAR0 and through the forwarding window -/

theorem bar0Serve_of_register {off : Nat} (sel : Nat) (acc : RegAccess) (s : State) (hlo : off < 0x100000)
    (ha : alignedAccess off acc = true) : bar0Serve sel off acc s = regLocal off spanHere acc s := by
  simp [bar0Serve, ha, hlo]

/-- An offset of the window has the alignment of the offset behind it. -/
theorem alignedAccess_window (off : Nat) (acc : RegAccess) : alignedAccess (0x100000 + off) acc = alignedAccess off acc := by
  have h4 : (0x100000 + off) % 4 = off % 4 := by omega
  have h8 : (0x100000 + off) % 8 = off % 8 := by omega
  cases acc <;> simp only [alignedAccess, h4, h8]

theorem bar0Serve_of_window {off : Nat} (sel : Nat) (acc : RegAccess) (s : State) (h : off < 0x100000) :
    bar0Serve sel (0x100000 + off) acc s = forwardBody sel off acc s := by
  have hr : ¬ 0x100000 + off < 0x100000 := by omega
  have hw : 0x100000 + off < 0x200000 := by omega
  have hsub : 0x100000 + off - 0x100000 = off := by omega
  simp only [bar0Serve, forwardBody, alignedAccess_window, if_neg hr, if_pos hw, hsub]
  split <;> rfl

/-- An access to BAR0 acts at once unless it is a read behind a write of the HBM window on its way (R79). -/
theorem bar0Access_of_clear {s : State} (off : Nat) {acc : RegAccess} (h : (∃ n, acc = .read n) → s.host.bar2Out = []) :
    bar0Access off acc s = bar0Serve s.host.fwdSel off acc s := by
  cases acc with
  | read n => simp [bar0Access, h ⟨n, rfl⟩]
  | write n v => rfl

theorem bar0Access_of_held {s : State} (off n : Nat) (h : s.host.bar2Out ≠ []) : bar0Access off (.read n) s =
    { s with host := { s.host with heldReads := s.host.heldReads ++ [(off, n, s.host.fwdSel)] } } := by
  simp [bar0Access, h]

theorem exec_registerReadClear {s : State} {off : BitVec 24} {n : Nat} (hs : HostOn s) (ho : s.host.bar2Out = [])
    (hlo : off.toNat < 0x100000) (ha : alignedAccess off.toNat (.read n) = true) :
    exec (.registerReadClear .bar0 off n) s =
      .next (emit (.readData n (regRead n off.toNat spanHere s).1) (regRead n off.toNat spanHere s).2) := by
  change whenHost (bar0Access off.toNat (.read n)) s = _
  rw [whenHost_of_on _ hs, bar0Access_of_clear _ fun _ => ho, bar0Serve_of_register _ _ _ hlo ha]
  rfl

theorem exec_registerWrite {s : State} {off : BitVec 24} {n : Nat} (v : W64) (hs : HostOn s)
    (hlo : off.toNat < 0x100000) (ha : alignedAccess off.toNat (.write n v) = true) :
    exec (.registerWrite .bar0 off n v) s = .next (regWrite n off.toNat (v.toNat % 2 ^ (8 * n)) s) := by
  change whenHost (bar0Access off.toNat (.write n v)) s = _
  rw [whenHost_of_on _ hs, bar0Access_of_clear _ (by simp), bar0Serve_of_register _ _ _ hlo ha]
  rfl

theorem exec_forwardedAccess {s : State} (off : BitVec 20) {acc : RegAccess} (hs : HostOn s)
    (ho : (∃ n, acc = .read n) → s.host.bar2Out = []) :
    exec (.forwardedAccess off acc) s = .next (forwardBody s.host.fwdSel off.toNat acc s) := by
  change whenHost (bar0Access (0x100000 + off.toNat) acc) s = _
  rw [whenHost_of_on _ hs, bar0Access_of_clear _ ho, bar0Serve_of_window _ _ _ off.isLt]

theorem exec_forwardedRead_held {s : State} (off : BitVec 20) (n : Nat) (hs : HostOn s) (ho : s.host.bar2Out ≠ []) :
    exec (.forwardedAccess off (.read n)) s = .next { s with host := { s.host with
      heldReads := s.host.heldReads ++ [(0x100000 + off.toNat, n, s.host.fwdSel)] } } := by
  change whenHost (bar0Access (0x100000 + off.toNat) (.read n)) s = _
  rw [whenHost_of_on _ hs, bar0Access_of_held _ n ho]

/-! ### Reads and writes of the host, by the register's access type -/

section Read32

variable {s : State} {off : BitVec 24} {v : Nat}

/-- A 32-bit read logs the register's value beside its clear. -/
theorem read_of_32 (hs : HostOn s) (ho : s.host.bar2Out = []) (hlo : off.toNat < 0x100000) (ha : off.toNat % 4 = 0)
    (hv : regVal s off.toNat = some (32, v)) (hh : off.toNat % 8 = 4 → is64 s (off.toNat - 4) = false) :
    exec (.registerReadClear .bar0 off 4) s = .next (emit (.readData 4 v) (rcClear off.toNat s)) := by
  rw [exec_registerReadClear hs ho hlo (by simpa [alignedAccess] using ha), regRead_of_32 _ ha hv hh]

/-- The state after a read of an RC register. -/
theorem emit_rcClear_of_rc (e : Emit) (ha : off.toNat % 4 = 0) (hrc : rcAt off.toNat = true) :
    let t := emit e (rcClear off.toNat s)
    t.sent = e :: s.sent ∧ regVal t off.toNat = some (32, 0) ∧ t.hbm = s.hbm ∧ t.cfg = s.cfg ∧ t.cmds = s.cmds
      ∧ t.clk = s.clk ∧ t.nvm.mem = s.nvm.mem ∧ t.host.pend = s.host.pend ∧ t.chain = s.chain := by
  have hzero : regVal (emit e (rcClear off.toNat s)) off.toNat = some (32, 0) := by
    rw [← rcClear_emit]
    exact regVal_rcClear _ ha hrc
  refine ⟨?_, hzero, ?_⟩
  all_goals rw [rcClear_countersOnly off.toNat s]
  · rfl
  · exact ⟨rfl, rfl, rfl, rfl, rfl, rfl, rfl⟩

theorem emit_rcClear_of_not_rc (e : Emit) (hrc : rcAt off.toNat = false) :
    emit e (rcClear off.toNat s) = { s with sent := e :: s.sent } := by
  rw [rcClear_of_not_rc s hrc]
  rfl

end Read32

theorem read_of_64 {s : State} {off : BitVec 24} {v : Nat} (hs : HostOn s) (ho : s.host.bar2Out = [])
    (hlo : off.toNat < 0x100000) (ha : off.toNat % 8 = 0) (hv : regVal s off.toNat = some (64, v)) :
    exec (.registerReadClear .bar0 off 8) s = .next { s with sent := .readData 8 v :: s.sent } := by
  rw [exec_registerReadClear hs ho hlo (by simpa [alignedAccess] using ha), regRead_of_64 _ ha hv]
  rfl

theorem write_of_not_writable {s : State} {off : BitVec 24} (v : W64) (hs : HostOn s) (hlo : off.toNat < 0x100000) :
    (off.toNat % 4 = 0 → writable32 off.toNat = false → writable64.contains (off.toNat - off.toNat % 8) = false →
      exec (.registerWrite .bar0 off 4 v) s = .next s)
    ∧ (off.toNat % 8 = 0 → is64 s off.toNat = true → writable64.contains off.toNat = false →
      exec (.registerWrite .bar0 off 8 v) s = .next s)
    ∧ (off.toNat % 8 = 0 → writable64.contains off.toNat = false → writable32 off.toNat = false →
      writable32 (off.toNat + 4) = false → exec (.registerWrite .bar0 off 8 v) s = .next s) := by
  refine ⟨fun ha h hw => ?_, fun ha h64 hw => ?_, fun ha hw hl hr => ?_⟩
  · rw [exec_registerWrite v hs hlo (by simpa [alignedAccess] using ha), regWrite_4 _ s ha, write32_of_not_writable _ s h hw]
  · rw [exec_registerWrite v hs hlo (by simpa [alignedAccess] using ha), regWrite_8_of_64 _ ha h64 hw]
  · rw [exec_registerWrite v hs hlo (by simpa [alignedAccess] using ha), regWrite_8_of_not_writable _ s ha hw hl hr]

/-- A 4-byte write that touches no 64-bit register: the register's own meaning, on the low 32 bits. -/
theorem exec_registerWrite_of_32 {s : State} {off : BitVec 24} (v : W64) (hs : HostOn s) (hlo : off.toNat < 0x100000)
    (ha : off.toNat % 4 = 0) (hw : writable64.contains (off.toNat - off.toNat % 8) = false)
    (h64 : is64 s (off.toNat - off.toNat % 8) = false) :
    exec (.registerWrite .bar0 off 4 v) s = .next (write32Reg off.toNat (v.toNat % 2 ^ 32) s) := by
  rw [exec_registerWrite v hs hlo (by simpa [alignedAccess] using ha), regWrite_4 _ s ha, write32_of_no_64 _ hw h64,
    Nat.mod_mod]

theorem bitOf_low (v : W64) {i : Nat} (h : i < 32) : bitOf (v.toNat % 2 ^ 32) i = v.getLsbD i := by
  rw [bitOf, Nat.testBit_mod_two_pow, BitVec.testBit_toNat, decide_eq_true h, Bool.true_and]

theorem write_glbStatus {s : State} (v : W64) (hs : HostOn s) : exec (.registerWrite .bar0 8 4 v) s =
    .next { s with host := { s.host with
      hiUnpaired := s.host.hiUnpaired && !v.getLsbD 8, wrSplit := s.host.wrSplit && !v.getLsbD 9 } } := by
  rw [exec_registerWrite_of_32 v hs (by decide) (by decide) (by decide) rfl, ← bitOf_low v (by decide : 8 < 32),
    ← bitOf_low v (by decide : 9 < 32)]
  rfl

theorem write_fwdSel {s : State} (v : W64) (hs : HostOn s) : exec (.registerWrite .bar0 0x30 4 v) s =
    .next { s with host := { s.host with fwdSel := v.toNat % 64 } } := by
  have h6 : v.toNat % 64 = v.toNat % 2 ^ 32 % 64 := by omega
  rw [exec_registerWrite_of_32 v hs (by decide) (by decide) (by decide) rfl, h6]
  rfl

/-- No 64-bit register that the host writes lies among the event registers. -/
theorem writable64_evt {off : Nat} (h : off / 0x10000 = 2) : writable64.contains off = false := by
  simp only [writable64, List.contains_eq_mem, List.mem_cons, List.not_mem_nil, or_false, decide_eq_false_iff_not]
  omega

theorem write_evtRoute {s : State} (n : Fin 512) (v : W64) (hs : HostOn s) :
    exec (.registerWrite .bar0 (BitVec.ofNat 24 (0x20000 + 4 * n.val)) 4 v) s =
      .next { s with host := { s.host with route := tblSet s.host.route n.val (v.toNat % 2 ^ 17) } } := by
  have hoff : (BitVec.ofNat 24 (0x20000 + 4 * n.val)).toNat = 0x20000 + 4 * n.val := by
    rw [BitVec.toNat_ofNat]; omega
  have hblk : (0x20000 + 4 * n.val) / 0x10000 = 2 := by omega
  have hrow : (0x20000 + 4 * n.val - (0x20000 + 4 * n.val) % 8) / 0x10000 = 2 := by omega
  have hin : (0x20000 + 4 * n.val) % 0x10000 = 4 * n.val := by omega
  have hroute : 4 * n.val < 0x800 := by omega
  have h17 : v.toNat % 2 ^ 32 % 2 ^ 17 = v.toNat % 2 ^ 17 := by omega
  rw [exec_registerWrite_of_32 v hs (by omega) (by omega) (by rw [hoff]; exact writable64_evt hrow)
    (by rw [hoff]; exact is64_of_evt s hrow), hoff]
  simp only [write32Reg, hblk, hin, if_pos hroute, h17, Nat.mul_div_cancel_left n.val (by decide : 0 < 4)]

/-- An aligned access of the window acts here, leaves for its device, or meets none (R100). -/
theorem forward_of_aligned {s : State} (off : BitVec 20) {acc : RegAccess} (hs : HostOn s)
    (ho : (∃ n, acc = .read n) → s.host.bar2Out = []) (ha : alignedAccess off.toNat acc = true) :
    (s.host.fwdSel = s.chain.devId → exec (.forwardedAccess off acc) s = .next (regLocal off.toNat 1000 acc s))
    ∧ (s.host.fwdSel ≠ s.chain.devId → reachable s s.host.fwdSel = true → exec (.forwardedAccess off acc) s =
        .next (feltRoute ⟨s.host.fwdSel, s.chain.devId, 32, 0x17, regPayload off.toNat acc⟩ s))
    ∧ (s.host.fwdSel ≠ s.chain.devId → reachable s s.host.fwdSel = false →
        exec (.forwardedAccess off acc) s = .next (raise 342 0x03 0 (noAnswer acc s))) := by
  rw [exec_forwardedAccess off hs ho]
  refine ⟨fun hd => ?_, fun hd hr => ?_, fun hd hr => ?_⟩
  · simp [forwardBody, ha, hd, spanHere]
  · simp [forwardBody, ha, hd, hr, feltTo]
  · simp [forwardBody, ha, hd, hr]

theorem forward_of_misaligned {s : State} (off : BitVec 20) {acc : RegAccess} (hs : HostOn s)
    (ho : (∃ n, acc = .read n) → s.host.bar2Out = []) (ha : alignedAccess off.toNat acc = false) :
    exec (.forwardedAccess off acc) s = .next (noAnswer acc s) := by
  rw [exec_forwardedAccess off hs ho]
  simp [forwardBody, ha]

/-- Settles O19: the three kinds of read, the three kinds of ignored write, the examples, and the window's cases. -/
theorem registerAccessTypes : Obligations.RegisterAccessTypes := by
  unfold Obligations.RegisterAccessTypes
  refine ⟨fun s hs ho => ⟨fun off v hlo ha hv hh => ?_,
    fun off v hlo ha hv => read_of_64 hs ho hlo ha hv, fun off v hlo => write_of_not_writable v hs hlo,
    fun v => write_glbStatus v hs, fun n v => write_evtRoute n v hs, fun v => write_fwdSel v hs⟩,
    fun s off acc hs ho => ⟨fun ha => ?_, fun ha => ?_⟩, fun s off n hs ho => ?_⟩
  case refine_1 =>
    rw [read_of_32 hs ho hlo ha hv hh]
    exact ⟨fun hrc => ⟨_, rfl, emit_rcClear_of_rc _ ha hrc⟩, fun hrc => by rw [emit_rcClear_of_not_rc _ hrc]⟩
  case refine_2 =>
    obtain ⟨hhere, hfar, hlost⟩ := forward_of_aligned off hs ho ha
    refine ⟨hhere, hfar, fun hd hr => ⟨?_, ?_⟩⟩
    · rintro n rfl
      exact hlost hd hr
    · rintro n v rfl
      exact hlost hd hr
  case refine_3 =>
    have h := forward_of_misaligned off hs ho ha
    refine ⟨?_, ?_⟩
    · rintro n rfl
      exact h
    · rintro n v rfl
      exact h
  case refine_4 =>
    rw [exec_forwardedRead_held off n hs ho]

end Sys2Proof.Machine

/-! PROOFS. Time and the queue: what every operation of the device leaves as it was. Crystal time and the queue of commands
change in `step` alone, so each function from states to states has one rule here, in the order of the model's definitions:
its result has the time and the queue of its argument. A rule is proved from those of the functions it calls. -/

namespace Sys2Proof.Machine

/-- Crystal time and the commands that wait: what no command changes. -/
def timeAndQueue (s : State) : Nat × List Instr := (s.clk.ns, s.pending)

/-! ### Record updates, branches, options and folds -/

@[simp] theorem timeAndQueue_mk {clk : Clk} {boot : Boot} {pcie : Pcie} {host : HostIf} {cfg : Cfg} {cmds : Cmds} {nvm : Nvm}
    {sec : Sec} {chain : Chain} {bist : Bist} {ing : Ingest} {web : Web} {afe : Afe} {hbm : Mem} {sent : List Emit} {free : Nat}
    {pending : List Instr} :
    timeAndQueue ⟨clk, boot, pcie, host, cfg, cmds, nvm, sec, chain, bist, ing, web, afe, hbm, sent, free, pending⟩ =
      (clk.ns, pending) := by rfl

@[simp] theorem ns_pending_eq (s : State) : (s.clk.ns, s.pending) = timeAndQueue s := by rfl

@[simp] theorem timeAndQueue_ite (p : Prop) [Decidable p] (s t : State) :
    timeAndQueue (if p then s else t) = if p then timeAndQueue s else timeAndQueue t := apply_ite ..

@[simp] theorem timeAndQueue_ite_snd {α : Type} (p : Prop) [Decidable p] (x y : α × State) :
    timeAndQueue (if p then x else y).2 = if p then timeAndQueue x.2 else timeAndQueue y.2 :=
  apply_ite (fun z : α × State => timeAndQueue z.2) ..

@[simp] theorem timeAndQueue_getD_map {α : Type} {f : α → State} {s : State} (h : ∀ x, timeAndQueue (f x) = timeAndQueue s)
    (o : Option α) : timeAndQueue ((o.map f).getD s) = timeAndQueue s := by
  cases o with
  | none => rfl
  | some x => exact h x

@[simp] theorem timeAndQueue_foldl {α : Type} {f : State → α → State} (h : ∀ u x, timeAndQueue (f u x) = timeAndQueue u)
    (l : List α) (s : State) : timeAndQueue (l.foldl f s) = timeAndQueue s := by
  induction l generalizing s with
  | nil => rfl
  | cons x xs ih => exact (ih _).trans (h s x)

@[simp] theorem timeAndQueue_foldl_snd {α β : Type} {f : β × State → α → β × State}
    (h : ∀ u x, timeAndQueue (f u x).2 = timeAndQueue u.2) (l : List α) (u : β × State) :
    timeAndQueue (l.foldl f u).2 = timeAndQueue u.2 := by
  induction l generalizing u with
  | nil => rfl
  | cons x xs ih => exact (ih _).trans (h u x)

/-- Bookkeeping takes no time. -/
theorem BookOnly.timeAndQueue {s t : State} (h : BookOnly s t) : timeAndQueue t = timeAndQueue s :=
  Prod.ext (congrArg Clk.ns h.clk) h.pending

theorem CountersOnly.timeAndQueue {s t : State} (h : CountersOnly s t) : timeAndQueue t = timeAndQueue s := by
  rw [CountersOnly] at h
  rw [h]
  rfl

/-! ### Shared operations -/

@[simp] theorem timeAndQueue_unlessTripped {f : State → State} (hf : ∀ u, timeAndQueue (f u) = timeAndQueue u) (s : State) :
    timeAndQueue (unlessTripped f s) = timeAndQueue s := by
  unfold unlessTripped
  split
  · rfl
  · exact hf s

@[simp] theorem timeAndQueue_takeSel {sel : Nat → Bool} {part : Nat × Nat} {ok : Accepted → Bool} (s : State) :
    timeAndQueue (takeSel sel part ok s) = timeAndQueue s := by rfl

@[simp] theorem timeAndQueue_takePart {blk inst : Nat} (s : State) :
    timeAndQueue (takePart blk inst s) = timeAndQueue s := by rfl

@[simp] theorem timeAndQueue_passTokens {k n : Nat} (s : State) : timeAndQueue (passTokens k n s) = timeAndQueue s := by rfl

@[simp] theorem timeAndQueue_hbmWrite {a : Nat} {bs : List Byte} (s : State) :
    timeAndQueue (hbmWrite a bs s) = timeAndQueue s := by rfl

@[simp] theorem timeAndQueue_nvmStore {a : Nat} {bs : List Byte} (s : State) :
    timeAndQueue (nvmStore a bs s) = timeAndQueue s := by rfl

@[simp] theorem timeAndQueue_countLife {i : Nat} (s : State) : timeAndQueue (countLife i s) = timeAndQueue s := by rfl

@[simp] theorem timeAndQueue_emit {e : Emit} (s : State) :
    timeAndQueue (emit e s) = timeAndQueue s := (emit_traffic _ _).book.timeAndQueue

@[simp] theorem timeAndQueue_setFeltPort {k : Nat} {p : FeltPort} (s : State) :
    timeAndQueue (setFeltPort k p s) = timeAndQueue s := (setFeltPort_traffic _ _ _).book.timeAndQueue

@[simp] theorem timeAndQueue_feltPump {k : Nat} {n : Nat} (s : State) :
    timeAndQueue (feltPump k n s) = timeAndQueue s := (feltPump_traffic _ _ _).book.timeAndQueue

@[simp] theorem timeAndQueue_feltOn {k : Nat} {pkt : FeltPacket} (s : State) :
    timeAndQueue (feltOn k pkt s) = timeAndQueue s := (feltOn_traffic _ _ _).book.timeAndQueue

@[simp] theorem timeAndQueue_feltRoute {p : FeltPacket} (s : State) :
    timeAndQueue (feltRoute p s) = timeAndQueue s := (feltRoute_traffic _ _).book.timeAndQueue

@[simp] theorem timeAndQueue_feltTo {dst ptype : Nat} {payload : List Byte} (s : State) :
    timeAndQueue (feltTo dst ptype payload s) = timeAndQueue s := (feltTo_traffic _ _ _ _).book.timeAndQueue

@[simp] theorem timeAndQueue_hostWrite {a : Nat} {bs : List Byte} (s : State) :
    timeAndQueue (hostWrite a bs s) = timeAndQueue s := (hostWrite_traffic _ _ _).book.timeAndQueue

@[simp] theorem timeAndQueue_msixSend {v : Nat} (s : State) :
    timeAndQueue (msixSend v s) = timeAndQueue s := (msixSend_book _ _).timeAndQueue

@[simp] theorem timeAndQueue_logRaise {n cause detail sev : Nat} (s : State) :
    timeAndQueue (logRaise n cause detail sev s) = timeAndQueue s := (logRaise_book _ _ _ _ _).timeAndQueue

@[simp] theorem timeAndQueue_raiseMet {met : Bool} {n cause detail : Nat} (s : State) :
    timeAndQueue (raiseMet met n cause detail s) = timeAndQueue s := (raiseMet_book _ _ _ _ _).timeAndQueue

@[simp] theorem timeAndQueue_raise {n cause detail : Nat} (s : State) :
    timeAndQueue (raise n cause detail s) = timeAndQueue s := (raise_book _ _ _ _).timeAndQueue

@[simp] theorem timeAndQueue_grpEval {g : Nat} (s : State) :
    timeAndQueue (grpEval g s) = timeAndQueue s := (grpEval_book _ _).timeAndQueue

@[simp] theorem timeAndQueue_grpAdd {g : Option Nat} {n : Nat} (s : State) :
    timeAndQueue (grpAdd g n s) = timeAndQueue s := (grpAdd_book _ _ _).timeAndQueue

@[simp] theorem timeAndQueue_grpSettle {g : Option Nat} (s : State) :
    timeAndQueue (grpSettle g s) = timeAndQueue s := (grpSettle_book _ _).timeAndQueue

/-! ### Encoders -/

@[simp] theorem timeAndQueue_setEnc {e : Nat} {x : Enc} (s : State) : timeAndQueue (setEnc e x s) = timeAndQueue s := by rfl

@[simp] theorem timeAndQueue_encMoved {e : Nat} {oldE newE : Int} (s : State) :
    timeAndQueue (encMoved e oldE newE s) = timeAndQueue s := by simp [encMoved]

@[simp] theorem timeAndQueue_encRestart {e : Nat} (s : State) :
    timeAndQueue (encRestart e s) = timeAndQueue s := by simp [encRestart]

@[simp] theorem timeAndQueue_couchFresh {e : Nat} (s : State) :
    timeAndQueue (couchFresh e s) = timeAndQueue s := by simp [couchFresh]

@[simp] theorem timeAndQueue_encPreset {e : Nat} (s : State) :
    timeAndQueue (encPreset e s) = timeAndQueue s := by simp [encPreset]

@[simp] theorem timeAndQueue_encEdgeBody {e : Nat} {a b : Bool} (s : State) :
    timeAndQueue (encEdgeBody e a b s) = timeAndQueue s := by simp [encEdgeBody]

@[simp] theorem timeAndQueue_encZBody {e : Nat} (s : State) : timeAndQueue (encZBody e s) = timeAndQueue s := by
  simp only [encZBody]
  repeat' split
  all_goals simp

@[simp] theorem timeAndQueue_encSampleBody {e : Nat} (s : State) :
    timeAndQueue (encSampleBody e s) = timeAndQueue s := by simp [encSampleBody]

/-! ### The AFE die -/

@[simp] theorem timeAndQueue_updChan {n : Nat} {f : Chan → Chan} (s : State) :
    timeAndQueue (updChan n f s) = timeAndQueue s := by rfl

@[simp] theorem timeAndQueue_updDry {p : Nat} {f : Dry → Dry} (s : State) :
    timeAndQueue (updDry p f s) = timeAndQueue s := by rfl

@[simp] theorem timeAndQueue_updHk {u : Nat} {f : Hk → Hk} (s : State) : timeAndQueue (updHk u f s) = timeAndQueue s := by rfl

@[simp] theorem timeAndQueue_updSp {n : Nat} {f : Sp → Sp} (s : State) : timeAndQueue (updSp n f s) = timeAndQueue s := by rfl

@[simp] theorem timeAndQueue_spStart {n : Nat} {f : SpFrame} (s : State) :
    timeAndQueue (spStart n f s) = timeAndQueue s := by rfl

@[simp] theorem timeAndQueue_spNext {n : Nat} {fs : List SpFrame} (s : State) :
    timeAndQueue (spNext n fs s) = timeAndQueue s := by
  induction fs generalizing s with
  | nil => rfl
  | cons f fs ih => simp [spNext, ih]

@[simp] theorem timeAndQueue_spPump {n : Nat} (s : State) : timeAndQueue (spPump n s) = timeAndQueue s := by simp [spPump]

@[simp] theorem timeAndQueue_spQueue {n : Nat} {f : SpFrame} (s : State) :
    timeAndQueue (spQueue n f s) = timeAndQueue s := by simp [spQueue]

@[simp] theorem timeAndQueue_shutFault {p cause : Nat} (s : State) :
    timeAndQueue (shutFault p cause s) = timeAndQueue s := by simp [shutFault]

@[simp] theorem timeAndQueue_shutCut {n : Nat} (s : State) : timeAndQueue (shutCut n s) = timeAndQueue s := by
  refine timeAndQueue_foldl (fun s p => ?_) _ s
  split <;> simp

@[simp] theorem timeAndQueue_hkLose {u k : Nat} (s : State) : timeAndQueue (hkLose u k s) = timeAndQueue s := by simp [hkLose]

@[simp] theorem timeAndQueue_hkTrigger {u k : Nat} (s : State) :
    timeAndQueue (hkTrigger u k s) = timeAndQueue s := by simp [hkTrigger]

@[simp] theorem timeAndQueue_swTrigger {u v : Nat} (s : State) :
    timeAndQueue (swTrigger u v s) = timeAndQueue s := by simp [swTrigger]

@[simp] theorem timeAndQueue_shutTrigger {p : Nat} (s : State) :
    timeAndQueue (shutTrigger p s) = timeAndQueue s := by simp [shutTrigger]

/-! ### Commands in flight -/

@[simp] theorem timeAndQueue_putCmd {c : Cmd} (s : State) : timeAndQueue (putCmd c s) = timeAndQueue s := by rfl

@[simp] theorem timeAndQueue_setSlot {n : Nat} {x : Slot} (s : State) :
    timeAndQueue (setSlot n x s) = timeAndQueue s := by rfl

@[simp] theorem timeAndQueue_beginWork {c : Cmd} {total : Nat} (s : State) :
    timeAndQueue (beginWork c total s).2 = timeAndQueue s := by
  simp only [beginWork]
  repeat' split
  all_goals simp

@[simp] theorem timeAndQueue_progressTo {c : Cmd} {pos : Nat} (s : State) :
    timeAndQueue (progressTo c pos s).2 = timeAndQueue s := by
  simp only [progressTo]
  split <;> simp

@[simp] theorem timeAndQueue_writeCqe {sq : Nat} {tag : W32} {status percent result position : Nat} {interim : Bool}
    (s : State) :
    timeAndQueue (writeCqe sq tag status percent result position interim s) = timeAndQueue s :=
  (writeCqe_book _ _ _ _ _ _ _ _).timeAndQueue

@[simp] theorem timeAndQueue_cplWrite {w : Waiting} (s : State) :
    timeAndQueue (cplWrite w s) = timeAndQueue s := (cplWrite_book _ _).timeAndQueue

@[simp] theorem timeAndQueue_finishOnly {c : Cmd} {status percent result position : Nat} (s : State) :
    timeAndQueue (finishOnly c status percent result position s) = timeAndQueue s :=
  (finishOnly_book _ _ _ _ _ _).timeAndQueue

@[simp] theorem timeAndQueue_settlePairs {n : Nat} (s : State) :
    timeAndQueue (settlePairs n s) = timeAndQueue s := (settlePairs_book _ _).timeAndQueue

@[simp] theorem timeAndQueue_waitingWrite (s : State) :
    timeAndQueue (waitingWrite s) = timeAndQueue s := by simp [waitingWrite]

@[simp] theorem timeAndQueue_finish {c : Cmd} {status percent result position : Nat} (s : State) :
    timeAndQueue (finish c status percent result position s) = timeAndQueue s := (finish_book _ _ _ _ _ _).timeAndQueue

@[simp] theorem timeAndQueue_finishOk {c : Cmd} {result position : Nat} (s : State) :
    timeAndQueue (finishOk c result position s) = timeAndQueue s := by simp [finishOk]

@[simp] theorem timeAndQueue_finishErr {c : Cmd} {status result : Nat} (s : State) :
    timeAndQueue (finishErr c status result s) = timeAndQueue s := by simp [finishErr]

@[simp] theorem timeAndQueue_finishCheck {c : Cmd} {status : Nat} (s : State) :
    timeAndQueue (finishCheck c status s) = timeAndQueue s := by simp [finishCheck]

@[simp] theorem timeAndQueue_finishHostFail {c : Cmd} {position : Nat} (s : State) :
    timeAndQueue (finishHostFail c position s) = timeAndQueue s := by simp [finishHostFail]

@[simp] theorem timeAndQueue_runCmd {sq : Nat} {tag : W32} {op : Nat} {start cont : Cmd → State → State}
    (hstart : ∀ x u, timeAndQueue (start x u) = timeAndQueue u) (hcont : ∀ x u, timeAndQueue (cont x u) = timeAndQueue u)
    (s : State) : timeAndQueue (runCmd sq tag op start cont s) = timeAndQueue s := by
  simp only [runCmd]
  split <;> simp [hstart, hcont]

/-! ### Defect records -/

@[simp] theorem timeAndQueue_knotUpd {f : Knot → Knot} (s : State) : timeAndQueue (knotUpd f s) = timeAndQueue s := by rfl

@[simp] theorem timeAndQueue_couchUpd {f : Couch → Couch} (s : State) : timeAndQueue (couchUpd f s) = timeAndQueue s := by rfl

@[simp] theorem timeAndQueue_histUpd {f : Hist → Hist} (s : State) : timeAndQueue (histUpd f s) = timeAndQueue s := by rfl

@[simp] theorem timeAndQueue_ringDrop {src : Nat} {n : Nat} {r : Ring} {put : Ring → State → State}
    (hput : ∀ x u, timeAndQueue (put x u) = timeAndQueue u) (s : State) :
    timeAndQueue (ringDrop src n r put s) = timeAndQueue s := by simp [ringDrop, hput]

@[simp] theorem timeAndQueue_putDq {n : Nat} {r : Ring} (s : State) : timeAndQueue (putDq n r s) = timeAndQueue s := by rfl

@[simp] theorem timeAndQueue_putSr {n : Nat} {r : Ring} (s : State) : timeAndQueue (putSr n r s) = timeAndQueue s := by rfl

@[simp] theorem timeAndQueue_formRec {r : RecFields} {tile : Option Nat} (s : State) :
    timeAndQueue (formRec r tile s) = timeAndQueue s := by
  simp only [formRec]
  split <;> simp

@[simp] theorem timeAndQueue_blindBands {iv : BlindIv} {start len right : Int} {n : Nat} {left : Int} (s : State) :
    timeAndQueue (blindBands iv start len right n left s) = timeAndQueue s := by
  induction n generalizing left s with
  | zero => rfl
  | succ n ih => simp [blindBands, ih]

@[simp] theorem timeAndQueue_blindPiece {iv : BlindIv} {start stop : Int} (s : State) :
    timeAndQueue (blindPiece iv start stop s) = timeAndQueue s := by
  simp only [blindPiece]
  repeat' split
  all_goals simp

@[simp] theorem timeAndQueue_blindPieces {limit : Int} {n : Nat} {iv : BlindIv} (s : State) :
    timeAndQueue (blindPieces limit n iv s).2 = timeAndQueue s := by
  induction n generalizing iv s with
  | zero => rfl
  | succ n ih => simp [blindPieces, ih]

@[simp] theorem timeAndQueue_blindOpen {kind source cause tag : Nat} {start : Int} (s : State) :
    timeAndQueue (blindOpen kind source cause tag start s) = timeAndQueue s := by rfl

@[simp] theorem timeAndQueue_blindClose {source cause tag : Nat} {stop : Int} (s : State) :
    timeAndQueue (blindClose source cause tag stop s) = timeAndQueue s := by
  simp only [blindClose]
  split <;> simp

@[simp] theorem timeAndQueue_blindWhole {kind source cause : Nat} {start stop : Int} (s : State) :
    timeAndQueue (blindWhole kind source cause start stop s) = timeAndQueue s := by simp [blindWhole]

@[simp] theorem timeAndQueue_blindRow {lo : Int} (s : State) :
    timeAndQueue (blindRow lo s) = timeAndQueue s := by simp [blindRow]

/-! ### Lanes -/

@[simp] theorem timeAndQueue_setLane {n : Nat} {l : Lane} (s : State) :
    timeAndQueue (setLane n l s) = timeAndQueue s := by rfl

@[simp] theorem timeAndQueue_bringUpSeeds {n : Nat} (s : State) : timeAndQueue (bringUpSeeds n s) = timeAndQueue s := by
  simp only [bringUpSeeds]
  split <;> simp

@[simp] theorem timeAndQueue_bringUpResume {n : Nat} (s : State) : timeAndQueue (bringUpResume n s) = timeAndQueue s := by rfl

@[simp] theorem timeAndQueue_freshTimers {n : Nat} (s : State) : timeAndQueue (freshTimers n s) = timeAndQueue s := by rfl

@[simp] theorem timeAndQueue_laneOff {n : Nat} (s : State) : timeAndQueue (laneOff n s) = timeAndQueue s := by rfl

@[simp] theorem timeAndQueue_trainDone {n : Nat} (s : State) :
    timeAndQueue (trainDone n s) = timeAndQueue s := by simp [trainDone]

@[simp] theorem timeAndQueue_prbsHold {old : State} {n : Nat} (s : State) :
    timeAndQueue (prbsHold old n s) = timeAndQueue s := by rfl

/-! ### Routes of the chain -/

@[simp] theorem timeAndQueue_updMap {d : Nat} {f : MapEntry → MapEntry} (s : State) :
    timeAndQueue (updMap d f s) = timeAndQueue s := by rfl

@[simp] theorem timeAndQueue_feltGather (s : State) : timeAndQueue (feltGather s) = timeAndQueue s := by simp [feltGather]

@[simp] theorem timeAndQueue_holdFlush (s : State) : timeAndQueue (holdFlush s) = timeAndQueue s := by simp [holdFlush]

@[simp] theorem timeAndQueue_notifyAll {payload : List Byte} (s : State) :
    timeAndQueue (notifyAll payload s) = timeAndQueue s := by simp [notifyAll]

@[simp] theorem timeAndQueue_linkNoted {d port nb nbPort : Nat} (s : State) :
    timeAndQueue (linkNoted d port nb nbPort s) = timeAndQueue s := by simp [linkNoted]

@[simp] theorem timeAndQueue_linkNotice {k : Nat} {up : Bool} (s : State) :
    timeAndQueue (linkNotice k up s) = timeAndQueue s := by simp [linkNotice]

@[simp] theorem timeAndQueue_packetLost {p : FeltPacket} (s : State) :
    timeAndQueue (packetLost p s) = timeAndQueue s := by simp [packetLost]

@[simp] theorem timeAndQueue_deviceLost {d : Nat} (s : State) :
    timeAndQueue (deviceLost d s) = timeAndQueue s := by simp [deviceLost]

@[simp] theorem timeAndQueue_reparent {dist : Tbl Nat} (s : State) :
    timeAndQueue (reparent dist s) = timeAndQueue s := by simp [reparent]

@[simp] theorem timeAndQueue_recompute (s : State) : timeAndQueue (recompute s) = timeAndQueue s := by simp [recompute]

/-! ### Reels -/

@[simp] theorem timeAndQueue_updReel {r : Nat} {f : Reel → Reel} (s : State) :
    timeAndQueue (updReel r f s) = timeAndQueue s := by rfl

@[simp] theorem timeAndQueue_unitDeliver {r : Nat} {bytes : List Byte} (s : State) :
    timeAndQueue (unitDeliver r bytes s) = timeAndQueue s := by
  simp only [unitDeliver]
  split <;> simp

@[simp] theorem timeAndQueue_unitClose {r : Nat} (s : State) : timeAndQueue (unitClose r s) = timeAndQueue s := by
  simp only [unitClose]
  split <;> simp

@[simp] theorem timeAndQueue_unitAdd {r : Nat} {o : OutRow} (s : State) :
    timeAndQueue (unitAdd r o s) = timeAndQueue s := by simp [unitAdd]

@[simp] theorem timeAndQueue_upStage {r : Nat} {d : DownRow} (s : State) :
    timeAndQueue (upStage r d s) = timeAndQueue s := by simp [upStage]

@[simp] theorem timeAndQueue_groupClose {r : Nat} (s : State) : timeAndQueue (groupClose r s) = timeAndQueue s := by
  simp only [groupClose]
  split <;> simp

@[simp] theorem timeAndQueue_reelTake {r : Nat} (s : State) : timeAndQueue (reelTake r s) = timeAndQueue s := by
  simp only [reelTake]
  split <;> simp

@[simp] theorem timeAndQueue_reelDrain {r : Nat} {n : Nat} (s : State) : timeAndQueue (reelDrain r n s) = timeAndQueue s := by
  induction n generalizing s with
  | zero => rfl
  | succ n ih => simp [reelDrain, ih]

@[simp] theorem timeAndQueue_upFlush {r : Nat} (s : State) : timeAndQueue (upFlush r s) = timeAndQueue s := by
  simp only [upFlush]
  split <;> simp

@[simp] theorem timeAndQueue_unitCut {r : Nat} (s : State) : timeAndQueue (unitCut r s) = timeAndQueue s := by simp [unitCut]

@[simp] theorem timeAndQueue_reelFlush {r : Nat} (s : State) :
    timeAndQueue (reelFlush r s) = timeAndQueue s := by simp [reelFlush]

@[simp] theorem timeAndQueue_reelBoundary {r : Nat} {lim : Option Nat} (s : State) :
    timeAndQueue (reelBoundary r lim s) = timeAndQueue s := by simp [reelBoundary]

@[simp] theorem timeAndQueue_reelPush {r : Nat} {q : ReelIn} (s : State) :
    timeAndQueue (reelPush r q s) = timeAndQueue s := by rfl

@[simp] theorem timeAndQueue_reelRaw {p : Nat} {num : Nat} {md : Int} {flags spp stripeTb : Nat} {samples : List Nat}
    (s : State) : timeAndQueue (reelRaw p num md flags spp stripeTb samples s) = timeAndQueue s := by simp [reelRaw]

@[simp] theorem timeAndQueue_rawStops {p : Nat} (s : State) :
    timeAndQueue (rawStops p s) = timeAndQueue s := by simp [rawStops]

/-! ### Boundaries of couch, knotter and reels -/

@[simp] theorem timeAndQueue_couchLaid {lim : Option Nat} (s : State) :
    timeAndQueue (couchLaid lim s) = timeAndQueue s := by rfl

@[simp] theorem timeAndQueue_srcFresh {old : State} (s : State) :
    timeAndQueue (srcFresh old s) = timeAndQueue s := by simp [srcFresh]

@[simp] theorem timeAndQueue_couchTake {lim : Option Nat} (s : State) :
    timeAndQueue (couchTake lim s) = timeAndQueue s := by simp [couchTake]

@[simp] theorem timeAndQueue_couchDryerTake {p : Nat} {ok : Accepted → Bool} (s : State) :
    timeAndQueue (couchDryerTake p ok s) = timeAndQueue s := by rfl

@[simp] theorem timeAndQueue_couchDryerReach {p : Nat} (s : State) : timeAndQueue (couchDryerReach p s) = timeAndQueue s := by
  simp only [couchDryerReach]
  split <;> simp

@[simp] theorem timeAndQueue_thermSeen {p tb : Nat} (s : State) :
    timeAndQueue (thermSeen p tb s) = timeAndQueue s := by simp [thermSeen]

@[simp] theorem timeAndQueue_thermMove {k : Nat} (s : State) :
    timeAndQueue (thermMove k s) = timeAndQueue s := by simp [thermMove]

@[simp] theorem timeAndQueue_sliceTake {k : Nat} {lim : Option Nat} (s : State) :
    timeAndQueue (sliceTake k lim s) = timeAndQueue s := by simp [sliceTake]

@[simp] theorem timeAndQueue_mergerLay {ok : Accepted → Bool} (s : State) :
    timeAndQueue (mergerLay ok s) = timeAndQueue s := by simp [mergerLay]

@[simp] theorem timeAndQueue_mergerTake {lim : Option Nat} (s : State) :
    timeAndQueue (mergerTake lim s) = timeAndQueue s := by simp [mergerTake]

@[simp] theorem timeAndQueue_slicesIdle (s : State) : timeAndQueue (slicesIdle s) = timeAndQueue s := by simp [slicesIdle]

@[simp] theorem timeAndQueue_webTested (s : State) : timeAndQueue (webTested s) = timeAndQueue s := by simp [webTested]

@[simp] theorem timeAndQueue_webStopped (s : State) : timeAndQueue (webStopped s) = timeAndQueue s := by simp [webStopped]

@[simp] theorem timeAndQueue_couchDryerIdle (s : State) :
    timeAndQueue (couchDryerIdle s) = timeAndQueue s := by simp [couchDryerIdle]

/-! ### Headboxes -/

@[simp] theorem timeAndQueue_setPort {p : Nat} {x : Port} (s : State) :
    timeAndQueue (setPort p x s) = timeAndQueue s := by rfl

@[simp] theorem timeAndQueue_updPort {p : Nat} {f : Port → Port} (s : State) :
    timeAndQueue (updPort p f s) = timeAndQueue s := by rfl

@[simp] theorem timeAndQueue_setLink {r : Nat} {l : Link} (s : State) :
    timeAndQueue (setLink r l s) = timeAndQueue s := by simp [setLink]

@[simp] theorem timeAndQueue_sendBlocks {r off : Nat} {follow : Bool} {lanes : List (List Block)} (s : State) :
    timeAndQueue (sendBlocks r off follow lanes s) = timeAndQueue s := by simp [sendBlocks]

@[simp] theorem timeAndQueue_linkBlocks {r off w : Nat} {bs : List Block} (s : State) :
    timeAndQueue (linkBlocks r off w bs s) = timeAndQueue s := by simp [linkBlocks]

@[simp] theorem timeAndQueue_linkPacketOn {r off w ptype : Nat} {payload : List Byte} (s : State) :
    timeAndQueue (linkPacketOn r off w ptype payload s) = timeAndQueue s := by simp [linkPacketOn]

@[simp] theorem timeAndQueue_linkPacket {r ptype : Nat} {payload : List Byte} (s : State) :
    timeAndQueue (linkPacket r ptype payload s) = timeAndQueue s := by simp [linkPacket]

@[simp] theorem timeAndQueue_truncate {p sid : Nat} (s : State) : timeAndQueue (truncate p sid s) = timeAndQueue s := by
  simp only [truncate]
  split <;> simp

@[simp] theorem timeAndQueue_pipeLeave {p : Nat} {it : Item} (s : State) :
    timeAndQueue (pipeLeave p it s) = timeAndQueue s := by simp [pipeLeave]

@[simp] theorem timeAndQueue_stripeSweep {p : Nat} (s : State) : timeAndQueue (stripeSweep p s) = timeAndQueue s := by rfl

@[simp] theorem timeAndQueue_pipePump {p : Nat} {n : Nat} (s : State) : timeAndQueue (pipePump p n s) = timeAndQueue s := by
  induction n generalizing s with
  | zero => rfl
  | succ n ih => 
    simp only [pipePump]
    split
    · rfl
    · split <;> simp [ih]

@[simp] theorem timeAndQueue_rawWrite {block off : Nat} {bs : List Byte} (s : State) :
    timeAndQueue (rawWrite block off bs s) = timeAndQueue s := by simp [rawWrite]

@[simp] theorem timeAndQueue_rawBegin {p sid : Nat} (s : State) :
    timeAndQueue (rawBegin p sid s) = timeAndQueue s := by simp [rawBegin]

@[simp] theorem timeAndQueue_rawLine {block num : Nat} {md : Int} {tb flags : Nat} {samples : List Nat} (s : State) :
    timeAndQueue (rawLine block num md tb flags samples s) = timeAndQueue s := by
  simp only [rawLine]
  split <;> simp

@[simp] theorem timeAndQueue_rawClose {block : Nat} (s : State) : timeAndQueue (rawClose block s) = timeAndQueue s := by
  simp only [rawClose]
  split <;> simp

@[simp] theorem timeAndQueue_setTab {p bank i : Nat} {x : TabItem} (s : State) :
    timeAndQueue (setTab p bank i x s) = timeAndQueue s := by rfl

@[simp] theorem timeAndQueue_releaseBank {p bank : Nat} (s : State) :
    timeAndQueue (releaseBank p bank s) = timeAndQueue s := by rfl

@[simp] theorem timeAndQueue_layTables {p : Nat} {vals : Tbl Nat} (s : State) :
    timeAndQueue (layTables p vals s) = timeAndQueue s := by
  simp only [layTables]
  repeat' split
  all_goals simp

@[simp] theorem timeAndQueue_layAll {vals : Tbl Nat} (s : State) : timeAndQueue (layAll vals s) = timeAndQueue s := by rfl

@[simp] theorem timeAndQueue_dropParts {seq : W32} {gone : List (Nat × Nat)} {add : List (Nat × Nat)} (s : State) :
    timeAndQueue (dropParts seq gone add s) = timeAndQueue s := by rfl

@[simp] theorem timeAndQueue_supersede {part : Nat × Nat} {vals : Tbl Nat} (s : State) :
    timeAndQueue (supersede part vals s) = timeAndQueue s := by rfl

@[simp] theorem timeAndQueue_sendSetting {p seq : Nat} (s : State) :
    timeAndQueue (sendSetting p seq s) = timeAndQueue s := by simp [sendSetting]

@[simp] theorem timeAndQueue_forgetPositions {old : State} {p : Nat} (s : State) :
    timeAndQueue (forgetPositions old p s) = timeAndQueue s := by simp [forgetPositions]

@[simp] theorem timeAndQueue_bindFaults {p : Nat} (s : State) :
    timeAndQueue (bindFaults p s) = timeAndQueue s := by simp [bindFaults]

@[simp] theorem timeAndQueue_unbind {old : State} {p : Nat} (s : State) :
    timeAndQueue (unbind old p s) = timeAndQueue s := by simp [unbind]

@[simp] theorem timeAndQueue_portGroup {p : Nat} {g : Accepted} (s : State) :
    timeAndQueue (portGroup p g s) = timeAndQueue s := by
  simp only [portGroup]
  repeat' split
  all_goals simp

@[simp] theorem timeAndQueue_portBoundary {p : Nat} (s : State) :
    timeAndQueue (portBoundary p s) = timeAndQueue s := by simp [portBoundary]

@[simp] theorem timeAndQueue_settingsAt {p num : Nat} (s : State) :
    timeAndQueue (settingsAt p num s).2 = timeAndQueue s := by simp [settingsAt]

@[simp] theorem timeAndQueue_writesSweep {p : Nat} (s : State) : timeAndQueue (writesSweep p s) = timeAndQueue s := by rfl

@[simp] theorem timeAndQueue_settingFails {p : Nat} {w : SetWrite} {cause : Nat} (s : State) :
    timeAndQueue (settingFails p w cause s) = timeAndQueue s := by simp [settingFails]

@[simp] theorem timeAndQueue_plansTake (s : State) : timeAndQueue (plansTake s) = timeAndQueue s := by simp [plansTake]

@[simp] theorem timeAndQueue_wireUntied {w : Nat} (s : State) : timeAndQueue (wireUntied w s) = timeAndQueue s := by rfl

@[simp] theorem timeAndQueue_wiresTake (s : State) : timeAndQueue (wiresTake s) = timeAndQueue s := by simp [wiresTake]

@[simp] theorem timeAndQueue_beginStripe {p : Nat} (s : State) :
    timeAndQueue (beginStripe p s) = timeAndQueue s := by simp [beginStripe]

@[simp] theorem timeAndQueue_finishStops {blk p n : Nat} (s : State) :
    timeAndQueue (finishStops blk p n s) = timeAndQueue s := by simp [finishStops]

@[simp] theorem timeAndQueue_landWrites {p : Nat} (s : State) :
    timeAndQueue (landWrites p s) = timeAndQueue s := by simp [landWrites]

@[simp] theorem timeAndQueue_portHalt {p : Nat} (s : State) :
    timeAndQueue (portHalt p s) = timeAndQueue s := by simp [portHalt]

@[simp] theorem timeAndQueue_rawSettle {p sid : Nat} (s : State) : timeAndQueue (rawSettle p sid s) = timeAndQueue s := by
  simp only [rawSettle]
  repeat' split
  all_goals simp

@[simp] theorem timeAndQueue_closeStripe {p : Nat} {force : Bool} (s0 : State) :
    timeAndQueue (closeStripe p force s0) = timeAndQueue s0 := by
  simp only [closeStripe]
  split <;> simp

@[simp] theorem timeAndQueue_countLine {p : Nat} {tb : Nat} {latch : Bool} {md : Int} {flags0 : Nat} {expected : Bool}
    {samples : Option (List Nat)} (s : State) :
    timeAndQueue (countLine p tb latch md flags0 expected samples s) = timeAndQueue s := by
  simp only [countLine]
  repeat' split
  all_goals simp

@[simp] theorem timeAndQueue_lateStamp {x : LateStamp} (s : State) :
    timeAndQueue (lateStamp x s) = timeAndQueue s := by simp [lateStamp]

@[simp] theorem timeAndQueue_lateStampsDue (s : State) :
    timeAndQueue (lateStampsDue s) = timeAndQueue s := by simp [lateStampsDue]

@[simp] theorem timeAndQueue_countKinds {p : Nat} {bad short long_ : Bool} (s : State) :
    timeAndQueue (countKinds p bad short long_ s) = timeAndQueue s := by rfl

@[simp] theorem timeAndQueue_countDue {p : Nat} {l : LineDue} (s : State) :
    timeAndQueue (countDue p l s) = timeAndQueue s := by
  simp only [countDue]
  split <;> simp

@[simp] theorem timeAndQueue_lineCount {p : Nat} {l : LineDue} (s : State) :
    timeAndQueue (lineCount p l s) = timeAndQueue s := by simp [lineCount]

@[simp] theorem timeAndQueue_linesDue (s : State) : timeAndQueue (linesDue s) = timeAndQueue s := by simp [linesDue]

@[simp] theorem timeAndQueue_dropPartial {p : Nat} (s : State) : timeAndQueue (dropPartial p s) = timeAndQueue s := by
  simp only [dropPartial]
  split <;> simp

@[simp] theorem timeAndQueue_endLine {p : Nat} (s : State) : timeAndQueue (endLine p s) = timeAndQueue s := by
  simp only [endLine]
  split <;> simp

@[simp] theorem timeAndQueue_openLine {p : Nat} {seq : Option Nat} (s : State) :
    timeAndQueue (openLine p seq s) = timeAndQueue s := by rfl

@[simp] theorem timeAndQueue_spoilLine {p : Nat} (s : State) : timeAndQueue (spoilLine p s) = timeAndQueue s := by rfl

@[simp] theorem timeAndQueue_issueTrigger {p : Nat} (s : State) :
    timeAndQueue (issueTrigger p s) = timeAndQueue s := by simp [issueTrigger]

@[simp] theorem timeAndQueue_portTryStart {p : Nat} (s : State) :
    timeAndQueue (portTryStart p s) = timeAndQueue s := by simp [portTryStart]

/-! ### The couch -/

@[simp] theorem timeAndQueue_updContrib {c : Nat} {f : Contrib → Contrib} (s : State) :
    timeAndQueue (updContrib c f s) = timeAndQueue s := by rfl

@[simp] theorem timeAndQueue_closeUpTo {c : Nat} {k : Int} (s : State) :
    timeAndQueue (closeUpTo c k s) = timeAndQueue s := by simp [closeUpTo]

@[simp] theorem timeAndQueue_srcCopy {r : GridRow} (s : State) :
    timeAndQueue (srcCopy r s) = timeAndQueue s := by simp [srcCopy]

@[simp] theorem timeAndQueue_srcCopyTherm {k : Int} {cells : List (Nat × Nat)} (s : State) :
    timeAndQueue (srcCopyTherm k cells s) = timeAndQueue s := by simp [srcCopyTherm]

@[simp] theorem timeAndQueue_viewStep (s : State) : timeAndQueue (viewStep s) = timeAndQueue s := by
  simp only [viewStep]
  repeat' split
  all_goals simp

@[simp] theorem timeAndQueue_viewClose (s : State) : timeAndQueue (viewClose s) = timeAndQueue s := by
  simp only [viewClose]
  split <;> simp

@[simp] theorem timeAndQueue_viewAdd {r : GridRow} (s : State) :
    timeAndQueue (viewAdd r s) = timeAndQueue s := by simp [viewAdd]

@[simp] theorem timeAndQueue_gapStep {k : Int} {cells : List (Option (List Nat))} {src : Nat} {data any : Bool} (s : State) :
    timeAndQueue (gapStep k cells src data any s) = timeAndQueue s := by
  simp only [gapStep]
  repeat' split
  all_goals simp

@[simp] theorem timeAndQueue_thermFlag {k : Int} {absent : Bool} (s : State) :
    timeAndQueue (thermFlag k absent s) = timeAndQueue s := by simp [thermFlag]

@[simp] theorem timeAndQueue_seamForced {k : Int} {d : Nat} (s : State) :
    timeAndQueue (seamForced k d s) = timeAndQueue s := by simp [seamForced]

@[simp] theorem timeAndQueue_forcedEvents {k : Int} {why : EmitWhy} (s : State) :
    timeAndQueue (forcedEvents k why s) = timeAndQueue s := by
  simp only [forcedEvents]
  split <;> simp

@[simp] theorem timeAndQueue_reelsGrid {row : GridRow} (s : State) :
    timeAndQueue (reelsGrid row s) = timeAndQueue s := by simp [reelsGrid]

@[simp] theorem timeAndQueue_emitRow {k : Int} {why : EmitWhy} (s : State) :
    timeAndQueue (emitRow k why s) = timeAndQueue s := by simp [emitRow]

@[simp] theorem timeAndQueue_rowBoundary {k : Int} (s : State) :
    timeAndQueue (rowBoundary k s) = timeAndQueue s := by simp [rowBoundary]

@[simp] theorem timeAndQueue_rowBoundaryOpen {k : Int} (s : State) :
    timeAndQueue (rowBoundaryOpen k s) = timeAndQueue s := by simp [rowBoundaryOpen]

@[simp] theorem timeAndQueue_makeRoom {p bytes : Nat} {n : Nat} (s : State) :
    timeAndQueue (makeRoom p bytes n s) = timeAndQueue s := by
  induction n generalizing s with
  | zero => rfl
  | succ n ih => 
    simp only [makeRoom]
    split
    · rfl
    · split <;> simp [ih]

@[simp] theorem timeAndQueue_feltNeighbour {k ptype : Nat} {payload : List Byte} (s : State) :
    timeAndQueue (feltNeighbour k ptype payload s) = timeAndQueue s := by simp [feltNeighbour]

@[simp] theorem timeAndQueue_edgeSend {p d : Nat} {row : Int} (s : State) :
    timeAndQueue (edgeSend p d row s) = timeAndQueue s := by simp [edgeSend]

@[simp] theorem timeAndQueue_portCloses {p : Nat} {k : Int} (s : State) :
    timeAndQueue (portCloses p k s) = timeAndQueue s := by
  simp only [portCloses]
  split <;> simp

@[simp] theorem timeAndQueue_thermAdd {row : Int} {col v flags tb : Nat} (s : State) :
    timeAndQueue (thermAdd row col v flags tb s) = timeAndQueue s := by rfl

@[simp] theorem timeAndQueue_thermOutside (s : State) : timeAndQueue (thermOutside s) = timeAndQueue s := by rfl

@[simp] theorem timeAndQueue_thermPut {g row : Int} {v flags tb : Nat} (s : State) :
    timeAndQueue (thermPut g row v flags tb s) = timeAndQueue s := by simp [thermPut]

@[simp] theorem timeAndQueue_thermPixel {views : List DryView} {p x y v : Nat} {md : Int} {flags tb : Nat} (s : State) :
    timeAndQueue (thermPixel views p x y v md flags tb s) = timeAndQueue s := by
  simp only [thermPixel]
  split <;> simp

@[simp] theorem timeAndQueue_thermClose {p : Nat} {k : Int} (s : State) :
    timeAndQueue (thermClose p k s) = timeAndQueue s := by rfl

@[simp] theorem timeAndQueue_emitTherm {k : Int} (s : State) :
    timeAndQueue (emitTherm k s) = timeAndQueue s := by simp [emitTherm]

/-! ### Brynlink links -/

@[simp] theorem timeAndQueue_sendTrain {r : Nat} (s : State) :
    timeAndQueue (sendTrain r s) = timeAndQueue s := by simp [sendTrain]

@[simp] theorem timeAndQueue_linkOut {r : Nat} (s : State) : timeAndQueue (linkOut r s) = timeAndQueue s := by simp [linkOut]

@[simp] theorem timeAndQueue_linkRaise {r : Nat} (s : State) :
    timeAndQueue (linkRaise r s) = timeAndQueue s := by simp [linkRaise]

@[simp] theorem timeAndQueue_linkTo {r st : Nat} (s : State) :
    timeAndQueue (linkTo r st s) = timeAndQueue s := by simp [linkTo]

@[simp] theorem timeAndQueue_linkPoll {r : Nat} (s : State) : timeAndQueue (linkPoll r s) = timeAndQueue s := by
  simp only [linkPoll]
  repeat' split
  all_goals simp

@[simp] theorem timeAndQueue_linkActive {r : Nat} (s : State) :
    timeAndQueue (linkActive r s) = timeAndQueue s := by simp [linkActive]

@[simp] theorem timeAndQueue_linkRequest {r w off : Nat} (s : State) :
    timeAndQueue (linkRequest r w off s) = timeAndQueue s := by simp [linkRequest]

@[simp] theorem timeAndQueue_linkFault {r : Nat} {unlock : Bool} (s : State) :
    timeAndQueue (linkFault r unlock s) = timeAndQueue s := by
  simp only [linkFault]
  repeat' split
  all_goals simp

@[simp] theorem timeAndQueue_linkLaneLost {r n pos : Nat} (s : State) :
    timeAndQueue (linkLaneLost r n pos s) = timeAndQueue s := by simp [linkLaneLost]

@[simp] theorem timeAndQueue_linkTrain {r : Nat} {bs : List (List Byte)} (s : State) :
    timeAndQueue (linkTrain r bs s) = timeAndQueue s := by simp [linkTrain]

@[simp] theorem timeAndQueue_linkAm {r : Nat} {bs : List (List Byte)} {skew : Nat} (s : State) :
    timeAndQueue (linkAm r bs skew s) = timeAndQueue s := by
  simp only [linkAm]
  repeat' split
  all_goals simp

@[simp] theorem timeAndQueue_linkAmSend {r : Nat} (s : State) :
    timeAndQueue (linkAmSend r s) = timeAndQueue s := by simp [linkAmSend]

@[simp] theorem timeAndQueue_linkWidthAck {r w mask : Nat} (s : State) :
    timeAndQueue (linkWidthAck r w mask s) = timeAndQueue s := by simp [linkWidthAck]

@[simp] theorem timeAndQueue_linkTimeout {r : Nat} (s : State) :
    timeAndQueue (linkTimeout r s) = timeAndQueue s := by simp [linkTimeout]

@[simp] theorem timeAndQueue_linkRecovered {r : Nat} (s : State) :
    timeAndQueue (linkRecovered r s) = timeAndQueue s := by simp [linkRecovered]

@[simp] theorem timeAndQueue_linkFullWidth {r : Nat} (s : State) :
    timeAndQueue (linkFullWidth r s) = timeAndQueue s := by simp [linkFullWidth]

@[simp] theorem timeAndQueue_linkWidthReq {r w mask : Nat} (s : State) :
    timeAndQueue (linkWidthReq r w mask s) = timeAndQueue s := by
  simp only [linkWidthReq]
  split <;> simp

@[simp] theorem timeAndQueue_linkCredit {r : Nat} (s : State) :
    timeAndQueue (linkCredit r s) = timeAndQueue s := by simp [linkCredit]

@[simp] theorem timeAndQueue_linkFree {r len : Nat} (s : State) :
    timeAndQueue (linkFree r len s) = timeAndQueue s := by simp [linkFree]

@[simp] theorem timeAndQueue_fromNb {k len : Nat} {act : State → State} (hact : ∀ u, timeAndQueue (act u) = timeAndQueue u)
    (s : State) : timeAndQueue (fromNb k len act s) = timeAndQueue s := by simp [fromNb, hact]

@[simp] theorem timeAndQueue_fromUsable {k len : Nat} {act : State → State}
    (hact : ∀ u, timeAndQueue (act u) = timeAndQueue u) (s : State) :
    timeAndQueue (fromUsable k len act s) = timeAndQueue s := by simp [fromUsable, hact]

@[simp] theorem timeAndQueue_feltCommit {old : State} {k : Nat} (s : State) :
    timeAndQueue (feltCommit old k s) = timeAndQueue s := by simp [feltCommit]

/-! ### Rows of the couch -/

@[simp] theorem timeAndQueue_popPipe {p : Nat} {it : Item} (s : State) :
    timeAndQueue (popPipe p it s) = timeAndQueue s := by simp [popPipe]

@[simp] theorem timeAndQueue_holdLine {p : Nat} {it : Item} {row : Int} {data : Bool} {addr len : Nat} (s : State) :
    timeAndQueue (holdLine p it row data addr len s) = timeAndQueue s := by simp [holdLine]

@[simp] theorem timeAndQueue_lateLine {p : Nat} {it : Item} {row : Int} (s : State) :
    timeAndQueue (lateLine p it row s) = timeAndQueue s := by simp [lateLine]

@[simp] theorem timeAndQueue_takeLine {p : Nat} {it : Item} {row : Int} (s : State) :
    timeAndQueue (takeLine p it row s) = timeAndQueue s := by
  simp only [takeLine]
  repeat' split
  all_goals simp

@[simp] theorem timeAndQueue_couchLineBody {p : Nat} (s : State) : timeAndQueue (couchLineBody p s) = timeAndQueue s := by
  simp only [couchLineBody]
  split <;> simp

@[simp] theorem timeAndQueue_rowEmitBody (s : State) : timeAndQueue (rowEmitBody s) = timeAndQueue s := by
  simp only [rowEmitBody]
  split <;> simp

@[simp] theorem timeAndQueue_rowTimeoutBody (s : State) : timeAndQueue (rowTimeoutBody s) = timeAndQueue s := by
  simp only [rowTimeoutBody]
  repeat' split
  all_goals simp

@[simp] theorem timeAndQueue_seamDrop (s : State) : timeAndQueue (seamDrop s) = timeAndQueue s := by rfl

@[simp] theorem timeAndQueue_seamTake {d : Nat} {row : Int} {cols : List (Nat × List Nat × Nat)} (s : State) :
    timeAndQueue (seamTake d row cols s) = timeAndQueue s := by simp [seamTake]

@[simp] theorem timeAndQueue_seamMismatch {d : Nat} (s : State) :
    timeAndQueue (seamMismatch d s) = timeAndQueue s := by simp [seamMismatch]

@[simp] theorem timeAndQueue_edgeBody {k : Nat} {row : Int} {desc : Nat} {cols : List (Nat × List Nat × Nat)} (s : State) :
    timeAndQueue (edgeBody k row desc cols s) = timeAndQueue s := by
  simp only [edgeBody]
  split <;> simp

/-! ### Lanes that lose lock -/

@[simp] theorem timeAndQueue_laneLost {n pos : Nat} (s : State) : timeAndQueue (laneLost n pos s) = timeAndQueue s := by
  simp only [laneLost]
  repeat' split
  all_goals simp

@[simp] theorem timeAndQueue_leaveLocked {n reason : Nat} (s : State) :
    timeAndQueue (leaveLocked n reason s) = timeAndQueue s := by simp [leaveLocked]

@[simp] theorem timeAndQueue_laneCommit {old : State} {n : Nat} (s : State) :
    timeAndQueue (laneCommit old n s) = timeAndQueue s := by simp [laneCommit]

@[simp] theorem timeAndQueue_laneLocks {n : Nat} {inv : Bool} {id : Nat} (s : State) :
    timeAndQueue (laneLocks n inv id s) = timeAndQueue s := by
  simp only [laneLocks]
  split <;> simp

/-! ### Rows of the lanes -/

@[simp] theorem timeAndQueue_laneReceives {n : Nat} {bad : List Bool} (s : State) :
    timeAndQueue (laneReceives n bad s) = timeAndQueue s := by rfl

@[simp] theorem timeAndQueue_laneTrainStart {c : Cmd} (s : State) :
    timeAndQueue (laneTrainStart c s) = timeAndQueue s := by simp [laneTrainStart]

@[simp] theorem timeAndQueue_genStart {n pat : Nat} (s : State) : timeAndQueue (genStart n pat s) = timeAndQueue s := by rfl

@[simp] theorem timeAndQueue_inject {n k : Nat} (s : State) : timeAndQueue (inject n k s) = timeAndQueue s := by rfl

@[simp] theorem timeAndQueue_testOn {n pat : Nat} {gen chk : Bool} (s : State) :
    timeAndQueue (testOn n pat gen chk s) = timeAndQueue s := by simp [testOn]

@[simp] theorem timeAndQueue_laneTestStart {c : Cmd} (s : State) : timeAndQueue (laneTestStart c s) = timeAndQueue s := by
  simp only [laneTestStart]
  repeat' split
  all_goals simp

/-! ### The watermark drive -/

@[simp] theorem timeAndQueue_skipJob {n : Nat} {cause : Nat} {late : Int} {j : MJob} (s : State) :
    timeAndQueue (skipJob n cause late j s) = timeAndQueue s := by
  simp only [skipJob]
  split <;> simp

@[simp] theorem timeAndQueue_fireJob {n : Nat} {late : Bool} {j : MJob} (s : State) :
    timeAndQueue (fireJob n late j s) = timeAndQueue s := by
  simp only [fireJob]
  split <;> simp

@[simp] theorem timeAndQueue_dropJob {j : MJob} (s : State) : timeAndQueue (dropJob j s) = timeAndQueue s := by
  simp only [dropJob]
  split <;> simp

@[simp] theorem timeAndQueue_endDrive {n : Nat} (s : State) :
    timeAndQueue (endDrive n s) = timeAndQueue s := by simp [endDrive]

@[simp] theorem timeAndQueue_killDrive {n : Nat} (s : State) :
    timeAndQueue (killDrive n s) = timeAndQueue s := by simp [killDrive]

@[simp] theorem timeAndQueue_startDrive {n : Nat} {w : MWait} (s : State) :
    timeAndQueue (startDrive n w s) = timeAndQueue s := by simp [startDrive]

@[simp] theorem timeAndQueue_shedLate {n : Nat} {t : Nat} {w : MWait} (s : State) :
    timeAndQueue (shedLate n t w s).2 = timeAndQueue s := by simp [shedLate]

@[simp] theorem timeAndQueue_requestStart {n : Nat} {w : MWait} (s : State) :
    timeAndQueue (requestStart n w s) = timeAndQueue s := by
  simp only [requestStart]
  split <;> simp

@[simp] theorem timeAndQueue_serveSteps {n : Nat} {k : Nat} {w : MWait} (s : State) :
    timeAndQueue (serveSteps n k w s) = timeAndQueue s := by
  induction k generalizing w s with
  | zero => rfl
  | succ k ih => simp [serveSteps, ih]

@[simp] theorem timeAndQueue_serveWait {n : Nat} {w : MWait} (s : State) :
    timeAndQueue (serveWait n w s) = timeAndQueue s := by simp [serveWait]

@[simp] theorem timeAndQueue_servePlaced {n : Nat} {w : MWait} (s : State) :
    timeAndQueue (servePlaced n w s) = timeAndQueue s := by simp [servePlaced]

@[simp] theorem timeAndQueue_driveStart {n : Nat} {late : Bool} {j : MJob} (s : State) :
    timeAndQueue (driveStart n late j s) = timeAndQueue s := by
  simp only [driveStart]
  repeat' split
  all_goals simp

@[simp] theorem timeAndQueue_firstLook {n : Nat} {j : MJob} (s : State) :
    timeAndQueue (firstLook n j s) = timeAndQueue s := by simp [firstLook]

@[simp] theorem timeAndQueue_jobDue {n : Nat} {j : MJob} (s : State) :
    timeAndQueue (jobDue n j s) = timeAndQueue s := by simp [jobDue]

@[simp] theorem timeAndQueue_jobsSeen {n : Nat} (s : State) :
    timeAndQueue (jobsSeen n s) = timeAndQueue s := by simp [jobsSeen]

@[simp] theorem timeAndQueue_closeLook {n : Nat} (s : State) : timeAndQueue (closeLook n s) = timeAndQueue s := by
  simp only [closeLook]
  split <;> simp

@[simp] theorem timeAndQueue_comparatorsLook (s : State) :
    timeAndQueue (comparatorsLook s) = timeAndQueue s := by simp [comparatorsLook]

@[simp] theorem timeAndQueue_tickJobs {n : Nat} (s : State) :
    timeAndQueue (tickJobs n s) = timeAndQueue s := by simp [tickJobs]

@[simp] theorem timeAndQueue_tickLower {n : Nat} (s : State) :
    timeAndQueue (tickLower n s) = timeAndQueue s := by simp [tickLower]

@[simp] theorem timeAndQueue_tickSwitch {n : Nat} (s : State) :
    timeAndQueue (tickSwitch n s) = timeAndQueue s := by simp [tickSwitch]

@[simp] theorem timeAndQueue_jobArrives {n : Nat} (s : State) : timeAndQueue (jobArrives n s) = timeAndQueue s := by
  simp only [jobArrives]
  split <;> simp

@[simp] theorem timeAndQueue_jobsUnseen (s : State) : timeAndQueue (jobsUnseen s) = timeAndQueue s := by simp [jobsUnseen]

@[simp] theorem timeAndQueue_handJob {n : Nat} {j : MJob} (s : State) :
    timeAndQueue (handJob n j s) = timeAndQueue s := by simp [handJob]

@[simp] theorem timeAndQueue_recordJobs {r : RecFields} {dev : Nat} (s : State) :
    timeAndQueue (recordJobs r dev s) = timeAndQueue s := by simp [recordJobs]

@[simp] theorem timeAndQueue_setArm {n : Nat} {b : Bool} (s : State) : timeAndQueue (setArm n b s) = timeAndQueue s := by rfl

@[simp] theorem timeAndQueue_skipAll {n : Nat} (s : State) : timeAndQueue (skipAll n s) = timeAndQueue s := by simp [skipAll]

@[simp] theorem timeAndQueue_disarm {n : Nat} (s : State) : timeAndQueue (disarm n s) = timeAndQueue s := by simp [disarm]

@[simp] theorem timeAndQueue_discardAll {clearArm : Bool} (s : State) :
    timeAndQueue (discardAll clearArm s) = timeAndQueue s := by simp [discardAll]

@[simp] theorem timeAndQueue_faultChan {n : Nat} (s : State) :
    timeAndQueue (faultChan n s) = timeAndQueue s := by simp [faultChan]

@[simp] theorem timeAndQueue_armOne {n : Nat} (s : State) : timeAndQueue (armOne n s) = timeAndQueue s := by simp [armOne]

@[simp] theorem timeAndQueue_armWrite {v : Nat} (s : State) :
    timeAndQueue (armWrite v s) = timeAndQueue s := by simp [armWrite]

@[simp] theorem timeAndQueue_markTook {n : Nat} {f : Option Nat} {old : State} (s : State) :
    timeAndQueue (markTook n f old s) = timeAndQueue s := by
  simp only [markTook]
  split <;> simp

@[simp] theorem timeAndQueue_shutDrive {n : Nat} (s : State) : timeAndQueue (shutDrive n s) = timeAndQueue s := by
  simp only [shutDrive]
  split <;> simp

@[simp] theorem timeAndQueue_shutRelease {n : Nat} (s : State) : timeAndQueue (shutRelease n s) = timeAndQueue s := by
  simp only [shutRelease]
  split <;> simp

@[simp] theorem timeAndQueue_cutDrive {n : Nat} (s : State) :
    timeAndQueue (cutDrive n s) = timeAndQueue s := by simp [cutDrive]

@[simp] theorem timeAndQueue_coilCut {n : Nat} (s : State) : timeAndQueue (coilCut n s) = timeAndQueue s := by simp [coilCut]

@[simp] theorem timeAndQueue_coilJudge {n : Nat} (s : State) :
    timeAndQueue (coilJudge n s) = timeAndQueue s := by simp [coilJudge]

@[simp] theorem timeAndQueue_coilReady (s : State) : timeAndQueue (coilReady s) = timeAndQueue s := by simp [coilReady]

@[simp] theorem timeAndQueue_coilStep {n : Nat} (s : State) :
    timeAndQueue (coilStep n s) = timeAndQueue s := by simp [coilStep]

@[simp] theorem timeAndQueue_coilMeasured {n iv vv : Nat} (s : State) :
    timeAndQueue (coilMeasured n iv vv s) = timeAndQueue s := by simp [coilMeasured]

/-! ### Dryer ports -/

@[simp] theorem timeAndQueue_biasRebase {p : Nat} (s : State) : timeAndQueue (biasRebase p s) = timeAndQueue s := by rfl

@[simp] theorem timeAndQueue_biasMove {p : Nat} {target : List Nat} (s : State) :
    timeAndQueue (biasMove p target s) = timeAndQueue s := by rfl

@[simp] theorem timeAndQueue_roicSend {p kind seq w addr value : Nat} (s : State) :
    timeAndQueue (roicSend p kind seq w addr value s) = timeAndQueue s := by simp [roicSend]

@[simp] theorem timeAndQueue_setDTab {p bank i st : Nat} (s : State) :
    timeAndQueue (setDTab p bank i st s) = timeAndQueue s := by rfl

@[simp] theorem timeAndQueue_pipeRow {p : Nat} (s : State) : timeAndQueue (pipeRow p s) = timeAndQueue s := by
  simp only [pipeRow]
  split <;> simp

@[simp] theorem timeAndQueue_restartAll {p : Nat} (s : State) : timeAndQueue (restartAll p s) = timeAndQueue s := by rfl

@[simp] theorem timeAndQueue_finishCids {cids : List Nat} {status result position : Nat} (s : State) :
    timeAndQueue (finishCids cids status result position s) = timeAndQueue s := by
  refine timeAndQueue_foldl (fun s k => ?_) _ s
  split <;> simp

@[simp] theorem timeAndQueue_closureStart {p : Nat} (s : State) :
    timeAndQueue (closureStart p s) = timeAndQueue s := by simp [closureStart]

@[simp] theorem timeAndQueue_closureTry {p : Nat} (s : State) :
    timeAndQueue (closureTry p s) = timeAndQueue s := by simp [closureTry]

@[simp] theorem timeAndQueue_closureMeasure {p : Nat} {c : Closure} (s : State) :
    timeAndQueue (closureMeasure p c s) = timeAndQueue s := by simp [closureMeasure]

@[simp] theorem timeAndQueue_closureReopen {p : Nat} {c : Closure} (s : State) :
    timeAndQueue (closureReopen p c s) = timeAndQueue s := by simp [closureReopen]

@[simp] theorem timeAndQueue_closureSettled {p : Nat} {c : Closure} (s : State) :
    timeAndQueue (closureSettled p c s) = timeAndQueue s := by simp [closureSettled]

@[simp] theorem timeAndQueue_closureOver {p : Nat} {c : Closure} (s : State) :
    timeAndQueue (closureOver p c s) = timeAndQueue s := by simp [closureOver]

@[simp] theorem timeAndQueue_closureOpened {p : Nat} {c : Closure} (s : State) :
    timeAndQueue (closureOpened p c s) = timeAndQueue s := by simp [closureOpened]

@[simp] theorem timeAndQueue_closureSync {p : Nat} {c : Closure} (s : State) :
    timeAndQueue (closureSync p c s) = timeAndQueue s := by
  simp only [closureSync]
  repeat' split
  all_goals simp

@[simp] theorem timeAndQueue_dryLay {p : Nat} {vals : Tbl Nat} (s : State) :
    timeAndQueue (dryLay p vals s) = timeAndQueue s := by simp [dryLay]

@[simp] theorem timeAndQueue_drySend {p : Nat} {w : FpaWrite} (s : State) :
    timeAndQueue (drySend p w s) = timeAndQueue s := by simp [drySend]

@[simp] theorem timeAndQueue_dryGroup {p : Nat} {at_ : Option Nat} {g : Accepted} (s : State) :
    timeAndQueue (dryGroup p at_ g s) = timeAndQueue s := by
  simp only [dryGroup]
  repeat' split
  all_goals simp

@[simp] theorem timeAndQueue_dryCalWait {p : Nat} {g : Accepted} (s : State) :
    timeAndQueue (dryCalWait p g s) = timeAndQueue s := by simp [dryCalWait]

@[simp] theorem timeAndQueue_forcedAgain {p : Nat} (s : State) : timeAndQueue (forcedAgain p s) = timeAndQueue s := by rfl

@[simp] theorem timeAndQueue_dryCalOver {p : Nat} (s : State) :
    timeAndQueue (dryCalOver p s) = timeAndQueue s := by simp [dryCalOver]

@[simp] theorem timeAndQueue_dryBoundary {p : Nat} {at_ : Option Nat} (s : State) :
    timeAndQueue (dryBoundary p at_ s) = timeAndQueue s := by simp [dryBoundary]

@[simp] theorem timeAndQueue_dryWritesSweep {p : Nat} (s : State) :
    timeAndQueue (dryWritesSweep p s) = timeAndQueue s := by rfl

@[simp] theorem timeAndQueue_drySettings {p num : Nat} (s : State) :
    timeAndQueue (drySettings p num s).2 = timeAndQueue s := by simp [drySettings]

@[simp] theorem timeAndQueue_drySettingFails {p : Nat} {w : FpaWrite} {cause : Nat} (s : State) :
    timeAndQueue (drySettingFails p w cause s) = timeAndQueue s := by simp [drySettingFails]

@[simp] theorem timeAndQueue_roicDone {f : SpFrame} {input : List Byte} (s : State) :
    timeAndQueue (roicDone f input s) = timeAndQueue s := by
  simp only [roicDone]
  repeat' split
  all_goals simp

@[simp] theorem timeAndQueue_dryTiming {p : Nat} (s : State) :
    timeAndQueue (dryTiming p s) = timeAndQueue s := by simp [dryTiming]

@[simp] theorem timeAndQueue_biasReached {p : Nat} (s : State) : timeAndQueue (biasReached p s) = timeAndQueue s := by
  simp only [biasReached]
  split <;> simp

@[simp] theorem timeAndQueue_startDryer {p : Nat} (s : State) : timeAndQueue (startDryer p s) = timeAndQueue s := by rfl

@[simp] theorem timeAndQueue_dryMark {p : Nat} {md : Int} {m : DryMark} (s : State) :
    timeAndQueue (dryMark p md m s) = timeAndQueue s := by
  simp only [dryMark]
  split <;> simp

@[simp] theorem timeAndQueue_dryStamps {p : Nat} (s : State) :
    timeAndQueue (dryStamps p s) = timeAndQueue s := by simp [dryStamps]

@[simp] theorem timeAndQueue_dryMarkAt {p tb : Nat} {m : DryMark} (s : State) :
    timeAndQueue (dryMarkAt p tb m s) = timeAndQueue s := by rfl

@[simp] theorem timeAndQueue_frameClose {p : Nat} {short : Bool} (s : State) :
    timeAndQueue (frameClose p short s) = timeAndQueue s := by
  simp only [frameClose]
  split <;> simp

@[simp] theorem timeAndQueue_intervalAbandon {p : Nat} {cids : List Nat} (s : State) :
    timeAndQueue (intervalAbandon p cids s) = timeAndQueue s := by simp [intervalAbandon]

@[simp] theorem timeAndQueue_closureAbandon {p : Nat} (s : State) :
    timeAndQueue (closureAbandon p s) = timeAndQueue s := by simp [closureAbandon]

@[simp] theorem timeAndQueue_dryLand {p : Nat} (s : State) : timeAndQueue (dryLand p s) = timeAndQueue s := by simp [dryLand]

@[simp] theorem timeAndQueue_dryHalt {p : Nat} (s : State) : timeAndQueue (dryHalt p s) = timeAndQueue s := by simp [dryHalt]

@[simp] theorem timeAndQueue_dryStopNow {p : Nat} (s : State) :
    timeAndQueue (dryStopNow p s) = timeAndQueue s := by simp [dryStopNow]

@[simp] theorem timeAndQueue_dryStopAll (s : State) : timeAndQueue (dryStopAll s) = timeAndQueue s := by simp [dryStopAll]

/-! ### Rows of the headboxes -/

@[simp] theorem timeAndQueue_packetIn {p : Nat} {pkt : BrynPacket} {want : Nat} {payload : List Byte} (s : State) :
    timeAndQueue (packetIn p pkt want payload s).2 = timeAndQueue s := by simp [packetIn]

@[simp] theorem timeAndQueue_addFragment {p : Nat} {bytes : List Byte} {offset : Nat} (s : State) :
    timeAndQueue (addFragment p bytes offset s) = timeAndQueue s := by rfl

@[simp] theorem timeAndQueue_enterLine {p : Nat} {first : Bool} {seq : Option Nat} (s : State) :
    timeAndQueue (enterLine p first seq s) = timeAndQueue s := by simp [enterLine]

@[simp] theorem timeAndQueue_settingAck {p tag status : Nat} (s : State) :
    timeAndQueue (settingAck p tag status s) = timeAndQueue s := by
  simp only [settingAck]
  split <;> simp

@[simp] theorem timeAndQueue_setTimeout {p : Nat} (s : State) : timeAndQueue (setTimeout p s) = timeAndQueue s := by
  simp only [setTimeout]
  split <;> simp

@[simp] theorem timeAndQueue_discoveryFails {p d : Nat} (s : State) :
    timeAndQueue (discoveryFails p d s) = timeAndQueue s := by simp [discoveryFails]

@[simp] theorem timeAndQueue_discover {p : Nat} (s : State) : timeAndQueue (discover p s) = timeAndQueue s := by rfl

@[simp] theorem timeAndQueue_startHeadbox {p : Nat} (s : State) :
    timeAndQueue (startHeadbox p s) = timeAndQueue s := by simp [startHeadbox]

/-! ### Rows of the dryer ports -/

@[simp] theorem timeAndQueue_blankEnds {p : Nat} (s : State) : timeAndQueue (blankEnds p s) = timeAndQueue s := by
  simp only [blankEnds]
  split <;> simp

@[simp] theorem timeAndQueue_dryStopWaiting {p : Nat} (s : State) :
    timeAndQueue (dryStopWaiting p s) = timeAndQueue s := by simp [dryStopWaiting]

@[simp] theorem timeAndQueue_readFpaT {p : Nat} (s : State) : timeAndQueue (readFpaT p s) = timeAndQueue s := by
  simp only [readFpaT]
  split <;> simp

@[simp] theorem timeAndQueue_refineApply {p : Nat} (s : State) : timeAndQueue (refineApply p s) = timeAndQueue s := by
  simp only [refineApply]
  split <;> simp

@[simp] theorem timeAndQueue_dryProfileEnds {p : Nat} (s : State) :
    timeAndQueue (dryProfileEnds p s) = timeAndQueue s := by simp [dryProfileEnds]

@[simp] theorem timeAndQueue_frameBegin {p : Nat} {change : Bool} (s : State) :
    timeAndQueue (frameBegin p change s) = timeAndQueue s := by simp [frameBegin]

@[simp] theorem timeAndQueue_syncBoundary {p num : Nat} (s : State) :
    timeAndQueue (syncBoundary p num s).2 = timeAndQueue s := by simp [syncBoundary]

@[simp] theorem timeAndQueue_syncRequests {p : Nat} (s : State) :
    timeAndQueue (syncRequests p s) = timeAndQueue s := by simp [syncRequests]

@[simp] theorem timeAndQueue_syncRun {p : Nat} (s : State) : timeAndQueue (syncRun p s) = timeAndQueue s := by
  simp only [syncRun]
  split <;> simp

@[simp] theorem timeAndQueue_frameSyncBody {p : Nat} (s : State) :
    timeAndQueue (frameSyncBody p s) = timeAndQueue s := by simp [frameSyncBody]

@[simp] theorem timeAndQueue_frameTimeoutBody {p : Nat} (s : State) :
    timeAndQueue (frameTimeoutBody p s) = timeAndQueue s := by
  simp only [frameTimeoutBody]
  split <;> simp

@[simp] theorem timeAndQueue_drySetTimeout {p : Nat} (s : State) : timeAndQueue (drySetTimeout p s) = timeAndQueue s := by
  simp only [drySetTimeout]
  split <;> simp

@[simp] theorem timeAndQueue_refSatNote {p : Nat} {f : DFrame} {est : List DcEst} (s : State) :
    timeAndQueue (refSatNote p f est s).2 = timeAndQueue s := by
  simp only [refSatNote]
  split <;> simp

@[simp] theorem timeAndQueue_averageRow {p row : Nat} {px : List (Int × Bool × Bool)} (s : State) :
    timeAndQueue (averageRow p row px s) = timeAndQueue s := by
  simp only [averageRow]
  split <;> simp

@[simp] theorem timeAndQueue_firstRow {p t : Nat} {deliver : Bool} (s : State) :
    timeAndQueue (firstRow p t deliver s) = timeAndQueue s := by simp [firstRow]

@[simp] theorem timeAndQueue_rowEnters {p : Nat} {f : DFrame} {r : DRow} (s : State) :
    timeAndQueue (rowEnters p f r s).2 = timeAndQueue s := by simp [rowEnters]

@[simp] theorem timeAndQueue_rowRun {p : Nat} {f : DFrame} {tl : Nat} {taps : List TapRow} (s : State) :
    timeAndQueue (rowRun p f tl taps s) = timeAndQueue s := by simp [rowRun]

@[simp] theorem timeAndQueue_dryerRowBody {p tl : Nat} {taps : List TapRow} (s : State) :
    timeAndQueue (dryerRowBody p tl taps s) = timeAndQueue s := by
  simp only [dryerRowBody]
  split <;> simp

@[simp] theorem timeAndQueue_lsyncStep {p : Nat} (s : State) : timeAndQueue (lsyncStep p s) = timeAndQueue s := by
  simp only [lsyncStep]
  split <;> simp

@[simp] theorem timeAndQueue_dryerTick (s : State) : timeAndQueue (dryerTick s) = timeAndQueue s := by simp [dryerTick]

@[simp] theorem timeAndQueue_thermalMapRow {p : Nat} {r : DRow} (s : State) :
    timeAndQueue (thermalMapRow p r s) = timeAndQueue s := by
  simp only [thermalMapRow]
  repeat' split
  all_goals simp

@[simp] theorem timeAndQueue_thermalMapBody {p : Nat} (s : State) : timeAndQueue (thermalMapBody p s) = timeAndQueue s := by
  simp only [thermalMapBody]
  split <;> simp

@[simp] theorem timeAndQueue_driftRefineBody {p : Nat} (s : State) :
    timeAndQueue (driftRefineBody p s) = timeAndQueue s := by simp [driftRefineBody]

@[simp] theorem timeAndQueue_shutterWaits {c : Cmd} (s : State) : timeAndQueue (shutterWaits c s) = timeAndQueue s := by rfl

@[simp] theorem timeAndQueue_shutterClose {c : Cmd} {p : Nat} (s : State) :
    timeAndQueue (shutterClose c p s) = timeAndQueue s := by rfl

@[simp] theorem timeAndQueue_shutterHold {c : Cmd} {p : Nat} (s : State) :
    timeAndQueue (shutterHold c p s) = timeAndQueue s := by
  simp only [shutterHold]
  split <;> simp

@[simp] theorem timeAndQueue_shutterRelease {c : Cmd} {p : Nat} (s : State) :
    timeAndQueue (shutterRelease c p s) = timeAndQueue s := by
  simp only [shutterRelease]
  split <;> simp

@[simp] theorem timeAndQueue_shutterInhibit {p : Nat} (s : State) :
    timeAndQueue (shutterInhibit p s) = timeAndQueue s := by rfl

@[simp] theorem timeAndQueue_shutterStart {c : Cmd} (s : State) : timeAndQueue (shutterStart c s) = timeAndQueue s := by
  simp only [shutterStart]
  repeat' split
  all_goals simp

@[simp] theorem timeAndQueue_startCameraPort {c : Cmd} {p : Nat} (s : State) :
    timeAndQueue (startCameraPort c p s) = timeAndQueue s := by simp [startCameraPort]

@[simp] theorem timeAndQueue_startDryerPort {c : Cmd} {p : Nat} (s : State) :
    timeAndQueue (startDryerPort c p s) = timeAndQueue s := by simp [startDryerPort]

@[simp] theorem timeAndQueue_portStartStart {c : Cmd} (s : State) :
    timeAndQueue (portStartStart c s) = timeAndQueue s := by simp [portStartStart]

@[simp] theorem timeAndQueue_stopCameraPort {c : Cmd} {p mode : Nat} (s : State) :
    timeAndQueue (stopCameraPort c p mode s) = timeAndQueue s := by simp [stopCameraPort]

@[simp] theorem timeAndQueue_stopDryerPort {c : Cmd} {p mode : Nat} (s : State) :
    timeAndQueue (stopDryerPort c p mode s) = timeAndQueue s := by simp [stopDryerPort]

@[simp] theorem timeAndQueue_portStopStart {c : Cmd} (s : State) :
    timeAndQueue (portStopStart c s) = timeAndQueue s := by simp [portStopStart]

/-! ### Calibration elements and housekeeping units -/

@[simp] theorem timeAndQueue_updEl {c i : Nat} {f : CalEl → CalEl} (s : State) :
    timeAndQueue (updEl c i f s) = timeAndQueue s := by rfl

@[simp] theorem timeAndQueue_updCal {f : Cal → Cal} (s : State) : timeAndQueue (updCal f s) = timeAndQueue s := by rfl

@[simp] theorem timeAndQueue_calDone (s : State) : timeAndQueue (calDone s) = timeAndQueue s := by rfl

@[simp] theorem timeAndQueue_calCmdTakes {key : Nat} {ok : Bool} {k : CalCmd} (s : State) :
    timeAndQueue (calCmdTakes key ok k s) = timeAndQueue s := by
  simp only [calCmdTakes]
  repeat' split
  all_goals simp

@[simp] theorem timeAndQueue_calOutcome {key : Nat} {ok : Bool} (s : State) :
    timeAndQueue (calOutcome key ok s) = timeAndQueue s := by simp [calOutcome]

@[simp] theorem timeAndQueue_elLand {c i : Nat} {v : Int × Nat × Nat} (s : State) :
    timeAndQueue (elLand c i v s) = timeAndQueue s := by rfl

@[simp] theorem timeAndQueue_elPass {c i : Nat} (s : State) : timeAndQueue (elPass c i s) = timeAndQueue s := by simp [elPass]

@[simp] theorem timeAndQueue_elReject {c i : Nat} (s : State) :
    timeAndQueue (elReject c i s) = timeAndQueue s := by simp [elReject]

@[simp] theorem timeAndQueue_elJudge {c i : Nat} {ofs : Int} {gain : Nat} {parts : List Nat} (s : State) :
    timeAndQueue (elJudge c i ofs gain parts s).2 = timeAndQueue s := by simp [elJudge]

@[simp] theorem timeAndQueue_hkResume {u : Nat} (s : State) : timeAndQueue (hkResume u s) = timeAndQueue s := by rfl

@[simp] theorem timeAndQueue_selfcalStart {u : Nat} (s : State) :
    timeAndQueue (selfcalStart u s) = timeAndQueue s := by simp [selfcalStart]

@[simp] theorem timeAndQueue_selfcalRequest {u : Nat} (s : State) :
    timeAndQueue (selfcalRequest u s) = timeAndQueue s := by simp [selfcalRequest]

@[simp] theorem timeAndQueue_selfcalWaited {u : Nat} (s : State) :
    timeAndQueue (selfcalWaited u s) = timeAndQueue s := by simp [selfcalWaited]

@[simp] theorem timeAndQueue_injStart {u : Nat} (s : State) : timeAndQueue (injStart u s) = timeAndQueue s := by
  simp only [injStart]
  split <;> simp

@[simp] theorem timeAndQueue_injEnds {u : Nat} (s : State) : timeAndQueue (injEnds u s) = timeAndQueue s := by simp [injEnds]

@[simp] theorem timeAndQueue_regularEnds {u : Nat} {sig : HkSignal} (s : State) :
    timeAndQueue (regularEnds u sig s) = timeAndQueue s := by simp [regularEnds]

@[simp] theorem timeAndQueue_coilResult {u : Nat} (s : State) :
    timeAndQueue (coilResult u s) = timeAndQueue s := by simp [coilResult]

@[simp] theorem timeAndQueue_injectedEnds {u : Nat} {sig : HkSignal} (s : State) :
    timeAndQueue (injectedEnds u sig s) = timeAndQueue s := by simp [injectedEnds]

@[simp] theorem timeAndQueue_elPassed {c i : Nat} (s : State) : timeAndQueue (elPassed c i s) = timeAndQueue s := by
  simp only [elPassed]
  split <;> simp

@[simp] theorem timeAndQueue_conversionEnds {u : Nat} {sig : HkSignal} (s : State) :
    timeAndQueue (conversionEnds u sig s) = timeAndQueue s := by simp [conversionEnds]

@[simp] theorem timeAndQueue_selfcalJudged {u : Nat} {ok : Bool} (s : State) :
    timeAndQueue (selfcalJudged u ok s) = timeAndQueue s := by simp [selfcalJudged]

@[simp] theorem timeAndQueue_selfcalEnds {u : Nat} {ofs : Int} {gain : Nat} (s : State) :
    timeAndQueue (selfcalEnds u ofs gain s) = timeAndQueue s := by simp [selfcalEnds]

@[simp] theorem timeAndQueue_hkTook {old : State} {u : Nat} (s : State) :
    timeAndQueue (hkTook old u s) = timeAndQueue s := by simp [hkTook]

@[simp] theorem timeAndQueue_hkChanged {u : Nat} (s : State) :
    timeAndQueue (hkChanged u s) = timeAndQueue s := by simp [hkChanged]

@[simp] theorem timeAndQueue_adcCalStart {i : Nat} {forced : Bool} (s : State) :
    timeAndQueue (adcCalStart i forced s) = timeAndQueue s := by rfl

@[simp] theorem timeAndQueue_adcTry {i : Nat} (s : State) : timeAndQueue (adcTry i s) = timeAndQueue s := by simp [adcTry]

@[simp] theorem timeAndQueue_valveTry {n : Nat} (s : State) :
    timeAndQueue (valveTry n s) = timeAndQueue s := by simp [valveTry]

@[simp] theorem timeAndQueue_calStart {c i : Nat} (s : State) : timeAndQueue (calStart c i s) = timeAndQueue s := by
  simp only [calStart]
  repeat' split
  all_goals simp

@[simp] theorem timeAndQueue_adcRestart {i : Nat} (s : State) : timeAndQueue (adcRestart i s) = timeAndQueue s := by rfl

@[simp] theorem timeAndQueue_adcAttempted {c i : Nat} (s : State) :
    timeAndQueue (adcAttempted c i s) = timeAndQueue s := by simp [adcAttempted]

@[simp] theorem timeAndQueue_elBack {c i : Nat} (s : State) : timeAndQueue (elBack c i s) = timeAndQueue s := by simp [elBack]

@[simp] theorem timeAndQueue_heldApply {c i : Nat} (s : State) :
    timeAndQueue (heldApply c i s) = timeAndQueue s := by simp [heldApply]

@[simp] theorem timeAndQueue_heldCheck {c i : Nat} (s : State) : timeAndQueue (heldCheck c i s) = timeAndQueue s := by
  simp only [heldCheck]
  split <;> simp

@[simp] theorem timeAndQueue_calEnds {c i : Nat} {ofs : Int} {gain : Nat} {parts : List Nat} (s : State) :
    timeAndQueue (calEnds c i ofs gain parts s) = timeAndQueue s := by simp [calEnds]

@[simp] theorem timeAndQueue_elDue {c i : Nat} (s : State) : timeAndQueue (elDue c i s) = timeAndQueue s := by rfl

@[simp] theorem timeAndQueue_calAbandon (s : State) : timeAndQueue (calAbandon s) = timeAndQueue s := by simp [calAbandon]

@[simp] theorem timeAndQueue_spareTest {tests : List Bool} (s : State) :
    timeAndQueue (spareTest tests s).2.2 = timeAndQueue s := by
  simp only [spareTest]
  split <;> simp

@[simp] theorem timeAndQueue_sramRepairFrom {row : Nat} {n : Nat} {tests : List Bool} (s : State) :
    timeAndQueue (sramRepairFrom row n tests s).2.2 = timeAndQueue s := by
  induction n generalizing tests s with
  | zero => simp [sramRepairFrom]
  | succ n ih => 
    simp only [sramRepairFrom]
    split <;> simp [ih]

@[simp] theorem timeAndQueue_sramRepair {row : Nat} {tests : List Bool} (s : State) :
    timeAndQueue (sramRepair row tests s).2.2 = timeAndQueue s := by simp [sramRepair]

@[simp] theorem timeAndQueue_sramRepairAll {named : Nat → Bool} {tests : List Bool} (s : State) :
    timeAndQueue (sramRepairAll named tests s) = timeAndQueue s := timeAndQueue_foldl_snd (fun a row => by simp) _ _

@[simp] theorem timeAndQueue_sramAuto {tests : List Bool} (s : State) :
    timeAndQueue (sramAuto tests s) = timeAndQueue s := by simp [sramAuto]

@[simp] theorem timeAndQueue_calResumes (s : State) : timeAndQueue (calResumes s) = timeAndQueue s := by simp [calResumes]

/-! ### Host data -/

@[simp] theorem timeAndQueue_hostOutAt {pos : Nat → Nat} {c : Cmd} {bs : List Byte} {io : HostIo}
    {fin : Cmd → State → State} (hfin : ∀ x u, timeAndQueue (fin x u) = timeAndQueue u) (s : State) :
    timeAndQueue (hostOutAt pos c bs io fin s) = timeAndQueue s := by
  simp only [hostOutAt]
  split
  · rfl
  · split <;> simp [hfin]

@[simp] theorem timeAndQueue_hostOut {c : Cmd} {bs : List Byte} {io : HostIo} {fin : Cmd → State → State}
    (hfin : ∀ x u, timeAndQueue (fin x u) = timeAndQueue u) (s : State) :
    timeAndQueue (hostOut c bs io fin s) = timeAndQueue s := by simp [hostOut, hfin]

@[simp] theorem timeAndQueue_hrdSend {k : Nat} {a : Nat} {n : Nat} (s : State) :
    timeAndQueue (hrdSend k a n s) = timeAndQueue s := by
  induction k generalizing a n s with
  | zero => rfl
  | succ k ih => simp [hrdSend, ih]

@[simp] theorem timeAndQueue_hrdAsk {c : Cmd} {d : HostRead} (s : State) :
    timeAndQueue (hrdAsk c d s) = timeAndQueue s := by simp [hrdAsk]

@[simp] theorem timeAndQueue_hostIn {c : Cmd} {d : HostRead} {pos : Nat} {go : List Byte → State → State}
    (hgo : ∀ x u, timeAndQueue (go x u) = timeAndQueue u) (s : State) :
    timeAndQueue (hostIn c d pos go s) = timeAndQueue s := by
  simp only [hostIn]
  split <;> simp [hgo]

@[simp] theorem timeAndQueue_needHost {f : Cmd → State → State} {c : Cmd}
    (hf : ∀ x u, timeAndQueue (f x u) = timeAndQueue u) (s : State) :
    timeAndQueue (needHost f c s) = timeAndQueue s := by simp [needHost, hf]

/-! ### Non-volatile storage -/

@[simp] theorem timeAndQueue_updNvm {f : Nvm → Nvm} (s : State) : timeAndQueue (updNvm f s) = timeAndQueue s := by rfl

@[simp] theorem timeAndQueue_calLoad {vals : Tbl Int} (s : State) :
    timeAndQueue (calLoad vals s) = timeAndQueue s := by simp [calLoad]

@[simp] theorem timeAndQueue_startPage {job : PageJob} {addr : Nat} {bs : List Byte} (s : State) :
    timeAndQueue (startPage job addr bs s) = timeAndQueue s := by rfl

@[simp] theorem timeAndQueue_batchPage {step : Nat} (s : State) : timeAndQueue (batchPage step s) = timeAndQueue s := by
  simp only [batchPage]
  split <;> simp

@[simp] theorem timeAndQueue_logStart (s : State) : timeAndQueue (logStart s) = timeAndQueue s := by rfl

@[simp] theorem timeAndQueue_storePage {j : CalStoreJob} (s : State) :
    timeAndQueue (storePage j s) = timeAndQueue s := by simp [storePage]

@[simp] theorem timeAndQueue_recordPage {r : RecWrite} {rs : List RecWrite} (s : State) :
    timeAndQueue (recordPage r rs s) = timeAndQueue s := by rfl

@[simp] theorem timeAndQueue_writerPage {c : Cmd} (s : State) : timeAndQueue (writerPage c s) = timeAndQueue s := by rfl

@[simp] theorem timeAndQueue_nvmPump (s : State) : timeAndQueue (nvmPump s) = timeAndQueue s := by
  simp only [nvmPump]
  repeat' split
  all_goals simp

@[simp] theorem timeAndQueue_storeBegin (s : State) : timeAndQueue (storeBegin s) = timeAndQueue s := by simp [storeBegin]

@[simp] theorem timeAndQueue_batchBegin (s : State) : timeAndQueue (batchBegin s) = timeAndQueue s := by simp [batchBegin]

@[simp] theorem timeAndQueue_recordWrite {id : Nat} {payload : List Byte} (s : State) :
    timeAndQueue (recordWrite id payload s) = timeAndQueue s := by simp [recordWrite]

@[simp] theorem timeAndQueue_writerDone {cid : Nat} (s : State) : timeAndQueue (writerDone cid s) = timeAndQueue s := by rfl

@[simp] theorem timeAndQueue_recordSpoil {id addr : Nat} (s : State) :
    timeAndQueue (recordSpoil id addr s) = timeAndQueue s := by
  simp only [recordSpoil]
  split <;> simp

@[simp] theorem timeAndQueue_writerEnds {cid addr : Nat} (s : State) :
    timeAndQueue (writerEnds cid addr s) = timeAndQueue s := by
  simp only [writerEnds]
  split <;> simp

@[simp] theorem timeAndQueue_batchEnds {k : Nat} (s : State) :
    timeAndQueue (batchEnds k s) = timeAndQueue s := by simp [batchEnds]

@[simp] theorem timeAndQueue_logEnds {k : Nat} (s : State) : timeAndQueue (logEnds k s) = timeAndQueue s := by rfl

@[simp] theorem timeAndQueue_storeEnds {sound : Bool} (s : State) : timeAndQueue (storeEnds sound s) = timeAndQueue s := by
  simp only [storeEnds]
  split <;> simp

@[simp] theorem timeAndQueue_selectorEnds (s : State) : timeAndQueue (selectorEnds s) = timeAndQueue s := by
  simp only [selectorEnds]
  split <;> simp

@[simp] theorem timeAndQueue_enrolInhibit (s : State) : timeAndQueue (enrolInhibit s) = timeAndQueue s := by
  simp only [enrolInhibit]
  split <;> simp

@[simp] theorem timeAndQueue_recordEnds {id addr : Nat} (s : State) :
    timeAndQueue (recordEnds id addr s) = timeAndQueue s := by
  simp only [recordEnds]
  split <;> simp

@[simp] theorem timeAndQueue_jobEnds {j : PageJob} {addr : Nat} {sound : Bool} (s : State) :
    timeAndQueue (jobEnds j addr sound s) = timeAndQueue s := by
  simp only [jobEnds]
  split <;> simp

@[simp] theorem timeAndQueue_readServe {io : HostIo} {c : Cmd} (s : State) :
    timeAndQueue (readServe io c s) = timeAndQueue s := by
  simp only [readServe]
  split <;> simp

@[simp] theorem timeAndQueue_readsServe (s : State) : timeAndQueue (readsServe s) = timeAndQueue s := by simp [readsServe]

@[simp] theorem timeAndQueue_writersInhibit (s : State) : timeAndQueue (writersInhibit s) = timeAndQueue s := by
  rw [writersInhibit, timeAndQueue_foldl]
  · simp
  · intro s i
    split <;> simp

@[simp] theorem timeAndQueue_countersLoad (s : State) : timeAndQueue (countersLoad s) = timeAndQueue s := by
  simp only [countersLoad]
  split <;> simp

@[simp] theorem timeAndQueue_tornCheck (s : State) : timeAndQueue (tornCheck s) = timeAndQueue s := by
  simp only [tornCheck]
  split <;> simp

@[simp] theorem timeAndQueue_logLoad (s : State) : timeAndQueue (logLoad s) = timeAndQueue s := by
  unfold logLoad
  extract_lets newest
  clear_value newest
  cases newest <;> rfl

@[simp] theorem timeAndQueue_bankLoad (s : State) : timeAndQueue (bankLoad s) = timeAndQueue s := by
  simp only [bankLoad]
  split <;> simp

@[simp] theorem timeAndQueue_bankCheck (s : State) : timeAndQueue (bankCheck s) = timeAndQueue s := by
  simp only [bankCheck]
  split <;> simp

@[simp] theorem timeAndQueue_recordsCheck (s : State) :
    timeAndQueue (recordsCheck s) = timeAndQueue s := by simp [recordsCheck]

@[simp] theorem timeAndQueue_nvmReady (s : State) : timeAndQueue (nvmReady s) = timeAndQueue s := by simp [nvmReady]

@[simp] theorem timeAndQueue_nvmNotes (s : State) : timeAndQueue (nvmNotes s) = timeAndQueue s := by simp [nvmNotes]

@[simp] theorem timeAndQueue_bootEntry (s : State) : timeAndQueue (bootEntry s) = timeAndQueue s := by simp [bootEntry]

@[simp] theorem timeAndQueue_pageTorn (s : State) : timeAndQueue (pageTorn s) = timeAndQueue s := by
  simp only [pageTorn]
  split <;> simp

/-! ### Images, staging and fuses -/

@[simp] theorem timeAndQueue_updSec {f : Sec → Sec} (s : State) : timeAndQueue (updSec f s) = timeAndQueue s := by rfl

@[simp] theorem timeAndQueue_flashFrame {cmd : Nat} {addr : List Byte} {dummy lanes : Nat} {data : List Byte} {inLen : Nat}
    (s : State) : timeAndQueue (flashFrame cmd addr dummy lanes data inLen s) = timeAndQueue s := by simp [flashFrame]

@[simp] theorem timeAndQueue_flashRead {a n : Nat} (s : State) :
    timeAndQueue (flashRead a n s) = timeAndQueue s := by simp [flashRead]

@[simp] theorem timeAndQueue_flashReadSlot {a : Nat} {im : List Byte} (s : State) :
    timeAndQueue (flashReadSlot a im s) = timeAndQueue s := by simp [flashReadSlot]

@[simp] theorem timeAndQueue_flashWrite {cmd a : Nat} {data : List Byte} (s : State) :
    timeAndQueue (flashWrite cmd a data s) = timeAndQueue s := by simp [flashWrite]

@[simp] theorem timeAndQueue_flashErase {a n : Nat} (s : State) :
    timeAndQueue (flashErase a n s) = timeAndQueue s := by simp [flashErase]

@[simp] theorem timeAndQueue_flashProgram {a p q : Nat} {im : List Byte} (s : State) :
    timeAndQueue (flashProgram a p q im s) = timeAndQueue s := by simp [flashProgram]

@[simp] theorem timeAndQueue_stageChecked {c : Cmd} {im : List Byte} (s : State) :
    timeAndQueue (stageChecked c im s) = timeAndQueue s := by simp [stageChecked]

@[simp] theorem timeAndQueue_stageRead {d : HostRead} {c : Cmd} (s : State) :
    timeAndQueue (stageRead d c s) = timeAndQueue s := by simp [stageRead]

@[simp] theorem timeAndQueue_startFwStage {d : HostRead} {c : Cmd} (s : State) :
    timeAndQueue (startFwStage d c s) = timeAndQueue s := by simp [startFwStage]

@[simp] theorem timeAndQueue_stageProgram {n : Nat} {back : List Byte} {c : Cmd} (s : State) :
    timeAndQueue (stageProgram n back c s) = timeAndQueue s := by simp [stageProgram]

@[simp] theorem timeAndQueue_contFwStage {d : HostRead} {n : Nat} {back : List Byte} {c : Cmd} (s : State) :
    timeAndQueue (contFwStage d n back c s) = timeAndQueue s := by simp [contFwStage]

@[simp] theorem timeAndQueue_ownerWritten (s : State) : timeAndQueue (ownerWritten s) = timeAndQueue s := by
  simp only [ownerWritten]
  split <;> simp

@[simp] theorem timeAndQueue_fuseBlow (s : State) : timeAndQueue (fuseBlow s) = timeAndQueue s := by simp [fuseBlow]

@[simp] theorem timeAndQueue_activateEnds (s : State) : timeAndQueue (activateEnds s) = timeAndQueue s := by
  simp only [activateEnds]
  split <;> simp

/-! ### Identity, firmware and attestation -/

@[simp] theorem timeAndQueue_startCertRead {io : HostIo} {c : Cmd} (s : State) :
    timeAndQueue (startCertRead io c s) = timeAndQueue s := by
  simp only [startCertRead]
  split <;> simp

@[simp] theorem timeAndQueue_startAttest {io : HostIo} {c : Cmd} (s : State) :
    timeAndQueue (startAttest io c s) = timeAndQueue s := by simp [startAttest]

@[simp] theorem timeAndQueue_fuseBody (s : State) : timeAndQueue (fuseBody s) = timeAndQueue s := by simp [fuseBody]

@[simp] theorem timeAndQueue_chalBody (s : State) : timeAndQueue (chalBody s) = timeAndQueue s := by simp [chalBody]

@[simp] theorem timeAndQueue_respBody {scope : Byte} {sig : List Byte} (s : State) :
    timeAndQueue (respBody scope sig s) = timeAndQueue s := by simp [respBody]

@[simp] theorem timeAndQueue_lockoutBody (s : State) : timeAndQueue (lockoutBody s) = timeAndQueue s := by
  simp only [lockoutBody]
  split <;> simp

/-! ### Wires -/

@[simp] theorem timeAndQueue_updWire {w : Nat} {f : Wire → Wire} (s : State) :
    timeAndQueue (updWire w f s) = timeAndQueue s := by rfl

@[simp] theorem timeAndQueue_putItem {p : Nat} {it : Item} (s : State) :
    timeAndQueue (putItem p it s) = timeAndQueue s := by rfl

@[simp] theorem timeAndQueue_dropItems {p sid : Nat} {which : Item → Bool} (s : State) :
    timeAndQueue (dropItems p sid which s) = timeAndQueue s := by
  simp only [dropItems]
  split <;> simp

@[simp] theorem timeAndQueue_dropRest {p sid : Nat} (s : State) :
    timeAndQueue (dropRest p sid s) = timeAndQueue s := by simp [dropRest]

@[simp] theorem timeAndQueue_flagBad {p : Nat} {it : Item} (s : State) : timeAndQueue (flagBad p it s) = timeAndQueue s := by
  simp only [flagBad]
  split <;> simp

@[simp] theorem timeAndQueue_finishWait {w p : Nat} {next : Option Unit'} (s : State) :
    timeAndQueue (finishWait w p next s) = timeAndQueue s := by
  simp only [finishWait]
  repeat' split
  all_goals simp

@[simp] theorem timeAndQueue_flushWait {w p : Nat} (s : State) : timeAndQueue (flushWait w p s) = timeAndQueue s := by
  simp only [flushWait]
  split <;> simp

@[simp] theorem timeAndQueue_rawTake {p : Nat} {it : Item} {raw : List Nat} (s : State) :
    timeAndQueue (rawTake p it raw s) = timeAndQueue s := by
  simp only [rawTake]
  split <;> simp

@[simp] theorem timeAndQueue_takeItem {w p : Nat} {it : Item} (s0 : State) :
    timeAndQueue (takeItem w p it s0) = timeAndQueue s0 := by simp [takeItem]

@[simp] theorem timeAndQueue_passDeadline {w p : Nat} {t : Stripe} (s : State) :
    timeAndQueue (passDeadline w p t s) = timeAndQueue s := by simp [passDeadline]

@[simp] theorem timeAndQueue_enforceDeadline {w p : Nat} (s : State) :
    timeAndQueue (enforceDeadline w p s) = timeAndQueue s := by
  simp only [enforceDeadline]
  split <;> simp

@[simp] theorem timeAndQueue_shedStripe {w p : Nat} {t : Stripe} (s : State) :
    timeAndQueue (shedStripe w p t s) = timeAndQueue s := by simp [shedStripe]

@[simp] theorem timeAndQueue_chooseStripe {w : Nat} {n : Nat} (s : State) :
    timeAndQueue (chooseStripe w n s) = timeAndQueue s := by
  induction n generalizing s with
  | zero => rfl
  | succ n ih => 
    simp only [chooseStripe]
    split <;> simp [ih]

@[simp] theorem timeAndQueue_swapConfig {out into : Nat} (s : State) :
    timeAndQueue (swapConfig out into s) = timeAndQueue s := by simp [swapConfig]

@[simp] theorem timeAndQueue_portBack {out into p : Nat} (s : State) :
    timeAndQueue (portBack out into p s) = timeAndQueue s := by rfl

@[simp] theorem timeAndQueue_swapUndo {x : Swap} (s : State) :
    timeAndQueue (swapUndo x s) = timeAndQueue s := by simp [swapUndo]

@[simp] theorem timeAndQueue_repEmit {w : Nat} (s : State) : timeAndQueue (repEmit w s) = timeAndQueue s := by
  simp only [repEmit]
  repeat' split
  all_goals simp

@[simp] theorem timeAndQueue_repLine {w : Nat} {md : Int} {flags : Nat} {samples : List Nat} (s : State) :
    timeAndQueue (repLine w md flags samples s) = timeAndQueue s := by
  simp only [repLine]
  repeat' split
  all_goals simp

@[simp] theorem timeAndQueue_repFlagged {w : Nat} (s : State) : timeAndQueue (repFlagged w s) = timeAndQueue s := by
  simp only [repFlagged]
  split <;> simp

@[simp] theorem timeAndQueue_reprocClose {w : Nat} (s : State) : timeAndQueue (reprocClose w s) = timeAndQueue s := by
  simp only [reprocClose]
  split <;> simp

@[simp] theorem timeAndQueue_reprocEnd {w status : Nat} (s : State) :
    timeAndQueue (reprocEnd w status s) = timeAndQueue s := by
  simp only [reprocEnd]
  repeat' split
  all_goals simp

@[simp] theorem timeAndQueue_repSpoil {w : Nat} {r : Reproc} {md : Int} {flags n : Nat} (s : State) :
    timeAndQueue (repSpoil w r md flags n s) = timeAndQueue s := by simp [repSpoil]

@[simp] theorem timeAndQueue_repFlush {w : Nat} {r : Reproc} {next : Option Unit'} (s : State) :
    timeAndQueue (repFlush w r next s) = timeAndQueue s := by
  simp only [repFlush]
  split <;> simp

@[simp] theorem timeAndQueue_repPass {w : Nat} {r : Reproc} {x : RawLine} {last : Bool} (s : State) :
    timeAndQueue (repPass w r x last s) = timeAndQueue s := by simp [repPass]

@[simp] theorem timeAndQueue_repNext {w : Nat} {r : Reproc} (s : State) :
    timeAndQueue (repNext w r s) = timeAndQueue s := by simp [repNext]

@[simp] theorem timeAndQueue_repRead {w : Nat} {r : Reproc} {b : Nat} (s : State) :
    timeAndQueue (repRead w r b s) = timeAndQueue s := by
  simp only [repRead]
  split <;> simp

@[simp] theorem timeAndQueue_reprocServe {w : Nat} (s : State) : timeAndQueue (reprocServe w s) = timeAndQueue s := by
  simp only [reprocServe]
  repeat' split
  all_goals simp

/-! ### The knotter -/

@[simp] theorem timeAndQueue_putSlice {rep : Option Nat} {k : Nat} {x : Slice} (s : State) :
    timeAndQueue (putSlice rep k x s) = timeAndQueue s := by
  simp only [putSlice]
  split <;> simp

@[simp] theorem timeAndQueue_fullEnd {k : Nat} {r : GridRow} (s : State) :
    timeAndQueue (fullEnd k r s) = timeAndQueue s := by simp [fullEnd]

@[simp] theorem timeAndQueue_fullBegin {k : Nat} {r : GridRow} {lost : Nat} (s : State) :
    timeAndQueue (fullBegin k r lost s) = timeAndQueue s := by simp [fullBegin]

@[simp] theorem timeAndQueue_fullStep {k : Nat} {r : GridRow} {lb : Labels} (s : State) :
    timeAndQueue (fullStep k r lb s) = timeAndQueue s := by simp [fullStep]

@[simp] theorem timeAndQueue_learnStep {k : Nat} {r : GridRow} {learn : Bool} (s : State) :
    timeAndQueue (learnStep k r learn s) = timeAndQueue s := by simp [learnStep]

@[simp] theorem timeAndQueue_maxNote {r : GridRow} (s : State) :
    timeAndQueue (maxNote r s) = timeAndQueue s := by simp [maxNote]

@[simp] theorem timeAndQueue_splitRow {r : GridRow} (s : State) :
    timeAndQueue (splitRow r s) = timeAndQueue s := by simp [splitRow]

@[simp] theorem timeAndQueue_tileTake {dev : Nat} {r0 r1 c0 c1 : Int} (s : State) :
    timeAndQueue (tileTake dev r0 r1 c0 c1 s).2 = timeAndQueue s := by simp [tileTake]

@[simp] theorem timeAndQueue_latencyNote {ns : Nat} {edge : Bool} (s : State) :
    timeAndQueue (latencyNote ns edge s) = timeAndQueue s := by simp [latencyNote]

@[simp] theorem timeAndQueue_formComp {cells : List KCell} {flags : Nat} {live : Bool} {ns : Nat} {edge : Bool} (s : State) :
    timeAndQueue (formComp cells flags live ns edge s) = timeAndQueue s := by
  simp only [formComp]
  repeat' split
  all_goals simp

@[simp] theorem timeAndQueue_fragSend {side : Nat} {part split rep : Bool} {cells : List KCell} (s : State) :
    timeAndQueue (fragSend side part split rep cells s) = timeAndQueue s := by simp [fragSend]

@[simp] theorem timeAndQueue_consume {g : List Comp} (s : State) : timeAndQueue (consume g s) = timeAndQueue s := by rfl

@[simp] theorem timeAndQueue_formGroup {g : List Comp} (s : State) :
    timeAndQueue (formGroup g s) = timeAndQueue s := by simp [formGroup]

@[simp] theorem timeAndQueue_edgeSends {c : EdgeComp} (s : State) :
    timeAndQueue (edgeSends c s) = timeAndQueue s := by simp [edgeSends]

@[simp] theorem timeAndQueue_edgeMarks {c : EdgeComp} (s : State) : timeAndQueue (edgeMarks c s) = timeAndQueue s := by rfl

@[simp] theorem timeAndQueue_edgeCuts {n : Nat} (s : State) : timeAndQueue (edgeCuts n s) = timeAndQueue s := by
  induction n generalizing s with
  | zero => rfl
  | succ n ih => simp [edgeCuts, ih]

@[simp] theorem timeAndQueue_edgeCut (s : State) : timeAndQueue (edgeCut s) = timeAndQueue s := by simp [edgeCut]

@[simp] theorem timeAndQueue_edgeSpent {c : EdgeComp} {passed : Bool} (s : State) :
    timeAndQueue (edgeSpent c passed s) = timeAndQueue s := by rfl

@[simp] theorem timeAndQueue_fragAnswer {f : FragIn} (s : State) :
    timeAndQueue (fragAnswer f s) = timeAndQueue s := by simp [fragAnswer]

@[simp] theorem timeAndQueue_fragsAnswer (s : State) : timeAndQueue (fragsAnswer s) = timeAndQueue s := by simp [fragsAnswer]

@[simp] theorem timeAndQueue_formEdge {c : EdgeComp} {timeout : Bool} (s : State) :
    timeAndQueue (formEdge c timeout s) = timeAndQueue s := by simp [formEdge]

@[simp] theorem timeAndQueue_mergerBoundary {lim : Option Nat} (s : State) :
    timeAndQueue (mergerBoundary lim s) = timeAndQueue s := by simp [mergerBoundary]

/-! ### Rows of the wires -/

@[simp] theorem timeAndQueue_wireServeBody {w : Nat} (s : State) : timeAndQueue (wireServeBody w s) = timeAndQueue s := by
  simp only [wireServeBody]
  repeat' split
  all_goals simp

@[simp] theorem timeAndQueue_wireExitBody {w : Nat} (s : State) : timeAndQueue (wireExitBody w s) = timeAndQueue s := by
  unfold wireExitBody
  extract_lets s0
  have h0 : timeAndQueue s0 = timeAndQueue s := by simp [s0]
  clear_value s0
  split <;> simp [h0]

@[simp] theorem timeAndQueue_deadlineBody {w p : Nat} (s : State) :
    timeAndQueue (deadlineBody w p s) = timeAndQueue s := by simp [deadlineBody]

@[simp] theorem timeAndQueue_swapHandover {x : Swap} (s : State) :
    timeAndQueue (swapHandover x s) = timeAndQueue s := by simp [swapHandover]

@[simp] theorem timeAndQueue_swapDoneBody (s : State) : timeAndQueue (swapDoneBody s) = timeAndQueue s := by
  simp only [swapDoneBody]
  repeat' split
  all_goals simp

@[simp] theorem timeAndQueue_wireSwapStart {c : Cmd} (s : State) :
    timeAndQueue (wireSwapStart c s) = timeAndQueue s := by simp [wireSwapStart]

@[simp] theorem timeAndQueue_repSweep (s : State) : timeAndQueue (repSweep s) = timeAndQueue s := by rfl

@[simp] theorem timeAndQueue_reprocStart {c : Cmd} (s : State) :
    timeAndQueue (reprocStart c s) = timeAndQueue s := by simp [reprocStart]

@[simp] theorem timeAndQueue_stoppedTake (s : State) : timeAndQueue (stoppedTake s) = timeAndQueue s := by simp [stoppedTake]

/-! ### Rows of the converters and of calibration -/

@[simp] theorem timeAndQueue_senseBody {n : Nat} (s : State) : timeAndQueue (senseBody n s) = timeAndQueue s := by
  simp only [senseBody]
  split <;> simp

@[simp] theorem timeAndQueue_adcSelfcalStart {c : Cmd} (s : State) :
    timeAndQueue (adcSelfcalStart c s) = timeAndQueue s := by simp [adcSelfcalStart]

@[simp] theorem timeAndQueue_refChecked {n2 : Option Nat} (s : State) :
    timeAndQueue (refChecked n2 s) = timeAndQueue s := by simp [refChecked]

@[simp] theorem timeAndQueue_forcedBody {p : Nat} (s : State) :
    timeAndQueue (forcedBody p s) = timeAndQueue s := by simp [forcedBody]

@[simp] theorem timeAndQueue_calibrationEndBody {c i : Nat} {ofs : Int} {gain : Nat} {parts : List Nat} (s : State) :
    timeAndQueue (calibrationEndBody c i ofs gain parts s) = timeAndQueue s := by simp [calibrationEndBody]

@[simp] theorem timeAndQueue_calibrateRows {tests : List Bool} {c : Cmd} (s : State) :
    timeAndQueue (calibrateRows tests c s) = timeAndQueue s := by simp [calibrateRows]

@[simp] theorem timeAndQueue_calibrateStart {tests : List Bool} {c : Cmd} (s : State) :
    timeAndQueue (calibrateStart tests c s) = timeAndQueue s := by simp [calibrateStart]

@[simp] theorem timeAndQueue_storeWordFails {w : StoreWord} (s : State) :
    timeAndQueue (storeWordFails w s) = timeAndQueue s := by simp [storeWordFails]

@[simp] theorem timeAndQueue_sramEccBody {row : Nat} {uncorr : Bool} {word : Option StoreWord} {tests : List Bool}
    (s : State) : timeAndQueue (sramEccBody row uncorr word tests s) = timeAndQueue s := by
  simp only [sramEccBody]
  repeat' split
  all_goals simp

@[simp] theorem timeAndQueue_chestFails {a : Nat} (s : State) : timeAndQueue (chestFails a s) = timeAndQueue s := by
  simp only [chestFails]
  split <;> simp

@[simp] theorem timeAndQueue_rawFails {a : Nat} (s : State) : timeAndQueue (rawFails a s) = timeAndQueue s := by
  refine timeAndQueue_foldl (fun s w => ?_) _ s
  dsimp only
  repeat' split
  all_goals simp

/-! ### Rows of non-volatile storage -/

@[simp] theorem timeAndQueue_pageEndBody {sound : Bool} (s : State) :
    timeAndQueue (pageEndBody sound s) = timeAndQueue s := by
  simp only [pageEndBody]
  split <;> simp

@[simp] theorem timeAndQueue_startNvmRead {io : HostIo} {c : Cmd} (s : State) :
    timeAndQueue (startNvmRead io c s) = timeAndQueue s := by simp [startNvmRead]

@[simp] theorem timeAndQueue_startNvmWrite {d : HostRead} {c : Cmd} (s : State) :
    timeAndQueue (startNvmWrite d c s) = timeAndQueue s := by simp [startNvmWrite]

/-! ### Table images -/

@[simp] theorem timeAndQueue_setItem {k : ItemId} {st : Nat} {im : List Byte} (s : State) :
    timeAndQueue (setItem k st im s) = timeAndQueue s := by simp [setItem]

@[simp] theorem timeAndQueue_putImage {k : ItemId} {off : Nat} {bs : List Byte} (s : State) :
    timeAndQueue (putImage k off bs s) = timeAndQueue s := by simp [putImage]

@[simp] theorem timeAndQueue_setErrs {k : ItemId} {es : List Nat} (s : State) :
    timeAndQueue (setErrs k es s) = timeAndQueue s := by simp [setErrs]

@[simp] theorem timeAndQueue_putLoaded {k : ItemId} {off : Nat} {bs : List Byte} (s : State) :
    timeAndQueue (putLoaded k off bs s) = timeAndQueue s := by simp [putLoaded]

@[simp] theorem timeAndQueue_itemValid {k : ItemId} {im : List Byte} (s : State) :
    timeAndQueue (itemValid k im s) = timeAndQueue s := by simp [itemValid]

@[simp] theorem timeAndQueue_loadEnds {c : Cmd} (s : State) :
    timeAndQueue (loadEnds c s) = timeAndQueue s := by simp [loadEnds]

@[simp] theorem timeAndQueue_loadRead {d : HostRead} {c : Cmd} (s0 : State) :
    timeAndQueue (loadRead d c s0) = timeAndQueue s0 := by
  simp only [loadRead]
  split <;> simp

@[simp] theorem timeAndQueue_startLoad {d : HostRead} {c : Cmd} (s : State) :
    timeAndQueue (startLoad d c s) = timeAndQueue s := by simp [startLoad]

/-! ### Rows of the host -/

@[simp] theorem timeAndQueue_addCmd {c : Cmd} (s : State) : timeAndQueue (addCmd c s) = timeAndQueue s := by rfl

@[simp] theorem timeAndQueue_forwardCmd {dev : Nat} {c : Cmd} (s : State) :
    timeAndQueue (forwardCmd dev c s) = timeAndQueue s := by simp [forwardCmd]

@[simp] theorem timeAndQueue_sendAway {target : Nat} {c : Cmd} (s : State) :
    timeAndQueue (sendAway target c s) = timeAndQueue s := by simp [sendAway]

@[simp] theorem timeAndQueue_awayPump {sq : Nat} {n : Nat} (s : State) : timeAndQueue (awayPump sq n s) = timeAndQueue s := by
  induction n generalizing s with
  | zero => rfl
  | succ n ih => 
    simp only [awayPump]
    split <;> simp [ih]

@[simp] theorem timeAndQueue_takePacket {sq target : Nat} {bs : List Byte} (s : State) :
    timeAndQueue (takePacket sq target bs s) = timeAndQueue s := by simp [takePacket]

@[simp] theorem timeAndQueue_fetchBody {sq : Nat} {f : Fetched} (s : State) :
    timeAndQueue (fetchBody sq f s) = timeAndQueue s := by
  simp only [fetchBody]
  repeat' split
  all_goals simp

@[simp] theorem timeAndQueue_interimBody {sq : Nat} {tag : W32} (s : State) :
    timeAndQueue (interimBody sq tag s) = timeAndQueue s := by
  simp only [interimBody]
  repeat' split
  all_goals simp

@[simp] theorem timeAndQueue_pair0Make (s : State) : timeAndQueue (pair0Make s) = timeAndQueue s := by rfl

@[simp] theorem timeAndQueue_pair0Drop (s : State) : timeAndQueue (pair0Drop s) = timeAndQueue s := by simp [pair0Drop]

@[simp] theorem timeAndQueue_q0Fields {v : Nat} (s : State) : timeAndQueue (q0Fields v s) = timeAndQueue s := by rfl

@[simp] theorem timeAndQueue_q0ClearFault {v : Nat} (s : State) : timeAndQueue (q0ClearFault v s) = timeAndQueue s := by rfl

@[simp] theorem timeAndQueue_q0CtrlWrite {v : Nat} (s : State) :
    timeAndQueue (q0CtrlWrite v s) = timeAndQueue s := by simp [q0CtrlWrite]

@[simp] theorem timeAndQueue_ringFault {cause kind n : Nat} (s : State) :
    timeAndQueue (ringFault cause kind n s) = timeAndQueue s := by simp [ringFault]

@[simp] theorem timeAndQueue_sqTailBody {q : Nat} {v : W32} (s : State) :
    timeAndQueue (sqTailBody q v s) = timeAndQueue s := by
  simp only [sqTailBody]
  split <;> simp

@[simp] theorem timeAndQueue_cqHeadBody {q : Nat} {v : W32} (s : State) :
    timeAndQueue (cqHeadBody q v s) = timeAndQueue s := by
  simp only [cqHeadBody]
  split <;> simp

@[simp] theorem timeAndQueue_srHeadBody {r : Nat} {v : W32} (s : State) :
    timeAndQueue (srHeadBody r v s) = timeAndQueue s := by
  simp only [srHeadBody]
  split <;> simp

@[simp] theorem timeAndQueue_evtHeadBody {e : Nat} {v : W32} (s : State) :
    timeAndQueue (evtHeadBody e v s) = timeAndQueue s := by
  simp only [evtHeadBody]
  split <;> simp

@[simp] theorem timeAndQueue_dqHeadBody {v : Nat} (s : State) : timeAndQueue (dqHeadBody v s) = timeAndQueue s := by
  simp only [dqHeadBody]
  split <;> simp

@[simp] theorem timeAndQueue_dbWrite {own : Bool} {off v : Nat} (s : State) :
    timeAndQueue (dbWrite own off v s) = timeAndQueue s := by simp [dbWrite]

@[simp] theorem timeAndQueue_pageBody {dev off v : Nat} (s : State) :
    timeAndQueue (pageBody dev off v s) = timeAndQueue s := by simp [pageBody]

@[simp] theorem timeAndQueue_bar2BaseBody {v : Nat} (s : State) :
    timeAndQueue (bar2BaseBody v s) = timeAndQueue s := by simp [bar2BaseBody]

@[simp] theorem timeAndQueue_hbmWindow {off addr : Nat} {acc : Bar2} (s : State) :
    timeAndQueue (hbmWindow off addr acc s) = timeAndQueue s := by
  simp only [hbmWindow]
  split <;> simp

@[simp] theorem timeAndQueue_bar2Sent {dev : Nat} {acc : Bar2} (s : State) :
    timeAndQueue (bar2Sent dev acc s) = timeAndQueue s := by
  simp only [bar2Sent]
  split <;> simp

@[simp] theorem timeAndQueue_bar2Remote {dev off addr : Nat} {acc : Bar2} (s : State) :
    timeAndQueue (bar2Remote dev off addr acc s) = timeAndQueue s := by
  simp only [bar2Remote]
  repeat' split
  all_goals simp

@[simp] theorem timeAndQueue_evtGrpBody {g v : Nat} (s : State) :
    timeAndQueue (evtGrpBody g v s) = timeAndQueue s := by simp [evtGrpBody]

@[simp] theorem timeAndQueue_pendClear {w : Nat} {v : W32} (s : State) :
    timeAndQueue (pendClear w v s) = timeAndQueue s := by rfl

@[simp] theorem timeAndQueue_evtPendBody {w : Nat} {v : W32} {met : Option (Fin 32 × BitVec 8 × W32)} (s : State) :
    timeAndQueue (evtPendBody w v met s) = timeAndQueue s := by
  simp only [evtPendBody]
  split <;> simp

@[simp] theorem timeAndQueue_mirrorDq {n : Nat} (s : State) : timeAndQueue (mirrorDq n s) = timeAndQueue s := by
  simp only [mirrorDq]
  split <;> simp

@[simp] theorem timeAndQueue_mirrorSr {n : Nat} (s : State) : timeAndQueue (mirrorSr n s) = timeAndQueue s := by
  simp only [mirrorSr]
  split <;> simp

@[simp] theorem timeAndQueue_mirrorBody {r : MirrorRing} (s : State) : timeAndQueue (mirrorBody r s) = timeAndQueue s := by
  simp only [mirrorBody]
  split <;> simp

@[simp] theorem timeAndQueue_makeRing {p : List Byte} (s : State) : timeAndQueue (makeRing p s) = timeAndQueue s := by
  simp only [makeRing]
  split <;> simp

@[simp] theorem timeAndQueue_queueCreateStart {c : Cmd} (s : State) :
    timeAndQueue (queueCreateStart c s) = timeAndQueue s := by simp [queueCreateStart]

@[simp] theorem timeAndQueue_queueRecsGone {n : Nat} (s : State) : timeAndQueue (queueRecsGone n s) = timeAndQueue s := by rfl

@[simp] theorem timeAndQueue_dropRing {kind n : Nat} (s : State) : timeAndQueue (dropRing kind n s) = timeAndQueue s := by
  simp only [dropRing]
  split <;> simp

@[simp] theorem timeAndQueue_queueDeleteStart {c : Cmd} (s : State) :
    timeAndQueue (queueDeleteStart c s) = timeAndQueue s := by
  simp only [queueDeleteStart]
  repeat' split
  all_goals simp

@[simp] theorem timeAndQueue_echoStart {c : Cmd} (s : State) :
    timeAndQueue (echoStart c s) = timeAndQueue s := by simp [echoStart]

@[simp] theorem timeAndQueue_progressStart {c : Cmd} (s : State) : timeAndQueue (progressStart c s) = timeAndQueue s := by
  simp only [progressStart]
  split <;> simp

/-! ### Temperatures and the governor -/

@[simp] theorem timeAndQueue_updTherm {f : Therm → Therm} (s : State) : timeAndQueue (updTherm f s) = timeAndQueue s := by rfl

@[simp] theorem timeAndQueue_stepChange {new : Nat} (s : State) :
    timeAndQueue (stepChange new s) = timeAndQueue s := by simp [stepChange]

@[simp] theorem timeAndQueue_governor (s : State) : timeAndQueue (governor s) = timeAndQueue s := by simp [governor]

@[simp] theorem timeAndQueue_stepMinTaken (s : State) :
    timeAndQueue (stepMinTaken s) = timeAndQueue s := by simp [stepMinTaken]

@[simp] theorem timeAndQueue_warning (s : State) : timeAndQueue (warning s) = timeAndQueue s := by simp [warning]

@[simp] theorem timeAndQueue_haltDryer {p : Nat} (s0 : State) :
    timeAndQueue (haltDryer p s0) = timeAndQueue s0 := by simp [haltDryer]

@[simp] theorem timeAndQueue_haltAll (s : State) : timeAndQueue (haltAll s) = timeAndQueue s := by simp [haltAll]

@[simp] theorem timeAndQueue_stopBist (s : State) : timeAndQueue (stopBist s) = timeAndQueue s := by
  simp only [stopBist]
  split <;> simp

@[simp] theorem timeAndQueue_tripCommands (s : State) :
    timeAndQueue (tripCommands s) = timeAndQueue s := by simp [tripCommands]

@[simp] theorem timeAndQueue_trip (s : State) : timeAndQueue (trip s) = timeAndQueue s := by simp [trip]

@[simp] theorem timeAndQueue_nvmWindow (s : State) : timeAndQueue (nvmWindow s) = timeAndQueue s := by
  simp only [nvmWindow]
  split <;> simp

@[simp] theorem timeAndQueue_calDueEl {c i : Nat} (s : State) :
    timeAndQueue (calDueEl c i s) = timeAndQueue s := by simp [calDueEl]

@[simp] theorem timeAndQueue_calDue (s : State) : timeAndQueue (calDue s) = timeAndQueue s := by simp [calDue]

@[simp] theorem timeAndQueue_sensorEvents {v : List Verdict} {i : Nat} (s : State) :
    timeAndQueue (sensorEvents v i s) = timeAndQueue s := by
  simp only [sensorEvents]
  split <;> simp

@[simp] theorem timeAndQueue_senseAll {now : List Int} (s : State) :
    timeAndQueue (senseAll now s) = timeAndQueue s := by simp [senseAll]

@[simp] theorem timeAndQueue_actThermal (s : State) : timeAndQueue (actThermal s) = timeAndQueue s := by simp [actThermal]

@[simp] theorem timeAndQueue_thermalBody {temps : List Int} (s : State) :
    timeAndQueue (thermalBody temps s) = timeAndQueue s := by simp [thermalBody]

/-! ### Serial ports and GPIO -/

@[simp] theorem timeAndQueue_spmCtrlWrite {n v : Nat} (s : State) :
    timeAndQueue (spmCtrlWrite n v s) = timeAndQueue s := by simp [spmCtrlWrite]

@[simp] theorem timeAndQueue_masterDoneBody {n : Nat} {data : List Byte} (s : State) :
    timeAndQueue (masterDoneBody n data s) = timeAndQueue s := by
  simp only [masterDoneBody]
  split <;> simp

@[simp] theorem timeAndQueue_inhibitTake (s : State) : timeAndQueue (inhibitTake s) = timeAndQueue s := by rfl

@[simp] theorem timeAndQueue_viewFill (s : State) : timeAndQueue (viewFill s) = timeAndQueue s := by simp [viewFill]

@[simp] theorem timeAndQueue_viewRefreshBody (s : State) :
    timeAndQueue (viewRefreshBody s) = timeAndQueue s := by simp [viewRefreshBody]

@[simp] theorem timeAndQueue_frameAborts {n edges : Nat} (s : State) :
    timeAndQueue (frameAborts n edges s) = timeAndQueue s := by simp [frameAborts]

@[simp] theorem timeAndQueue_slaveReadBody {n reg edges : Nat} {late : Bool} (s : State) :
    timeAndQueue (slaveReadBody n reg edges late s) = timeAndQueue s := by simp [slaveReadBody]

@[simp] theorem timeAndQueue_slaveWriteBody {n reg edges : Nat} {vs : List Byte} (s : State) :
    timeAndQueue (slaveWriteBody n reg edges vs s) = timeAndQueue s := by simp [slaveWriteBody]

@[simp] theorem timeAndQueue_gpioRises {n : Nat} (s : State) :
    timeAndQueue (gpioRises n s) = timeAndQueue s := by simp [gpioRises]

@[simp] theorem timeAndQueue_gpioTake {n : Nat} (s : State) :
    timeAndQueue (gpioTake n s) = timeAndQueue s := by simp [gpioTake]

@[simp] theorem timeAndQueue_gpioSettle {n : Nat} (s : State) : timeAndQueue (gpioSettle n s) = timeAndQueue s := by
  simp only [gpioSettle]
  split <;> simp

@[simp] theorem timeAndQueue_gpioFilters (s : State) : timeAndQueue (gpioFilters s) = timeAndQueue s := by simp [gpioFilters]

@[simp] theorem timeAndQueue_gpioEdgeBody {n : Nat} {level : Bool} (s : State) :
    timeAndQueue (gpioEdgeBody n level s) = timeAndQueue s := by simp [gpioEdgeBody]

@[simp] theorem timeAndQueue_strobeEndBody {n : Nat} (s : State) : timeAndQueue (strobeEndBody n s) = timeAndQueue s := by
  simp only [strobeEndBody]
  split <;> simp

/-! ### Configuration -/

@[simp] theorem timeAndQueue_encoderTook {old : State} {e : Nat} (s : State) :
    timeAndQueue (encoderTook old e s) = timeAndQueue s := by simp [encoderTook]

@[simp] theorem timeAndQueue_layoutTook {old : State} (s0 : State) :
    timeAndQueue (layoutTook old s0) = timeAndQueue s0 := by simp [layoutTook]

@[simp] theorem timeAndQueue_tookAt {old : State} {g : Tbl Nat} {part : Nat × Nat} (s : State) :
    timeAndQueue (tookAt old g part s) = timeAndQueue s := by
  simp only [tookAt]
  split <;> simp

@[simp] theorem timeAndQueue_handOver {g : Tbl Nat} (s : State) :
    timeAndQueue (handOver g s) = timeAndQueue s := by simp [handOver]

@[simp] theorem timeAndQueue_stageData {c : Cmd} {bs : List Byte} (s : State) :
    timeAndQueue (stageData c bs s) = timeAndQueue s := by simp [stageData]

@[simp] theorem timeAndQueue_stageAwayData {c : Cmd} {bs : List Byte} (s : State) :
    timeAndQueue (stageAwayData c bs s) = timeAndQueue s := by simp [stageAwayData]

@[simp] theorem timeAndQueue_cfgStageStart {d : HostRead} {c : Cmd} (s : State) :
    timeAndQueue (cfgStageStart d c s) = timeAndQueue s := by simp [cfgStageStart]

@[simp] theorem timeAndQueue_closeGroup {g : Nat} (s : State) : timeAndQueue (closeGroup g s) = timeAndQueue s := by rfl

@[simp] theorem timeAndQueue_commitStart {c : Cmd} (s : State) :
    timeAndQueue (commitStart c s) = timeAndQueue s := by simp [commitStart]

@[simp] theorem timeAndQueue_commitEnds {c : Cmd} (s : State) : timeAndQueue (commitEnds c s) = timeAndQueue s := by
  simp only [commitEnds]
  repeat' split
  all_goals simp

@[simp] theorem timeAndQueue_discardStart {c : Cmd} (s : State) :
    timeAndQueue (discardStart c s) = timeAndQueue s := by simp [discardStart]

@[simp] theorem timeAndQueue_cfgReadStart {io : HostIo} {c : Cmd} (s : State) :
    timeAndQueue (cfgReadStart io c s) = timeAndQueue s := by
  simp only [cfgReadStart]
  repeat' split
  all_goals simp

@[simp] theorem timeAndQueue_boundaryTake {blk inst : Nat} (s : State) :
    timeAndQueue (boundaryTake blk inst s) = timeAndQueue s := by
  simp only [boundaryTake]
  repeat' split
  all_goals simp

/-! ### Stopping a command -/

@[simp] theorem timeAndQueue_stopLoad {c : Cmd} (s : State) :
    timeAndQueue (stopLoad c s) = timeAndQueue s := by simp [stopLoad]

@[simp] theorem timeAndQueue_stopPortStop {c : Cmd} (s : State) :
    timeAndQueue (stopPortStop c s) = timeAndQueue s := by simp [stopPortStop]

@[simp] theorem timeAndQueue_stopShutter {c : Cmd} (s : State) :
    timeAndQueue (stopShutter c s) = timeAndQueue s := by simp [stopShutter]

@[simp] theorem timeAndQueue_stopMarkFire {c : Cmd} (s : State) :
    timeAndQueue (stopMarkFire c s) = timeAndQueue s := by simp [stopMarkFire]

@[simp] theorem timeAndQueue_withdrawRecord {id : Nat} (s : State) :
    timeAndQueue (withdrawRecord id s) = timeAndQueue s := by rfl

@[simp] theorem timeAndQueue_stopWriter {c : Cmd} (s : State) :
    timeAndQueue (stopWriter c s) = timeAndQueue s := by simp [stopWriter]

@[simp] theorem timeAndQueue_stopStage {c : Cmd} (s : State) :
    timeAndQueue (stopStage c s) = timeAndQueue s := by simp [stopStage]

@[simp] theorem timeAndQueue_stopActivate {c : Cmd} (s : State) :
    timeAndQueue (stopActivate c s) = timeAndQueue s := by simp [stopActivate]

@[simp] theorem timeAndQueue_stopCalibrate {c : Cmd} (s : State) :
    timeAndQueue (stopCalibrate c s) = timeAndQueue s := by simp [stopCalibrate]

@[simp] theorem timeAndQueue_stopSelfcal {c : Cmd} (s : State) :
    timeAndQueue (stopSelfcal c s) = timeAndQueue s := by simp [stopSelfcal]

@[simp] theorem timeAndQueue_stopSwap {c : Cmd} (s : State) : timeAndQueue (stopSwap c s) = timeAndQueue s := by
  simp only [stopSwap]
  split <;> simp

@[simp] theorem timeAndQueue_stopEffect {c : Cmd} (s : State) : timeAndQueue (stopEffect c s) = timeAndQueue s := by
  simp only [stopEffect]
  repeat' split
  all_goals simp

@[simp] theorem timeAndQueue_abortStart {c : Cmd} (s : State) : timeAndQueue (abortStart c s) = timeAndQueue s := by
  simp only [abortStart]
  split <;> simp

@[simp] theorem timeAndQueue_tenderStop {t cause : Nat} {but : Option Nat} (s : State) :
    timeAndQueue (tenderStop t cause but s) = timeAndQueue s := by simp [tenderStop]

@[simp] theorem timeAndQueue_heldComplete (s : State) :
    timeAndQueue (heldComplete s) = timeAndQueue s := by simp [heldComplete]

@[simp] theorem timeAndQueue_tenderEnd {t : Nat} (s : State) :
    timeAndQueue (tenderEnd t s) = timeAndQueue s := by simp [tenderEnd]

@[simp] theorem timeAndQueue_activateStart {image : List Byte} {c : Cmd} (s : State) :
    timeAndQueue (activateStart image c s) = timeAndQueue s := by simp [activateStart]

@[simp] theorem timeAndQueue_activateGo {c : Cmd} (s : State) :
    timeAndQueue (activateGo c s) = timeAndQueue s := by simp [activateGo]

/-! ### Rows of the knotter, the reels and the history ring -/

@[simp] theorem timeAndQueue_sliceRun {k : Nat} {r : GridRow} (s : State) :
    timeAndQueue (sliceRun k r s) = timeAndQueue s := by simp [sliceRun]

@[simp] theorem timeAndQueue_knotIdle (s : State) : timeAndQueue (knotIdle s) = timeAndQueue s := by simp [knotIdle]

@[simp] theorem timeAndQueue_knotterRowBody {k : Nat} (s : State) : timeAndQueue (knotterRowBody k s) = timeAndQueue s := by
  simp only [knotterRowBody]
  split <;> simp

@[simp] theorem timeAndQueue_mergerUnder {g : List Comp} (s : State) : timeAndQueue (mergerUnder g s) = timeAndQueue s := by
  simp only [mergerUnder]
  split <;> simp

@[simp] theorem timeAndQueue_mergerBody (s : State) : timeAndQueue (mergerBody s) = timeAndQueue s := by
  simp only [mergerBody]
  split <;> simp

@[simp] theorem timeAndQueue_fragBody {k : Nat} {cells : List FragCell} {part split : Bool} (s : State) :
    timeAndQueue (fragBody k cells part split s) = timeAndQueue s := by
  simp only [fragBody]
  split <;> simp

@[simp] theorem timeAndQueue_mergeTimeoutBody (s : State) : timeAndQueue (mergeTimeoutBody s) = timeAndQueue s := by
  simp only [mergeTimeoutBody]
  split <;> simp

@[simp] theorem timeAndQueue_tileWriteBody (s : State) : timeAndQueue (tileWriteBody s) = timeAndQueue s := by
  simp only [tileWriteBody]
  split <;> simp

@[simp] theorem timeAndQueue_recordBody (s : State) : timeAndQueue (recordBody s) = timeAndQueue s := by
  simp only [recordBody]
  repeat' split
  all_goals simp

@[simp] theorem timeAndQueue_histLookupBody {v : Nat} (s : State) :
    timeAndQueue (histLookupBody v s) = timeAndQueue s := by rfl

@[simp] theorem timeAndQueue_reelHoldBody {r : Nat} (s : State) : timeAndQueue (reelHoldBody r s) = timeAndQueue s := by
  simp only [reelHoldBody]
  repeat' split
  all_goals simp

/-! ### Rows of the watermark drive -/

@[simp] theorem timeAndQueue_retryBody {n : Nat} (s : State) : timeAndQueue (retryBody n s) = timeAndQueue s := by
  simp only [retryBody]
  split <;> simp

@[simp] theorem timeAndQueue_peakEndBody {n ma : Nat} (s : State) : timeAndQueue (peakEndBody n ma s) = timeAndQueue s := by
  simp only [peakEndBody]
  split <;> simp

@[simp] theorem timeAndQueue_driveEndBody {n : Nat} (s : State) : timeAndQueue (driveEndBody n s) = timeAndQueue s := by
  simp only [driveEndBody]
  split <;> simp

@[simp] theorem timeAndQueue_raiseSwitches {cause detail : Nat} (s : State) :
    timeAndQueue (raiseSwitches cause detail s) = timeAndQueue s := by simp [raiseSwitches]

@[simp] theorem timeAndQueue_valveSupply {v : Nat} {held : Bool} (s : State) :
    timeAndQueue (valveSupply v held s) = timeAndQueue s := by rfl

@[simp] theorem timeAndQueue_vvalveOut {v : Nat} (s : State) :
    timeAndQueue (vvalveOut v s) = timeAndQueue s := by simp [vvalveOut]

@[simp] theorem timeAndQueue_vvalveOk {v : Nat} (s : State) :
    timeAndQueue (vvalveOk v s) = timeAndQueue s := by simp [vvalveOk]

@[simp] theorem timeAndQueue_vvalveReady (s : State) : timeAndQueue (vvalveReady s) = timeAndQueue s := by simp [vvalveReady]

@[simp] theorem timeAndQueue_markFireStart {c : Cmd} (s : State) :
    timeAndQueue (markFireStart c s) = timeAndQueue s := by simp [markFireStart]

/-! ### Registers that a read clears -/

@[simp] theorem timeAndQueue_rcClear {off : Nat} (s : State) :
    timeAndQueue (rcClear off s) = timeAndQueue s := (rcClear_countersOnly _ _).timeAndQueue

/-! ### Register accesses -/

@[simp] theorem timeAndQueue_lowHalf {off : Nat} (s : State) : timeAndQueue (lowHalf off s).2 = timeAndQueue s := by rfl

@[simp] theorem timeAndQueue_highHalf {off span : Nat} (s : State) :
    timeAndQueue (highHalf off span s).2 = timeAndQueue s := by
  simp only [highHalf]
  split <;> simp

@[simp] theorem timeAndQueue_read32 {off span : Nat} (s : State) :
    timeAndQueue (read32 off span s).2 = timeAndQueue s := by simp [read32]

@[simp] theorem timeAndQueue_regRead {size off span : Nat} (s : State) :
    timeAndQueue (regRead size off span s).2 = timeAndQueue s := by simp [regRead]

@[simp] theorem timeAndQueue_write64 {off v : Nat} (s : State) :
    timeAndQueue (write64 off v s) = timeAndQueue s := by simp [write64]

@[simp] theorem timeAndQueue_glbStatusWrite {v : Nat} (s : State) :
    timeAndQueue (glbStatusWrite v s) = timeAndQueue s := by rfl

@[simp] theorem timeAndQueue_supplyWrite {v : Nat} (s : State) :
    timeAndQueue (supplyWrite v s) = timeAndQueue s := by simp [supplyWrite]

@[simp] theorem timeAndQueue_write32Reg {off v : Nat} (s : State) : timeAndQueue (write32Reg off v s) = timeAndQueue s := by
  simp only [write32Reg]
  split <;> simp

@[simp] theorem timeAndQueue_write32 {off v : Nat} (s : State) :
    timeAndQueue (write32 off v s) = timeAndQueue s := by simp [write32]

@[simp] theorem timeAndQueue_regWrite {size off v : Nat} (s : State) :
    timeAndQueue (regWrite size off v s) = timeAndQueue s := by simp [regWrite]

@[simp] theorem timeAndQueue_regLocal {off span : Nat} {acc : RegAccess} (s : State) :
    timeAndQueue (regLocal off span acc s) = timeAndQueue s := by
  simp only [regLocal]
  split <;> simp

@[simp] theorem timeAndQueue_noAnswer {acc : RegAccess} (s : State) : timeAndQueue (noAnswer acc s) = timeAndQueue s := by
  simp only [noAnswer]
  split <;> simp

@[simp] theorem timeAndQueue_forwardBody {sel off : Nat} {acc : RegAccess} (s : State) :
    timeAndQueue (forwardBody sel off acc s) = timeAndQueue s := by simp [forwardBody]

@[simp] theorem timeAndQueue_pageWrite {size off v : Nat} (s : State) :
    timeAndQueue (pageWrite size off v s) = timeAndQueue s := by simp [pageWrite]

@[simp] theorem timeAndQueue_bar0Serve {sel off : Nat} {acc : RegAccess} (s : State) :
    timeAndQueue (bar0Serve sel off acc s) = timeAndQueue s := by
  simp only [bar0Serve]
  repeat' split
  all_goals simp

@[simp] theorem timeAndQueue_bar0Access {off : Nat} {acc : RegAccess} (s : State) :
    timeAndQueue (bar0Access off acc s) = timeAndQueue s := by
  simp only [bar0Access]
  split <;> simp

@[simp] theorem timeAndQueue_readsRelease (s : State) :
    timeAndQueue (readsRelease s) = timeAndQueue s := by simp [readsRelease]

@[simp] theorem timeAndQueue_bar2Landed {dev : Nat} (s : State) :
    timeAndQueue (bar2Landed dev s) = timeAndQueue s := by simp [bar2Landed]

@[simp] theorem timeAndQueue_msixFlush {v : Nat} (s : State) :
    timeAndQueue (msixFlush v s) = timeAndQueue s := by simp [msixFlush]

@[simp] theorem timeAndQueue_bar4Put {off v : Nat} (s : State) :
    timeAndQueue (bar4Put off v s) = timeAndQueue s := by simp [bar4Put]

@[simp] theorem timeAndQueue_bar4Access {off : Nat} {acc : RegAccess} (s : State) :
    timeAndQueue (bar4Access off acc s) = timeAndQueue s := by
  simp only [bar4Access]
  repeat' split
  all_goals simp

@[simp] theorem timeAndQueue_barAccess {bar : HostBar} {off : Nat} {acc : RegAccess} (s : State) :
    timeAndQueue (barAccess bar off acc s) = timeAndQueue s := by
  simp only [barAccess]
  split <;> simp

/-! ### IDENTIFY -/

@[simp] theorem timeAndQueue_startIdentify {io : HostIo} {c : Cmd} (s : State) :
    timeAndQueue (startIdentify io c s) = timeAndQueue s := by simp [startIdentify]

/-! ### Self-test -/

@[simp] theorem timeAndQueue_bistBegin {cid : Option Nat} {blk inst mask : Nat} (s : State) :
    timeAndQueue (bistBegin cid blk inst mask s) = timeAndQueue s := by simp [bistBegin]

@[simp] theorem timeAndQueue_startBist {c : Cmd} (s : State) :
    timeAndQueue (startBist c s) = timeAndQueue s := by simp [startBist]

@[simp] theorem timeAndQueue_bistRepair {rs : List W32} {ts : List Bool} {n : Nat} {ok : Bool} (s : State) :
    timeAndQueue (bistRepair rs ts n ok s).2.2 = timeAndQueue s := by
  induction rs generalizing ts n ok s with
  | nil => rfl
  | cons r rs ih => simp [bistRepair, ih]

@[simp] theorem timeAndQueue_bistEnd {r : BistRun} (s : State) : timeAndQueue (bistEnd r s) = timeAndQueue s := by
  simp only [bistEnd]
  split <;> simp

@[simp] theorem timeAndQueue_bistBlock {sig : List Byte} {rows : List W32} {tests : List Bool} (s : State) :
    timeAndQueue (bistBlock sig rows tests s) = timeAndQueue s := by
  simp only [bistBlock]
  repeat' split
  all_goals simp

@[simp] theorem timeAndQueue_sparePeriod (s : State) : timeAndQueue (sparePeriod s) = timeAndQueue s := by
  simp only [sparePeriod]
  split <;> simp

/-! ### The map of the chain and its time -/

@[simp] theorem timeAndQueue_updChain {f : Chain → Chain} (s : State) : timeAndQueue (updChain f s) = timeAndQueue s := by rfl

@[simp] theorem timeAndQueue_updFelt {k : Nat} {f : FeltPort → FeltPort} (s : State) :
    timeAndQueue (updFelt k f s) = timeAndQueue s := by rfl

@[simp] theorem timeAndQueue_feltNb {k ptype : Nat} {payload : List Byte} (s : State) :
    timeAndQueue (feltNb k ptype payload s) = timeAndQueue s := by simp [feltNb]

@[simp] theorem timeAndQueue_tbStep {n : Nat} (s : State) : timeAndQueue (tbStep n s) = timeAndQueue s := by simp [tbStep]

@[simp] theorem timeAndQueue_setSync {ok : Bool} (s : State) :
    timeAndQueue (setSync ok s) = timeAndQueue s := by simp [setSync]

@[simp] theorem timeAndQueue_probe {hd : List Byte} {tb : W64} {path : List Byte} {k : Fin 4} (s : State) :
    timeAndQueue (probe hd tb path s k) = timeAndQueue s := by
  simp only [probe]
  split <;> simp

@[simp] theorem timeAndQueue_probeAll {mode : Nat} (s : State) :
    timeAndQueue (probeAll mode s) = timeAndQueue s := by simp [probeAll]

@[simp] theorem timeAndQueue_searchBegin {cid : Option Nat} {mode : Nat} (s : State) :
    timeAndQueue (searchBegin cid mode s) = timeAndQueue s := by simp [searchBegin]

@[simp] theorem timeAndQueue_portsLearn {e : MapEntry} (s : State) :
    timeAndQueue (portsLearn e s) = timeAndQueue s := by simp [portsLearn]

@[simp] theorem timeAndQueue_joinSend {d step : Nat} (s : State) :
    timeAndQueue (joinSend d step s) = timeAndQueue s := by simp [joinSend]

@[simp] theorem timeAndQueue_mapTaken {step : Nat} (s : State) :
    timeAndQueue (mapTaken step s) = timeAndQueue s := by simp [mapTaken]

@[simp] theorem timeAndQueue_searchFull (s : State) : timeAndQueue (searchFull s) = timeAndQueue s := by simp [searchFull]

@[simp] theorem timeAndQueue_searchVerify (s : State) :
    timeAndQueue (searchVerify s) = timeAndQueue s := by simp [searchVerify]

@[simp] theorem timeAndQueue_searchEnd {mode : Nat} (s : State) :
    timeAndQueue (searchEnd mode s) = timeAndQueue s := by simp [searchEnd]

@[simp] theorem timeAndQueue_mapStore (s : State) : timeAndQueue (mapStore s) = timeAndQueue s := by simp [mapStore]

@[simp] theorem timeAndQueue_autoSearch (s : State) : timeAndQueue (autoSearch s) = timeAndQueue s := by
  simp only [autoSearch]
  split <;> simp

@[simp] theorem timeAndQueue_startEnum {c : Cmd} (s : State) :
    timeAndQueue (startEnum c s) = timeAndQueue s := by simp [startEnum]

@[simp] theorem timeAndQueue_contEnum {io : HostIo} {c : Cmd} (s : State) :
    timeAndQueue (contEnum io c s) = timeAndQueue s := by
  simp only [contEnum]
  split <;> simp

/-! ### Rows of the felt -/

@[simp] theorem timeAndQueue_relay {k : Nat} {h : RouteHdr} {ptype : Nat} {payload : List Byte} (s : State) :
    timeAndQueue (relay k h ptype payload s) = timeAndQueue s := by simp [relay]

@[simp] theorem timeAndQueue_routed {k : Nat} {h : RouteHdr} {ptype : Nat} {payload : List Byte} {act : State → State}
    (hact : ∀ u, timeAndQueue (act u) = timeAndQueue u) (s : State) :
    timeAndQueue (routed k h ptype payload act s) = timeAndQueue s := by simp [routed, hact]

@[simp] theorem timeAndQueue_portShift {k : Nat} {up : Bool} (s : State) :
    timeAndQueue (portShift k up s) = timeAndQueue s := by simp [portShift]

@[simp] theorem timeAndQueue_markForeign {k : Nat} {serial : List Byte} (s : State) :
    timeAndQueue (markForeign k serial s) = timeAndQueue s := by simp [markForeign]

@[simp] theorem timeAndQueue_markLoop {k : Nat} (s : State) :
    timeAndQueue (markLoop k s) = timeAndQueue s := by simp [markLoop]

@[simp] theorem timeAndQueue_learnNb {k : Nat} {m : EnumMsg} (s : State) :
    timeAndQueue (learnNb k m s) = timeAndQueue s := by simp [learnNb]

@[simp] theorem timeAndQueue_enumReply {k : Fin 4} {m : EnumMsg} (s : State) :
    timeAndQueue (enumReply k m s) = timeAndQueue s := by simp [enumReply]

@[simp] theorem timeAndQueue_probeOn {k : Fin 4} {m : EnumMsg} (s : State) :
    timeAndQueue (probeOn k m s) = timeAndQueue s := by simp [probeOn]

@[simp] theorem timeAndQueue_probeTaken {k : Fin 4} {m : EnumMsg} (s : State) :
    timeAndQueue (probeTaken k m s) = timeAndQueue s := by simp [probeTaken]

@[simp] theorem timeAndQueue_enumFound {m : EnumMsg} (s : State) : timeAndQueue (enumFound m s) = timeAndQueue s := by
  simp only [enumFound]
  repeat' split
  all_goals simp

@[simp] theorem timeAndQueue_replyTaken {k : Nat} {m : EnumMsg} (s : State) :
    timeAndQueue (replyTaken k m s) = timeAndQueue s := by simp [replyTaken]

@[simp] theorem timeAndQueue_enumBody {k : Fin 4} {m : EnumMsg} (s : State) :
    timeAndQueue (enumBody k m s) = timeAndQueue s := by simp [enumBody]

@[simp] theorem timeAndQueue_syncRequest {k t1 : Nat} (s : State) :
    timeAndQueue (syncRequest k t1 s) = timeAndQueue s := by simp [syncRequest]

@[simp] theorem timeAndQueue_syncReply {k t1 t2 t3 : Nat} (s : State) :
    timeAndQueue (syncReply k t1 t2 t3 s) = timeAndQueue s := by simp [syncReply]

@[simp] theorem timeAndQueue_syncExchange (s : State) : timeAndQueue (syncExchange s) = timeAndQueue s := by
  simp only [syncExchange]
  split <;> simp

@[simp] theorem timeAndQueue_syncJudge (s : State) : timeAndQueue (syncJudge s) = timeAndQueue s := by simp [syncJudge]

@[simp] theorem timeAndQueue_syncUpdate (s : State) : timeAndQueue (syncUpdate s) = timeAndQueue s := by simp [syncUpdate]

@[simp] theorem timeAndQueue_autoProbe (s : State) : timeAndQueue (autoProbe s) = timeAndQueue s := by
  simp only [autoProbe]
  split <;> simp

@[simp] theorem timeAndQueue_syncAverage (s : State) : timeAndQueue (syncAverage s) = timeAndQueue s := by simp [syncAverage]

@[simp] theorem timeAndQueue_parentLost (s : State) : timeAndQueue (parentLost s) = timeAndQueue s := by
  simp only [parentLost]
  split <;> simp

@[simp] theorem timeAndQueue_encDown {x : EncSample} (s : State) :
    timeAndQueue (encDown x s) = timeAndQueue s := by simp [encDown]

@[simp] theorem timeAndQueue_encSend (s : State) : timeAndQueue (encSend s) = timeAndQueue s := by simp [encSend]

@[simp] theorem timeAndQueue_encTaken {e : Int} {t number : Nat} (s : State) :
    timeAndQueue (encTaken e t number s) = timeAndQueue s := by simp [encTaken]

@[simp] theorem timeAndQueue_shareLost (s : State) : timeAndQueue (shareLost s) = timeAndQueue s := by simp [shareLost]

@[simp] theorem timeAndQueue_cmdTaken {src sq : Nat} {bs : List Byte} (s : State) :
    timeAndQueue (cmdTaken src sq bs s) = timeAndQueue s := by simp [cmdTaken]

@[simp] theorem timeAndQueue_interimTaken {c : Cmd} {b : List Byte} (s : State) :
    timeAndQueue (interimTaken c b s) = timeAndQueue s := by simp [interimTaken]

@[simp] theorem timeAndQueue_cplTaken {src cq : Nat} {b : List Byte} (s : State) :
    timeAndQueue (cplTaken src cq b s) = timeAndQueue s := by
  simp only [cplTaken]
  split <;> simp

@[simp] theorem timeAndQueue_regTaken {src : Nat} {m : RegMsg} (s : State) :
    timeAndQueue (regTaken src m s) = timeAndQueue s := by
  simp only [regTaken]
  split <;> simp

@[simp] theorem timeAndQueue_joined {id hops parent pport : Nat} {hd : List Byte} {step : Nat} (s : State) :
    timeAndQueue (joined id hops parent pport hd step s) = timeAndQueue s := by simp [joined]

@[simp] theorem timeAndQueue_ctrlTaken {k : Nat} {m : CtrlMsg} (s : State) :
    timeAndQueue (ctrlTaken k m s) = timeAndQueue s := by
  simp only [ctrlTaken]
  split <;> simp

@[simp] theorem timeAndQueue_ctrlBody {k : Nat} {h : RouteHdr} {m : CtrlMsg} (s : State) :
    timeAndQueue (ctrlBody k h m s) = timeAndQueue s := by
  simp only [ctrlBody]
  split <;> simp

@[simp] theorem timeAndQueue_hwrTaken {src : Nat} {a : Nat} {bs : List Byte} (s : State) :
    timeAndQueue (hwrTaken src a bs s) = timeAndQueue s := by simp [hwrTaken]

@[simp] theorem timeAndQueue_hostRequest {p : FeltPacket} (s : State) :
    timeAndQueue (hostRequest p s) = timeAndQueue s := by simp [hostRequest]

@[simp] theorem timeAndQueue_hwrRelease (s : State) : timeAndQueue (hwrRelease s) = timeAndQueue s := by simp [hwrRelease]

@[simp] theorem timeAndQueue_hrdAnswer {src : Nat} {bs : List Byte} (s : State) :
    timeAndQueue (hrdAnswer src bs s) = timeAndQueue s := by simp [hrdAnswer]

@[simp] theorem timeAndQueue_hrdTaken {src : Nat} {m : HrdMsg} (s : State) :
    timeAndQueue (hrdTaken src m s) = timeAndQueue s := by
  simp only [hrdTaken]
  split <;> simp

@[simp] theorem timeAndQueue_feltDown {k : Nat} (s : State) :
    timeAndQueue (feltDown k s) = timeAndQueue s := by simp [feltDown]

@[simp] theorem timeAndQueue_routeTimeout {sq : Nat} {tag : W32} (s : State) :
    timeAndQueue (routeTimeout sq tag s) = timeAndQueue s := by
  simp only [routeTimeout]
  split <;> simp

@[simp] theorem timeAndQueue_deviceJoined {d : Nat} {reset : Bool} (s : State) :
    timeAndQueue (deviceJoined d reset s) = timeAndQueue s := by simp [deviceJoined]

/-! ### Start-up and reset -/

@[simp] theorem timeAndQueue_updBoot {f : Boot → Boot} (s : State) : timeAndQueue (updBoot f s) = timeAndQueue s := by rfl

@[simp] theorem timeAndQueue_flashBoot {fl : FlashContent} (s0 : State) :
    timeAndQueue (flashBoot fl s0) = timeAndQueue s0 := by simp [flashBoot, -List.foldl_append]

@[simp] theorem timeAndQueue_holdBegin (s : State) : timeAndQueue (holdBegin s) = timeAndQueue s := by rfl

@[simp] theorem timeAndQueue_beginStart {fl : FlashContent} {temps : List Int} (s : State) :
    timeAndQueue (beginStart fl temps s) = timeAndQueue s := by simp [beginStart]

@[simp] theorem timeAndQueue_holdCheck {temps : List Int} (s : State) :
    timeAndQueue (holdCheck temps s) = timeAndQueue s := by simp [holdCheck]

@[simp] theorem timeAndQueue_profHeadbox {p : Nat} (s : State) :
    timeAndQueue (profHeadbox p s) = timeAndQueue s := by simp [profHeadbox]

@[simp] theorem timeAndQueue_profDryer {p : Nat} (s : State) :
    timeAndQueue (profDryer p s) = timeAndQueue s := by simp [profDryer]

@[simp] theorem timeAndQueue_profStart {g : Tbl Nat} (s : State) :
    timeAndQueue (profStart g s) = timeAndQueue s := by simp [profStart]

@[simp] theorem timeAndQueue_imageRead {i : Nat} (s : State) :
    timeAndQueue (imageRead i s) = timeAndQueue s := by simp [imageRead]

@[simp] theorem timeAndQueue_mapImage {k : ItemId} {im : List Byte} (s : State) :
    timeAndQueue (mapImage k im s) = timeAndQueue s := by simp [mapImage]

@[simp] theorem timeAndQueue_imageLoaded {crc : Nat} {im : List Byte} (s : State) :
    timeAndQueue (imageLoaded crc im s) = timeAndQueue s := by
  simp only [imageLoaded]
  split <;> simp

@[simp] theorem timeAndQueue_profJudge (s : State) : timeAndQueue (profJudge s).2 = timeAndQueue s := by
  simp only [profJudge]
  repeat' split
  all_goals simp

@[simp] theorem timeAndQueue_chainReady (s : State) : timeAndQueue (chainReady s) = timeAndQueue s := by
  simp only [chainReady]
  split <;> simp

@[simp] theorem timeAndQueue_boardIds (s : State) : timeAndQueue (boardIds s) = timeAndQueue s := by
  simp only [boardIds]
  split <;> simp

@[simp] theorem timeAndQueue_readySet (s : State) : timeAndQueue (readySet s) = timeAndQueue s := by rfl

@[simp] theorem timeAndQueue_readyTimes (s : State) : timeAndQueue (readyTimes s) = timeAndQueue s := by simp [readyTimes]

@[simp] theorem timeAndQueue_lanesReady (s : State) : timeAndQueue (lanesReady s) = timeAndQueue s := by simp [lanesReady]

@[simp] theorem timeAndQueue_deviceReady (s : State) : timeAndQueue (deviceReady s) = timeAndQueue s := by
  simp only [deviceReady]
  split <;> simp

@[simp] theorem timeAndQueue_resetState {cause : Nat} {phase : Phase} (s0 : State) :
    timeAndQueue (resetState cause phase s0) = timeAndQueue s0 := by simp [resetState]

/-! ### Rows of start-up, endpoint, crystal and AFE link -/

@[simp] theorem timeAndQueue_tryStart {fl : FlashContent} {temps : List Int} (s : State) :
    timeAndQueue (tryStart fl temps s) = timeAndQueue s := by simp [tryStart]

@[simp] theorem timeAndQueue_powerValid {fl : FlashContent} {temps : List Int} (s : State) :
    timeAndQueue (powerValid fl temps s) = timeAndQueue s := by simp [powerValid]

@[simp] theorem timeAndQueue_brownOut {k : Nat} (s : State) :
    timeAndQueue (brownOut k s) = timeAndQueue s := by simp [brownOut]

@[simp] theorem timeAndQueue_railDip {k : Nat} {back : Bool} (s : State) :
    timeAndQueue (railDip k back s) = timeAndQueue s := by simp [railDip]

@[simp] theorem timeAndQueue_sysRst {lowNs : Nat} {taken : Bool} (s : State) :
    timeAndQueue (sysRst lowNs taken s) = timeAndQueue s := by
  simp only [sysRst]
  repeat' split
  all_goals simp

@[simp] theorem timeAndQueue_tapMove {hold : Bool} {fl : FlashContent} {temps : List Int} (s : State) :
    timeAndQueue (tapMove hold fl temps s) = timeAndQueue s := by simp [tapMove]

@[simp] theorem timeAndQueue_tapInstruction {i : TapInstr} {fl : FlashContent} {temps : List Int} (s : State) :
    timeAndQueue (tapInstruction i fl temps s) = timeAndQueue s := by
  simp only [tapInstruction]
  repeat' split
  all_goals simp

@[simp] theorem timeAndQueue_debugLeaves (s : State) : timeAndQueue (debugLeaves s) = timeAndQueue s := by simp [debugLeaves]

@[simp] theorem timeAndQueue_flightDrop (s : State) : timeAndQueue (flightDrop s) = timeAndQueue s := by simp [flightDrop]

@[simp] theorem timeAndQueue_pcieReset {low : Bool} (s : State) :
    timeAndQueue (pcieReset low s) = timeAndQueue s := by simp [pcieReset]

@[simp] theorem timeAndQueue_linkChange {gen width : Nat} (s : State) :
    timeAndQueue (linkChange gen width s) = timeAndQueue s := by simp [linkChange]

@[simp] theorem timeAndQueue_aerUncorr {status : W32} (s : State) :
    timeAndQueue (aerUncorr status s) = timeAndQueue s := by simp [aerUncorr]

@[simp] theorem timeAndQueue_busMaster {on : Bool} (s : State) :
    timeAndQueue (busMaster on s) = timeAndQueue s := by simp [busMaster]

@[simp] theorem timeAndQueue_xtalFail (s : State) : timeAndQueue (xtalFail s) = timeAndQueue s := by simp [xtalFail]

@[simp] theorem timeAndQueue_xtalOk (s : State) : timeAndQueue (xtalOk s) = timeAndQueue s := by simp [xtalOk]

@[simp] theorem timeAndQueue_afeLink (s : State) : timeAndQueue (afeLink s) = timeAndQueue s := by simp [afeLink]

@[simp] theorem timeAndQueue_afeLinkRestored (s : State) :
    timeAndQueue (afeLinkRestored s) = timeAndQueue s := by simp [afeLinkRestored]

@[simp] theorem timeAndQueue_overloadJudge {w : Nat} (s : State) :
    timeAndQueue (overloadJudge w s) = timeAndQueue s := by simp [overloadJudge]

@[simp] theorem timeAndQueue_rateWindow {caps : List Nat} (s : State) :
    timeAndQueue (rateWindow caps s) = timeAndQueue s := by simp [rateWindow]

/-! ### The tick -/

@[simp] theorem timeAndQueue_tbAdvance (s : State) : timeAndQueue (tbAdvance s) = timeAndQueue s := by rfl

@[simp] theorem timeAndQueue_operatingSecond (s : State) :
    timeAndQueue (operatingSecond s) = timeAndQueue s := by simp [operatingSecond]

@[simp] theorem timeAndQueue_headGoesOn (s : State) : timeAndQueue (headGoesOn s) = timeAndQueue s := by simp [headGoesOn]

/-! ### The commands -/

/-- Whatever `o` answers next has the crystal time and the queue of `s`. -/
def Keeps (o : Out) (s : State) : Prop := ∀ t, o = .next t → timeAndQueue t = timeAndQueue s

theorem keeps_next {s t : State} (h : timeAndQueue t = timeAndQueue s) : Keeps (.next t) s := by
  rintro _ ⟨⟩
  exact h

theorem keeps_whenReady {f : State → State} (hf : ∀ u, timeAndQueue (f u) = timeAndQueue u) (s : State) :
    Keeps (whenReady f s) s := keeps_next (by simp [hf])

theorem keeps_whenHost {f : State → State} (hf : ∀ u, timeAndQueue (f u) = timeAndQueue u) (s : State) :
    Keeps (whenHost f s) s := keeps_next (by simp [hf])

theorem keeps_whenLive {f : State → State} (hf : ∀ u, timeAndQueue (f u) = timeAndQueue u) (s : State) :
    Keeps (whenLive f s) s := keeps_next (by simp [hf])

theorem keeps_opcodeRow {sq : Fin 1024} {tag : W32} {op : Nat} {start cont : Cmd → State → State}
    (hstart : ∀ x u, timeAndQueue (start x u) = timeAndQueue u) (hcont : ∀ x u, timeAndQueue (cont x u) = timeAndQueue u)
    (s : State) : Keeps (opcodeRow sq tag op start cont s) s :=
  keeps_whenReady (timeAndQueue_runCmd hstart hcont) s

theorem keeps_execThermalRowEmit (s : State) : Keeps (execThermalRowEmit s) s := keeps_whenLive (fun u => by split <;> simp) s

theorem keeps_execThermTimeout (s : State) : Keeps (execThermTimeout s) s := by
  refine keeps_whenLive (fun u => ?_) s
  repeat' split
  all_goals simp

theorem keeps_execLaneSignalDetect {n : Fin 80} (s : State) :
    Keeps (execLaneSignalDetect n s) s := keeps_whenReady (fun u => by simp) s

theorem keeps_execLaneCdrLock {n : Fin 80} (s : State) : Keeps (execLaneCdrLock n s) s := keeps_whenReady (fun u => by simp) s

theorem keeps_execLaneEqDone {n : Fin 80} {ctle : Fin 16} (s : State) :
    Keeps (execLaneEqDone n ctle s) s := keeps_whenReady (fun u => by simp) s

theorem keeps_execDfeAdaptStep {n : Fin 80} {up down : BitVec 5} (s : State) :
    Keeps (execDfeAdaptStep n up down s) s := keeps_whenReady (fun u => by simp) s

theorem keeps_execLaneAligned {n : Fin 80} (s : State) : Keeps (execLaneAligned n s) s := keeps_whenReady (fun u => by simp) s

theorem keeps_execLaneRelock {n : Fin 80} {rx : LaneWord} (s : State) : Keeps (execLaneRelock n rx s) s := by
  refine keeps_whenReady (fun u => ?_) s
  repeat' split
  all_goals simp

theorem keeps_execLaneUnlock {n : Fin 80} {reason : Fin 4} {bad : List Bool} (s : State) :
    Keeps (execLaneUnlock n reason bad s) s := keeps_whenReady (fun u => by simp) s

theorem keeps_execLaneRetrainTimeout {n : Fin 80} (s : State) :
    Keeps (execLaneRetrainTimeout n s) s := keeps_whenReady (fun u => by dsimp only; split <;> simp) s

theorem keeps_execLockFail {n : Fin 80} (s : State) :
    Keeps (execLockFail n s) s := keeps_whenReady (fun u => by dsimp only; split <;> simp) s

theorem keeps_execLaneTrainTimeout {n : Fin 80} (s : State) :
    Keeps (execLaneTrainTimeout n s) s := keeps_whenReady (fun u => by simp) s

theorem keeps_execPrbsSync {n : Fin 80} {rx : List Bool} (s : State) : Keeps (execPrbsSync n rx s) s := by
  refine keeps_whenReady (fun u => ?_) s
  dsimp only
  repeat' split
  all_goals simp

theorem keeps_execPrbsSyncLoss {n : Fin 80} {rx : List Bool} (s : State) :
    Keeps (execPrbsSyncLoss n rx s) s := keeps_whenReady (fun u => by simp) s

theorem keeps_execLinkFault {r : LinkRef} {unlock : Bool} (s : State) :
    Keeps (execLinkFault r unlock s) s := keeps_whenReady (fun u => by simp) s

theorem keeps_execWidthAck {r : LinkRef} {pkt : BrynPacket} {payload : List Byte} (s : State) :
    Keeps (execWidthAck r pkt payload s) s := keeps_whenReady (fun u => by simp) s

theorem keeps_execWidthReq {k : Fin 4} {pkt : BrynPacket} {payload : List Byte} (s : State) :
    Keeps (execWidthReq k pkt payload s) s := keeps_whenReady (fun u => by simp) s

theorem keeps_execCreditGrantReceived {k : Fin 4} {pkt : BrynPacket} {payload : List Byte} (s : State) :
    Keeps (execCreditGrantReceived k pkt payload s) s := keeps_whenReady (fun u => by simp) s

theorem keeps_execLineData {p : Fin 32} {pkt : BrynPacket} {payload : List Byte} (s : State) :
    Keeps (execLineData p pkt payload s) s := keeps_whenLive (fun u => by simp) s

theorem keeps_execCxpStreamPacket {p : Fin 32} {conn : Fin 4} {pkt : CxpPacket} (s : State) :
    Keeps (execCxpStreamPacket p conn pkt s) s := keeps_whenLive (fun u => by simp) s

theorem keeps_execLineTimeout {p : Fin 32} (s : State) :
    Keeps (execLineTimeout p s) s := keeps_whenLive (fun u => by split <;> simp) s

theorem keeps_execDroppedLinePeriod {p : Fin 32} (s : State) : Keeps (execDroppedLinePeriod p s) s := by
  refine keeps_whenLive (fun u => ?_) s
  dsimp only
  repeat' split
  all_goals simp

theorem keeps_execRegAck {p : Fin 32} {pkt : BrynPacket} {payload : List Byte} (s : State) :
    Keeps (execRegAck p pkt payload s) s := keeps_whenLive (fun u => by simp) s

theorem keeps_execCxpControlAck {p : Fin 32} {ack : CxpAck} (s : State) : Keeps (execCxpControlAck p ack s) s := by
  refine keeps_whenLive (fun u => ?_) s
  dsimp only
  repeat' split
  all_goals simp

theorem keeps_execCxpHeartbeat {p : Fin 32} (s : State) :
    Keeps (execCxpHeartbeat p s) s := keeps_whenLive (fun u => by simp) s

theorem keeps_execHeartbeatLost {p : Fin 32} (s : State) :
    Keeps (execHeartbeatLost p s) s := keeps_whenLive (fun u => by simp) s

theorem keeps_execDiscoveryFail {p : Fin 32} (s : State) :
    Keeps (execDiscoveryFail p s) s := keeps_whenLive (fun u => by simp) s

theorem keeps_execTriggerEncoder {p : Fin 32} (s : State) :
    Keeps (execTriggerEncoder p s) s := keeps_whenLive (fun u => by split <;> simp) s

theorem keeps_execTriggerTimer {p : Fin 32} (s : State) :
    Keeps (execTriggerTimer p s) s := keeps_whenLive (fun u => by simp) s

theorem keeps_execTrigLost {p : Fin 32} (s : State) :
    Keeps (execTrigLost p s) s := keeps_whenLive (fun u => by dsimp only; split <;> simp) s

theorem keeps_execEncoderEdge {e : Fin 4} {a b : Bool} (s : State) : Keeps (execEncoderEdge e a b s) s := keeps_next (by simp)

theorem keeps_execSetAckTimeout {p : Fin 36} (s : State) :
    Keeps (execSetAckTimeout p s) s := keeps_whenLive (fun u => by simp) s

theorem keeps_execFuseStep (s : State) : Keeps (execFuseStep s) s := keeps_next (by simp)

theorem keeps_execSwapHandover (s : State) : Keeps (execSwapHandover s) s := keeps_whenLive (fun u => by split <;> simp) s

theorem keeps_execInjectedStart {u : Fin 4} (s : State) :
    Keeps (execInjectedStart u s) s := keeps_whenReady (fun u => by simp) s

theorem keeps_execRefCheck {n2 : Option (Fin 440000)} (s : State) :
    Keeps (execRefCheck n2 s) s := keeps_whenReady (fun u => by simp) s

theorem keeps_execCalibrate {sq : Fin 1024} {tag : W32} {tests : List Bool} (s : State) :
    Keeps (execCalibrate sq tag tests s) s := keeps_opcodeRow (fun _ => timeAndQueue_calibrateStart) (fun _ _ => by simp) s

theorem keeps_execHbmEccUncorr {addr : BitVec 37} (s : State) : Keeps (execHbmEccUncorr addr s) s := by
  dsimp only [execHbmEccUncorr]
  exact keeps_whenReady (fun _ => by simp) s

theorem keeps_execNvmRead {sq : Fin 1024} {tag : W32} {io : HostIo} (s : State) :
    Keeps (execNvmRead sq tag io s) s := keeps_opcodeRow (fun _ => timeAndQueue_startNvmRead) (fun _ _ => by simp) s

theorem keeps_execBar2Access {off : BitVec 36} {acc : Bar2} (s : State) : Keeps (execBar2Access off acc s) s := by
  dsimp only [execBar2Access]
  split
  · rintro _ ⟨⟩
  · exact keeps_whenHost (fun u => by simp) s

theorem keeps_execGpioEdge {n : Fin 48} {level : Bool} (s : State) : Keeps (execGpioEdge n level s) s := keeps_next (by simp)

theorem keeps_execCfgCommit {sq : Fin 1024} {tag : W32} (s : State) :
    Keeps (execCfgCommit sq tag s) s := keeps_opcodeRow (fun _ _ => by simp) (fun _ => timeAndQueue_commitEnds) s

theorem keeps_execCfgCommitDiscard {sq : Fin 1024} {tag : W32} (s : State) :
    Keeps (execCfgCommitDiscard sq tag s) s := keeps_opcodeRow (fun _ _ => by simp) (fun _ _ => rfl) s

theorem keeps_execCommitBoundary {blk inst : BitVec 8} (s : State) :
    Keeps (execCommitBoundary blk inst s) s := keeps_whenReady (fun u => by simp) s

theorem keeps_execReelUnitTimeout {r : Fin 64} (s : State) :
    Keeps (execReelUnitTimeout r s) s := keeps_whenLive (fun u => by split <;> simp) s

theorem keeps_execDecayEnd {n : Fin 16} (s : State) : Keeps (execDecayEnd n s) s := keeps_whenReady (fun u => by simp) s

theorem keeps_execCoilUpdate (s : State) : Keeps (execCoilUpdate s) s := keeps_whenReady (fun u => by simp) s

theorem keeps_execOvercurrent {n : Fin 16} (s : State) : Keeps (execOvercurrent n s) s := keeps_whenReady (fun u => by simp) s

theorem keeps_execHsOvercurrent {m : Fin 4} (s : State) :
    Keeps (execHsOvercurrent m s) s := keeps_whenReady (fun u => by simp) s

theorem keeps_execSync {k : Fin 4} {kind : Fin 2} {t1 t2 t3 : W64} (s : State) :
    Keeps (execSync k kind t1 t2 t3 s) s := keeps_whenReady (fun u => by simp) s

theorem keeps_execEnc {k : Fin 4} {e t : W64} {number : W32} (s : State) :
    Keeps (execEnc k e t number s) s := keeps_whenReady (fun u => by simp) s

theorem keeps_execDb {k : Fin 4} {h : RouteHdr} {off v : W32} (s : State) :
    Keeps (execDb k h off v s) s := keeps_whenReady (fun u => by simp) s

theorem keeps_execCtrl {k : Fin 4} {h : RouteHdr} {m : CtrlMsg} (s : State) :
    Keeps (execCtrl k h m s) s := keeps_whenReady (fun u => by simp) s

theorem keeps_execDeviceReady (s : State) : Keeps (execDeviceReady s) s := keeps_next (by simp)

theorem keeps_execSysRstNRelease {fl : FlashContent} {temps : List Int} (s : State) :
    Keeps (execSysRstNRelease fl temps s) s := keeps_next (by simp)

theorem keeps_execDbgChal (s : State) : Keeps (execDbgChal s) s := keeps_next (by simp)

theorem keeps_execDbgResp {scope : Byte} {sig : List Byte} (s : State) :
    Keeps (execDbgResp scope sig s) s := keeps_next (by simp)

theorem keeps_execPerstNRelease (s : State) : Keeps (execPerstNRelease s) s := keeps_next (by simp)

/-- No command takes time or touches the queue. -/
theorem keeps_exec (i : Instr) (s : State) : Keeps (exec i s) s := by
  cases i with
  | identify => exact keeps_opcodeRow (fun _ => timeAndQueue_startIdentify) (fun _ _ => rfl) _
  | progress => exact keeps_opcodeRow (fun _ => timeAndQueue_progressStart) (fun _ _ => rfl) _
  | abort => exact keeps_opcodeRow (fun _ => timeAndQueue_abortStart) (fun _ => timeAndQueue_abortStart) _
  | echo => exact keeps_opcodeRow (fun _ => timeAndQueue_echoStart) (fun _ _ => rfl) _
  | cfgStage => exact keeps_opcodeRow (fun _ => timeAndQueue_cfgStageStart) (fun _ _ => rfl) _
  | cfgCommit => exact keeps_execCfgCommit _
  | cfgCommitDiscard => exact keeps_execCfgCommitDiscard _
  | cfgRead => exact keeps_opcodeRow (fun _ => timeAndQueue_cfgReadStart) (fun _ _ => rfl) _
  | laneTrain => exact keeps_opcodeRow (fun _ => timeAndQueue_laneTrainStart) (fun _ _ => rfl) _
  | laneTest => exact keeps_opcodeRow (fun _ => timeAndQueue_laneTestStart) (fun _ _ => rfl) _
  | portStart => exact keeps_opcodeRow (fun _ => timeAndQueue_portStartStart) (fun _ _ => rfl) _
  | portStop => exact keeps_opcodeRow (fun _ => timeAndQueue_portStopStart) (fun _ _ => rfl) _
  | tableLoad =>
    exact keeps_opcodeRow (fun _ => timeAndQueue_needHost
      (fun _ => timeAndQueue_startLoad)) (fun _ => timeAndQueue_needHost (fun _ => timeAndQueue_loadRead)) _
  | reprocess => exact keeps_opcodeRow (fun _ => timeAndQueue_reprocStart) (fun _ _ => rfl) _
  | shutter => exact keeps_opcodeRow (fun _ => timeAndQueue_shutterStart) (fun _ _ => rfl) _
  | rulesLoad =>
    exact keeps_opcodeRow (fun _ => timeAndQueue_needHost
      (fun _ => timeAndQueue_startLoad)) (fun _ => timeAndQueue_needHost (fun _ => timeAndQueue_loadRead)) _
  | queueCreate => exact keeps_opcodeRow (fun _ => timeAndQueue_queueCreateStart) (fun _ _ => rfl) _
  | queueDelete => exact keeps_opcodeRow (fun _ => timeAndQueue_queueDeleteStart) (fun _ _ => rfl) _
  | markFire => exact keeps_opcodeRow (fun _ => timeAndQueue_markFireStart) (fun _ _ => rfl) _
  | adcSelfcal => exact keeps_opcodeRow (fun _ => timeAndQueue_adcSelfcalStart) (fun _ _ => rfl) _
  | calibrate => exact keeps_execCalibrate _
  | nvmRead => exact keeps_execNvmRead _
  | nvmWrite =>
    exact keeps_opcodeRow (fun _ => timeAndQueue_needHost (fun _ => timeAndQueue_startNvmWrite)) (fun _ _ => rfl) _
  | attest => exact keeps_opcodeRow (fun _ => timeAndQueue_startAttest) (fun _ _ => rfl) _
  | fwStage =>
    exact keeps_opcodeRow (fun _ => timeAndQueue_needHost
      (fun _ => timeAndQueue_startFwStage)) (fun _ => timeAndQueue_contFwStage) _
  | fwActivate => exact keeps_opcodeRow (fun _ => timeAndQueue_activateStart) (fun _ => timeAndQueue_activateGo) _
  | certRead => exact keeps_opcodeRow (fun _ => timeAndQueue_startCertRead) (fun _ _ => rfl) _
  | bistRun => exact keeps_opcodeRow (fun _ => timeAndQueue_startBist) (fun _ _ => rfl) _
  | wireSwap => exact keeps_opcodeRow (fun _ => timeAndQueue_wireSwapStart) (fun _ _ => rfl) _
  | chainEnum => exact keeps_opcodeRow (fun _ => timeAndQueue_startEnum) (fun _ => timeAndQueue_contEnum) _
  | commandFetch => exact keeps_whenReady timeAndQueue_fetchBody _
  | interimCompletion => exact keeps_whenReady timeAndQueue_interimBody _
  | pair0Create => exact keeps_whenHost timeAndQueue_q0CtrlWrite _
  | pair0Delete => exact keeps_whenHost timeAndQueue_q0CtrlWrite _
  | dbSqTail => exact keeps_whenHost timeAndQueue_sqTailBody _
  | dbCqHead => exact keeps_whenHost timeAndQueue_cqHeadBody _
  | dbSrHead => exact keeps_whenHost timeAndQueue_srHeadBody _
  | dbEvtHead => exact keeps_whenHost timeAndQueue_evtHeadBody _
  | dbDqHead => exact keeps_whenHost timeAndQueue_dqHeadBody _
  | doorbellPageWrite => exact keeps_whenHost timeAndQueue_pageBody _
  | glbBar2Base => exact keeps_whenHost timeAndQueue_bar2BaseBody _
  | bar2Access => exact keeps_execBar2Access _
  | forwardedAccess => exact keeps_whenHost timeAndQueue_bar0Access _
  | evtGrp => exact keeps_whenHost timeAndQueue_evtGrpBody _
  | evtPend => exact keeps_whenHost timeAndQueue_evtPendBody _
  | mrkArm => exact keeps_whenHost timeAndQueue_armWrite _
  | wireHistLookup => exact keeps_whenHost timeAndQueue_histLookupBody _
  | hkSwtrig => exact keeps_whenHost timeAndQueue_swTrigger _
  | masterGo => exact keeps_whenHost timeAndQueue_spmCtrlWrite _
  | registerWrite => exact keeps_whenHost timeAndQueue_barAccess _
  | registerReadClear => exact keeps_whenHost timeAndQueue_barAccess _
  | splitReadLow => exact keeps_whenHost timeAndQueue_bar0Access _
  | splitReadHigh => exact keeps_whenHost timeAndQueue_bar0Access _
  | powerValid => exact keeps_next (timeAndQueue_powerValid _)
  | deviceReady => exact keeps_execDeviceReady _
  | profileImageLoaded => exact keeps_whenLive timeAndQueue_imageLoaded _
  | thermalHoldCheck => exact keeps_next (timeAndQueue_holdCheck _)
  | brownOut => exact keeps_next (timeAndQueue_brownOut _)
  | railDip => exact keeps_next (timeAndQueue_railDip _)
  | sysRstN => exact keeps_next (timeAndQueue_sysRst _)
  | perstN => exact keeps_next (timeAndQueue_pcieReset _)
  | functionLevelReset => exact keeps_next (timeAndQueue_pcieReset _)
  | d3hotEntry => exact keeps_next (timeAndQueue_pcieReset _)
  | dlDown => exact keeps_next (timeAndQueue_pcieReset _)
  | busMasterEnable => exact keeps_whenHost timeAndQueue_busMaster _
  | vvalveOut => exact keeps_next (timeAndQueue_vvalveOut _)
  | vvalveOk => exact keeps_next (timeAndQueue_vvalveOk _)
  | xtalFail => exact keeps_whenReady timeAndQueue_xtalFail _
  | xtalOk => exact keeps_whenReady timeAndQueue_xtalOk _
  | afeKeepalive => exact keeps_whenReady timeAndQueue_emit _
  | afeLink => exact keeps_whenReady timeAndQueue_afeLink _
  | afeLinkRestored => exact keeps_whenReady timeAndQueue_afeLinkRestored _
  | tenderWatchdog => exact keeps_whenReady timeAndQueue_tenderStop _
  | tenderRestartEnd => exact keeps_whenReady timeAndQueue_tenderEnd _
  | rateWindowEnd => exact keeps_whenReady timeAndQueue_rateWindow _
  | commitBoundary => exact keeps_execCommitBoundary _
  | groupTimer => exact keeps_whenReady timeAndQueue_grpEval _
  | tailMirrorWrite => exact keeps_whenReady timeAndQueue_mirrorBody _
  | recordDelivery => exact keeps_whenLive timeAndQueue_recordBody _
  | laneSignalDetect => exact keeps_execLaneSignalDetect _
  | laneCdrLock => exact keeps_execLaneCdrLock _
  | laneEqDone => exact keeps_execLaneEqDone _
  | dfeAdaptStep => exact keeps_execDfeAdaptStep _
  | laneAligned => exact keeps_execLaneAligned _
  | laneRelock => exact keeps_execLaneRelock _
  | laneUnlock => exact keeps_execLaneUnlock _
  | laneRetrainTimeout => exact keeps_execLaneRetrainTimeout _
  | lockFail => exact keeps_execLockFail _
  | prbsSync => exact keeps_execPrbsSync _
  | prbsSyncLoss => exact keeps_execPrbsSyncLoss _
  | train => exact keeps_whenReady timeAndQueue_linkTrain _
  | am => exact keeps_whenReady timeAndQueue_linkAm _
  | amSend => exact keeps_whenReady timeAndQueue_linkAmSend _
  | lineData => exact keeps_execLineData _
  | regAck => exact keeps_execRegAck _
  | widthAck => exact keeps_execWidthAck _
  | linkFault => exact keeps_execLinkFault _
  | linkStateTimeout => exact keeps_whenReady timeAndQueue_linkTimeout _
  | recoveryEnd => exact keeps_whenReady timeAndQueue_linkRecovered _
  | fullWidthRequest => exact keeps_whenReady timeAndQueue_linkFullWidth _
  | credit => exact keeps_whenReady timeAndQueue_linkCredit _
  | cxpStreamPacket => exact keeps_execCxpStreamPacket _
  | cxpControlAck => exact keeps_execCxpControlAck _
  | cxpHeartbeat => exact keeps_execCxpHeartbeat _
  | heartbeatLost => exact keeps_execHeartbeatLost _
  | discoveryFail => exact keeps_execDiscoveryFail _
  | triggerEncoder => exact keeps_execTriggerEncoder _
  | triggerTimer => exact keeps_execTriggerTimer _
  | trigLost => exact keeps_execTrigLost _
  | lineTimeout => exact keeps_execLineTimeout _
  | droppedLinePeriod => exact keeps_execDroppedLinePeriod _
  | setAckTimeout => exact keeps_execSetAckTimeout _
  | wireServe => exact keeps_whenLive timeAndQueue_wireServeBody _
  | wireLineExit => exact keeps_whenLive timeAndQueue_wireExitBody _
  | deadline => exact keeps_whenLive timeAndQueue_deadlineBody _
  | swapHandover => exact keeps_execSwapHandover _
  | swapDone => exact keeps_whenLive timeAndQueue_swapDoneBody _
  | couchLine => exact keeps_whenLive timeAndQueue_couchLineBody _
  | rowEmit => exact keeps_whenLive timeAndQueue_rowEmitBody _
  | rowTimeout => exact keeps_whenLive timeAndQueue_rowTimeoutBody _
  | thermalRowMap => exact keeps_whenLive timeAndQueue_thermalMapBody _
  | thermalRowEmit => exact keeps_execThermalRowEmit _
  | thermTimeout => exact keeps_execThermTimeout _
  | edge => exact keeps_whenReady (timeAndQueue_fromUsable (timeAndQueue_unlessTripped timeAndQueue_edgeBody)) _
  | knotterRow => exact keeps_whenLive timeAndQueue_knotterRowBody _
  | mergerComponent => exact keeps_whenLive timeAndQueue_mergerBody _
  | frag => exact keeps_whenReady (timeAndQueue_fromUsable (timeAndQueue_unlessTripped timeAndQueue_fragBody)) _
  | mergeTimeout => exact keeps_whenLive timeAndQueue_mergeTimeoutBody _
  | tileWrite => exact keeps_whenReady timeAndQueue_tileWriteBody _
  | reelRow => exact keeps_whenLive timeAndQueue_reelTake _
  | reelUnitTimeout => exact keeps_execReelUnitTimeout _
  | frameSync => exact keeps_whenLive timeAndQueue_frameSyncBody _
  | dryerRow => exact keeps_whenLive timeAndQueue_dryerRowBody _
  | thermalPipeRow => exact keeps_whenLive timeAndQueue_pipeRow _
  | frameTimeout => exact keeps_whenLive timeAndQueue_frameTimeoutBody _
  | driftRefine => exact keeps_whenReady timeAndQueue_driftRefineBody _
  | markerJob => exact keeps_whenReady timeAndQueue_jobArrives _
  | driveStart => exact keeps_whenReady timeAndQueue_tickSwitch _
  | peakPhaseEnd => exact keeps_whenReady timeAndQueue_peakEndBody _
  | driveEnd => exact keeps_whenReady timeAndQueue_driveEndBody _
  | decayEnd => exact keeps_execDecayEnd _
  | headroomRetry => exact keeps_whenReady timeAndQueue_retryBody _
  | coilUpdate => exact keeps_execCoilUpdate _
  | senseInstant => exact keeps_whenReady timeAndQueue_senseBody _
  | overcurrent => exact keeps_execOvercurrent _
  | hsOvercurrent => exact keeps_execHsOvercurrent _
  | hkConversionEnd => exact keeps_whenReady timeAndQueue_conversionEnds _
  | injectedStart => exact keeps_execInjectedStart _
  | selfcalDone => exact keeps_whenReady timeAndQueue_selfcalEnds _
  | masterDone => exact keeps_whenReady timeAndQueue_masterDoneBody _
  | slaveReadFrame => exact keeps_whenReady timeAndQueue_slaveReadBody _
  | slaveWriteFrame => exact keeps_whenReady timeAndQueue_slaveWriteBody _
  | viewRefresh => exact keeps_whenReady timeAndQueue_viewRefreshBody _
  | gpioEdge => exact keeps_execGpioEdge _
  | encoderEdge => exact keeps_execEncoderEdge _
  | encoderZ => exact keeps_whenReady timeAndQueue_encZBody _
  | encoderSample => exact keeps_whenReady timeAndQueue_encSampleBody _
  | thermalEvaluation => exact keeps_whenReady timeAndQueue_thermalBody _
  | refCheck => exact keeps_execRefCheck _
  | calibrationStart => exact keeps_whenReady timeAndQueue_calStart _
  | forced => exact keeps_whenReady timeAndQueue_forcedBody _
  | calibrationEnd => exact keeps_whenReady timeAndQueue_calibrationEndBody _
  | sramEccError => exact keeps_whenReady timeAndQueue_sramEccBody _
  | hbmEccUncorr => exact keeps_execHbmEccUncorr _
  | pageWriteEnd => exact keeps_whenReady timeAndQueue_pageEndBody _
  | counterBatch => exact keeps_whenReady timeAndQueue_batchBegin _
  | calStore => exact keeps_whenReady timeAndQueue_storeBegin _
  | fuseStep => exact keeps_execFuseStep _
  | testInstruction => exact keeps_next (timeAndQueue_tapInstruction _)
  | dbgChal => exact keeps_execDbgChal _
  | dbgResp => exact keeps_execDbgResp _
  | enum => exact keeps_whenReady timeAndQueue_enumBody _
  | sync => exact keeps_execSync _
  | syncExchange => exact keeps_whenReady timeAndQueue_syncExchange _
  | syncAverage => exact keeps_whenReady timeAndQueue_syncAverage _
  | enc => exact keeps_execEnc _
  | encSend => exact keeps_whenReady timeAndQueue_encSend _
  | shareLost => exact keeps_whenReady timeAndQueue_shareLost _
  | cmd => exact keeps_whenReady (timeAndQueue_routed timeAndQueue_cmdTaken) _
  | cpl => exact keeps_whenReady (timeAndQueue_routed timeAndQueue_cplTaken) _
  | reg => exact keeps_whenReady (timeAndQueue_routed timeAndQueue_regTaken) _
  | db => exact keeps_execDb _
  | msi => exact keeps_whenReady (timeAndQueue_routed timeAndQueue_msixSend) _
  | ctrl => exact keeps_execCtrl _
  | hwr => exact keeps_whenReady (timeAndQueue_routed timeAndQueue_hwrTaken) _
  | hrd => exact keeps_whenReady (timeAndQueue_routed timeAndQueue_hrdTaken) _
  | feltLinkDown => exact keeps_whenReady timeAndQueue_feltDown _
  | routeTimeout => exact keeps_whenReady timeAndQueue_routeTimeout _
  | deviceJoined => exact keeps_whenReady timeAndQueue_deviceJoined _
  | parentLost => exact keeps_whenReady timeAndQueue_parentLost _
  | bistBlockEnd => exact keeps_whenReady timeAndQueue_bistBlock _
  | sparePeriod => exact keeps_whenLive timeAndQueue_sparePeriod _
  | debugLockoutEnd => exact keeps_whenReady timeAndQueue_lockoutBody _
  | sysRstNRelease => exact keeps_execSysRstNRelease _
  | perstNRelease => exact keeps_execPerstNRelease _
  | linkChange => exact keeps_next (timeAndQueue_linkChange _)
  | aerUncorr => exact keeps_whenHost timeAndQueue_aerUncorr _
  | laneTrainTimeout => exact keeps_execLaneTrainTimeout _
  | widthReq => exact keeps_execWidthReq _
  | creditGrantReceived => exact keeps_execCreditGrantReceived _
  | reelUnitHoldExpiry => exact keeps_whenReady timeAndQueue_reelHoldBody _
  | eventLogWriteInterval => exact keeps_whenReady timeAndQueue_nvmPump _
  | strobePulseEnd => exact keeps_whenReady timeAndQueue_strobeEndBody _
  | biasRampEnd => exact keeps_whenReady timeAndQueue_biasReached _

/-! ### The step -/

theorem timeAndQueue_tick (s : State) : timeAndQueue (tick s) = (s.clk.ns + 1, s.pending) := by
  have h (u : State) : timeAndQueue (operatingSecond (comparatorsLook (gpioFilters (viewStep (dryerTick (linesDue
      (lateStampsDue (headGoesOn (tbAdvance u))))))))) = timeAndQueue u := by simp
  simp only [tick]
  split
  · exact h _
  · rfl

/-- An idle step lets one ns pass; any other takes its command from the front of the queue. -/
theorem timeAndQueue_step {s t : State} (h : step s = .next t) :
    timeAndQueue t = (s.clk.ns + (if s.pending = [] then 1 else 0), s.pending.tail) := by
  unfold step at h
  split at h
  case h_1 hp =>
    cases h
    simp [timeAndQueue_tick, hp]
  case h_2 c cs hp =>
    rw [keeps_exec c _ t h, hp]
    rfl

/-- Settles O6: the tick adds one ns, and every command keeps the time. -/
theorem crystalTimeNeverRunsBack : Obligations.CrystalTimeNeverRunsBack :=
  fun _ _ h => congrArg Prod.fst (timeAndQueue_step h)

end Sys2Proof.Machine

/-! PROOFS. Split accesses to 64-bit registers: a read in two halves and the shadow between them (R33), a write to a half (R35). -/

namespace Sys2Proof.Machine

/-! ### The halves of a 64-bit register -/

/-- The upper half of an aligned register lies four bytes on, and in the same eight bytes. -/
theorem toNat_add_four {off : BitVec 24} (h : off.toNat < 0x100000) : (off + 4).toNat = off.toNat + 4 := by
  rw [BitVec.toNat_add, show (4 : BitVec 24).toNat = 4 from rfl]
  omega

/-- The 64-bit registers that the host writes are aligned and lie among the register blocks (Table 4.3). -/
theorem writable64_place {off : Nat} (h : writable64.contains off = true) : off % 8 = 0 ∧ off + 4 < 0x100000 :=
  (by decide : ∀ n ∈ writable64, n % 8 = 0 ∧ n + 4 < 0x100000) off (List.contains_iff_mem.mp h)

/-- A write of 32 bits into a writable 64-bit register is ignored and noted (R35). -/
theorem exec_registerWrite_half {s : State} {off : BitVec 24} (v : W64) (hs : HostOn s) (hlo : off.toNat < 0x100000)
    (ha : off.toNat % 4 = 0) (hw : writable64.contains (off.toNat - off.toNat % 8) = true) :
    exec (.registerWrite .bar0 off 4 v) s = .next { s with host := { s.host with wrSplit := true } } := by
  rw [exec_registerWrite v hs hlo (by simpa [alignedAccess] using ha), regWrite_4 _ s ha, write32, if_pos hw]

theorem exec_registerWrite_whole {s : State} {off : BitVec 24} (v : W64) (hs : HostOn s) (hlo : off.toNat < 0x100000)
    (ha : off.toNat % 8 = 0) (hw : writable64.contains off.toNat = true) :
    exec (.registerWrite .bar0 off 8 v) s = .next (write64 off.toNat v.toNat s) := by
  have hv : v.toNat % 2 ^ (8 * 8) = v.toNat := Nat.mod_eq_of_lt v.isLt
  rw [exec_registerWrite v hs hlo (by simpa [alignedAccess] using ha), hv, regWrite, if_pos ⟨rfl, ha⟩, if_pos hw]

/-- Settles O16: a write to either half falls in the register's eight bytes. -/
theorem splitWriteIgnored : Obligations.SplitWriteIgnored := by
  intro s off v hs hw
  obtain ⟨ha, hlo⟩ := writable64_place hw
  have hhi : (off + 4).toNat = off.toNat + 4 := toNat_add_four (by omega)
  have low : off.toNat - off.toNat % 8 = off.toNat := by omega
  have high : off.toNat + 4 - (off.toNat + 4) % 8 = off.toNat := by omega
  refine ⟨?_, ?_, exec_registerWrite_whole v hs (by omega) ha hw⟩
  · exact exec_registerWrite_half v hs (by omega) (by omega) (by rwa [low])
  · exact exec_registerWrite_half v hs (by omega) (by omega) (by rwa [hhi, high])

/-! ### Split reads -/

/-- What a read of 32 bits answers goes to the log, over what the read leaves. -/
def readAnswered (r : Nat × State) : State := emit (.readData 4 r.1) r.2

theorem bar0Access_read32 {s : State} {off : BitVec 24} (hs : HostOn s) (ho : s.host.bar2Out = [])
    (hlo : off.toNat < 0x100000) (ha : off.toNat % 4 = 0) :
    whenHost (bar0Access off.toNat (.read 4)) s = .next (readAnswered (read32 off.toNat spanHere s)) := by
  rw [whenHost_of_on _ hs, bar0Access_of_clear _ fun _ => ho, bar0Serve_of_register _ _ _ hlo (by simpa [alignedAccess] using ha)]
  simp [regLocal, regRead, ha, readAnswered]

theorem exec_splitReadLow {s : State} {off : BitVec 24} (hs : HostOn s) (ho : s.host.bar2Out = [])
    (hlo : off.toNat < 0x100000) (ha : off.toNat % 8 = 0) (h64 : is64 s off.toNat = true) :
    exec (.splitReadLow off) s = .next (readAnswered (lowHalf off.toNat s)) := by
  have h := bar0Access_read32 hs ho hlo (by omega)
  rwa [read32, if_pos h64] at h

theorem exec_splitReadHigh {s : State} {off : BitVec 24} (hs : HostOn s) (ho : s.host.bar2Out = [])
    (hlo : off.toNat < 0x100000) (ha : off.toNat % 8 = 0) (h64 : is64 s off.toNat = true)
    (hup : is64 s (off.toNat + 4) = false) :
    exec (.splitReadHigh (off + 4)) s = .next (readAnswered (highHalf off.toNat spanHere s)) := by
  have hhi : (off + 4).toNat = off.toNat + 4 := toNat_add_four hlo
  have hpos : (off.toNat + 4) % 8 = 4 := by omega
  have h := bar0Access_read32 (off := off + 4) hs ho (by omega) (by omega)
  rw [hhi] at h
  change whenHost (bar0Access (off + 4).toNat (.read 4)) s = _
  rw [hhi, h]
  simp [read32, hup, hpos, h64]

/-- A shadow no older than the span gives its high half, and is used up (R33). -/
theorem highHalf_paired {s : State} {off span : Nat} {x : Shadow} (h : tblFind s.host.shadows off = some x)
    (hin : s.clk.ns ≤ x.at_ + span) :
    highHalf off span s = (x.high, { s with host := { s.host with shadows := tblErase s.host.shadows off } }) := by
  simp [highHalf, h, hin]

/-- Without a shadow within the span the high half is live, and the read is noted (R33). -/
theorem highHalf_unpaired {s : State} {off span v : Nat} (hv : regVal s off = some (64, v))
    (h : ∀ x, tblFind s.host.shadows off = some x → x.at_ + span < s.clk.ns) :
    highHalf off span s = (v / 2 ^ 32, { s with host := { s.host with hiUnpaired := true } }) := by
  simp only [highHalf, regShown_of_regVal hv]
  split
  next x hx => rw [if_neg (Nat.not_le.mpr (h x hx))]
  next => rfl

/-- Settles O17: the low read arms the shadow, and the high read finds it within 1 µs or reads live. -/
theorem splitReadIsOneValue : Obligations.SplitReadIsOneValue := by
  intro s off v hs ho hlo ha hv _
  refine ⟨?_, fun u w hu huo hw hup => ?_⟩
  · rw [exec_splitReadLow hs ho hlo ha (is64_of_regVal hv), lowHalf, regShown_of_regVal hv]
    rfl
  · have live (h : ∀ x, tblFind u.host.shadows off.toNat = some x → x.at_ + 1000 < u.clk.ns) :
        exec (.splitReadHigh (off + 4)) u = .next { u with
          sent := .readData 4 (w / 2 ^ 32) :: u.sent
          host := { u.host with hiUnpaired := true } } := by
      rw [exec_splitReadHigh hu huo hlo ha (is64_of_regVal hw) hup, highHalf_unpaired (span := spanHere) hw h]
      rfl
    refine ⟨fun hx hin => ?_, fun hx => live (by simp [hx]), fun x hx hlate => live ?_⟩
    · rw [exec_splitReadHigh hu huo hlo ha (is64_of_regVal hw) hup, highHalf_paired (span := spanHere) hx hin]
      rfl
    · rintro y hy
      cases hx.symm.trans hy
      exact hlate

end Sys2Proof.Machine

/-! PROOFS. A waiting part comes into force: staged values over those in force, in sequence order (R42, R43). -/

namespace Sys2Proof.Machine

/-! ### Laying staged values over those in force -/

/-- A field that is not listed is not laid over. -/
theorem tblFind_laySel_of_none (sel : Nat → Bool) {vs : Tbl Nat} {a : Nat} (h : tblFind vs a = none) (t : Tbl Nat) :
    tblFind (laySel sel vs t) a = tblFind t a := by
  induction vs generalizing t with
  | nil => rfl
  | cons x vs ih =>
    obtain ⟨b, w⟩ := x
    simp only [tblFind] at h
    split at h
    · cases h
    next hab =>
      rw [laySel, ih h]
      split
      · exact tblFind_tblSet_other t w hab
      · rfl

theorem tblFind_laySel_of_unselected {sel : Nat → Bool} {a : Nat} (h : sel a = false) (vs t : Tbl Nat) :
    tblFind (laySel sel vs t) a = tblFind t a := by
  induction vs generalizing t with
  | nil => rfl
  | cons x vs ih =>
    obtain ⟨b, w⟩ := x
    rw [laySel, ih]
    split
    next hb => exact tblFind_tblSet_other t w (by rintro rfl; simp [h] at hb)
    next => rfl

theorem tblFind_of_not_mem {α : Type} {t : Tbl α} {a : Nat} (h : a ∉ t.map Prod.fst) : tblFind t a = none := by
  induction t with
  | nil => rfl
  | cons x t ih =>
    obtain ⟨b, w⟩ := x
    simp only [List.map_cons, List.mem_cons, not_or] at h
    rw [tblFind, if_neg h.1, ih h.2]

/-- A selected field takes the value that is listed for it, where one is: each field is listed once. -/
theorem getD_laySel_of_selected {sel : Nat → Bool} {a : Nat} (h : sel a = true) {vs : Tbl Nat}
    (hn : (vs.map Prod.fst).Nodup) (t : Tbl Nat) (d : Nat) :
    (tblFind (laySel sel vs t) a).getD d = (tblFind vs a).getD ((tblFind t a).getD d) := by
  induction vs generalizing t with
  | nil => rfl
  | cons x vs ih =>
    obtain ⟨b, w⟩ := x
    obtain ⟨hb, hn⟩ := List.nodup_cons.mp hn
    by_cases hab : a = b
    · subst hab
      rw [laySel, if_pos h, tblFind_laySel_of_none sel (tblFind_of_not_mem hb), tblFind_tblSet_self, tblFind, if_pos rfl]
      rfl
    · rw [laySel, ih hn, tblFind, if_neg hab]
      split
      · rw [tblFind_tblSet_other t w hab]
      · rfl

theorem tblFind_takeVals_of_unselected {sel : Nat → Bool} {a : Nat} (h : sel a = false) (part : Nat × Nat)
    (ok : Accepted → Bool) (gs : List Accepted) (t : Tbl Nat) : tblFind (takeVals sel part ok gs t) a = tblFind t a := by
  induction gs generalizing t with
  | nil => rfl
  | cons g gs ih =>
    rw [takeVals, ih]
    split
    · exact tblFind_laySel_of_unselected h g.vals t
    · rfl

/-- The groups that hold the part lay their values one after the other, in sequence order. -/
theorem getD_takeVals_of_selected {sel : Nat → Bool} {a : Nat} (h : sel a = true) (part : Nat × Nat) {gs : List Accepted}
    (hn : ∀ g ∈ gs, (g.vals.map Prod.fst).Nodup) (t : Tbl Nat) (d : Nat) :
    (tblFind (takeVals sel part (fun _ => true) gs t) a).getD d =
      (gs.filter fun g => g.parts.contains part).foldl (fun v g => (tblFind g.vals a).getD v) ((tblFind t a).getD d) := by
  induction gs generalizing t with
  | nil => rfl
  | cons g gs ih =>
    obtain ⟨hg, hgs⟩ := List.forall_mem_cons.mp hn
    rw [takeVals, ih hgs, Bool.and_true, List.filter_cons]
    split
    · rw [getD_laySel_of_selected h hg, List.foldl_cons]
    · rfl

/-! ### The parts that wait -/

/-- The groups that are left when a waiting part is in force. -/
theorem accepted_takePart (blk inst : Nat) (s : State) : (takePart blk inst s).cfg.accepted =
    (s.cfg.accepted.map fun g => { g with parts := g.parts.filter fun p => p ≠ (blk, inst) }).filter fun g => !g.parts.isEmpty := rfl

/-- A group without parts, which goes, is one that nothing waits for. -/
theorem partWaits_takePart (blk inst : Nat) (s : State) (b i : Nat) : partWaits (takePart blk inst s) b i =
    s.cfg.accepted.any fun g => (g.parts.filter fun p => p ≠ (blk, inst)).contains (b, i) := by
  rw [partWaits, accepted_takePart, List.any_filter, List.any_map]
  congr 1
  funext g
  simp only [Function.comp]
  cases g.parts.filter fun p => p ≠ (blk, inst) <;> simp

theorem partWaits_takePart_self (blk inst : Nat) (s : State) : partWaits (takePart blk inst s) blk inst = false := by
  simp [partWaits_takePart]

theorem partWaits_takePart_other {blk inst b i : Nat} (h : (b, i) ≠ (blk, inst)) (s : State) :
    partWaits (takePart blk inst s) b i = partWaits s b i := by
  have hg (g : Accepted) : ((g.parts.filter fun p => p ≠ (blk, inst)).contains (b, i)) = g.parts.contains (b, i) := by
    rw [Bool.eq_iff_iff]
    simp [List.mem_filter, -Prod.mk.injEq, h]
  rw [partWaits_takePart, partWaits]
  simp only [hg]

/-- Settles O22: the values by induction over the accepted groups, the parts group by group. -/
theorem committedValuesInSequence : Obligations.CommittedValuesInSequence := by
  intro s blk inst a hn
  refine ⟨fun h => ?_, fun h => ?_, partWaits_takePart_self blk inst s,
    fun b i hbi => partWaits_takePart_other hbi s, rfl⟩
  · exact getD_takeVals_of_selected h (blk, inst) hn s.cfg.vals (fieldReset a)
  · exact congrArg (Option.getD · (fieldReset a)) (tblFind_takeVals_of_unselected h _ _ s.cfg.accepted s.cfg.vals)

end Sys2Proof.Machine

/-! PROOFS. Staging, reading, discarding and committing configuration groups, and the boundaries at which parts come into
force (R37 to R46). -/

namespace Sys2Proof.Machine

/-! ### Host data of a command -/

/-- At the head the data of a command are at hand: no other device is asked for them. -/
theorem hostIn_data_of_head {s : State} {c : Cmd} {pos : Nat} (bs : List Byte) (go : List Byte → State → State)
    (h : s.chain.head = true) : hostIn c (.data bs) pos go s = go bs s := by
  simp [hostIn, hrdAsk, h]

theorem needHost_of_may {s : State} {c : Cmd} (f : Cmd → State → State) (h : mayRequest s = true) :
    needHost f c s = f c s := if_pos h

theorem hostOut_ok_of_may {s : State} {c : Cmd} {bs : List Byte} (fin : Cmd → State → State) (h : mayRequest s = true) :
    hostOut c bs .ok fin s = fin c (hostWrite (pkAddr c.packet) bs s) := by
  simp [hostOut, hostOutAt, h]

/-! ### CFG_STAGE (R36 to R39) -/

/-- Do the staged bytes lie in the ranges that the fields of the target state (R37)? -/
def stagedInRange (c : Cmd) (bs : List Byte) : Bool :=
  stageRangesOk (addrBlk (pkTarget c.packet)) (addrInst (pkTarget c.packet)) (addrOff (pkTarget c.packet))
    (padTo (pkLen c.packet) bs)

/-- The group of a CFG_STAGE with its fields entered. -/
def stagedGroup (c : Cmd) (bs : List Byte) (s : State) : Tbl Nat :=
  (coveredFields (addrBlk (pkTarget c.packet)) (addrInst (pkTarget c.packet)) (addrOff (pkTarget c.packet))
    (padTo (pkLen c.packet) bs)).foldl
    (fun v x => tblSet v (cfgAddr (addrBlk (pkTarget c.packet)) (addrInst (pkTarget c.packet)) x.1.off) x.2)
    ((openGroup s (u8At c.packet 0x18)).getD [])

theorem stageData_of_out_of_range {c : Cmd} {bs : List Byte} (s : State) (h : stagedInRange c bs = false) :
    stageData c bs s = finishCheck c stBadParam s := by
  rw [stagedInRange] at h
  simp [stageData, h]

theorem stageData_of_busy {c : Cmd} {bs : List Byte} {s : State} (h : stagedInRange c bs = true) (hb : stageBusy c s = true) :
    stageData c bs s = finishCheck c stBusy s := by
  rw [stagedInRange] at h
  simp [stageData, h, hb]

theorem stageData_of_big {c : Cmd} {bs : List Byte} {s : State} (h : stagedInRange c bs = true) (hb : stageBusy c s = false)
    (hg : stageBig c s = true) : stageData c bs s = finishCheck c stBadParam s := by
  rw [stagedInRange] at h
  simp [stageData, h, hb, hg]

theorem stageData_of_fits {c : Cmd} {bs : List Byte} {s : State} (h : stagedInRange c bs = true) (hb : stageBusy c s = false)
    (hg : stageBig c s = false) : stageData c bs s = finishOk c 0 (pkLen c.packet)
      { s with cfg := { s.cfg with groups := tblSet s.cfg.groups (u8At c.packet 0x18) (stagedGroup c bs s) } } := by
  rw [stagedInRange] at h
  simp only [stageData, h, hb, hg]
  rfl

/-- A CFG_STAGE of this device stages its data: those of its packet, or those that the host answered. -/
theorem cfgStageStart_here {s : State} {c : Cmd} {bs : List Byte} (ho : c.origin = .here → pairTarget s c.sq = s.chain.devId)
    (hd : if stageInline c.packet then bs = slice c.packet 0x20 (pkLen c.packet) else mayRequest s = true ∧ s.chain.head = true) :
    cfgStageStart (.data bs) c s = stageData c bs s := by
  have hown : ¬ (c.origin = .here ∧ pairTarget s c.sq ≠ s.chain.devId) := fun h => h.2 (ho h.1)
  rw [cfgStageStart, if_neg hown]
  split at hd
  next hi => rw [if_pos hi, hd]
  next hi => rw [if_neg hi, needHost_of_may _ hd.1, hostIn_data_of_head _ _ hd.2]

/-- One that waited at the head for another device has its ranges checked here (R105). -/
theorem cfgStageStart_away {s : State} {c : Cmd} (bs : List Byte) (ho : c.origin = .here)
    (ht : pairTarget s c.sq ≠ s.chain.devId) (hm : mayRequest s = true) (hh : s.chain.head = true) :
    cfgStageStart (.data bs) c s = stageAwayData c bs s := by
  rw [cfgStageStart, if_pos ⟨ho, ht⟩, needHost_of_may _ hm, hostIn_data_of_head _ _ hh]

theorem stageAwayData_of_out_of_range {c : Cmd} {bs : List Byte} (s : State) (h : stagedInRange c bs = false) :
    stageAwayData c bs s = awayPump c.sq s.cmds.flight.length (finishCheck c stBadParam s) := by
  rw [stagedInRange] at h
  simp [stageAwayData, h]

theorem stageAwayData_of_in_range {c : Cmd} {bs : List Byte} (s : State) (h : stagedInRange c bs = true) :
    stageAwayData c bs s = awayPump c.sq s.cmds.flight.length (forwardCmd (pairTarget s c.sq) c s) := by
  rw [stagedInRange] at h
  simp [stageAwayData, h]

/-! ### CFG_READ (R46) -/

theorem cfgReadStart_in_force {s : State} {c : Cmd} (hm : mayRequest s = true) (ho : pkOpt8 c.packet = false) :
    cfgReadStart .ok c s = finishOk c 0 (pkLen c.packet)
      (hostWrite (pkAddr c.packet) (readConfig s [] (pkTarget c.packet) (pkLen c.packet)) s) := by
  simp [cfgReadStart, ho, hostOut_ok_of_may _ hm]

theorem cfgReadStart_staged {s : State} {c : Cmd} {g : Tbl Nat} (hm : mayRequest s = true) (ho : pkOpt8 c.packet = true)
    (hv : validating s (u8At c.packet 0x18) = false) (hg : openGroup s (u8At c.packet 0x18) = some g) :
    cfgReadStart .ok c s = finishOk c 0 (pkLen c.packet)
      (hostWrite (pkAddr c.packet) (readConfig s g (pkTarget c.packet) (pkLen c.packet)) s) := by
  simp [cfgReadStart, ho, pm8, hv, hg, hostOut_ok_of_may _ hm]

/-! ### CFG_COMMIT with DISCARD (R41, R108) -/

section Discard

variable {s : State} {sq : Fin 1024} {tag : W32} {c : Cmd}

theorem exec_cfgCommitDiscard (h : Starts s sq tag 0x0011 c) (ho : pkOpt8 c.packet = true) :
    exec (.cfgCommitDiscard sq tag) s = .next (discardStart c s) :=
  (opcodeRow_of_starts _ _ h).trans (congrArg _ (if_pos ho))

theorem discardStart_of_open {g : Tbl Nat} (hv : validating s (u8At c.packet 0x18) = false)
    (hg : openGroup s (u8At c.packet 0x18) = some g) :
    discardStart c s = finishOk c 0 0 (closeGroup (u8At c.packet 0x18) s) := by
  simp [discardStart, pm8, hv, hg]

theorem discardStart_of_closed (hv : validating s (u8At c.packet 0x18) = false)
    (hg : openGroup s (u8At c.packet 0x18) = none) : discardStart c s = finishCheck c stBadParam s := by
  simp [discardStart, pm8, hv, hg]

theorem discardStart_of_validating (hv : validating s (u8At c.packet 0x18) = true) :
    discardStart c s = finishCheck c stBusy s := by
  simp [discardStart, pm8, hv]

end Discard

/-- Settles O20: staging here and at the head by its checks in order, reading, and the three cases of DISCARD. -/
theorem stagingReadingDiscarding : Obligations.StagingReadingDiscarding := by
  intro s sq tag c
  have stage (d : HostRead) (h : Starts s sq tag 0x0010 c) : exec (.cfgStage sq tag d) s = .next (cfgStageStart d c s) :=
    opcodeRow_of_starts _ _ h
  have read (h : Starts s sq tag 0x0012 c) : exec (.cfgRead sq tag .ok) s = .next (cfgReadStart .ok c s) :=
    opcodeRow_of_starts _ _ h
  refine ⟨fun bs h ho hd => ?_, fun bs h ho ht hm hh => ?_, fun h hm ho => ?_, fun g h hm ho hv hg => ?_,
    fun g h ho hv hg => ?_, fun h ho hv hg => ?_, fun h ho hv => ?_⟩
  · rw [stage _ h, cfgStageStart_here ho hd]
    exact ⟨fun hr => congrArg _ (stageData_of_out_of_range s hr), fun hr =>
      ⟨fun hb => congrArg _ (stageData_of_busy hr hb), fun hb hg => congrArg _ (stageData_of_big hr hb hg),
        fun hb hg => congrArg _ (stageData_of_fits hr hb hg)⟩⟩
  · rw [stage _ h, cfgStageStart_away bs ho ht hm hh]
    exact ⟨fun hr => congrArg _ (stageAwayData_of_out_of_range s hr), fun hr => congrArg _ (stageAwayData_of_in_range s hr)⟩
  · rw [read h, cfgReadStart_in_force hm ho]; rfl
  · rw [read h, cfgReadStart_staged hm ho hv hg]; rfl
  · rw [exec_cfgCommitDiscard h ho, discardStart_of_open hv hg]; rfl
  · rw [exec_cfgCommitDiscard h ho, discardStart_of_closed hv hg]; rfl
  · rw [exec_cfgCommitDiscard h ho, discardStart_of_validating hv]; rfl

/-! ### CFG_COMMIT (R41, R42, R108) -/

section Commit

variable {s : State} {c : Cmd}

theorem commitStart_of_validating (hv : validating s (u8At c.packet 0x18) = true) :
    commitStart c s = finishCheck c stBusy s := by
  simp [commitStart, pm8, hv]

theorem commitStart_of_empty (hv : validating s (u8At c.packet 0x18) = false)
    (hg : (openGroup s (u8At c.packet 0x18)).getD [] = []) : commitStart c s = finishCheck c stBadParam s := by
  simp [commitStart, pm8, hv, hg]

theorem commitStart_of_staged (hv : validating s (u8At c.packet 0x18) = false)
    (hg : (openGroup s (u8At c.packet 0x18)).getD [] ≠ []) : commitStart c s = (beginWork c 0 s).2 := by
  simp [commitStart, pm8, hv, hg]

theorem commitEnds_of_valid {g : Tbl Nat} (hg : openGroup s (u8At c.packet 0x18) = some g) (hne : g ≠ [])
    (hv : validate s g = none) : commitEnds c s =
      finishOk c (s.cfg.seq + 1).toNat 0 (handOver g (closeGroup (u8At c.packet 0x18) s)) := by
  simp [commitEnds, pm8, hg, hne, hv]

theorem commitEnds_of_failed {g : Tbl Nat} {f : Fail} (hg : openGroup s (u8At c.packet 0x18) = some g) (hne : g ≠ [])
    (hv : validate s g = some f) : commitEnds c s = finishErr c stInconsistent (failResult f) s := by
  simp [commitEnds, pm8, hg, hne, hv]

end Commit

/-! ### COMMIT_BOUNDARY (R43, R45) -/

/-- What is stopped takes its parts, then what is named takes its own at its boundary. -/
theorem exec_commitBoundary {s : State} (h : Ready s) (blk : BitVec 8) {i : Nat} (hi : i < 256) :
    exec (.commitBoundary blk (BitVec.ofNat 8 i)) s = .next (boundaryTake blk.toNat i (stoppedTake s)) := by
  have hb : (BitVec.ofNat 8 i).toNat = i := by rw [BitVec.toNat_ofNat]; omega
  change whenReady (fun u => boundaryTake blk.toNat (BitVec.ofNat 8 i).toNat (stoppedTake u)) s = _
  rw [whenReady_of_ready _ h, hb]

theorem boundaryTake_port {s : State} {p : Nat} (h : freshStripe s p (0x02, p) = true) :
    boundaryTake 0x02 p s = portBoundary p s := by
  simp [boundaryTake, h]

theorem boundaryTake_slice (s : State) {k : Nat} (h : k < 8) :
    boundaryTake 0x07 k s = sliceTake k (some s.web.knot.lastMin) s := by
  simp [boundaryTake, h]

theorem boundaryTake_merger (s : State) : boundaryTake 0x07 8 s = mergerBoundary (some s.web.knot.lastMin) s := by
  simp [boundaryTake]

theorem boundaryTake_reel {s : State} {r : Nat} (hlo : 1 ≤ rlSource s r) (hhi : rlSource s r ≤ 3) :
    boundaryTake 0x08 r s = reelBoundary r (some s.web.couch.minTb) s := by
  simp [boundaryTake, hlo, hhi]

theorem boundaryTake_dryer {s : State} {p : Nat} {f : DFrame} (hf : (dry s p).frame = some f) (hg : f.got = 0)
    (hs : dryShut s p = false) (hb : allBefore s (0x05, p) f.syncTb = true) :
    boundaryTake 0x05 p s = dryBoundary p (some f.number) s := by
  simp [boundaryTake, hf, hg, hs, hb]

/-- Settles O21: the two rows of CFG_COMMIT by their checks, and each boundary by its block. -/
theorem commitValidatesThenHandsOver : Obligations.CommitValidatesThenHandsOver := by
  refine ⟨fun s sq tag c h ho => ?_, fun s sq tag c h => ?_, fun s hr => ?_⟩
  · have start : exec (.cfgCommit sq tag) s = .next (commitStart c s) :=
      (opcodeRow_of_starts _ _ h).trans (congrArg _ (if_neg (by simp [ho])))
    rw [start]
    exact ⟨fun hv => congrArg _ (commitStart_of_validating hv), fun hv hg => congrArg _ (commitStart_of_empty hv hg),
      fun hv hg => congrArg _ (commitStart_of_staged hv hg)⟩
  · have ends : exec (.cfgCommit sq tag) s = .next (commitEnds c s) := opcodeRow_of_carriesOn _ _ h
    rw [ends]
    exact ⟨fun g hg hne hv => congrArg _ (commitEnds_of_valid hg hne hv),
      fun g f hg hne hv => congrArg _ (commitEnds_of_failed hg hne hv)⟩
  · have at_ {i : Nat} (blk : BitVec 8) (hi : i < 256) := exec_commitBoundary hr blk hi
    refine ⟨fun p hp => ?_, at_ (i := 0) 0x06 (by decide), fun k => ?_, ?_, fun w => at_ 0x03 (by omega),
      fun r hlo hhi => ?_, fun p f hf hg hs hb => ?_⟩
    · rw [at_ 0x02 (by omega)]
      exact congrArg _ (boundaryTake_port hp)
    · rw [at_ 0x07 (by omega)]
      exact congrArg _ (boundaryTake_slice _ k.isLt)
    · rw [← boundaryTake_merger]
      exact at_ (i := 8) 0x07 (by decide)
    · rw [at_ 0x08 (by omega)]
      exact congrArg _ (boundaryTake_reel hlo hhi)
    · rw [at_ 0x05 (by omega)]
      exact congrArg _ (boundaryTake_dryer hf hg hs hb)

end Sys2Proof.Machine

/-! PROOFS. Clock, start-up, endpoint and security records: what the operations of the other blocks leave as they stand. Each
function from states to states that device ready, a profile's image or the drop of a command reaches has one rule, in the order
of the model's definitions and proved from the rules of the functions it calls. -/

namespace Sys2Proof.Machine

/-- The records of the clock, start-up, the PCIe endpoint and security. -/
def standing (s : State) : Clk × Boot × Pcie × Sec := (s.clk, s.boot, s.pcie, s.sec)

/-! ### Record updates, branches, options and folds -/

@[simp] theorem standing_mk {clk : Clk} {boot : Boot} {pcie : Pcie} {host : HostIf} {cfg : Cfg} {cmds : Cmds} {nvm : Nvm}
    {sec : Sec} {chain : Chain} {bist : Bist} {ing : Ingest} {web : Web} {afe : Afe} {hbm : Mem} {sent : List Emit} {free : Nat}
    {pending : List Instr} :
    standing ⟨clk, boot, pcie, host, cfg, cmds, nvm, sec, chain, bist, ing, web, afe, hbm, sent, free, pending⟩ =
      (clk, boot, pcie, sec) := by rfl

@[simp] theorem records_eq_standing (s : State) : (s.clk, s.boot, s.pcie, s.sec) = standing s := by rfl

@[simp] theorem standing_ite (p : Prop) [Decidable p] (s t : State) :
    standing (if p then s else t) = if p then standing s else standing t := apply_ite ..

@[simp] theorem standing_ite_snd {α : Type} (p : Prop) [Decidable p] (x y : α × State) :
    standing (if p then x else y).2 = if p then standing x.2 else standing y.2 :=
  apply_ite (fun z : α × State => standing z.2) ..

@[simp] theorem standing_getD_map {α : Type} {f : α → State} {s : State} (h : ∀ x, standing (f x) = standing s)
    (o : Option α) : standing ((o.map f).getD s) = standing s := by
  cases o with
  | none => rfl
  | some x => exact h x

@[simp] theorem standing_foldl {α : Type} {f : State → α → State} (h : ∀ u x, standing (f u x) = standing u)
    (l : List α) (s : State) : standing (l.foldl f s) = standing s := by
  induction l generalizing s with
  | nil => rfl
  | cons x xs ih => exact (ih _).trans (h s x)

@[simp] theorem standing_foldl_snd {α β : Type} {f : β × State → α → β × State}
    (h : ∀ u x, standing (f u x).2 = standing u.2) (l : List α) (u : β × State) :
    standing (l.foldl f u).2 = standing u.2 := by
  induction l generalizing u with
  | nil => rfl
  | cons x xs ih => exact (ih _).trans (h u x)

/-- Bookkeeping changes none of them. -/
theorem BookOnly.standing {s t : State} (h : BookOnly s t) : standing t = standing s := by
  rw [h]
  rfl

/-! ### Shared operations -/

@[simp] theorem standing_takeSel {sel : Nat → Bool} {part : Nat × Nat} {ok : Accepted → Bool} (s : State) :
    standing (takeSel sel part ok s) = standing s := by rfl

@[simp] theorem standing_takePart {blk inst : Nat} (s : State) :
    standing (takePart blk inst s) = standing s := by rfl

@[simp] theorem standing_hbmWrite {a : Nat} {bs : List Byte} (s : State) :
    standing (hbmWrite a bs s) = standing s := by rfl

@[simp] theorem standing_countLife {i : Nat} (s : State) : standing (countLife i s) = standing s := by rfl

@[simp] theorem standing_emit {e : Emit} (s : State) :
    standing (emit e s) = standing s := (emit_traffic _ _).book.standing

@[simp] theorem standing_setFeltPort {k : Nat} {p : FeltPort} (s : State) :
    standing (setFeltPort k p s) = standing s := (setFeltPort_traffic _ _ _).book.standing

@[simp] theorem standing_feltOn {k : Nat} {pkt : FeltPacket} (s : State) :
    standing (feltOn k pkt s) = standing s := (feltOn_traffic _ _ _).book.standing

@[simp] theorem standing_feltRoute {p : FeltPacket} (s : State) :
    standing (feltRoute p s) = standing s := (feltRoute_traffic _ _).book.standing

@[simp] theorem standing_feltTo {dst ptype : Nat} {payload : List Byte} (s : State) :
    standing (feltTo dst ptype payload s) = standing s := (feltTo_traffic _ _ _ _).book.standing

@[simp] theorem standing_hostWrite {a : Nat} {bs : List Byte} (s : State) :
    standing (hostWrite a bs s) = standing s := (hostWrite_traffic _ _ _).book.standing

@[simp] theorem standing_logRaise {n cause detail sev : Nat} (s : State) :
    standing (logRaise n cause detail sev s) = standing s := (logRaise_book _ _ _ _ _).standing

@[simp] theorem standing_raise {n cause detail : Nat} (s : State) :
    standing (raise n cause detail s) = standing s := (raise_book _ _ _ _).standing

/-! ### Encoders -/

@[simp] theorem standing_setEnc {e : Nat} {x : Enc} (s : State) : standing (setEnc e x s) = standing s := by rfl

@[simp] theorem standing_encRestart {e : Nat} (s : State) :
    standing (encRestart e s) = standing s := by simp [encRestart]

@[simp] theorem standing_couchFresh {e : Nat} (s : State) :
    standing (couchFresh e s) = standing s := by simp [couchFresh]

@[simp] theorem standing_encPreset {e : Nat} (s : State) :
    standing (encPreset e s) = standing s := by simp [encPreset]

/-! ### The AFE die -/

@[simp] theorem standing_updChan {n : Nat} {f : Chan → Chan} (s : State) :
    standing (updChan n f s) = standing s := by rfl

@[simp] theorem standing_updDry {p : Nat} {f : Dry → Dry} (s : State) :
    standing (updDry p f s) = standing s := by rfl

@[simp] theorem standing_updHk {u : Nat} {f : Hk → Hk} (s : State) : standing (updHk u f s) = standing s := by rfl

@[simp] theorem standing_updSp {n : Nat} {f : Sp → Sp} (s : State) : standing (updSp n f s) = standing s := by rfl

@[simp] theorem standing_spStart {n : Nat} {f : SpFrame} (s : State) :
    standing (spStart n f s) = standing s := by rfl

@[simp] theorem standing_spNext {n : Nat} {fs : List SpFrame} (s : State) :
    standing (spNext n fs s) = standing s := by
  induction fs generalizing s with
  | nil => rfl
  | cons f fs ih => simp [spNext, ih]

@[simp] theorem standing_spPump {n : Nat} (s : State) : standing (spPump n s) = standing s := by simp [spPump]

@[simp] theorem standing_spQueue {n : Nat} {f : SpFrame} (s : State) :
    standing (spQueue n f s) = standing s := by simp [spQueue]

@[simp] theorem standing_shutFault {p cause : Nat} (s : State) :
    standing (shutFault p cause s) = standing s := by simp [shutFault]

@[simp] theorem standing_shutCut {n : Nat} (s : State) : standing (shutCut n s) = standing s := by
  refine standing_foldl (fun s p => ?_) _ s
  split <;> simp

/-! ### Commands in flight -/

@[simp] theorem standing_putCmd {c : Cmd} (s : State) : standing (putCmd c s) = standing s := by rfl

@[simp] theorem standing_setSlot {n : Nat} {x : Slot} (s : State) :
    standing (setSlot n x s) = standing s := by rfl

@[simp] theorem standing_progressTo {c : Cmd} {pos : Nat} (s : State) :
    standing (progressTo c pos s).2 = standing s := by
  simp only [progressTo]
  split <;> simp

@[simp] theorem standing_finish {c : Cmd} {status percent result position : Nat} (s : State) :
    standing (finish c status percent result position s) = standing s := (finish_book _ _ _ _ _ _).standing

@[simp] theorem standing_finishOk {c : Cmd} {result position : Nat} (s : State) :
    standing (finishOk c result position s) = standing s := by simp [finishOk]

/-! ### Defect records -/

@[simp] theorem standing_knotUpd {f : Knot → Knot} (s : State) : standing (knotUpd f s) = standing s := by rfl

@[simp] theorem standing_couchUpd {f : Couch → Couch} (s : State) : standing (couchUpd f s) = standing s := by rfl

@[simp] theorem standing_histUpd {f : Hist → Hist} (s : State) : standing (histUpd f s) = standing s := by rfl

@[simp] theorem standing_ringDrop {src : Nat} {n : Nat} {r : Ring} {put : Ring → State → State}
    (hput : ∀ x u, standing (put x u) = standing u) (s : State) :
    standing (ringDrop src n r put s) = standing s := by simp [ringDrop, hput]

@[simp] theorem standing_putDq {n : Nat} {r : Ring} (s : State) : standing (putDq n r s) = standing s := by rfl

@[simp] theorem standing_putSr {n : Nat} {r : Ring} (s : State) : standing (putSr n r s) = standing s := by rfl

@[simp] theorem standing_formRec {r : RecFields} {tile : Option Nat} (s : State) :
    standing (formRec r tile s) = standing s := by
  simp only [formRec]
  split <;> simp

@[simp] theorem standing_blindBands {iv : BlindIv} {start len right : Int} {n : Nat} {left : Int} (s : State) :
    standing (blindBands iv start len right n left s) = standing s := by
  induction n generalizing left s with
  | zero => rfl
  | succ n ih => simp [blindBands, ih]

@[simp] theorem standing_blindPiece {iv : BlindIv} {start stop : Int} (s : State) :
    standing (blindPiece iv start stop s) = standing s := by
  simp only [blindPiece]
  repeat' split
  all_goals simp

@[simp] theorem standing_blindPieces {limit : Int} {n : Nat} {iv : BlindIv} (s : State) :
    standing (blindPieces limit n iv s).2 = standing s := by
  induction n generalizing iv s with
  | zero => rfl
  | succ n ih => simp [blindPieces, ih]

@[simp] theorem standing_blindOpen {kind source cause tag : Nat} {start : Int} (s : State) :
    standing (blindOpen kind source cause tag start s) = standing s := by rfl

@[simp] theorem standing_blindClose {source cause tag : Nat} {stop : Int} (s : State) :
    standing (blindClose source cause tag stop s) = standing s := by
  simp only [blindClose]
  split <;> simp

/-! ### Lanes -/

@[simp] theorem standing_setLane {n : Nat} {l : Lane} (s : State) :
    standing (setLane n l s) = standing s := by rfl

@[simp] theorem standing_bringUpSeeds {n : Nat} (s : State) : standing (bringUpSeeds n s) = standing s := by
  simp only [bringUpSeeds]
  split <;> simp

@[simp] theorem standing_freshTimers {n : Nat} (s : State) : standing (freshTimers n s) = standing s := by rfl

@[simp] theorem standing_laneOff {n : Nat} (s : State) : standing (laneOff n s) = standing s := by rfl

@[simp] theorem standing_prbsHold {old : State} {n : Nat} (s : State) :
    standing (prbsHold old n s) = standing s := by rfl

/-! ### Routes of the chain -/

@[simp] theorem standing_updMap {d : Nat} {f : MapEntry → MapEntry} (s : State) :
    standing (updMap d f s) = standing s := by rfl

@[simp] theorem standing_feltGather (s : State) : standing (feltGather s) = standing s := by simp [feltGather]

@[simp] theorem standing_holdFlush (s : State) : standing (holdFlush s) = standing s := by simp [holdFlush]

@[simp] theorem standing_notifyAll {payload : List Byte} (s : State) :
    standing (notifyAll payload s) = standing s := by simp [notifyAll]

@[simp] theorem standing_packetLost {p : FeltPacket} (s : State) :
    standing (packetLost p s) = standing s := by simp [packetLost]

@[simp] theorem standing_deviceLost {d : Nat} (s : State) :
    standing (deviceLost d s) = standing s := by simp [deviceLost]

@[simp] theorem standing_reparent {dist : Tbl Nat} (s : State) :
    standing (reparent dist s) = standing s := by simp [reparent]

@[simp] theorem standing_recompute (s : State) : standing (recompute s) = standing s := by simp [recompute]

/-! ### Reels -/

@[simp] theorem standing_updReel {r : Nat} {f : Reel → Reel} (s : State) :
    standing (updReel r f s) = standing s := by rfl

@[simp] theorem standing_unitDeliver {r : Nat} {bytes : List Byte} (s : State) :
    standing (unitDeliver r bytes s) = standing s := by
  simp only [unitDeliver]
  split <;> simp

@[simp] theorem standing_unitClose {r : Nat} (s : State) : standing (unitClose r s) = standing s := by
  simp only [unitClose]
  split <;> simp

@[simp] theorem standing_unitAdd {r : Nat} {o : OutRow} (s : State) :
    standing (unitAdd r o s) = standing s := by simp [unitAdd]

@[simp] theorem standing_upStage {r : Nat} {d : DownRow} (s : State) :
    standing (upStage r d s) = standing s := by simp [upStage]

@[simp] theorem standing_groupClose {r : Nat} (s : State) : standing (groupClose r s) = standing s := by
  simp only [groupClose]
  split <;> simp

@[simp] theorem standing_reelTake {r : Nat} (s : State) : standing (reelTake r s) = standing s := by
  simp only [reelTake]
  split <;> simp

@[simp] theorem standing_reelDrain {r : Nat} {n : Nat} (s : State) : standing (reelDrain r n s) = standing s := by
  induction n generalizing s with
  | zero => rfl
  | succ n ih => simp [reelDrain, ih]

@[simp] theorem standing_upFlush {r : Nat} (s : State) : standing (upFlush r s) = standing s := by
  simp only [upFlush]
  split <;> simp

@[simp] theorem standing_reelFlush {r : Nat} (s : State) :
    standing (reelFlush r s) = standing s := by simp [reelFlush]

@[simp] theorem standing_reelBoundary {r : Nat} {lim : Option Nat} (s : State) :
    standing (reelBoundary r lim s) = standing s := by simp [reelBoundary]

@[simp] theorem standing_reelPush {r : Nat} {q : ReelIn} (s : State) :
    standing (reelPush r q s) = standing s := by rfl

@[simp] theorem standing_reelRaw {p : Nat} {num : Nat} {md : Int} {flags spp stripeTb : Nat} {samples : List Nat}
    (s : State) : standing (reelRaw p num md flags spp stripeTb samples s) = standing s := by simp [reelRaw]

@[simp] theorem standing_rawStops {p : Nat} (s : State) :
    standing (rawStops p s) = standing s := by simp [rawStops]

/-! ### Boundaries of couch, knotter and reels -/

@[simp] theorem standing_couchLaid {lim : Option Nat} (s : State) :
    standing (couchLaid lim s) = standing s := by rfl

@[simp] theorem standing_srcFresh {old : State} (s : State) :
    standing (srcFresh old s) = standing s := by simp [srcFresh]

@[simp] theorem standing_couchTake {lim : Option Nat} (s : State) :
    standing (couchTake lim s) = standing s := by simp [couchTake]

@[simp] theorem standing_couchDryerTake {p : Nat} {ok : Accepted → Bool} (s : State) :
    standing (couchDryerTake p ok s) = standing s := by rfl

@[simp] theorem standing_thermMove {k : Nat} (s : State) :
    standing (thermMove k s) = standing s := by simp [thermMove]

@[simp] theorem standing_sliceTake {k : Nat} {lim : Option Nat} (s : State) :
    standing (sliceTake k lim s) = standing s := by simp [sliceTake]

@[simp] theorem standing_mergerLay {ok : Accepted → Bool} (s : State) :
    standing (mergerLay ok s) = standing s := by simp [mergerLay]

@[simp] theorem standing_mergerTake {lim : Option Nat} (s : State) :
    standing (mergerTake lim s) = standing s := by simp [mergerTake]

@[simp] theorem standing_slicesIdle (s : State) : standing (slicesIdle s) = standing s := by simp [slicesIdle]

@[simp] theorem standing_webTested (s : State) : standing (webTested s) = standing s := by simp [webTested]

@[simp] theorem standing_webStopped (s : State) : standing (webStopped s) = standing s := by simp [webStopped]

@[simp] theorem standing_couchDryerIdle (s : State) :
    standing (couchDryerIdle s) = standing s := by simp [couchDryerIdle]

/-! ### Headboxes -/

@[simp] theorem standing_setPort {p : Nat} {x : Port} (s : State) :
    standing (setPort p x s) = standing s := by rfl

@[simp] theorem standing_updPort {p : Nat} {f : Port → Port} (s : State) :
    standing (updPort p f s) = standing s := by rfl

@[simp] theorem standing_setLink {r : Nat} {l : Link} (s : State) :
    standing (setLink r l s) = standing s := by simp [setLink]

@[simp] theorem standing_sendBlocks {r off : Nat} {follow : Bool} {lanes : List (List Block)} (s : State) :
    standing (sendBlocks r off follow lanes s) = standing s := by simp [sendBlocks]

@[simp] theorem standing_linkBlocks {r off w : Nat} {bs : List Block} (s : State) :
    standing (linkBlocks r off w bs s) = standing s := by simp [linkBlocks]

@[simp] theorem standing_linkPacketOn {r off w ptype : Nat} {payload : List Byte} (s : State) :
    standing (linkPacketOn r off w ptype payload s) = standing s := by simp [linkPacketOn]

@[simp] theorem standing_linkPacket {r ptype : Nat} {payload : List Byte} (s : State) :
    standing (linkPacket r ptype payload s) = standing s := by simp [linkPacket]

@[simp] theorem standing_truncate {p sid : Nat} (s : State) : standing (truncate p sid s) = standing s := by
  simp only [truncate]
  split <;> simp

@[simp] theorem standing_pipeLeave {p : Nat} {it : Item} (s : State) :
    standing (pipeLeave p it s) = standing s := by simp [pipeLeave]

@[simp] theorem standing_stripeSweep {p : Nat} (s : State) : standing (stripeSweep p s) = standing s := by rfl

@[simp] theorem standing_pipePump {p : Nat} {n : Nat} (s : State) : standing (pipePump p n s) = standing s := by
  induction n generalizing s with
  | zero => rfl
  | succ n ih => 
    simp only [pipePump]
    split
    · rfl
    · split <;> simp [ih]

@[simp] theorem standing_rawWrite {block off : Nat} {bs : List Byte} (s : State) :
    standing (rawWrite block off bs s) = standing s := by simp [rawWrite]

@[simp] theorem standing_rawBegin {p sid : Nat} (s : State) :
    standing (rawBegin p sid s) = standing s := by simp [rawBegin]

@[simp] theorem standing_rawClose {block : Nat} (s : State) : standing (rawClose block s) = standing s := by
  simp only [rawClose]
  split <;> simp

@[simp] theorem standing_setTab {p bank i : Nat} {x : TabItem} (s : State) :
    standing (setTab p bank i x s) = standing s := by rfl

@[simp] theorem standing_releaseBank {p bank : Nat} (s : State) :
    standing (releaseBank p bank s) = standing s := by rfl

@[simp] theorem standing_layTables {p : Nat} {vals : Tbl Nat} (s : State) :
    standing (layTables p vals s) = standing s := by
  simp only [layTables]
  repeat' split
  all_goals simp

@[simp] theorem standing_layAll {vals : Tbl Nat} (s : State) : standing (layAll vals s) = standing s := by rfl

@[simp] theorem standing_dropParts {seq : W32} {gone : List (Nat × Nat)} {add : List (Nat × Nat)} (s : State) :
    standing (dropParts seq gone add s) = standing s := by rfl

@[simp] theorem standing_supersede {part : Nat × Nat} {vals : Tbl Nat} (s : State) :
    standing (supersede part vals s) = standing s := by rfl

@[simp] theorem standing_sendSetting {p seq : Nat} (s : State) :
    standing (sendSetting p seq s) = standing s := by simp [sendSetting]

@[simp] theorem standing_forgetPositions {old : State} {p : Nat} (s : State) :
    standing (forgetPositions old p s) = standing s := by simp [forgetPositions]

@[simp] theorem standing_bindFaults {p : Nat} (s : State) :
    standing (bindFaults p s) = standing s := by simp [bindFaults]

@[simp] theorem standing_unbind {old : State} {p : Nat} (s : State) :
    standing (unbind old p s) = standing s := by simp [unbind]

@[simp] theorem standing_portGroup {p : Nat} {g : Accepted} (s : State) :
    standing (portGroup p g s) = standing s := by
  simp only [portGroup]
  repeat' split
  all_goals simp

@[simp] theorem standing_portBoundary {p : Nat} (s : State) :
    standing (portBoundary p s) = standing s := by simp [portBoundary]

@[simp] theorem standing_settingsAt {p num : Nat} (s : State) :
    standing (settingsAt p num s).2 = standing s := by simp [settingsAt]

@[simp] theorem standing_writesSweep {p : Nat} (s : State) : standing (writesSweep p s) = standing s := by rfl

@[simp] theorem standing_plansTake (s : State) : standing (plansTake s) = standing s := by simp [plansTake]

@[simp] theorem standing_wireUntied {w : Nat} (s : State) : standing (wireUntied w s) = standing s := by rfl

@[simp] theorem standing_wiresTake (s : State) : standing (wiresTake s) = standing s := by simp [wiresTake]

@[simp] theorem standing_beginStripe {p : Nat} (s : State) :
    standing (beginStripe p s) = standing s := by simp [beginStripe]

@[simp] theorem standing_finishStops {blk p n : Nat} (s : State) :
    standing (finishStops blk p n s) = standing s := by simp [finishStops]

@[simp] theorem standing_landWrites {p : Nat} (s : State) :
    standing (landWrites p s) = standing s := by simp [landWrites]

@[simp] theorem standing_portHalt {p : Nat} (s : State) :
    standing (portHalt p s) = standing s := by simp [portHalt]

@[simp] theorem standing_rawSettle {p sid : Nat} (s : State) : standing (rawSettle p sid s) = standing s := by
  simp only [rawSettle]
  repeat' split
  all_goals simp

@[simp] theorem standing_closeStripe {p : Nat} {force : Bool} (s0 : State) :
    standing (closeStripe p force s0) = standing s0 := by
  simp only [closeStripe]
  split <;> simp

@[simp] theorem standing_countLine {p : Nat} {tb : Nat} {latch : Bool} {md : Int} {flags0 : Nat} {expected : Bool}
    {samples : Option (List Nat)} (s : State) :
    standing (countLine p tb latch md flags0 expected samples s) = standing s := by
  simp only [countLine]
  repeat' split
  all_goals simp

@[simp] theorem standing_countKinds {p : Nat} {bad short long_ : Bool} (s : State) :
    standing (countKinds p bad short long_ s) = standing s := by rfl

@[simp] theorem standing_countDue {p : Nat} {l : LineDue} (s : State) :
    standing (countDue p l s) = standing s := by
  simp only [countDue]
  split <;> simp

@[simp] theorem standing_lineCount {p : Nat} {l : LineDue} (s : State) :
    standing (lineCount p l s) = standing s := by simp [lineCount]

@[simp] theorem standing_dropPartial {p : Nat} (s : State) : standing (dropPartial p s) = standing s := by
  simp only [dropPartial]
  split <;> simp

@[simp] theorem standing_portTryStart {p : Nat} (s : State) :
    standing (portTryStart p s) = standing s := by simp [portTryStart]

/-! ### Brynlink links -/

@[simp] theorem standing_sendTrain {r : Nat} (s : State) :
    standing (sendTrain r s) = standing s := by simp [sendTrain]

@[simp] theorem standing_linkOut {r : Nat} (s : State) : standing (linkOut r s) = standing s := by simp [linkOut]

@[simp] theorem standing_linkRaise {r : Nat} (s : State) :
    standing (linkRaise r s) = standing s := by simp [linkRaise]

@[simp] theorem standing_linkTo {r st : Nat} (s : State) :
    standing (linkTo r st s) = standing s := by simp [linkTo]

@[simp] theorem standing_linkPoll {r : Nat} (s : State) : standing (linkPoll r s) = standing s := by
  simp only [linkPoll]
  repeat' split
  all_goals simp

@[simp] theorem standing_linkRequest {r w off : Nat} (s : State) :
    standing (linkRequest r w off s) = standing s := by simp [linkRequest]

@[simp] theorem standing_linkFault {r : Nat} {unlock : Bool} (s : State) :
    standing (linkFault r unlock s) = standing s := by
  simp only [linkFault]
  repeat' split
  all_goals simp

@[simp] theorem standing_linkLaneLost {r n pos : Nat} (s : State) :
    standing (linkLaneLost r n pos s) = standing s := by simp [linkLaneLost]

@[simp] theorem standing_feltCommit {old : State} {k : Nat} (s : State) :
    standing (feltCommit old k s) = standing s := by simp [feltCommit]

/-! ### Lanes that lose lock -/

@[simp] theorem standing_laneLost {n pos : Nat} (s : State) : standing (laneLost n pos s) = standing s := by
  simp only [laneLost]
  repeat' split
  all_goals simp

@[simp] theorem standing_leaveLocked {n reason : Nat} (s : State) :
    standing (leaveLocked n reason s) = standing s := by simp [leaveLocked]

@[simp] theorem standing_laneCommit {old : State} {n : Nat} (s : State) :
    standing (laneCommit old n s) = standing s := by simp [laneCommit]

/-! ### The watermark drive -/

@[simp] theorem standing_skipJob {n : Nat} {cause : Nat} {late : Int} {j : MJob} (s : State) :
    standing (skipJob n cause late j s) = standing s := by
  simp only [skipJob]
  split <;> simp

@[simp] theorem standing_endDrive {n : Nat} (s : State) :
    standing (endDrive n s) = standing s := by simp [endDrive]

@[simp] theorem standing_setArm {n : Nat} {b : Bool} (s : State) : standing (setArm n b s) = standing s := by rfl

@[simp] theorem standing_skipAll {n : Nat} (s : State) : standing (skipAll n s) = standing s := by simp [skipAll]

@[simp] theorem standing_disarm {n : Nat} (s : State) : standing (disarm n s) = standing s := by simp [disarm]

@[simp] theorem standing_markTook {n : Nat} {f : Option Nat} {old : State} (s : State) :
    standing (markTook n f old s) = standing s := by
  simp only [markTook]
  split <;> simp

@[simp] theorem standing_shutRelease {n : Nat} (s : State) : standing (shutRelease n s) = standing s := by
  simp only [shutRelease]
  split <;> simp

@[simp] theorem standing_coilReady (s : State) : standing (coilReady s) = standing s := by simp [coilReady]

/-! ### Dryer ports -/

@[simp] theorem standing_biasRebase {p : Nat} (s : State) : standing (biasRebase p s) = standing s := by rfl

@[simp] theorem standing_biasMove {p : Nat} {target : List Nat} (s : State) :
    standing (biasMove p target s) = standing s := by rfl

@[simp] theorem standing_roicSend {p kind seq w addr value : Nat} (s : State) :
    standing (roicSend p kind seq w addr value s) = standing s := by simp [roicSend]

@[simp] theorem standing_setDTab {p bank i st : Nat} (s : State) :
    standing (setDTab p bank i st s) = standing s := by rfl

@[simp] theorem standing_restartAll {p : Nat} (s : State) : standing (restartAll p s) = standing s := by rfl

@[simp] theorem standing_dryLay {p : Nat} {vals : Tbl Nat} (s : State) :
    standing (dryLay p vals s) = standing s := by simp [dryLay]

@[simp] theorem standing_drySend {p : Nat} {w : FpaWrite} (s : State) :
    standing (drySend p w s) = standing s := by simp [drySend]

@[simp] theorem standing_dryGroup {p : Nat} {at_ : Option Nat} {g : Accepted} (s : State) :
    standing (dryGroup p at_ g s) = standing s := by
  simp only [dryGroup]
  repeat' split
  all_goals simp

@[simp] theorem standing_dryCalWait {p : Nat} {g : Accepted} (s : State) :
    standing (dryCalWait p g s) = standing s := by simp [dryCalWait]

@[simp] theorem standing_dryBoundary {p : Nat} {at_ : Option Nat} (s : State) :
    standing (dryBoundary p at_ s) = standing s := by simp [dryBoundary]

@[simp] theorem standing_dryTiming {p : Nat} (s : State) :
    standing (dryTiming p s) = standing s := by simp [dryTiming]

@[simp] theorem standing_startDryer {p : Nat} (s : State) : standing (startDryer p s) = standing s := by rfl

/-! ### Rows of the headboxes -/

@[simp] theorem standing_discover {p : Nat} (s : State) : standing (discover p s) = standing s := by rfl

@[simp] theorem standing_startHeadbox {p : Nat} (s : State) :
    standing (startHeadbox p s) = standing s := by simp [startHeadbox]

/-! ### Calibration elements and housekeeping units -/

@[simp] theorem standing_updEl {c i : Nat} {f : CalEl → CalEl} (s : State) :
    standing (updEl c i f s) = standing s := by rfl

@[simp] theorem standing_updCal {f : Cal → Cal} (s : State) : standing (updCal f s) = standing s := by rfl

@[simp] theorem standing_calDone (s : State) : standing (calDone s) = standing s := by rfl

@[simp] theorem standing_calCmdTakes {key : Nat} {ok : Bool} {k : CalCmd} (s : State) :
    standing (calCmdTakes key ok k s) = standing s := by
  simp only [calCmdTakes]
  repeat' split
  all_goals simp

@[simp] theorem standing_calOutcome {key : Nat} {ok : Bool} (s : State) :
    standing (calOutcome key ok s) = standing s := by simp [calOutcome]

@[simp] theorem standing_hkResume {u : Nat} (s : State) : standing (hkResume u s) = standing s := by rfl

@[simp] theorem standing_hkTook {old : State} {u : Nat} (s : State) :
    standing (hkTook old u s) = standing s := by simp [hkTook]

@[simp] theorem standing_hkChanged {u : Nat} (s : State) :
    standing (hkChanged u s) = standing s := by simp [hkChanged]

@[simp] theorem standing_spareTest {tests : List Bool} (s : State) :
    standing (spareTest tests s).2.2 = standing s := by
  simp only [spareTest]
  split <;> simp

@[simp] theorem standing_sramRepairFrom {row : Nat} {n : Nat} {tests : List Bool} (s : State) :
    standing (sramRepairFrom row n tests s).2.2 = standing s := by
  induction n generalizing tests s with
  | zero => simp [sramRepairFrom]
  | succ n ih => 
    simp only [sramRepairFrom]
    split <;> simp [ih]

@[simp] theorem standing_sramRepair {row : Nat} {tests : List Bool} (s : State) :
    standing (sramRepair row tests s).2.2 = standing s := by simp [sramRepair]

@[simp] theorem standing_sramRepairAll {named : Nat → Bool} {tests : List Bool} (s : State) :
    standing (sramRepairAll named tests s) = standing s := standing_foldl_snd (fun a row => by simp) _ _

@[simp] theorem standing_sramAuto {tests : List Bool} (s : State) :
    standing (sramAuto tests s) = standing s := by simp [sramAuto]

/-! ### Non-volatile storage -/

@[simp] theorem standing_updNvm {f : Nvm → Nvm} (s : State) : standing (updNvm f s) = standing s := by rfl

@[simp] theorem standing_calLoad {vals : Tbl Int} (s : State) :
    standing (calLoad vals s) = standing s := by simp [calLoad]

@[simp] theorem standing_startPage {job : PageJob} {addr : Nat} {bs : List Byte} (s : State) :
    standing (startPage job addr bs s) = standing s := by rfl

@[simp] theorem standing_batchPage {step : Nat} (s : State) : standing (batchPage step s) = standing s := by
  simp only [batchPage]
  split <;> simp

@[simp] theorem standing_logStart (s : State) : standing (logStart s) = standing s := by rfl

@[simp] theorem standing_storePage {j : CalStoreJob} (s : State) :
    standing (storePage j s) = standing s := by simp [storePage]

@[simp] theorem standing_recordPage {r : RecWrite} {rs : List RecWrite} (s : State) :
    standing (recordPage r rs s) = standing s := by rfl

@[simp] theorem standing_writerPage {c : Cmd} (s : State) : standing (writerPage c s) = standing s := by rfl

@[simp] theorem standing_nvmPump (s : State) : standing (nvmPump s) = standing s := by
  simp only [nvmPump]
  repeat' split
  all_goals simp

@[simp] theorem standing_writerDone {cid : Nat} (s : State) : standing (writerDone cid s) = standing s := by rfl

@[simp] theorem standing_countersLoad (s : State) : standing (countersLoad s) = standing s := by
  simp only [countersLoad]
  split <;> simp

@[simp] theorem standing_tornCheck (s : State) : standing (tornCheck s) = standing s := by
  simp only [tornCheck]
  split <;> simp

@[simp] theorem standing_logLoad (s : State) : standing (logLoad s) = standing s := by
  unfold logLoad
  extract_lets newest
  clear_value newest
  cases newest <;> rfl

@[simp] theorem standing_bankLoad (s : State) : standing (bankLoad s) = standing s := by
  simp only [bankLoad]
  split <;> simp

@[simp] theorem standing_bankCheck (s : State) : standing (bankCheck s) = standing s := by
  simp only [bankCheck]
  split <;> simp

@[simp] theorem standing_recordsCheck (s : State) :
    standing (recordsCheck s) = standing s := by simp [recordsCheck]

@[simp] theorem standing_nvmReady (s : State) : standing (nvmReady s) = standing s := by simp [nvmReady]

@[simp] theorem standing_nvmNotes (s : State) : standing (nvmNotes s) = standing s := by simp [nvmNotes]

@[simp] theorem standing_bootEntry (s : State) : standing (bootEntry s) = standing s := by simp [bootEntry]

/-! ### Images, staging and fuses -/

@[simp] theorem standing_flashFrame {cmd : Nat} {addr : List Byte} {dummy lanes : Nat} {data : List Byte} {inLen : Nat}
    (s : State) : standing (flashFrame cmd addr dummy lanes data inLen s) = standing s := by simp [flashFrame]

@[simp] theorem standing_flashRead {a n : Nat} (s : State) :
    standing (flashRead a n s) = standing s := by simp [flashRead]

@[simp] theorem standing_flashWrite {cmd a : Nat} {data : List Byte} (s : State) :
    standing (flashWrite cmd a data s) = standing s := by simp [flashWrite]

@[simp] theorem standing_flashErase {a n : Nat} (s : State) :
    standing (flashErase a n s) = standing s := by simp [flashErase]

/-! ### Wires -/

@[simp] theorem standing_updWire {w : Nat} {f : Wire → Wire} (s : State) :
    standing (updWire w f s) = standing s := by rfl

@[simp] theorem standing_swapConfig {out into : Nat} (s : State) :
    standing (swapConfig out into s) = standing s := by simp [swapConfig]

@[simp] theorem standing_portBack {out into p : Nat} (s : State) :
    standing (portBack out into p s) = standing s := by rfl

@[simp] theorem standing_swapUndo {x : Swap} (s : State) :
    standing (swapUndo x s) = standing s := by simp [swapUndo]

@[simp] theorem standing_repEmit {w : Nat} (s : State) : standing (repEmit w s) = standing s := by
  simp only [repEmit]
  repeat' split
  all_goals simp

@[simp] theorem standing_repFlagged {w : Nat} (s : State) : standing (repFlagged w s) = standing s := by
  simp only [repFlagged]
  split <;> simp

@[simp] theorem standing_reprocClose {w : Nat} (s : State) : standing (reprocClose w s) = standing s := by
  simp only [reprocClose]
  split <;> simp

/-! ### Rows of the wires -/

@[simp] theorem standing_stoppedTake (s : State) : standing (stoppedTake s) = standing s := by simp [stoppedTake]

/-! ### Table images -/

@[simp] theorem standing_setItem {k : ItemId} {st : Nat} {im : List Byte} (s : State) :
    standing (setItem k st im s) = standing s := by simp [setItem]

@[simp] theorem standing_putImage {k : ItemId} {off : Nat} {bs : List Byte} (s : State) :
    standing (putImage k off bs s) = standing s := by simp [putImage]

/-! ### Temperatures and the governor -/

@[simp] theorem standing_updTherm {f : Therm → Therm} (s : State) : standing (updTherm f s) = standing s := by rfl

@[simp] theorem standing_stepChange {new : Nat} (s : State) :
    standing (stepChange new s) = standing s := by simp [stepChange]

@[simp] theorem standing_stepMinTaken (s : State) :
    standing (stepMinTaken s) = standing s := by simp [stepMinTaken]

@[simp] theorem standing_stopBist (s : State) : standing (stopBist s) = standing s := by
  simp only [stopBist]
  split <;> simp

/-! ### Serial ports and GPIO -/

@[simp] theorem standing_inhibitTake (s : State) : standing (inhibitTake s) = standing s := by rfl

@[simp] theorem standing_viewFill (s : State) : standing (viewFill s) = standing s := by simp [viewFill]

/-! ### Configuration -/

@[simp] theorem standing_encoderTook {old : State} {e : Nat} (s : State) :
    standing (encoderTook old e s) = standing s := by simp [encoderTook]

@[simp] theorem standing_layoutTook {old : State} (s0 : State) :
    standing (layoutTook old s0) = standing s0 := by simp [layoutTook]

@[simp] theorem standing_tookAt {old : State} {g : Tbl Nat} {part : Nat × Nat} (s : State) :
    standing (tookAt old g part s) = standing s := by
  simp only [tookAt]
  split <;> simp

@[simp] theorem standing_handOver {g : Tbl Nat} (s : State) :
    standing (handOver g s) = standing s := by simp [handOver]

/-! ### Stopping a command -/

@[simp] theorem standing_stopLoad {c : Cmd} (s : State) :
    standing (stopLoad c s) = standing s := by simp [stopLoad]

@[simp] theorem standing_stopPortStop {c : Cmd} (s : State) :
    standing (stopPortStop c s) = standing s := by simp [stopPortStop]

@[simp] theorem standing_stopShutter {c : Cmd} (s : State) :
    standing (stopShutter c s) = standing s := by simp [stopShutter]

@[simp] theorem standing_stopMarkFire {c : Cmd} (s : State) :
    standing (stopMarkFire c s) = standing s := by simp [stopMarkFire]

@[simp] theorem standing_withdrawRecord {id : Nat} (s : State) :
    standing (withdrawRecord id s) = standing s := by rfl

@[simp] theorem standing_stopWriter {c : Cmd} (s : State) :
    standing (stopWriter c s) = standing s := by simp [stopWriter]

@[simp] theorem standing_stopActivate {c : Cmd} (s : State) :
    standing (stopActivate c s) = standing s := by simp [stopActivate]

@[simp] theorem standing_stopCalibrate {c : Cmd} (s : State) :
    standing (stopCalibrate c s) = standing s := by simp [stopCalibrate]

@[simp] theorem standing_stopSelfcal {c : Cmd} (s : State) :
    standing (stopSelfcal c s) = standing s := by simp [stopSelfcal]

@[simp] theorem standing_stopSwap {c : Cmd} (s : State) : standing (stopSwap c s) = standing s := by
  simp only [stopSwap]
  split <;> simp

/-! ### Rows of the watermark drive -/

@[simp] theorem standing_raiseSwitches {cause detail : Nat} (s : State) :
    standing (raiseSwitches cause detail s) = standing s := by simp [raiseSwitches]

@[simp] theorem standing_vvalveReady (s : State) : standing (vvalveReady s) = standing s := by simp [vvalveReady]

/-! ### The map of the chain and its time -/

@[simp] theorem standing_updChain {f : Chain → Chain} (s : State) : standing (updChain f s) = standing s := by rfl

@[simp] theorem standing_feltNb {k ptype : Nat} {payload : List Byte} (s : State) :
    standing (feltNb k ptype payload s) = standing s := by simp [feltNb]

@[simp] theorem standing_probe {hd : List Byte} {tb : W64} {path : List Byte} {k : Fin 4} (s : State) :
    standing (probe hd tb path s k) = standing s := by
  simp only [probe]
  split <;> simp

@[simp] theorem standing_probeAll {mode : Nat} (s : State) :
    standing (probeAll mode s) = standing s := by simp [probeAll]

@[simp] theorem standing_searchBegin {cid : Option Nat} {mode : Nat} (s : State) :
    standing (searchBegin cid mode s) = standing s := by simp [searchBegin]

/-! ### The operations that do change them -/

@[simp] theorem standing_updSec {f : Sec → Sec} (s : State) :
    standing (updSec f s) = ((standing s).1, (standing s).2.1, (standing s).2.2.1, f (standing s).2.2.2) := by rfl

@[simp] theorem standing_updBoot {f : Boot → Boot} (s : State) :
    standing (updBoot f s) = ((standing s).1, f (standing s).2.1, (standing s).2.2) := by rfl

theorem clk_of_standing {s t : State} (h : standing t = standing s) : t.clk = s.clk := congrArg (·.1) h

theorem boot_of_standing {s t : State} (h : standing t = standing s) : t.boot = s.boot := congrArg (·.2.1) h

end Sys2Proof.Machine

/-! PROOFS. The PCIe endpoint: its link, errors and Bus Master Enable (R60, R72, R75), and the events that reset it (R68, R74). -/

namespace Sys2Proof.Machine

theorem next_congr {s t : State} (h : s = t) : (.next s : Out) = .next t := congrArg _ h

/-! ### Link, errors and Bus Master Enable -/

/-- The link records what it trained to, and raises that in service (R60, R72). -/
theorem linkChange_of_trains {s : State} {gen width : Nat} (ht : linkMayTrain s = true) (hg : 1 ≤ gen)
    (hw : width = 1 ∨ width = 2 ∨ width = 4 ∨ width = 8) : linkChange gen width s =
      (let s1 : State := { s with pcie := { s.pcie with linkUp := true, gen := gen, width := width } }
       if s.boot.phase = .ready then raise 324 0x01 (gen + 16 * width) s1 else s1) := by
  have hd : at' 4 width = 16 * width := Nat.mul_comm width 16
  have hl : linkChange gen width s = _ := if_pos ⟨ht, hg, hw⟩
  exact hl.trans (by rewrite [hd]; exact rfl)

theorem linkMayTrain_of_ready {s : State} (hp : s.pcie.perstLow = false) (hr : Ready s) : linkMayTrain s = true := by
  simp [linkMayTrain, hp, show s.boot.phase = .ready from hr]

theorem linkMayTrain_of_starting {s : State} (hp : s.pcie.perstLow = false) (hr : s.boot.phase = .starting) :
    linkMayTrain s = true := by
  simp [linkMayTrain, hp, hr]

/-- With Bus Master Enable what was held goes out: writes, messages, completions (R75). -/
theorem busMaster_true (s : State) : busMaster true s = waitingWrite ((List.range 512).foldl (fun s v => msixFlush v s)
    (hwrRelease { s with pcie := { s.pcie with bme := true } })) := by
  simp only [busMaster, if_true]

/-- Settles O55: each event by its definition, the link's by the phase it finds. -/
theorem endpointServesHost : Obligations.EndpointServesHost := by
  refine ⟨fun _ => rfl, fun s gen width hp hg hw => ⟨fun hr => ?_, fun hr => ?_⟩,
    fun s hp => ⟨fun hr => ?_, fun hr => ?_⟩,
    fun s h => ⟨fun status => whenHost_of_on (aerUncorr status) h, whenHost_of_on (busMaster false) h, ?_⟩⟩
  · exact next_congr ((linkChange_of_trains (linkMayTrain_of_ready hp hr) hg hw).trans (if_pos hr))
  · have out : ¬ s.boot.phase = .ready := by simp [hr]
    exact next_congr ((linkChange_of_trains (linkMayTrain_of_starting hp hr) hg hw).trans (if_neg out))
  · simp [configAnswer, linkMayTrain_of_starting hp hr, hr]
  · simp [configAnswer, linkMayTrain_of_ready hp hr, show s.boot.phase = .ready from hr, configSpace]
  · rw [← busMaster_true]
    exact whenHost_of_on (busMaster true) h

/-! ### What a reset of the endpoint does to the commands -/

theorem endpoint_stopStage {c : Cmd} (s : State) : (standing (stopStage c s)).2.2.1 = (standing s).2.2.1 := by
  rw [stopStage]
  split <;> simp

/-- The stop of a command leaves the endpoint, whichever command it is. -/
theorem pcie_stopEffect (c : Cmd) (s : State) : (stopEffect c s).pcie = s.pcie := by
  change (standing (stopEffect c s)).2.2.1 = (standing s).2.2.1
  simp only [stopEffect]
  repeat' split
  all_goals simp [endpoint_stopStage]

theorem pcie_flightDrop (s : State) : (flightDrop s).pcie = s.pcie := by
  have stops (l : List Cmd) : ∀ u : State, (l.foldl (fun s c => stopEffect c s) u).pcie = u.pcie := by
    induction l with
    | nil => exact fun _ => rfl
    | cons c l ih => exact fun u => (ih _).trans (pcie_stopEffect c u)
  exact stops _ s

/-- Only the commands that another device sent here stay. -/
theorem origin_of_mem_flightDrop {s : State} {c : Cmd} (h : c ∈ (flightDrop s).cmds.flight) : c.origin ≠ .here := by
  simp only [flightDrop, List.mem_filter, Bool.not_eq_true', decide_eq_false_iff_not] at h
  exact h.2

theorem origin_of_waiting_flightDrop {s : State} {w : Waiting} (h : w ∈ (flightDrop s).cmds.waiting) : w.origin ≠ .here := by
  simp only [flightDrop, List.mem_filter, decide_eq_true_eq] at h
  exact h.2

/-- With no command in flight only the bookkeeping of commands goes. -/
theorem flightDrop_of_empty {s : State} (h : s.cmds.flight = []) :
    flightDrop s = { s with cmds := (flightDrop s).cmds } := by
  simp [flightDrop, h]

/-! ### The reset of the endpoint -/

/-- The commands that a reset of the endpoint finds are dropped in service alone. -/
def endpointDrop (s : State) : State := if s.boot.phase = .ready then flightDrop s else s

theorem pcieReset_eq (low : Bool) (s : State) : pcieReset low s = { endpointDrop s with
    host := hostCleared (endpointDrop s).host
    cfg := { (endpointDrop s).cfg with groups := [] }
    pcie := { (endpointDrop s).pcie with
      bme := false, linkUp := false, gen := 0, width := 0, perstLow := (endpointDrop s).pcie.perstLow || low } } := rfl

theorem pcie_endpointDrop (s : State) : (endpointDrop s).pcie = s.pcie := by
  unfold endpointDrop
  split
  · exact pcie_flightDrop s
  · rfl

theorem endpointDrop_of_ready {s : State} (h : Ready s) : endpointDrop s = flightDrop s := if_pos h

theorem endpointDrop_of_empty {s : State} (h : s.cmds.flight = []) :
    endpointDrop s = { s with cmds := (endpointDrop s).cmds } := by
  unfold endpointDrop
  split
  · exact flightDrop_of_empty h
  · rfl

/-- Without PERST_N the same happens, and the level of its ball stays. -/
theorem pcieReset_false (s : State) : pcieReset false s =
    { pcieReset true s with pcie := { (pcieReset true s).pcie with perstLow := s.pcie.perstLow } } := by
  simp [pcieReset_eq, pcie_endpointDrop]

/-- Settles O54: all four are one reset of the endpoint, with the ball's level or without it. -/
theorem endpointResetsAlike : Obligations.EndpointResetsAlike := by
  intro s
  refine ⟨pcieReset true s, rfl, ?_, fun hr => ?_, fun h => ?_, ?_⟩
  · exact ⟨rfl, rfl, rfl, rfl, rfl, rfl, rfl, rfl, rfl, rfl, Bool.or_true _⟩
  · rw [pcieReset_eq, endpointDrop_of_ready hr]
    exact ⟨fun _ => origin_of_mem_flightDrop, fun _ => origin_of_waiting_flightDrop⟩
  · rw [pcieReset_eq, endpointDrop_of_empty h]
    exact ⟨rfl, rfl, rfl, rfl, rfl, rfl, rfl, rfl, rfl, rfl, rfl, rfl⟩
  · have alike := next_congr (pcieReset_false s)
    exact ⟨alike, alike, alike⟩

end Sys2Proof.Machine

/-! PROOFS. The images of the power-on profile (R64, R380): one that loads, one that fails, and the start that waited for it. -/

namespace Sys2Proof.Machine

/-! ### A raise sets its pending bit and clears none -/

@[simp] theorem hostWrite_host (a : Nat) (bs : List Byte) (s : State) : (hostWrite a bs s).host = s.host := by
  rw [hostWrite_traffic a bs s]

@[simp] theorem feltTo_host (d t : Nat) (bs : List Byte) (s : State) : (feltTo d t bs s).host = s.host := by
  rw [feltTo_traffic d t bs s]

@[simp] theorem logRaise_host (n c d v : Nat) (s : State) : (logRaise n c d v s).host = s.host := by
  simp only [logRaise]
  repeat' split
  all_goals rfl

@[simp] theorem evtRingWrite_pend (e n c d : Nat) (s : State) : (evtRingWrite e n c d s).host.pend = s.host.pend := by
  simp only [evtRingWrite]
  repeat' split
  all_goals simp

@[simp] theorem msixSend_pend (v : Nat) (s : State) : (msixSend v s).host.pend = s.host.pend := by
  simp only [msixSend]
  repeat' split
  all_goals simp

theorem raiseCore_pend (met : Bool) (n c d : Nat) (s : State) :
    (raiseCore met n c d s).host.pend = s.host.pend ||| BitVec.ofNat 512 (2 ^ n) := by
  have ring : (if bitOf (routeOf s n) 16 then evtRingWrite (bits (routeOf s n) 10 6) n c d s else s).host.pend =
      s.host.pend := by
    split <;> simp
  rw [raiseCore, ← ring]
  generalize (if bitOf (routeOf s n) 16 then evtRingWrite (bits (routeOf s n) 10 6) n c d s else s) = s1
  split
  · exact msixSend_pend _ _
  · rfl

theorem pend_raiseCore {m : Nat} {s : State} (met : Bool) (n c d : Nat) (h : s.host.pend.getLsbD m = true) :
    (raiseCore met n c d s).host.pend.getLsbD m = true := by
  rw [raiseCore_pend, BitVec.getLsbD_or, h, Bool.true_or]

/-- What the event's log adds clears no pending bit. -/
theorem pend_raise_of_raiseCore {m n c d : Nat} {s : State} (h : (raiseCore false n c d s).host.pend.getLsbD m = true) :
    (raise n c d s).host.pend.getLsbD m = true := by
  simp only [raise, raiseMet]
  split
  · exact h
  · split
    · rw [logRaise_host]
      exact pend_raiseCore _ _ _ _ (by simp [h])
    · rwa [logRaise_host]

theorem pend_raise {m : Nat} {s : State} (n c d : Nat) (h : s.host.pend.getLsbD m = true) :
    (raise n c d s).host.pend.getLsbD m = true :=
  pend_raise_of_raiseCore (pend_raiseCore _ _ _ _ h)

/-- A raise leaves its source pending. -/
theorem pendBit_raise_self {n : Nat} (hn : n < 512) (c d : Nat) (s : State) : pendBit (raise n c d s) n = true := by
  refine pend_raise_of_raiseCore ?_
  rw [raiseCore_pend, BitVec.getLsbD_or, BitVec.getLsbD_ofNat, Nat.testBit_two_pow_self]
  simp [hn]

/-! ### It stays while a headbox begins its first stripe -/

@[simp] theorem setLink_host (r : Nat) (l : Link) (s : State) : (setLink r l s).host = s.host := by
  unfold setLink
  split <;> simp

@[simp] theorem linkBlocks_host (r off w : Nat) (bs : List Block) (s : State) : (linkBlocks r off w bs s).host = s.host := by
  simp [linkBlocks, sendBlocks]

@[simp] theorem linkPacket_host (r ptype : Nat) (payload : List Byte) (s : State) :
    (linkPacket r ptype payload s).host = s.host := by
  simp only [linkPacket, linkPacketOn]
  split <;> simp

@[simp] theorem sendSetting_host (p seq : Nat) (s : State) : (sendSetting p seq s).host = s.host := by
  simp only [sendSetting]
  split <;> simp

@[simp] theorem layTables_host (p : Nat) (vals : Tbl Nat) (s : State) : (layTables p vals s).host = s.host := by
  simp only [layTables]
  repeat' split
  all_goals rfl

@[simp] theorem layAll_host (vals : Tbl Nat) (s : State) : (layAll vals s).host = s.host := rfl

@[simp] theorem dropParts_host (seq : W32) (gone add : List (Nat × Nat)) (s : State) :
    (dropParts seq gone add s).host = s.host := rfl

@[simp] theorem supersede_host (part : Nat × Nat) (vals : Tbl Nat) (s : State) : (supersede part vals s).host = s.host := rfl

theorem foldl_host {α : Type} {f : State → α → State} (hf : ∀ u x, (f u x).host = u.host) (l : List α) (s : State) :
    (l.foldl f s).host = s.host := by
  induction l generalizing s with
  | nil => rfl
  | cons x l ih => exact (ih _).trans (hf s x)

theorem forgetPositions_host (old : State) (p : Nat) (s : State) : (forgetPositions old p s).host = s.host :=
  foldl_host (fun _ _ => setLane_host _ _ _) _ s

theorem takeSel_host (sel : Nat → Bool) (part : Nat × Nat) (ok : Accepted → Bool) (s : State) :
    (takeSel sel part ok s).host = s.host := rfl

theorem wiresTake_host (s : State) : (wiresTake s).host = s.host := by
  refine (foldl_host (fun u w => ?_) _ _).trans (foldl_host (fun _ _ => takeSel_host _ _ _ _) _ s)
  dsimp only
  split <;> rfl

theorem rawBegin_host (p sid : Nat) (s : State) : (rawBegin p sid s).host = s.host := by
  simp only [rawBegin, rawWrite]
  repeat' split
  all_goals simp [histUpd]

section

variable {n : Nat}

theorem pend_foldl {α : Type} {f : State → α → State}
    (hf : ∀ u x, u.host.pend.getLsbD n = true → (f u x).host.pend.getLsbD n = true) (l : List α) {s : State}
    (h : s.host.pend.getLsbD n = true) : (l.foldl f s).host.pend.getLsbD n = true := by
  induction l generalizing s with
  | nil => exact h
  | cons x l ih => exact ih (hf s x h)

theorem pend_bindFaults {p : Nat} {s : State} (h : s.host.pend.getLsbD n = true) :
    (bindFaults p s).host.pend.getLsbD n = true := by
  unfold bindFaults
  split
  · exact pend_foldl (fun _ _ => pend_raise _ _ _) _ h
  · exact h

theorem pend_unbind {old s : State} {p : Nat} (h : s.host.pend.getLsbD n = true) :
    (unbind old p s).host.pend.getLsbD n = true := by
  have hf : (forgetPositions old p s).host.pend.getLsbD n = true := by rwa [forgetPositions_host]
  refine pend_bindFaults ?_
  split
  · exact pend_raise _ _ _ hf
  · exact hf

theorem pend_portGroup {p : Nat} {g : Accepted} {s : State} (h : s.host.pend.getLsbD n = true) :
    (portGroup p g s).host.pend.getLsbD n = true := by
  simp only [portGroup]
  repeat' split
  all_goals simp [h, pend_unbind]

theorem pend_portBoundary {p : Nat} {s : State} (h : s.host.pend.getLsbD n = true) :
    (portBoundary p s).host.pend.getLsbD n = true :=
  pend_foldl (fun _ _ => pend_portGroup) _ h

theorem pend_beginStripe {p : Nat} {s : State} (h : s.host.pend.getLsbD n = true) :
    (beginStripe p s).host.pend.getLsbD n = true := by
  simp only [beginStripe, rawBegin_host, wiresTake_host, setPort_host]
  exact pend_portBoundary h

theorem pend_formRec {r : RecFields} {tile : Option Nat} {s : State} (h : s.host.pend.getLsbD n = true) :
    (formRec r tile s).host.pend.getLsbD n = true := by
  simp only [formRec, ringDrop]
  repeat' split
  all_goals simp [knotUpd, putDq, pend_raise, h]

theorem pend_blindBands {iv : BlindIv} {start len right left : Int} {k : Nat} {s : State}
    (h : s.host.pend.getLsbD n = true) : (blindBands iv start len right k left s).host.pend.getLsbD n = true := by
  induction k generalizing left s with
  | zero => exact h
  | succ k ih =>
    simp only [blindBands]
    repeat' split
    all_goals simp [knotUpd, ih, pend_formRec, h]

theorem pend_blindPiece {iv : BlindIv} {start stop : Int} {s : State} (h : s.host.pend.getLsbD n = true) :
    (blindPiece iv start stop s).host.pend.getLsbD n = true := by
  simp only [blindPiece]
  split
  · exact h
  · split
    · exact pend_blindBands h
    · exact h

theorem pend_blindPieces {limit : Int} {k : Nat} {iv : BlindIv} {s : State} (h : s.host.pend.getLsbD n = true) :
    (blindPieces limit k iv s).2.host.pend.getLsbD n = true := by
  induction k generalizing iv s with
  | zero => exact h
  | succ k ih =>
    simp only [blindPieces]
    split
    · exact ih (pend_blindPiece h)
    · exact h

theorem pend_blindClose {source cause tag : Nat} {stop : Int} {s : State} (h : s.host.pend.getLsbD n = true) :
    (blindClose source cause tag stop s).host.pend.getLsbD n = true := by
  simp only [blindClose]
  split
  · exact h
  · exact pend_blindPiece (pend_blindPieces h)

theorem pend_portTryStart {p : Nat} {s : State} (h : s.host.pend.getLsbD n = true) :
    (portTryStart p s).host.pend.getLsbD n = true := by
  simp only [portTryStart]
  split
  · refine pend_beginStripe ?_
    split
    · exact pend_blindClose h
    · exact h
  · exact h

end

/-! ### An image of the profile -/

theorem exec_profileImageLoaded {s : State} (crc : W32) (im : List Byte) (h : Live s) :
    exec (.profileImageLoaded crc im) s = .next (imageLoaded crc.toNat im s) := whenLive_of_live (imageLoaded crc.toNat im) h

@[simp] theorem standing_imageRead {i : Nat} (s : State) : standing (imageRead i s) = standing s := by simp [imageRead]

@[simp] theorem standing_mapImage {k : ItemId} {im : List Byte} (s : State) :
    standing (mapImage k im s) = standing s := by simp [mapImage]

/-- The image is read, and waits no more. -/
def imageTaken (i : Nat) (is : List Nat) (s : State) : State := updBoot (fun b => { b with images := is }) (imageRead i s)

/-- A sound image is in force. -/
def imageStored (im : List Byte) (i : Nat) (is : List Nat) (s : State) : State :=
  let k := entryItem (profEntry s.boot.profile i)
  mapImage k im (setItem k 2 im (putImage k 0 im (imageTaken i is s)))

/-- Any other leaves its item INVALID and is among those that failed. -/
def imageRefused (i : Nat) (is : List Nat) (s : State) : State :=
  setItem (entryItem (profEntry s.boot.profile i)) 3 []
    (updBoot (fun b => { b with images := is, imagesFailed := b.imagesFailed ++ [i] }) (imageRead i s))

/-- The checks of R380 on an image. -/
def imageSound (crc : Nat) (im : List Byte) (i : Nat) (s : State) : Bool :=
  let e := profEntry s.boot.profile i
  decide (crc32 im = crc) && decide (im.length = u32At e 12) && contentOk s (entryItem e) im
    && decide (itemWords s (entryItem e) ≤ storeFree s)

/-- The port of an item goes on with its start when none of its images is left (R64). -/
def imageGoesOn (k : ItemId) (s : State) : State :=
  if k.kind < 0x10 then
    (if portImages s 0x01 0x10 k.owner then s
     else portTryStart k.owner (updPort k.owner (fun x => { x with imageWait := false }) s))
  else if k.kind < 0x20 then
    (if portImages s 0x10 0x20 k.owner then s
     else dryTiming k.owner (updDry k.owner (fun d => { d with imageWait := false }) s))
  else s

section

variable {s : State} {crc : Nat} {im : List Byte} {i : Nat} {is : List Nat}

theorem imageLoaded_of_sound (h : s.boot.images = i :: is) (hf : flashHeld s = false) (hok : imageSound crc im i s = true) :
    imageLoaded crc im s = imageGoesOn (entryItem (profEntry s.boot.profile i)) (imageStored im i is s) := by
  have hok' := hok
  simp only [imageSound, Bool.and_eq_true, decide_eq_true_eq] at hok'
  obtain ⟨⟨⟨hc, hl⟩, hcon⟩, hw⟩ := hok'
  simp only [imageLoaded, h, hf, hc, hl, hcon, hw, decide_true, Bool.and_self, if_true, Bool.false_eq_true, if_false]
  rfl

theorem imageLoaded_of_unsound (h : s.boot.images = i :: is) (hf : flashHeld s = false)
    (hok : imageSound crc im i s = false) : imageLoaded crc im s =
      imageGoesOn (entryItem (profEntry s.boot.profile i))
        (if crc32 im = crc then imageRefused i is s else raise 325 0x07 i (imageRefused i is s)) := by
  simp only [imageSound] at hok
  simp only [imageLoaded, h, hf, hok, Bool.false_eq_true, if_false, decide_eq_true_eq]
  rfl

theorem standing_imageRefused : standing (imageRefused i is s) =
    standing (updBoot (fun b => { b with images := is, imagesFailed := b.imagesFailed ++ [i] }) s) := by
  simp [imageRefused]

theorem standing_imageStored :
    standing (imageStored im i is s) = standing (updBoot (fun b => { b with images := is }) s) := by
  simp [imageStored, imageTaken]

end

theorem standing_imageGoesOn (k : ItemId) (s : State) : standing (imageGoesOn k s) = standing s := by
  simp only [imageGoesOn]
  repeat' split
  all_goals simp

theorem pend_imageGoesOn {n : Nat} {k : ItemId} {s : State} (h : s.host.pend.getLsbD n = true) :
    (imageGoesOn k s).host.pend.getLsbD n = true := by
  simp only [imageGoesOn, dryTiming]
  repeat' split
  all_goals simp [h, pend_portTryStart]

/-! ### The port that waited for its images -/

theorem portImages_of_boot {s t : State} (h : t.boot = s.boot) (lo hi p : Nat) :
    portImages t lo hi p = portImages s lo hi p := by
  simp only [portImages, h]

/-- A port with an image that failed waits on. -/
theorem portImages_of_failed {s : State} {i lo hi : Nat} (hi_ : i ∈ s.boot.imagesFailed)
    (hlo : lo ≤ u8At (profEntry s.boot.profile i) 1) (hhi : u8At (profEntry s.boot.profile i) 1 < hi) :
    portImages s lo hi (entryItem (profEntry s.boot.profile i)).owner = true :=
  List.any_eq_true.mpr ⟨i, List.mem_append_right _ hi_, decide_eq_true ⟨hlo, hhi, rfl⟩⟩

theorem imageGoesOn_of_failed {s : State} {i : Nat} (hi : i ∈ s.boot.imagesFailed)
    (hk : 1 ≤ u8At (profEntry s.boot.profile i) 1) :
    imageGoesOn (entryItem (profEntry s.boot.profile i)) s = s := by
  unfold imageGoesOn
  split
  next h => exact if_pos (portImages_of_failed hi hk h)
  next h =>
    split
    next h2 => exact if_pos (portImages_of_failed hi (Nat.le_of_not_lt h) h2)
    next => rfl

section

variable {s : State} {k : ItemId}

theorem imageGoesOn_headbox (hk : k.kind < 0x10) (hp : portImages s 0x01 0x10 k.owner = false) :
    imageGoesOn k s = portTryStart k.owner (updPort k.owner (fun x => { x with imageWait := false }) s) := by
  simp [imageGoesOn, hk, hp]

theorem imageGoesOn_headbox_waits (hk : k.kind < 0x10) (hp : portImages s 0x01 0x10 k.owner = true) :
    imageGoesOn k s = s := by
  simp [imageGoesOn, hk, hp]

theorem imageGoesOn_dryer (hlo : 0x10 ≤ k.kind) (hk : k.kind < 0x20) (hp : portImages s 0x10 0x20 k.owner = false) :
    imageGoesOn k s = dryTiming k.owner (updDry k.owner (fun d => { d with imageWait := false }) s) := by
  simp [imageGoesOn, Nat.not_lt.mpr hlo, hk, hp]

theorem imageGoesOn_dryer_waits (hlo : 0x10 ≤ k.kind) (hk : k.kind < 0x20)
    (hp : portImages s 0x10 0x20 k.owner = true) : imageGoesOn k s = s := by
  simp [imageGoesOn, Nat.not_lt.mpr hlo, hk, hp]

theorem imageGoesOn_other (hk : 0x20 ≤ k.kind) : imageGoesOn k s = s := by
  simp [imageGoesOn, show ¬ k.kind < 0x10 by omega, Nat.not_lt.mpr hk]

end

section

variable {s : State} {crc : Nat} {im : List Byte} {i : Nat} {is : List Nat}

theorem imageSound_of_wrong_crc (h : crc32 im ≠ crc) : imageSound crc im i s = false := by
  simp [imageSound, h]

theorem imageSound_of_content (h : im.length ≠ u32At (profEntry s.boot.profile i) 12
    ∨ contentOk s (entryItem (profEntry s.boot.profile i)) im = false
    ∨ storeFree s < itemWords s (entryItem (profEntry s.boot.profile i))) : imageSound crc im i s = false := by
  rcases h with h | h | h <;> simp [imageSound, h]

/-- Whether it is sound or not, the image is taken and the clock stays. -/
theorem standing_imageLoaded (h : s.boot.images = i :: is) (hf : flashHeld s = false) : standing (imageLoaded crc im s) =
    standing (updBoot (fun b => { b with
      images := is
      imagesFailed := if imageSound crc im i s then b.imagesFailed else b.imagesFailed ++ [i] }) s) := by
  cases hok : imageSound crc im i s with
  | true => rw [imageLoaded_of_sound h hf hok, standing_imageGoesOn, standing_imageStored]; rfl
  | false =>
    rw [imageLoaded_of_unsound h hf hok, standing_imageGoesOn, standing_ite, standing_raise, standing_imageRefused, ite_self]
    rfl

theorem pendBit_imageLoaded (h : s.boot.images = i :: is) (hf : flashHeld s = false) (hc : crc32 im ≠ crc) :
    pendBit (imageLoaded crc im s) 325 = true := by
  rw [imageLoaded_of_unsound h hf (imageSound_of_wrong_crc hc), if_neg hc]
  exact pend_imageGoesOn (pendBit_raise_self (by decide) _ _ _)

/-- An image of a kind of Table 5.8 that is not sound lets no port start. -/
theorem imageLoaded_refused (h : s.boot.images = i :: is) (hf : flashHeld s = false)
    (hk : 1 ≤ u8At (profEntry s.boot.profile i) 1) (hok : imageSound crc im i s = false) : imageLoaded crc im s =
      if crc32 im = crc then imageRefused i is s else raise 325 0x07 i (imageRefused i is s) := by
  rw [imageLoaded_of_unsound h hf hok]
  generalize ht : (if crc32 im = crc then imageRefused i is s else raise 325 0x07 i (imageRefused i is s)) = t
  have hs : standing t = standing (updBoot (fun b => { b with images := is, imagesFailed := b.imagesFailed ++ [i] }) s) := by
    rw [← ht, standing_ite, standing_raise, standing_imageRefused, ite_self]
  have hp : t.boot.profile = s.boot.profile := congrArg (·.2.1.profile) hs
  have hi : t.boot.imagesFailed = s.boot.imagesFailed ++ [i] := congrArg (·.2.1.imagesFailed) hs
  rw [← hp] at hk ⊢
  exact imageGoesOn_of_failed (by simp [hi]) hk

end

/-- Settles O53: the image is sound or not, and its port waits for others or goes on. -/
theorem profileImagesLoad : Obligations.ProfileImagesLoad := by
  intro s crc im hl
  rw [exec_profileImageLoaded crc im hl]
  refine ⟨fun h => ?_, fun h hf => ?_, fun i is h hf => ?_, fun i is h hf => ?_, fun i is h hf => ?_⟩
  · simp only [imageLoaded, h]
  · obtain ⟨i, is, h⟩ := List.exists_cons_of_ne_nil h
    simp only [imageLoaded, h, hf, if_true]
  · have hs := standing_imageLoaded (crc := crc.toNat) (im := im) h hf
    have hb : (imageLoaded crc.toNat im s).boot = _ := boot_of_standing hs
    refine ⟨_, rfl, by rw [hb]; rfl, clk_of_standing (s := updBoot _ s) hs, fun hc => ⟨?_, pendBit_imageLoaded h hf hc⟩⟩
    rw [hb]
    simp [updBoot, imageSound_of_wrong_crc hc]
  · intro e s1 hk
    refine ⟨fun hc => congrArg _ ?_, fun hc hbad => congrArg _ ?_⟩
    · exact (imageLoaded_refused h hf hk (imageSound_of_wrong_crc hc)).trans (if_neg hc)
    · exact (imageLoaded_refused h hf hk (imageSound_of_content hbad)).trans (if_pos hc)
  · intro k s1 s2 hc hlen hcon hw
    have hok : imageSound crc.toNat im i s = true := by
      simp [imageSound, hc, hlen, show contentOk s (entryItem (profEntry s.boot.profile i)) im = true from hcon,
        show itemWords s (entryItem (profEntry s.boot.profile i)) ≤ storeFree s from hw]
    have hb : (imageStored im i is s).boot = (imageTaken i is s).boot :=
      boot_of_standing (standing_imageStored.trans (by simp [imageTaken]))
    have waits (lo hi : Nat) := portImages_of_boot hb lo hi k.owner
    rw [imageLoaded_of_sound h hf hok]
    refine ⟨fun hk hp => congrArg _ ?_, fun hk hp => congrArg _ ?_, fun hlo hk hp => congrArg _ ?_,
      fun hlo hk hp => congrArg _ ?_, fun hk => congrArg _ (imageGoesOn_other hk)⟩
    · exact imageGoesOn_headbox_waits hk ((waits _ _).trans hp)
    · exact imageGoesOn_headbox hk ((waits _ _).trans hp)
    · exact imageGoesOn_dryer_waits hlo hk ((waits _ _).trans hp)
    · exact imageGoesOn_dryer hlo hk ((waits _ _).trans hp)

end Sys2Proof.Machine

/-! PROOFS. Supplies, start-up and reset (R51 to R53, R58, R59, R66, R67), and the test access port (R403). -/

namespace Sys2Proof.Machine

/-! ### The start of the device -/

@[simp] theorem standing_flashReadSlot {a : Nat} {im : List Byte} (s : State) :
    standing (flashReadSlot a im s) = standing s := by simp [flashReadSlot]

/-- What the start finds in the flash changes no phase. -/
theorem phase_flashBoot (fl : FlashContent) (s : State) : (flashBoot fl s).boot.phase = s.boot.phase := by
  change (standing (flashBoot fl s)).2.1.phase = (standing s).2.1.phase
  simp only [flashBoot]
  split <;> simp [-List.foldl_append]

/-- A start leaves the device in start-up or in its hold. -/
theorem not_ready_beginStart (fl : FlashContent) (temps : List Int) (s : State) : ¬ Ready (beginStart fl temps s) := by
  simp only [Ready, beginStart]
  split
  · simp [holdBegin, updBoot]
  · simp [phase_flashBoot, updBoot]

theorem tryStart_of_free {s : State} (fl : FlashContent) (temps : List Int)
    (hp : s.boot.phase = .resetHeld ∨ s.boot.phase = .testHeld) (hr : s.boot.sysRstLow = false)
    (ht : s.sec.tapHold = false) : tryStart fl temps s = beginStart fl temps s := by
  simp [tryStart, hp, hr, ht]

/-! ### Device ready -/

/-- The phase, the time of ready, crystal time and the fuse steps. -/
def serviceMark (r : Clk × Boot × Pcie × Sec) : Phase × Nat × Nat × Nat :=
  (r.2.1.phase, r.2.1.readyNs, r.1.ns, r.2.2.2.fuseSteps)

theorem serviceMark_readySet (s : State) :
    serviceMark (standing (readySet s)) = (.ready, s.clk.ns, s.clk.ns, s.sec.fuseSteps) := rfl

@[simp] theorem serviceMark_boardIds (s : State) : serviceMark (standing (boardIds s)) = serviceMark (standing s) := by
  simp only [boardIds]
  split <;> rfl

@[simp] theorem serviceMark_profJudge (s : State) :
    serviceMark (standing (profJudge s).2) = serviceMark (standing s) := by
  simp only [profJudge]
  repeat' split
  all_goals rfl

@[simp] theorem standing_profHeadbox {p : Nat} (s : State) : standing (profHeadbox p s) = standing s := by
  simp [profHeadbox]

@[simp] theorem standing_profDryer {p : Nat} (s : State) : standing (profDryer p s) = standing s := by simp [profDryer]

@[simp] theorem serviceMark_profStart (g : Tbl Nat) (s : State) :
    serviceMark (standing (profStart g s)) = serviceMark (standing s) := by
  simp [profStart, serviceMark]

@[simp] theorem standing_chainReady (s : State) : standing (chainReady s) = standing s := by
  simp only [chainReady]
  split <;> simp

@[simp] theorem standing_readyTimes (s : State) : standing (readyTimes s) = standing s := by simp [readyTimes]

@[simp] theorem standing_lanesReady (s : State) : standing (lanesReady s) = standing s := by simp [lanesReady]

@[simp] theorem serviceMark_notesTaken (s : State) :
    serviceMark (standing (updBoot (fun b => { b with notes := [] }) s)) = serviceMark (standing s) := rfl

/-- At ready the device is in service from that moment on; what else ready brings leaves that. -/
theorem serviceMark_deviceReady (s : State) :
    serviceMark (standing (deviceReady s)) = (.ready, s.clk.ns, s.clk.ns, s.sec.fuseSteps) := by
  rw [← serviceMark_readySet]
  simp only [deviceReady]
  split <;> simp [-standing_updBoot]

/-! ### What a reset leaves (R53, R67) -/

theorem resetState_ns (cause : Nat) (phase : Phase) (s : State) : (resetState cause phase s).clk.ns = s.clk.ns :=
  congrArg Prod.fst (timeAndQueue_resetState (cause := cause) (phase := phase) s)

theorem brownOut_of_powered {s : State} (k : Nat) (h : s.boot.phase ≠ .unpowered) : brownOut k s =
    (let s1 := resetState 2 .unpowered { s with boot := { s.boot with inRange := setBitN s.boot.inRange k false } }
     { s1 with sec := { s1.sec with tapHold := false } }) := if_neg h

theorem sysRst_of_short {n : Nat} (taken : Bool) (s : State) (h : n < 97) : sysRst n taken s = s := if_pos (Or.inl h)

/-- A pulse of 103 ns or longer resets a device in service, whatever the input takes for one between. -/
theorem sysRst_of_long {s : State} {n : Nat} (taken : Bool) (hr : Ready s) (h : 103 ≤ n) :
    sysRst n taken s = resetState 1 .resetHeld (updBoot (fun b => { b with sysRstLow := true }) s) := by
  have hn : ¬ (n < 97 ∨ (n < 103 ∧ (!taken) = true)) := by omega
  simp only [sysRst, if_neg hn, show s.boot.phase = .ready from hr]

/-! ### The hold for hot sensors (R66) -/

section

variable {s : State} {temps : List Int}

theorem holdCheck_of_due (hp : s.boot.phase = .thermalHold) (hd : s.boot.holdNs + 10000000 ≤ s.clk.ns) :
    holdCheck temps s = if hotSensor temps 420 then updBoot (fun b => { b with holdNs := b.holdNs + 10000000 }) s
      else updBoot (fun b => { b with phase := .starting, tripN := false, resumeNs := s.clk.ns }) s := by
  rw [holdCheck, if_neg (by simp [hp]), if_pos ⟨hp, hd⟩]
  rfl

theorem holdCheck_of_hot (hp : s.boot.phase = .thermalHold) (hd : s.boot.holdNs + 10000000 ≤ s.clk.ns)
    (h : hotSensor temps 420 = true) :
    holdCheck temps s = updBoot (fun b => { b with holdNs := b.holdNs + 10000000 }) s :=
  (holdCheck_of_due hp hd).trans (if_pos h)

theorem holdCheck_of_cool (hp : s.boot.phase = .thermalHold) (hd : s.boot.holdNs + 10000000 ≤ s.clk.ns)
    (h : hotSensor temps 420 = false) :
    holdCheck temps s = updBoot (fun b => { b with phase := .starting, tripN := false, resumeNs := s.clk.ns }) s :=
  (holdCheck_of_due hp hd).trans (if_neg (by simp [h]))

end

/-! ### The test access port (R403) -/

/-- An instruction that leaves the hold as it is moves nothing. -/
theorem tapMove_of_same {s : State} {hold : Bool} (fl : FlashContent) (temps : List Int) (h : s.sec.tapHold = hold) :
    tapMove hold fl temps s = s := if_pos (Or.inr h)

theorem tapMove_begins_hold {s : State} (fl : FlashContent) (temps : List Int) (hp : s.boot.phase ≠ .unpowered)
    (h : s.sec.tapHold = false) :
    tapMove true fl temps s = resetState 1 .testHeld (updSec (fun x => { x with tapHold := true }) s) := by
  simp [tapMove, hp, h]

/-- Leaving the hold starts the device, where SYS_RST_N is high (R67). -/
theorem tapMove_ends_hold {s : State} (fl : FlashContent) (temps : List Int) (hp : s.boot.phase = .testHeld)
    (h : s.sec.tapHold = true) (hr : s.boot.sysRstLow = false) :
    tapMove false fl temps s = beginStart fl temps (updSec (fun x => { x with tapHold := false }) s) := by
  have hm : tapMove false fl temps s = tryStart fl temps (updSec (fun x => { x with tapHold := false }) s) := by
    simp [tapMove, hp, h]
  exact hm.trans (tryStart_of_free fl temps (Or.inr hp) hr rfl)

/-- Until ready nothing is shifted out (R58). -/
theorem tapInstruction_of_not_ready {s t : State} {i : TapInstr} {hold : Bool} {fl : FlashContent} {temps : List Int}
    (hi : tapHolds i = hold) (hm : tapMove hold fl temps s = t) (ht : ¬ Ready t) : tapInstruction i fl temps s = t := by
  simp only [tapInstruction, hi, hm]
  exact if_pos ht

section

variable {s : State} (fl : FlashContent) (temps : List Int)

theorem tapInstruction_idcode (hr : Ready s) (h : s.sec.tapHold = false) :
    tapInstruction .idcode fl temps s = emit (.tdo ((List.range 32).map (bitOf tapIdcode))) s := by
  simp only [tapInstruction, tapHolds, tapMove_of_same fl temps h]
  exact if_neg (not_not_intro hr)

theorem tapInstruction_bypass (tdi : List Bool) (hr : Ready s) (h : s.sec.tapHold = false) :
    tapInstruction (.bypass tdi) fl temps s = emit (.tdo ((false :: tdi).take tdi.length)) s := by
  simp only [tapInstruction, tapHolds, tapMove_of_same fl temps h]
  exact if_neg (not_not_intro hr)

theorem tapInstruction_samplePreload (hr : Ready s) (h : s.sec.tapHold = false) :
    tapInstruction .samplePreload fl temps s = emit (.tdo (tapCells s)) { s with free := s.free + 1 } := by
  simp only [tapInstruction, tapHolds, tapMove_of_same fl temps h]
  exact if_neg (not_not_intro hr)

theorem debugLeaves_of_held (hp : s.boot.phase = .testHeld) (h : s.sec.tapHold = true) (hr : s.boot.sysRstLow = false) :
    debugLeaves s = beginStart (Config.startFlash s.free) (Config.startTemps s.free)
      (updSec (fun x => { x with tapHold := false }) { s with free := s.free + 1 }) := by
  rw [debugLeaves, if_pos h]
  exact tapMove_ends_hold (s := { s with free := s.free + 1 }) _ _ hp h hr

end

theorem tapCells_length (s : State) : (tapCells s).length = 100 := by simp [tapCells]

/-- The cells of the GPIO balls stand behind those of the 36 timing and serial balls. -/
theorem tapCells_gpio (s : State) : ((tapCells s).drop 36).take 48 = (List.range 48).map (ballLevel s) := by
  simp only [tapCells, List.append_assoc]
  rw [List.drop_left' (by simp), List.take_left' (by simp)]

theorem tapCells_system (s : State) :
    (tapCells s).drop 96 = [!s.boot.sysRstLow, !s.pcie.perstLow, !s.boot.tripN, s.boot.devReady] := by
  rw [tapCells, List.drop_left' (by simp)]

/-- Settles O52: supplies and pulses by what a reset leaves, instructions by what the hold moves, ready by its mark. -/
theorem suppliesStartAndReset : Obligations.SuppliesStartAndReset := by
  have ready (s : State) : exec .deviceReady s = .next (if readyDue s then deviceReady s else s) := rfl
  refine ⟨fun s fl temps => ⟨fun hp hr ht => ?_, fun hp ht => ?_, fun hp ht hr => ?_, fun hr ht => ?_,
    fun i hi hp ht => ?_⟩, fun s => ⟨fun h => ?_, fun h => ?_⟩, fun s temps hp hd => ?_,
    fun s rail hp hn => ?_, fun s rail hp => ?_, fun s n taken => ⟨fun h => ?_, fun hr h hn => ?_⟩⟩
  · have hv := tryStart_of_free (s := updBoot (fun b => { b with
      phase := .resetHeld, inRange := b.inRange / 4096 * 4096 + 0xFFF }) s) fl temps (Or.inl rfl) hr ht
    exact next_congr ((if_pos hp).trans hv)
  · have hv := tryStart_of_free (s := updBoot (fun b => { b with sysRstLow := false }) s) fl temps (Or.inl hp) rfl ht
    exact next_congr hv
  · have hm := tapMove_ends_hold fl temps hp ht hr
    have leaves {i : TapInstr} (h : tapHolds i = false) : exec (.testInstruction i fl temps) s = .next _ :=
      next_congr (tapInstruction_of_not_ready h hm (not_ready_beginStart _ _ _))
    refine ⟨?_, ?_⟩
    · rintro i (rfl | rfl | ⟨bs, rfl⟩) <;> exact leaves rfl
    · exact (congrArg (whenReady chalBody) (debugLeaves_of_held hp ht hr)).trans
        (whenReady_of_not_ready chalBody (not_ready_beginStart _ _ _))
  · exact ⟨next_congr (tapInstruction_idcode fl temps hr ht),
      fun b bs => next_congr (tapInstruction_bypass fl temps (b :: bs) hr ht), _,
      next_congr (tapInstruction_samplePreload fl temps hr ht), tapCells_length s, tapCells_gpio s, tapCells_system s⟩
  · have hm := tapMove_begins_hold fl temps hp ht
    have hold : tapHolds i = true := by rcases hi with rfl | rfl | rfl <;> rfl
    have out : ¬ Ready (resetState 1 .testHeld (updSec (fun x => { x with tapHold := true }) s)) := Phase.noConfusion
    exact ⟨_, next_congr (tapInstruction_of_not_ready hold hm out), rfl, rfl, rfl, rfl, resetState_ns _ _ _⟩
  · rw [ready]
    simp [h]
  · have hm := serviceMark_deviceReady s
    simp only [serviceMark, standing, Prod.mk.injEq] at hm
    obtain ⟨hp, ht, hn, hf⟩ := hm
    exact ⟨deviceReady s, by rw [ready, if_pos h], hp, ht, hn, hf⟩
  · exact ⟨fun h => next_congr (holdCheck_of_hot hp hd h), fun h => next_congr (holdCheck_of_cool hp hd h)⟩
  · refine ⟨_, next_congr (brownOut_of_powered rail.val hp), rfl, rfl, ?_, rfl, rfl, ?_, ?_, resetState_ns 2 .unpowered _⟩
    all_goals simp [resetState, pageTorn, hn]
  · have dip (back : Bool) : exec (.railDip rail back) s = .next (railDip rail.val back s) := rfl
    simp [dip, railDip, hp]
  · exact next_congr (sysRst_of_short taken s h)
  · refine ⟨_, next_congr (sysRst_of_long taken hr h), rfl, rfl, ?_, rfl, rfl, ?_, ?_, resetState_ns _ _ _, ?_⟩
    all_goals simp [resetState, pageTorn, updBoot, hn]

end Sys2Proof.Machine

/-! PROOFS. Commands by their rows: ECHO, PROGRESS and IDENTIFY, ABORT, the table loads, PORT_START and PORT_STOP, and the
commands of non-volatile storage and identity (R102, R104, R109, R112, R115, R118, R120, R142, R378, R392, R401). -/

namespace Sys2Proof.Machine

/-! ### Host memory of a command (R102) -/

theorem hrdAsk_of_head {s : State} (c : Cmd) (d : HostRead) (h : s.chain.head = true) : hrdAsk c d s = s := by
  simp [hrdAsk, h]

/-- A host write that fails ends its command with the bytes that it wrote. -/
theorem hostOut_fail_of_may {s : State} {c : Cmd} {bs : List Byte} {n : Nat} (fin : Cmd → State → State)
    (h : mayRequest s = true) (hn : n ≤ bs.length) :
    hostOut c bs (.fail n) fin s = finishHostFail c n (hostWrite (pkAddr c.packet) (bs.take n) s) := by
  simp [hostOut, hostOutAt, h, Nat.min_eq_left hn]

@[simp] theorem padTo_length (n : Nat) (bs : List Byte) : (padTo n bs).length = n := by
  simp only [padTo, zeros, List.length_append, List.length_take, List.length_replicate]
  omega

theorem padTo_of_length {n : Nat} {bs : List Byte} (h : bs.length = n) : padTo n bs = bs := by
  simp [padTo, zeros, ← h]

/-! ### PROGRESS and IDENTIFY (R115, R118) -/

section Progress

variable {s : State} {c : Cmd}

theorem progressStart_of_unknown
    (hw : namedElsewhere s (u16At c.packet 0x18) (BitVec.ofNat 32 (u32At c.packet 0x1C)) = none)
    (hn : cmdNamed s (u16At c.packet 0x18) (BitVec.ofNat 32 (u32At c.packet 0x1C)) = none) :
    progressStart c s = finish c stOk 0 0 0 s := by
  simp [progressStart, pm16, pm32, hw, hn]

theorem progressStart_of_here {d : Cmd}
    (hw : namedElsewhere s (u16At c.packet 0x18) (BitVec.ofNat 32 (u32At c.packet 0x1C)) = none)
    (hn : cmdNamed s (u16At c.packet 0x18) (BitVec.ofNat 32 (u32At c.packet 0x1C)) = some d) :
    progressStart c s =
      finish c stOk (percentOf d) ((if d.started then 2 else 1) + 256 * pkOp d.packet) d.position s := by
  simp [progressStart, pm16, pm32, hw, hn]

theorem progressStart_of_elsewhere {e : Nat}
    (hw : namedElsewhere s (u16At c.packet 0x18) (BitVec.ofNat 32 (u32At c.packet 0x1C)) = some e) :
    progressStart c s = forwardCmd e c s := by
  simp [progressStart, pm16, pm32, hw]

end Progress

theorem identity_length (s : State) : (identity s).length = 4096 := padTo_length _ _

theorem startIdentify_ok {s : State} (c : Cmd) (h : mayRequest s = true) :
    startIdentify .ok c s =
      finishOk c (glbId + at' 32 s.chain.devId) 4096 (hostWrite (pkAddr c.packet) (identity s) s) := by
  rw [startIdentify, hostOut_ok_of_may _ h, hostWrite_devId]

theorem startIdentify_fail {s : State} {n : Nat} (c : Cmd) (h : mayRequest s = true) (hn : n ≤ 4096) :
    startIdentify (.fail n) c s = finishHostFail c n (hostWrite (pkAddr c.packet) ((identity s).take n) s) :=
  hostOut_fail_of_may _ h (by rw [identity_length]; exact hn)

/-- Settles O8: each row by its start, PROGRESS by where the command that it names is. -/
theorem echoProgressIdentifyComplete : Obligations.EchoProgressIdentifyComplete := by
  intro s sq tag c
  have progress (h : Starts s sq tag 0x0002 c) : exec (.progress sq tag) s = .next (progressStart c s) :=
    opcodeRow_of_starts _ _ h
  have identify (io : HostIo) (h : Starts s sq tag 0x0001 c) :
      exec (.identify sq tag io) s = .next (startIdentify io c s) := opcodeRow_of_starts _ _ h
  refine ⟨fun h => opcodeRow_of_starts echoStart _ h, fun h => ⟨fun hw hn => ?_, fun d hw hn => ?_, fun e hw => ?_⟩,
    fun h hm => ?_, fun n h hm hn => ?_⟩
  · exact (progress h).trans (next_congr (progressStart_of_unknown hw hn))
  · exact (progress h).trans (next_congr (progressStart_of_here hw hn))
  · exact (progress h).trans (next_congr (progressStart_of_elsewhere hw))
  · exact (identify .ok h).trans (next_congr (startIdentify_ok c hm))
  · exact (identify (.fail n) h).trans (next_congr (startIdentify_fail c hm hn))

/-! ### ABORT (R91, R120) -/

/-- An ABORT of a command that has not started also lets go what waited behind that command for another device (R91). -/
theorem abortStart_of_not_started {s : State} {c d : Cmd}
    (hn : cmdNamed s (u16At c.packet 0x18) (BitVec.ofNat 32 (u32At c.packet 0x1C)) = some d)
    (hp : pkOp d.packet ≠ 0x0002) (ha : pkOp d.packet ≠ 0x0003) (ht : d.sentTo = none) (hs : d.started = false) :
    abortStart c s = finishOk c 0 0 (awayPump d.sq s.cmds.flight.length (finish d stAborted 0 0 0 s)) := by
  simp [abortStart, pm16, pm32, hn, hp, ha, ht, hs]

/-- A packet with flags 0 (Table 5.1). -/
def plainPacket (op tag target len addr : Nat) (param : List Byte) : List Byte :=
  padTo 64 (leBytes 2 op ++ leBytes 2 0 ++ leBytes 4 tag ++ leBytes 4 target ++ leBytes 4 len ++ leBytes 8 addr ++ param)

/-- A CFG_STAGE of pair 1 whose byte lies in host memory: it waits at the head while its device cannot be reached. -/
def keptStage : Cmd := { cid := 0, sq := 1, tag := 5, packet := plainPacket 0x0010 5 0x01000000 1 0x1000 [] }

/-- A LANE_TRAIN of pair 1, fetched after it. -/
def behindStage : Cmd := { cid := 1, sq := 1, tag := 6, packet := plainPacket 0x0020 6 0x01000000 0 0 [] }

/-- The ABORT of the CFG_STAGE, in pair 0. -/
def abortOfStage : Cmd :=
  { cid := 2, sq := 0, tag := 0, packet := plainPacket 0x0003 0 0 0 0 (leBytes 4 1 ++ leBytes 4 5) }

/-- The head with the three in flight; pair 1 is for device 1, to which no route leads. -/
def stageKeptState : State :=
  { pcie := { bme := true }
    cmds := { nextId := 3, flight := [keptStage, behindStage, abortOfStage] }
    host := { pairs := [(0, { sqBase := 0x1000, sqLog2 := 4, cqBase := 0x2000, cqLog2 := 4, group := none, target := 0 }),
                        (1, { sqBase := 0x3000, sqLog2 := 4, cqBase := 0x4000, cqLog2 := 4, group := none, target := 1 })] } }

/-- There the ABORT names the CFG_STAGE, which waits for its row, and the LANE_TRAIN waits behind it. -/
theorem stageKeptState_kept :
    cmdNamed stageKeptState (u16At abortOfStage.packet 0x18) (BitVec.ofNat 32 (u32At abortOfStage.packet 0x1C)) = some keptStage
      ∧ firstKept stageKeptState 1 = some keptStage ∧ keptHere stageKeptState keptStage = true := by
  decide +kernel

theorem pkOp_keptStage : pkOp keptStage.packet = 0x0010 := by decide

theorem stageKeptState_starts : Starts stageKeptState 0 0 0x0003 abortOfStage := by
  unfold Starts Named Ready
  decide +kernel

/-- With the CFG_STAGE gone the LANE_TRAIN goes on, and completes with CHAIN_UNREACHABLE: the ABORT leaves nothing in flight. -/
theorem abort_stageKeptState :
    ∃ t, exec (.abort 0 0) stageKeptState = .next t ∧ t.cmds.flight = [] := by
  refine ⟨_, opcodeRow_of_starts abortStart _ stageKeptState_starts, ?_⟩
  rw [abortStart_of_not_started stageKeptState_kept.1 (by simp [pkOp_keptStage]) (by simp [pkOp_keptStage]) rfl rfl]
  decide +kernel

/-- Were the CFG_STAGE and the ABORT the only two to complete, the LANE_TRAIN would still be in flight. -/
theorem finish_stageKeptState :
    (finish abortOfStage stOk 100 0 0 (finish keptStage stAborted 0 0 0 stageKeptState)).cmds.flight = [behindStage] := by
  decide +kernel

/-- Refutes O9: an ABORT of a CFG_STAGE that waits at the head for a device that cannot be reached also lets go the
LANE_TRAIN behind it (R91), where the clause of a command that has not started leaves that one in flight. -/
theorem not_abortAnswers : ¬ Obligations.AbortAnswers := by
  intro h
  obtain ⟨-, hNamed⟩ := h stageKeptState 0 0 abortOfStage stageKeptState_starts
  obtain ⟨-, hNotStarted, -⟩ := hNamed keptStage stageKeptState_kept.1
  have claimed := hNotStarted (by simp [pkOp_keptStage]) (by simp [pkOp_keptStage]) rfl rfl
  obtain ⟨t, actual, hflight⟩ := abort_stageKeptState
  obtain rfl : t = _ := Host.Outcome.next.inj (actual.symm.trans claimed)
  rw [finish_stageKeptState] at hflight
  exact List.cons_ne_nil _ _ hflight

/-! ### TABLE_LOAD and RULES_LOAD (R109, R192, R194, R260) -/

section Loads

variable {s : State} {c : Cmd}

theorem startLoad_of_used (d : HostRead) (h : bankInUse s (loadItem c) = true) :
    startLoad d c s = finishCheck c stBusy s := by
  simp [startLoad, h]

theorem startLoad_of_accepted (d : HostRead) (hb : bankInUse s (loadItem c) = false) (hs : itemState s (loadItem c) ≠ 1)
    (hw : itemWords s (loadItem c) ≤ storeFree s)
    (hl : pkLen c.packet = itemLength s (loadItem c) (u16At c.packet 0x1A)) (hr : regionOk s (loadItem c) = true) :
    startLoad d c s =
      loadRead d (beginWork c (pkLen c.packet) s).1 (setItem (loadItem c) 1 [] (beginWork c (pkLen c.packet) s).2) := by
  simp [startLoad, hb, hs, Nat.not_lt.mpr hw, pm16, ← hl, hr]

/-- The command and the state once `bs` have reached the image. -/
def loadProgress (c : Cmd) (bs : List Byte) (s : State) : Cmd × State :=
  progressTo { c with buf := c.buf ++ bs } (c.buf.length + bs.length) (putLoaded (loadItem c) c.buf.length bs s)

theorem loadRead_data (bs : List Byte) (hh : s.chain.head = true) (hl : c.buf.length + bs.length ≤ pkLen c.packet) :
    loadRead (.data bs) c s =
      if c.buf.length + bs.length < pkLen c.packet then (loadProgress c bs s).2
      else loadEnds (loadProgress c bs s).1 (loadProgress c bs s).2 := by
  have all : bs.take (pkLen c.packet - c.buf.length) = bs := List.take_of_length_le (by omega)
  simp only [loadRead, hrdAsk_of_head c _ hh, all]
  rfl

theorem loadRead_data_of_short (bs : List Byte) (hh : s.chain.head = true)
    (hl : c.buf.length + bs.length < pkLen c.packet) : loadRead (.data bs) c s = (loadProgress c bs s).2 :=
  (loadRead_data bs hh (Nat.le_of_lt hl)).trans (if_pos hl)

theorem loadRead_data_of_last (bs : List Byte) (hh : s.chain.head = true)
    (hl : c.buf.length + bs.length = pkLen c.packet) :
    loadRead (.data bs) c s = loadEnds (loadProgress c bs s).1 (loadProgress c bs s).2 :=
  (loadRead_data bs hh (Nat.le_of_eq hl)).trans (if_neg (Nat.not_lt.mpr (Nat.le_of_eq hl.symm)))

/-- A load whose item is still LOADING ends by the three checks of R109. -/
theorem loadEnds_of_loading (h : itemState s (loadItem c) = 1) :
    loadEnds c s =
      if crc32 c.buf = u32At c.packet 0x1C ∧ c.buf.length = itemLength s (loadItem c) (u16At c.packet 0x1A)
          ∧ contentOk s (loadItem c) c.buf = true then
        finishOk c (crc32 c.buf) c.buf.length (itemValid (loadItem c) c.buf s)
      else finishErr c stBadParam (crc32 c.buf) (setItem (loadItem c) 3 [] s) :=
  if_neg (by simp [h])

theorem loadRead_fail (hh : s.chain.head = true) (h : itemState s (loadItem c) = 1) :
    loadRead .fail c s = finishHostFail c c.position (setItem (loadItem c) 3 [] s) := by
  simp [loadRead, hrdAsk_of_head c _ hh, h]

end Loads

section LoadRows

variable {s : State} {sq : Fin 1024} {tag : W32} {c : Cmd} {d : HostRead} {t : State}

/-- Both rows of a load start alike. -/
theorem exec_load_of_starts (hm : mayRequest s = true) (ht : startLoad d c s = t) :
    (Starts s sq tag 0x0040 c → exec (.tableLoad sq tag d) s = .next t)
      ∧ (Starts s sq tag 0x0060 c → exec (.rulesLoad sq tag d) s = .next t) := by
  rw [← ht, ← needHost_of_may (startLoad d) hm]
  exact ⟨opcodeRow_of_starts _ _, opcodeRow_of_starts _ _⟩

/-- Both rows of a load carry on alike. -/
theorem exec_load_of_carriesOn (hm : mayRequest s = true) (ht : loadRead d c s = t) :
    (CarriesOn s sq tag 0x0040 c → exec (.tableLoad sq tag d) s = .next t)
      ∧ (CarriesOn s sq tag 0x0060 c → exec (.rulesLoad sq tag d) s = .next t) := by
  rw [← ht, ← needHost_of_may (loadRead d) hm]
  exact ⟨opcodeRow_of_carriesOn _ _, opcodeRow_of_carriesOn _ _⟩

end LoadRows

/-- Settles O23: the start by its checks, the rows by whether the last byte has come, the end by its checks. -/
theorem tableLoads : Obligations.TableLoads := by
  intro s sq tag c hm
  refine ⟨fun d hb => ?_, fun d hb hs hw hl hr => ?_, fun bs hh hl => ?_, fun bs hh hl => ?_, fun hh hs => ?_⟩
  · exact exec_load_of_starts hm (startLoad_of_used d hb)
  · exact exec_load_of_starts hm (startLoad_of_accepted d hb hs hw hl hr)
  · exact exec_load_of_carriesOn hm (loadRead_data_of_short bs hh hl)
  · intro im r hi
    refine exec_load_of_carriesOn hm ((loadRead_data_of_last bs hh hl).trans ?_)
    have hr : loadProgress c bs s = r := by rw [loadProgress, hl]
    have hlen : r.1.buf.length = pkLen c.packet := List.length_append.trans hl
    rw [hr, loadEnds_of_loading (c := r.1) hi, hlen]
    rfl
  · exact exec_load_of_carriesOn hm (loadRead_fail hh hs)

/-! ### PORT_START and PORT_STOP (R142, R202) -/

/-- No item of a bank is in a state. -/
theorem range_any_eq_false {n v : Nat} {f : Nat → Nat} (h : ∀ i, i < n → f i ≠ v) :
    ((List.range n).any fun i => decide (f i = v)) = false := by
  simpa using h

section Ports

variable {s : State} {c : Cmd} {p mode : Nat}

theorem startCameraPort_of_running (h : (port s p).running = true) : startCameraPort c p s = finishCheck c stBusy s := by
  simp [startCameraPort, h]

theorem startCameraPort_of_stopped (hr : (port s p).running = false) (hu : underTest s 0x02 p = false)
    (ha : presetArmed s (hbEnc s p) = false) (hl : ∀ i, i < 9 → (tab s p (cf s 0x02 p 0x12) i).st ≠ 1) :
    startCameraPort c p s =
      if hbProto s p = 0 ∨ ((List.range 9).any fun k => decide ((tab s p (cf s 0x02 p 0x12) k).st = 3)) then
        finishCheck c stBadParam s
      else finishOk c 0 0 (startHeadbox p s) := by
  simp [startCameraPort, hr, hu, ha, range_any_eq_false hl]

theorem startDryerPort_of_stopped (hr : (dry s p).running = false) (hu : underTest s 0x05 p = false)
    (ha : presetArmed s (dpc s p 0x32) = false) (hl : ∀ i, i < 5 → dTab s p (dBank s p) i ≠ 1)
    (hi : ∀ i, i < 5 → dTab s p (dBank s p) i ≠ 3) (hc : dpc s p 0x00 ≠ 0) :
    startDryerPort c p s = finishOk c 0 0 (startDryer p s) := by
  simp [startDryerPort, hr, hu, ha, range_any_eq_false hl, range_any_eq_false hi, hc]

theorem stopCameraPort_of_stopped (h : (port s p).running = false) :
    stopCameraPort c p mode s = finishOk c (lastStripe s p) 0 s := by
  simp [stopCameraPort, h]

theorem stopCameraPort_in_stripe (hr : (port s p).running = true) (hc : (port s p).cur ≠ none) :
    stopCameraPort c p 0 s =
      updPort p (fun x => { x with stopping := true }) (putCmd { c with started := true, startNs := s.clk.ns } s) := by
  simp [stopCameraPort, hr, hc]

theorem stopDryerPort_of_stopped (h : (dry s p).running = false) :
    stopDryerPort c p mode s = finishOk c (lastFrame s p) 0 s := by
  simp [stopDryerPort, h]

theorem stopDryerPort_in_frame (hr : (dry s p).running = true) (hf : (dry s p).frame ≠ none) :
    stopDryerPort c p 0 s =
      updDry p (fun d => { d with stopping := true }) (putCmd { c with started := true, startNs := s.clk.ns } s) := by
  simp [stopDryerPort, hr, hf]

end Ports

section PortRows

variable {s : State} {sq : Fin 1024} {tag : W32} {c : Cmd}

theorem exec_portStart_headbox (h : Starts s sq tag 0x0030 c) (hb : addrBlk (pkTarget c.packet) = 0x02) :
    exec (.portStart sq tag) s = .next (startCameraPort c (pkInst c.packet) s) :=
  (opcodeRow_of_starts portStartStart _ h).trans (next_congr (if_pos hb))

theorem exec_portStart_dryer (h : Starts s sq tag 0x0030 c) (hb : addrBlk (pkTarget c.packet) = 0x05) :
    exec (.portStart sq tag) s = .next (startDryerPort c (pkInst c.packet) s) :=
  (opcodeRow_of_starts portStartStart _ h).trans (next_congr (if_neg (by simp [hb])))

theorem exec_portStop_headbox (h : Starts s sq tag 0x0031 c) (hb : addrBlk (pkTarget c.packet) = 0x02) :
    exec (.portStop sq tag) s = .next (stopCameraPort c (pkInst c.packet) (u8At c.packet 0x18) s) :=
  (opcodeRow_of_starts portStopStart _ h).trans (next_congr (if_pos hb))

theorem exec_portStop_dryer (h : Starts s sq tag 0x0031 c) (hb : addrBlk (pkTarget c.packet) = 0x05) :
    exec (.portStop sq tag) s = .next (stopDryerPort c (pkInst c.packet) (u8At c.packet 0x18) s) :=
  (opcodeRow_of_starts portStopStart _ h).trans (next_congr (if_neg (by simp [hb])))

end PortRows

/-- Settles O36: each row by the block of its target, then by whether the port runs. -/
theorem portsStartAndStop : Obligations.PortsStartAndStop := by
  intro s sq tag c
  refine ⟨fun h hb => ?_, fun h hb hr hu ha ht hc => ?_, fun h hb => ?_, fun h hb => ?_⟩
  · rw [exec_portStart_headbox h hb]
    refine ⟨fun hr => next_congr (startCameraPort_of_running hr), fun hr hu ha hl => ?_⟩
    rw [startCameraPort_of_stopped hr hu ha hl]
    exact ⟨fun hp => next_congr (if_pos (Or.inl hp)),
      fun hp hi => next_congr (if_neg (by simp [hp, range_any_eq_false hi]))⟩
  · rw [exec_portStart_dryer h hb]
    exact next_congr (startDryerPort_of_stopped hr hu ha (fun i hi => (ht i hi).1) (fun i hi => (ht i hi).2) hc)
  · rw [exec_portStop_headbox h hb]
    refine ⟨fun hr => next_congr (stopCameraPort_of_stopped hr), fun hr hc hm => ?_⟩
    rw [hm]
    exact next_congr (stopCameraPort_in_stripe hr hc)
  · rw [exec_portStop_dryer h hb]
    refine ⟨fun hr => next_congr (stopDryerPort_of_stopped hr), fun hr hf hm => ?_⟩
    rw [hm]
    exact next_congr (stopDryerPort_in_frame hr hf)

/-! ### NVM_READ, NVM_WRITE, CERT_READ and ATTEST (R112, R374, R377, R378, R392, R401) -/

/-- A command that begins its work leaves the NVM as it stands. -/
@[simp] theorem beginWork_nvm (c : Cmd) (total : Nat) (s : State) : (beginWork c total s).2.nvm = s.nvm := by
  simp only [beginWork]
  split
  · split <;> rfl
  · rfl

section Nvm

variable {s : State} {c : Cmd} {bs : List Byte}

theorem readServe_of_absent (io : HostIo) (h : readBytes c s = none) : readServe io c s = finishErr c stBadParam 0 s := by
  simp [readServe, h]

theorem readServe_ok (h : readBytes c s = some bs) (hm : mayRequest s = true) :
    readServe .ok c s = finishOk c 0 bs.length (hostWrite (pkAddr c.packet) bs s) := by
  simp [readServe, h, hostOut_ok_of_may _ hm]

theorem startNvmRead_of_free (io : HostIo) (h : s.nvm.page = none) :
    startNvmRead io c s = readServe io (beginWork c 0 s).1 (beginWork c 0 s).2 := by
  simp [startNvmRead, h]

theorem startNvmWrite_of_closed (d : HostRead) (h : s.nvm.window = false) :
    startNvmWrite d c s = finishErr c stTempInhibit 0 s := if_pos h

/-- A write by address keeps its host data and queues for its pages. -/
theorem startNvmWrite_of_open (hw : s.nvm.window = true) (ho : pkOpt8 c.packet = false) (hl : bs.length = pkLen c.packet)
    (ht : pageCount (pkTarget c.packet) (pkLen c.packet) ≠ 0)
    (hh : (beginWork c (pageCount (pkTarget c.packet) (pkLen c.packet)) s).2.chain.head = true) :
    let r := beginWork c (pageCount (pkTarget c.packet) (pkLen c.packet)) s
    startNvmWrite (.data bs) c s = nvmPump (updNvm (fun x => { x with writers := x.writers ++ [c.cid] })
      (putCmd { r.1 with buf := bs, aux := pkTarget c.packet + 1 } r.2)) := by
  simp [startNvmWrite, hw, ho, hostIn_data_of_head _ _ hh, ht, padTo_of_length hl]

theorem startCertRead_of_stored {k : Nat} (io : HostIo) (hk : k < 3) (hc : u8At c.packet 0x18 = k) :
    startCertRead io c s =
      if pkLen c.packet < (certArea s (0x1000 + 0x800 * k)).length then
        finishErr c stBadParam (certArea s (0x1000 + 0x800 * k)).length s
      else hostOut c (certArea s (0x1000 + 0x800 * k)) io (fun c u => finishOk c (certArea s (0x1000 + 0x800 * k)).length
        (certArea s (0x1000 + 0x800 * k)).length u) s := by
  match k, hk with
  | 0, _ => simp [startCertRead, pm8, hc]
  | 1, _ => simp [startCertRead, pm8, hc]
  | 2, _ => simp [startCertRead, pm8, hc]

theorem startAttest_ok (hm : mayRequest s = true) :
    startAttest .ok c s =
      finishOk c 640 640 (hostWrite (pkAddr c.packet) (report s (slice c.packet 0x18 32)) s) :=
  hostOut_ok_of_may _ hm

end Nvm

/-- Settles O46: each row by its start. -/
theorem nvmAndCertificateCommands : Obligations.NvmAndCertificateCommands := by
  intro s sq tag c
  have read (io : HostIo) (h : Starts s sq tag 0x00B0 c) (hp : s.nvm.page = none) :
      exec (.nvmRead sq tag io) s = .next (readServe io (beginWork c 0 s).1 (beginWork c 0 s).2) :=
    (opcodeRow_of_starts (startNvmRead io) _ h).trans (next_congr (startNvmRead_of_free io hp))
  have write (d : HostRead) (h : Starts s sq tag 0x00B1 c) (hm : mayRequest s = true) :
      exec (.nvmWrite sq tag d) s = .next (startNvmWrite d c s) :=
    (opcodeRow_of_starts (needHost (startNvmWrite d)) _ h).trans (next_congr (needHost_of_may _ hm))
  have cert (h : Starts s sq tag 0x00C3 c) : exec (.certRead sq tag .ok) s = .next (startCertRead .ok c s) :=
    opcodeRow_of_starts _ _ h
  refine ⟨fun bs h hp _ hb hm => ?_, fun io h hp hb => ?_, fun d h hm hw => ?_,
    fun bs h hm hw _ ho _ hl => ?_, fun k h hk hc hm => ?_, fun h hm => ?_⟩
  · exact (read .ok h hp).trans (next_congr (readServe_ok hb hm))
  · exact (read io h hp).trans (next_congr (readServe_of_absent io hb))
  · exact (write d h hm).trans (next_congr (startNvmWrite_of_closed d hw))
  · intro total r ht hh
    exact (write (.data bs) h hm).trans (next_congr (startNvmWrite_of_open hw ho hl ht hh))
  · rw [cert h, startCertRead_of_stored .ok hk hc]
    exact ⟨fun hf => next_congr ((if_neg (Nat.not_lt.mpr hf)).trans (hostOut_ok_of_may _ hm)),
      fun hf => next_congr (if_pos hf)⟩
  · exact (opcodeRow_of_starts (startAttest .ok) _ h).trans (next_congr (startAttest_ok hm))

end Sys2Proof.Machine

/-! PROOFS. Lanes: what the operations of the other blocks leave of them. A lane that locks or loses lock moves its link or its
headbox, which may drop a line, close a stripe or halt: each function from states to states that this reaches has one rule, in
the order of the model's definitions and proved from the rules of the functions it calls. Of a lane it changes the position
alone. -/

namespace Sys2Proof.Machine

/-- A lane of the table but for its position. -/
def unplacedIn (t : Tbl Lane) (n : Nat) : Lane := { (tblFind t n).getD (laneReset n) with position := 0x3F }

/-- Lane `n` but for its position: a headbox that takes another binding forgets the positions of its lanes (R146). -/
def unplaced (n : Nat) (s : State) : Lane := unplacedIn s.ing.lanes n

@[simp] theorem unplacedIn_lanes (n : Nat) (s : State) : unplacedIn s.ing.lanes n = unplaced n s := rfl

@[simp] theorem unplaced_mk {n : Nat} {clk : Clk} {boot : Boot} {pcie : Pcie} {host : HostIf} {cfg : Cfg} {cmds : Cmds} {nvm : Nvm}
    {sec : Sec} {chain : Chain} {bist : Bist} {ing : Ingest} {web : Web} {afe : Afe} {hbm : Mem} {sent : List Emit} {free : Nat}
    {pending : List Instr} :
    unplaced n ⟨clk, boot, pcie, host, cfg, cmds, nvm, sec, chain, bist, ing, web, afe, hbm, sent, free, pending⟩ =
      unplacedIn ing.lanes n := rfl

section

variable {ln : Nat}

@[simp] theorem unplaced_ite (p : Prop) [Decidable p] (s t : State) :
    unplaced ln (if p then s else t) = if p then unplaced ln s else unplaced ln t := apply_ite ..

@[simp] theorem unplaced_ite_snd {α : Type} (p : Prop) [Decidable p] (x y : α × State) :
    unplaced ln (if p then x else y).2 = if p then unplaced ln x.2 else unplaced ln y.2 :=
  apply_ite (fun z : α × State => unplaced ln z.2) ..

@[simp] theorem unplaced_getD_map {α : Type} {f : α → State} {s : State} (h : ∀ x, unplaced ln (f x) = unplaced ln s)
    (o : Option α) : unplaced ln ((o.map f).getD s) = unplaced ln s := by
  cases o with
  | none => rfl
  | some x => exact h x

@[simp] theorem unplaced_foldl {α : Type} {f : State → α → State} (h : ∀ u x, unplaced ln (f u x) = unplaced ln u)
    (l : List α) (s : State) : unplaced ln (l.foldl f s) = unplaced ln s := by
  induction l generalizing s with
  | nil => rfl
  | cons x xs ih => exact (ih _).trans (h s x)

/-- Bookkeeping changes no lane. -/
theorem BookOnly.unplaced {s t : State} (h : BookOnly s t) : unplaced ln t = unplaced ln s :=
  congrArg (fun x : Ingest => unplacedIn x.lanes ln) h.ing

/-! ### Shared operations and commands in flight -/

@[simp] theorem unplaced_takeSel {sel : Nat → Bool} {part : Nat × Nat} {ok : Accepted → Bool} (s : State) :
    unplaced ln (takeSel sel part ok s) = unplaced ln s := by rfl

@[simp] theorem unplaced_hbmWrite {a : Nat} {bs : List Byte} (s : State) :
    unplaced ln (hbmWrite a bs s) = unplaced ln s := by rfl

@[simp] theorem unplaced_emit {e : Emit} (s : State) :
    unplaced ln (emit e s) = unplaced ln s := (emit_traffic _ _).book.unplaced

@[simp] theorem unplaced_setFeltPort {k : Nat} {p : FeltPort} (s : State) :
    unplaced ln (setFeltPort k p s) = unplaced ln s := (setFeltPort_traffic _ _ _).book.unplaced

@[simp] theorem unplaced_hostWrite {a : Nat} {bs : List Byte} (s : State) :
    unplaced ln (hostWrite a bs s) = unplaced ln s := (hostWrite_traffic _ _ _).book.unplaced

@[simp] theorem unplaced_raise {n cause detail : Nat} (s : State) :
    unplaced ln (raise n cause detail s) = unplaced ln s := (raise_book _ _ _ _).unplaced

@[simp] theorem unplaced_finish {c : Cmd} {status percent result position : Nat} (s : State) :
    unplaced ln (finish c status percent result position s) = unplaced ln s := (finish_book _ _ _ _ _ _).unplaced

@[simp] theorem unplaced_finishOk {c : Cmd} {result position : Nat} (s : State) :
    unplaced ln (finishOk c result position s) = unplaced ln s := by simp [finishOk]

/-! ### Lanes -/

theorem unplaced_setLane_self (n : Nat) (l : Lane) (s : State) : unplaced n (setLane n l s) = { l with position := 0x3F } :=
  congrArg (fun x : Lane => { x with position := 0x3F }) (lane_setLane_self n l s)

theorem unplaced_setLane_other {m n : Nat} (l : Lane) (s : State) (h : n ≠ m) : unplaced n (setLane m l s) = unplaced n s :=
  congrArg (fun x : Option Lane => { x.getD (laneReset n) with position := 0x3F }) (tblFind_tblSet_other s.ing.lanes l h)

/-- Another position of a lane is all that may change of it. -/
theorem unplaced_setLane_position (m p : Nat) (s : State) :
    unplaced ln (setLane m { lane s m with position := p } s) = unplaced ln s := by
  by_cases h : ln = m
  · subst h
    exact unplaced_setLane_self ln _ s
  · exact unplaced_setLane_other _ s h

/-! ### Defect records -/

@[simp] theorem unplaced_knotUpd {f : Knot → Knot} (s : State) : unplaced ln (knotUpd f s) = unplaced ln s := by rfl

@[simp] theorem unplaced_couchUpd {f : Couch → Couch} (s : State) : unplaced ln (couchUpd f s) = unplaced ln s := by rfl

@[simp] theorem unplaced_histUpd {f : Hist → Hist} (s : State) : unplaced ln (histUpd f s) = unplaced ln s := by rfl

@[simp] theorem unplaced_ringDrop {src : Nat} {n : Nat} {r : Ring} {put : Ring → State → State}
    (hput : ∀ x u, unplaced ln (put x u) = unplaced ln u) (s : State) :
    unplaced ln (ringDrop src n r put s) = unplaced ln s := by simp [ringDrop, hput]

@[simp] theorem unplaced_putDq {n : Nat} {r : Ring} (s : State) : unplaced ln (putDq n r s) = unplaced ln s := by rfl

@[simp] theorem unplaced_putSr {n : Nat} {r : Ring} (s : State) : unplaced ln (putSr n r s) = unplaced ln s := by rfl

@[simp] theorem unplaced_formRec {r : RecFields} {tile : Option Nat} (s : State) :
    unplaced ln (formRec r tile s) = unplaced ln s := by
  simp only [formRec]
  split <;> simp

@[simp] theorem unplaced_blindBands {iv : BlindIv} {start len right : Int} {n : Nat} {left : Int} (s : State) :
    unplaced ln (blindBands iv start len right n left s) = unplaced ln s := by
  induction n generalizing left s with
  | zero => rfl
  | succ n ih => simp [blindBands, ih]

@[simp] theorem unplaced_blindPiece {iv : BlindIv} {start stop : Int} (s : State) :
    unplaced ln (blindPiece iv start stop s) = unplaced ln s := by
  simp only [blindPiece]
  repeat' split
  all_goals simp

@[simp] theorem unplaced_blindPieces {limit : Int} {n : Nat} {iv : BlindIv} (s : State) :
    unplaced ln (blindPieces limit n iv s).2 = unplaced ln s := by
  induction n generalizing iv s with
  | zero => rfl
  | succ n ih => simp [blindPieces, ih]

@[simp] theorem unplaced_blindOpen {kind source cause tag : Nat} {start : Int} (s : State) :
    unplaced ln (blindOpen kind source cause tag start s) = unplaced ln s := by rfl

@[simp] theorem unplaced_blindClose {source cause tag : Nat} {stop : Int} (s : State) :
    unplaced ln (blindClose source cause tag stop s) = unplaced ln s := by
  simp only [blindClose]
  split <;> simp

/-! ### Reels -/

@[simp] theorem unplaced_updReel {r : Nat} {f : Reel → Reel} (s : State) :
    unplaced ln (updReel r f s) = unplaced ln s := by rfl

@[simp] theorem unplaced_unitDeliver {r : Nat} {bytes : List Byte} (s : State) :
    unplaced ln (unitDeliver r bytes s) = unplaced ln s := by
  simp only [unitDeliver]
  split <;> simp

@[simp] theorem unplaced_unitClose {r : Nat} (s : State) : unplaced ln (unitClose r s) = unplaced ln s := by
  simp only [unitClose]
  split <;> simp

@[simp] theorem unplaced_unitAdd {r : Nat} {o : OutRow} (s : State) :
    unplaced ln (unitAdd r o s) = unplaced ln s := by simp [unitAdd]

@[simp] theorem unplaced_upStage {r : Nat} {d : DownRow} (s : State) :
    unplaced ln (upStage r d s) = unplaced ln s := by simp [upStage]

@[simp] theorem unplaced_groupClose {r : Nat} (s : State) : unplaced ln (groupClose r s) = unplaced ln s := by
  simp only [groupClose]
  split <;> simp

@[simp] theorem unplaced_reelTake {r : Nat} (s : State) : unplaced ln (reelTake r s) = unplaced ln s := by
  simp only [reelTake]
  split <;> simp

@[simp] theorem unplaced_reelDrain {r : Nat} {n : Nat} (s : State) : unplaced ln (reelDrain r n s) = unplaced ln s := by
  induction n generalizing s with
  | zero => rfl
  | succ n ih => simp [reelDrain, ih]

@[simp] theorem unplaced_upFlush {r : Nat} (s : State) : unplaced ln (upFlush r s) = unplaced ln s := by
  simp only [upFlush]
  split <;> simp

@[simp] theorem unplaced_reelFlush {r : Nat} (s : State) : unplaced ln (reelFlush r s) = unplaced ln s := by simp [reelFlush]

@[simp] theorem unplaced_reelBoundary {r : Nat} {lim : Option Nat} (s : State) :
    unplaced ln (reelBoundary r lim s) = unplaced ln s := by simp [reelBoundary]

@[simp] theorem unplaced_reelPush {r : Nat} {q : ReelIn} (s : State) : unplaced ln (reelPush r q s) = unplaced ln s := by rfl

@[simp] theorem unplaced_reelRaw {p : Nat} {num : Nat} {md : Int} {flags spp stripeTb : Nat} {samples : List Nat}
    (s : State) : unplaced ln (reelRaw p num md flags spp stripeTb samples s) = unplaced ln s := by simp [reelRaw]

@[simp] theorem unplaced_rawStops {p : Nat} (s : State) : unplaced ln (rawStops p s) = unplaced ln s := by simp [rawStops]

/-! ### Boundaries of couch, knotter and reels -/

@[simp] theorem unplaced_couchLaid {lim : Option Nat} (s : State) : unplaced ln (couchLaid lim s) = unplaced ln s := by rfl

@[simp] theorem unplaced_srcFresh {old : State} (s : State) :
    unplaced ln (srcFresh old s) = unplaced ln s := by simp [srcFresh]

@[simp] theorem unplaced_couchTake {lim : Option Nat} (s : State) :
    unplaced ln (couchTake lim s) = unplaced ln s := by simp [couchTake]

@[simp] theorem unplaced_thermMove {k : Nat} (s : State) : unplaced ln (thermMove k s) = unplaced ln s := by simp [thermMove]

@[simp] theorem unplaced_sliceTake {k : Nat} {lim : Option Nat} (s : State) :
    unplaced ln (sliceTake k lim s) = unplaced ln s := by simp [sliceTake]

@[simp] theorem unplaced_mergerLay {ok : Accepted → Bool} (s : State) :
    unplaced ln (mergerLay ok s) = unplaced ln s := by simp [mergerLay]

@[simp] theorem unplaced_mergerTake {lim : Option Nat} (s : State) :
    unplaced ln (mergerTake lim s) = unplaced ln s := by simp [mergerTake]

@[simp] theorem unplaced_slicesIdle (s : State) : unplaced ln (slicesIdle s) = unplaced ln s := by simp [slicesIdle]

@[simp] theorem unplaced_webTested (s : State) : unplaced ln (webTested s) = unplaced ln s := by simp [webTested]

@[simp] theorem unplaced_webStopped (s : State) : unplaced ln (webStopped s) = unplaced ln s := by simp [webStopped]

/-! ### Headboxes -/

@[simp] theorem unplaced_setPort {p : Nat} {x : Port} (s : State) : unplaced ln (setPort p x s) = unplaced ln s := by rfl

@[simp] theorem unplaced_updPort {p : Nat} {f : Port → Port} (s : State) :
    unplaced ln (updPort p f s) = unplaced ln s := by rfl

@[simp] theorem unplaced_setLink {r : Nat} {l : Link} (s : State) :
    unplaced ln (setLink r l s) = unplaced ln s := by simp [setLink]

@[simp] theorem unplaced_sendBlocks {r off : Nat} {follow : Bool} {lanes : List (List Block)} (s : State) :
    unplaced ln (sendBlocks r off follow lanes s) = unplaced ln s := by simp [sendBlocks]

@[simp] theorem unplaced_linkBlocks {r off w : Nat} {bs : List Block} (s : State) :
    unplaced ln (linkBlocks r off w bs s) = unplaced ln s := by simp [linkBlocks]

@[simp] theorem unplaced_linkPacketOn {r off w ptype : Nat} {payload : List Byte} (s : State) :
    unplaced ln (linkPacketOn r off w ptype payload s) = unplaced ln s := by simp [linkPacketOn]

@[simp] theorem unplaced_linkPacket {r ptype : Nat} {payload : List Byte} (s : State) :
    unplaced ln (linkPacket r ptype payload s) = unplaced ln s := by simp [linkPacket]

@[simp] theorem unplaced_truncate {p sid : Nat} (s : State) : unplaced ln (truncate p sid s) = unplaced ln s := by
  simp only [truncate]
  split <;> simp

@[simp] theorem unplaced_pipeLeave {p : Nat} {it : Item} (s : State) :
    unplaced ln (pipeLeave p it s) = unplaced ln s := by simp [pipeLeave]

@[simp] theorem unplaced_stripeSweep {p : Nat} (s : State) : unplaced ln (stripeSweep p s) = unplaced ln s := by rfl

@[simp] theorem unplaced_pipePump {p : Nat} {n : Nat} (s : State) : unplaced ln (pipePump p n s) = unplaced ln s := by
  induction n generalizing s with
  | zero => rfl
  | succ n ih =>
    simp only [pipePump]
    split
    · rfl
    · split <;> simp [ih]

@[simp] theorem unplaced_rawWrite {block off : Nat} {bs : List Byte} (s : State) :
    unplaced ln (rawWrite block off bs s) = unplaced ln s := by simp [rawWrite]

@[simp] theorem unplaced_rawBegin {p sid : Nat} (s : State) :
    unplaced ln (rawBegin p sid s) = unplaced ln s := by simp [rawBegin]

@[simp] theorem unplaced_rawClose {block : Nat} (s : State) : unplaced ln (rawClose block s) = unplaced ln s := by
  simp only [rawClose]
  split <;> simp

@[simp] theorem unplaced_releaseBank {p bank : Nat} (s : State) :
    unplaced ln (releaseBank p bank s) = unplaced ln s := by rfl

@[simp] theorem unplaced_layTables {p : Nat} {vals : Tbl Nat} (s : State) :
    unplaced ln (layTables p vals s) = unplaced ln s := by
  simp only [layTables]
  repeat' split
  all_goals simp

@[simp] theorem unplaced_layAll {vals : Tbl Nat} (s : State) : unplaced ln (layAll vals s) = unplaced ln s := by rfl

@[simp] theorem unplaced_dropParts {seq : W32} {gone : List (Nat × Nat)} {add : List (Nat × Nat)} (s : State) :
    unplaced ln (dropParts seq gone add s) = unplaced ln s := by rfl

@[simp] theorem unplaced_supersede {part : Nat × Nat} {vals : Tbl Nat} (s : State) :
    unplaced ln (supersede part vals s) = unplaced ln s := by rfl

@[simp] theorem unplaced_sendSetting {p seq : Nat} (s : State) :
    unplaced ln (sendSetting p seq s) = unplaced ln s := by simp [sendSetting]

/-- Positions are what a headbox forgets of its old lanes. -/
@[simp] theorem unplaced_forgetPositions {old : State} {p : Nat} (s : State) :
    unplaced ln (forgetPositions old p s) = unplaced ln s :=
  unplaced_foldl (fun u n => unplaced_setLane_position n 0x3F u) _ s

@[simp] theorem unplaced_bindFaults {p : Nat} (s : State) :
    unplaced ln (bindFaults p s) = unplaced ln s := by simp [bindFaults]

@[simp] theorem unplaced_unbind {old : State} {p : Nat} (s : State) :
    unplaced ln (unbind old p s) = unplaced ln s := by simp [unbind]

@[simp] theorem unplaced_portGroup {p : Nat} {g : Accepted} (s : State) :
    unplaced ln (portGroup p g s) = unplaced ln s := by
  simp only [portGroup]
  repeat' split
  all_goals simp

@[simp] theorem unplaced_portBoundary {p : Nat} (s : State) :
    unplaced ln (portBoundary p s) = unplaced ln s := by simp [portBoundary]

@[simp] theorem unplaced_settingsAt {p num : Nat} (s : State) :
    unplaced ln (settingsAt p num s).2 = unplaced ln s := by simp [settingsAt]

@[simp] theorem unplaced_writesSweep {p : Nat} (s : State) : unplaced ln (writesSweep p s) = unplaced ln s := by rfl

@[simp] theorem unplaced_plansTake (s : State) : unplaced ln (plansTake s) = unplaced ln s := by simp [plansTake]

@[simp] theorem unplaced_wireUntied {w : Nat} (s : State) : unplaced ln (wireUntied w s) = unplaced ln s := by rfl

@[simp] theorem unplaced_wiresTake (s : State) : unplaced ln (wiresTake s) = unplaced ln s := by simp [wiresTake]

@[simp] theorem unplaced_beginStripe {p : Nat} (s : State) :
    unplaced ln (beginStripe p s) = unplaced ln s := by simp [beginStripe]

@[simp] theorem unplaced_finishStops {blk p n : Nat} (s : State) :
    unplaced ln (finishStops blk p n s) = unplaced ln s := by simp [finishStops]

@[simp] theorem unplaced_landWrites {p : Nat} (s : State) :
    unplaced ln (landWrites p s) = unplaced ln s := by simp [landWrites]

@[simp] theorem unplaced_portHalt {p : Nat} (s : State) : unplaced ln (portHalt p s) = unplaced ln s := by simp [portHalt]

@[simp] theorem unplaced_rawSettle {p sid : Nat} (s : State) : unplaced ln (rawSettle p sid s) = unplaced ln s := by
  simp only [rawSettle]
  repeat' split
  all_goals simp

@[simp] theorem unplaced_closeStripe {p : Nat} {force : Bool} (s0 : State) :
    unplaced ln (closeStripe p force s0) = unplaced ln s0 := by
  simp only [closeStripe]
  split <;> simp

@[simp] theorem unplaced_countLine {p : Nat} {tb : Nat} {latch : Bool} {md : Int} {flags0 : Nat} {expected : Bool}
    {samples : Option (List Nat)} (s : State) :
    unplaced ln (countLine p tb latch md flags0 expected samples s) = unplaced ln s := by
  simp only [countLine]
  repeat' split
  all_goals simp

@[simp] theorem unplaced_countKinds {p : Nat} {bad short long_ : Bool} (s : State) :
    unplaced ln (countKinds p bad short long_ s) = unplaced ln s := by rfl

@[simp] theorem unplaced_countDue {p : Nat} {l : LineDue} (s : State) :
    unplaced ln (countDue p l s) = unplaced ln s := by
  simp only [countDue]
  split <;> simp

@[simp] theorem unplaced_lineCount {p : Nat} {l : LineDue} (s : State) :
    unplaced ln (lineCount p l s) = unplaced ln s := by simp [lineCount]

@[simp] theorem unplaced_dropPartial {p : Nat} (s : State) : unplaced ln (dropPartial p s) = unplaced ln s := by
  simp only [dropPartial]
  split <;> simp

/-! ### Brynlink links -/

@[simp] theorem unplaced_sendTrain {r : Nat} (s : State) : unplaced ln (sendTrain r s) = unplaced ln s := by simp [sendTrain]

@[simp] theorem unplaced_linkOut {r : Nat} (s : State) : unplaced ln (linkOut r s) = unplaced ln s := by simp [linkOut]

@[simp] theorem unplaced_linkRaise {r : Nat} (s : State) : unplaced ln (linkRaise r s) = unplaced ln s := by simp [linkRaise]

@[simp] theorem unplaced_linkTo {r st : Nat} (s : State) : unplaced ln (linkTo r st s) = unplaced ln s := by simp [linkTo]

@[simp] theorem unplaced_linkPoll {r : Nat} (s : State) : unplaced ln (linkPoll r s) = unplaced ln s := by
  simp only [linkPoll]
  repeat' split
  all_goals simp

@[simp] theorem unplaced_linkRequest {r w off : Nat} (s : State) :
    unplaced ln (linkRequest r w off s) = unplaced ln s := by simp [linkRequest]

@[simp] theorem unplaced_linkFault {r : Nat} {unlock : Bool} (s : State) :
    unplaced ln (linkFault r unlock s) = unplaced ln s := by
  simp only [linkFault]
  repeat' split
  all_goals simp

@[simp] theorem unplaced_linkLaneLost {r n pos : Nat} (s : State) :
    unplaced ln (linkLaneLost r n pos s) = unplaced ln s := by simp [linkLaneLost]

/-! ### Lanes that lose lock -/

@[simp] theorem unplaced_laneLost {n pos : Nat} (s : State) : unplaced ln (laneLost n pos s) = unplaced ln s := by
  simp only [laneLost]
  repeat' split
  all_goals simp

end

end Sys2Proof.Machine

/-! PROOFS. The log of what the device sends: a completion and what it runs take nothing out of it. -/

namespace Sys2Proof.Machine

section

variable {e : Emit} {s : State}

theorem sent_emit (x : Emit) (h : e ∈ s.sent) : e ∈ (emit x s).sent := List.mem_cons_of_mem x h

@[simp] theorem syncStamp_sent (q : FeltPacket) (s : State) : (syncStamp q s).2.sent = s.sent := by
  simp only [syncStamp]
  repeat' split
  all_goals rfl

theorem sent_feltPump (k n : Nat) (h : e ∈ s.sent) : e ∈ (feltPump k n s).sent := by
  induction n generalizing s with
  | zero => exact h
  | succ n ih =>
    simp only [feltPump]
    split
    · exact h
    · split
      · exact ih (sent_emit _ (by simpa using h))
      · exact h

theorem sent_feltTo (d t : Nat) (bs : List Byte) (h : e ∈ s.sent) : e ∈ (feltTo d t bs s).sent := by
  simp only [feltTo, feltRoute]
  split
  · split
    · exact sent_feltPump _ _ h
    · exact h
  · exact h

theorem sent_hwrSend (a : Nat) (cs : List (List Byte)) (h : e ∈ s.sent) : e ∈ (hwrSend a cs s).sent := by
  induction cs generalizing a s with
  | nil => exact h
  | cons c cs ih => exact ih _ (sent_feltTo _ _ _ h)

theorem sent_hostWrite (a : Nat) (bs : List Byte) (h : e ∈ s.sent) : e ∈ (hostWrite a bs s).sent := by
  simp only [hostWrite]
  split
  · exact sent_emit _ h
  · exact sent_hwrSend _ _ h

theorem sent_msixSend (v : Nat) (h : e ∈ s.sent) : e ∈ (msixSend v s).sent := by
  simp only [msixSend]
  split
  · split
    · exact h
    · exact sent_emit _ h
  · exact sent_feltTo _ _ _ h

theorem sent_evtRingWrite (r n c d : Nat) (h : e ∈ s.sent) : e ∈ (evtRingWrite r n c d s).sent := by
  simp only [evtRingWrite]
  split
  · exact h
  · split
    · exact sent_hostWrite _ _ h
    · exact h

theorem sent_raiseCore (met : Bool) (n c d : Nat) (h : e ∈ s.sent) : e ∈ (raiseCore met n c d s).sent := by
  have ring : e ∈ (if bitOf (routeOf s n) 16 then evtRingWrite (bits (routeOf s n) 10 6) n c d s else s).sent := by
    split
    · exact sent_evtRingWrite _ _ _ _ h
    · exact h
  rw [raiseCore]
  generalize (if bitOf (routeOf s n) 16 then evtRingWrite (bits (routeOf s n) 10 6) n c d s else s) = s1 at ring
  show e ∈ (if (bitOf (routeOf s n) 9 && (!pendBit s1 n || met)) = true then _ else _ : State).sent
  split
  · exact sent_msixSend _ ring
  · exact ring

@[simp] theorem logRaise_sent (n c d v : Nat) (s : State) : (logRaise n c d v s).sent = s.sent := by
  simp only [logRaise]
  repeat' split
  all_goals rfl

theorem sent_raise (n c d : Nat) (h : e ∈ s.sent) : e ∈ (raise n c d s).sent := by
  have core := sent_raiseCore false n c d h
  simp only [raise, raiseMet]
  split
  · exact core
  · split
    · rw [logRaise_sent]
      exact sent_raiseCore _ _ _ _ (by simpa using core)
    · rwa [logRaise_sent]

theorem sent_grpNotify (g : Nat) (h : e ∈ s.sent) : e ∈ (grpNotify g s).sent := sent_raise _ _ _ h

theorem sent_grpEval (g : Nat) (h : e ∈ s.sent) : e ∈ (grpEval g s).sent := by
  rw [grpEval]
  split
  · exact h
  · split
    · exact h
    · split
      · exact sent_grpNotify g h
      · split
        · exact sent_grpNotify g h
        · exact h

theorem sent_grpAdd (g : Option Nat) (n : Nat) (h : e ∈ s.sent) : e ∈ (grpAdd g n s).sent := by
  unfold grpAdd
  split
  · exact h
  · split
    · exact h
    · exact sent_grpEval _ h

theorem sent_writeCqe (sq : Nat) (tag : W32) (st pc rs ps : Nat) (i : Bool) (h : e ∈ s.sent) :
    e ∈ (writeCqe sq tag st pc rs ps i s).sent := by
  simp only [writeCqe]
  split
  · exact h
  · exact sent_grpAdd _ _ (sent_hostWrite _ _ h)

theorem sent_cplWrite (w : Waiting) (h : e ∈ s.sent) : e ∈ (cplWrite w s).sent := by
  simp only [cplWrite]
  split
  · exact sent_writeCqe _ _ _ _ _ _ _ h
  · exact sent_feltTo _ _ _ h
  · exact sent_feltTo _ _ _ h

@[simp] theorem slotDone_sent (c : Cmd) (st pc ps : Nat) (s : State) : (slotDone c st pc ps s).sent = s.sent := by
  simp only [slotDone]
  split <;> rfl

theorem sent_finishOnly (c : Cmd) (st pc rs ps : Nat) (h : e ∈ s.sent) : e ∈ (finishOnly c st pc rs ps s).sent := by
  simp only [finishOnly]
  generalize hs : slotDone c st pc ps _ = s2
  have h2 : e ∈ s2.sent := by simpa [← hs] using h
  split
  · exact sent_cplWrite _ h2
  · exact h2

@[simp] theorem removePair_sent (sq : Nat) (s : State) : (removePair sq s).sent = s.sent := by
  simp only [removePair, grpSettle]
  repeat' split
  all_goals rfl

theorem sent_settlePairs (n : Nat) (h : e ∈ s.sent) : e ∈ (settlePairs n s).sent := by
  induction n generalizing s with
  | zero => exact h
  | succ n ih =>
    simp only [settlePairs]
    split
    · exact h
    · split
      · exact ih (sent_finishOnly _ _ _ _ _ (by simpa using h))
      · exact ih (by simpa using h)

/-- A completion takes nothing out of the log of what is sent. -/
theorem sent_finish (c : Cmd) (st pc rs ps : Nat) (h : e ∈ s.sent) : e ∈ (finish c st pc rs ps s).sent :=
  sent_settlePairs _ (sent_finishOnly _ _ _ _ _ h)

end

end Sys2Proof.Machine

/-! PROOFS. Bring-up of a lane, state by state (R126, R129; Table 6.5), and its lock (R130). -/

namespace Sys2Proof.Machine

/-! ### A lane through bookkeeping -/

theorem BookOnly.lane {s t : State} (h : BookOnly s t) (n : Nat) : lane t n = lane s n :=
  congrArg (fun x : Ingest => (tblFind x.lanes n).getD (laneReset n)) h.ing

@[simp] theorem lane_raise (m n c d : Nat) (s : State) : lane (raise n c d s) m = lane s m := (raise_book n c d s).lane m

@[simp] theorem lane_finish (m : Nat) (c : Cmd) (st pc rs ps : Nat) (s : State) :
    lane (finish c st pc rs ps s) m = lane s m := (finish_book c st pc rs ps s).lane m

theorem beginWork_book (c : Cmd) (total : Nat) (s : State) : BookOnly s (beginWork c total s).2 := by
  simp only [beginWork]
  split
  · split <;> exact cmds_book _ s
  · exact cmds_book _ s

@[simp] theorem lane_beginWork (n : Nat) (c : Cmd) (total : Nat) (s : State) :
    lane (beginWork c total s).2 n = lane s n := (beginWork_book c total s).lane n

/-! ### Bring-up, state by state (Table 6.5) -/

section

variable {s : State} {n : Fin 80}

theorem execLaneSignalDetect_of_wait (hr : Ready s) (hon : lnOn s n = true) (h : (lane s n).st = 1)
    (hw : laneWaits (lane s n) = false) :
    execLaneSignalDetect n s = .next (setLane n { lane s n with
      st := 2, signal := true
      left1Ns := if (lane s n).unlockNs.isNone ∧ (lane s n).left1Ns.isNone then some s.clk.ns else (lane s n).left1Ns } s) := by
  rw [execLaneSignalDetect, whenReady_of_ready _ hr]
  simp [hon, h, hw]

theorem execLaneSignalDetect_elsewhere (hr : Ready s) (hon : lnOn s n = true) (h : (lane s n).st ≠ 1) :
    execLaneSignalDetect n s = .next (setLane n { lane s n with signal := true } s) := by
  rw [execLaneSignalDetect, whenReady_of_ready _ hr]
  simp [hon, h]

theorem execLaneCdrLock_of_recovery (hr : Ready s) (h : (lane s n).st = 2) :
    execLaneCdrLock n s = .next (setLane n { lane s n with st := 3, cdr := true } s) := by
  rw [execLaneCdrLock, whenReady_of_ready _ hr, if_pos h]

theorem execLaneCdrLock_of_test (hr : Ready s) (h : (lane s n).st = 7) :
    execLaneCdrLock n s = .next (setLane n { lane s n with cdr := true } s) := by
  rw [execLaneCdrLock, whenReady_of_ready _ hr]
  simp [h]

theorem execLaneEqDone_of_equalise (ctle : Fin 16) (hr : Ready s) (h : (lane s n).st = 3) :
    execLaneEqDone n ctle s = .next (setLane n { lane s n with
      st := 4
      ctle := if (lane s n).fromSeeds then max (lane s n).ctleMin (min (lane s n).ctleMax ctle) else (lane s n).ctle } s) := by
  rw [execLaneEqDone, whenReady_of_ready _ hr, if_pos h]

theorem execLaneAligned_of_align (hr : Ready s) (h : (lane s n).st = 4) :
    execLaneAligned n s = .next (setLane n { lane s n with
      st := 5, aligned := true, winBad := if ln66 s n then [] else (lane s n).winBad } s) := by
  rw [execLaneAligned, whenReady_of_ready _ hr, if_pos h]

theorem execLaneRelock_of_identify {rx : LaneWord} {inv : Bool} {id : Nat} (hr : Ready s) (h : (lane s n).st = 5)
    (hid : identify (ln66 s n) rx = some (inv, id)) : execLaneRelock n rx s = .next (laneLocks n inv id s) := by
  rw [execLaneRelock, whenReady_of_ready _ hr, if_pos h, hid]

end

/-! ### Taps (R126) -/

/-- A tap takes its step and is held at its limit. -/
theorem tapStep_fst (t : Int) (lim : Nat) (up down : Bool) :
    (tapStep t lim up down).1 =
      max (-(lim : Int)) (min (lim : Int) (t + if up && !down then 1 else if down && !up then -1 else 0)) := by
  simp only [tapStep]
  generalize t + (if up && !down then 1 else if down && !up then -1 else 0 : Int) = v
  split
  · simp only []
    omega
  · split <;> simp only [] <;> omega

/-- A tap that may not step yet keeps its value, within its limit. -/
theorem tapStep_fst_of_may (t : Int) (lim : Nat) (may up down : Bool) :
    (tapStep t lim (may && up) (may && down)).1 =
      max (-(lim : Int)) (min (lim : Int)
        (t + if !may then 0 else if up && !down then 1 else if down && !up then -1 else 0)) := by
  rw [tapStep_fst]
  cases may <;> simp

theorem execDfeAdaptStep_taps {s : State} {n : Fin 80} (up down : BitVec 5) (hr : Ready s) (h3 : 3 ≤ (lane s n).st)
    (h6 : (lane s n).st ≤ 6) :
    ∃ t, execDfeAdaptStep n up down s = .next t
      ∧ (lane t n).taps = (List.range 5).map fun k =>
          (tapStep ((lane s n).taps.getD k 0) ((lane s n).limits.getD k 0) (tapMay (lane s n) k s.clk.ns && up.getLsbD k)
            (tapMay (lane s n) k s.clk.ns && down.getLsbD k)).1 := by
  refine ⟨_, (whenReady_of_ready _ hr).trans (next_congr (if_pos ⟨h3, h6⟩)), ?_⟩
  dsimp only
  split <;> simp

/-! ### The lock -/

/-- The lane that a lock leaves, but for its position, whatever its link does next. -/
theorem unplaced_laneLocks (n : Nat) (inv : Bool) (id : Nat) (s : State) :
    unplaced n (laneLocks n inv id s) = { lane s n with
      st := 6, polInv := inv, position := 0x3F, firstLock := false, leftNs := none, unlockNs := none, left1Ns := none
      failNs := none, failNoted := false, seeded5 := false } := by
  simp only [laneLocks]
  split <;> simp [trainDone, unplaced_setLane_self]

/-- Settles O24: an equation per state of bring-up, the held step of a tap, and what a lock leaves of its lane. The lock holds for
every link, so the premise on a line in progress is not used. -/
theorem laneBringUp : Obligations.LaneBringUp := by
  intro s n hr
  refine ⟨fun hon h hw => ⟨_, execLaneSignalDetect_of_wait hr hon h hw, rfl⟩,
    fun hon h => execLaneSignalDetect_elsewhere hr hon h, fun h => execLaneCdrLock_of_recovery hr h,
    fun h => execLaneCdrLock_of_test hr h, fun ctle h => execLaneEqDone_of_equalise ctle hr h,
    fun h => execLaneAligned_of_align hr h, fun up down h3 h6 => ?_, fun rx inv id h hid => ?_⟩
  · obtain ⟨t, ht, taps⟩ := execDfeAdaptStep_taps up down hr h3 h6
    refine ⟨t, ht, taps.trans (List.map_congr_left fun k _ => ?_)⟩
    exact tapStep_fst_of_may _ _ _ _ _
  · have locks := unplaced_laneLocks n inv id s
    have row := execLaneRelock_of_identify hr h hid
    exact ⟨row, fun _ => ⟨_, row, congrArg Lane.st locks, congrArg Lane.polInv locks, congrArg Lane.firstLock locks,
      (congrArg Lane.unlocks locks :)⟩⟩

end Sys2Proof.Machine

/-! PROOFS. The timers of a lane out of lock (R132, R134), the sliding window over what it receives, and its unlock (R131). -/

namespace Sys2Proof.Machine

/-! ### Timers (R132, R134) -/

section

variable {s : State} {n : Fin 80} {t0 : Nat}

theorem execLaneRetrainTimeout_of_due (hr : Ready s) (h0 : (lane s n).unlockNs = some t0) (h1 : 1 ≤ (lane s n).st)
    (h5 : (lane s n).st ≤ 5) (hw : laneWaits (lane s n) = false) (ha : lnAuto s n = true)
    (hs : (lane s n).seeded5 = false) (hd : t0 + ms 5 ≤ s.clk.ns) :
    execLaneRetrainTimeout n s = .next (bringUpSeeds n (setLane n { lane s n with seeded5 := true } s)) := by
  rw [execLaneRetrainTimeout, whenReady_of_ready _ hr]
  simp [h0, h1, h5, hw, ha, hs, hd]

/-- A lane whose period of LOCK_FAIL has passed: the event goes out unless it has before, and AUTO_RETRAIN decides. -/
theorem execLockFail_of_due {s1 : State} (hr : Ready s) (h0 : failFrom (lane s n) = some t0) (h1 : 1 ≤ (lane s n).st)
    (h5 : (lane s n).st ≤ 5) (hw : laneWaits (lane s n) = false) (hd : t0 + ms 100 ≤ s.clk.ns)
    (hs : (if (lane s n).failNoted then s
      else raise n 0x04 (if (lane s n).unlockNs.isSome then (lane s n).reason else 0) s) = s1) :
    let l := { lane s n with failNoted := true, failNs := some s.clk.ns }
    execLockFail n s = .next (if lnAuto s n then bringUpSeeds n (setLane n l s1)
      else setLane n { restartLane s1 n false l with parked := true } s1) := by
  have same : lane s1 n = lane s n := by
    rw [← hs]
    split
    · rfl
    · exact lane_raise _ _ _ _ _
  have due : 1 ≤ (lane s n).st ∧ (lane s n).st ≤ 5 ∧ (!laneWaits (lane s n)) = true ∧ t0 + ms 100 ≤ s.clk.ns :=
    ⟨h1, h5, by simp [hw], hd⟩
  simp only [execLockFail, whenReady_of_ready _ hr, h0, if_pos due, hs, same]

theorem execLaneTrainTimeout_of_ready (hr : Ready s) :
    execLaneTrainTimeout n s = .next (((trainsOf s n).filter fun c => decide (c.startNs + ms 100 ≤ s.clk.ns)).foldl
      (fun s c => finishOk c (trainResult s n) 0 s) s) := whenReady_of_ready _ hr

end

/-! ### The sliding window of reason 3 (R131) -/

/-- A stretch of rising numbers that ends at or above `start` and lies within 64 meets the condition by its length. -/
theorem windowBad_of_stretch {limit start : Nat} {bad stretch : List Nat} (hsub : stretch.Sublist bad)
    (hspan : ∀ x ∈ stretch, ∀ y ∈ stretch, x < y + 64) (hrise : stretch.Pairwise (· < ·))
    (hlen : limit ≤ stretch.length) (hne : stretch ≠ []) (hstart : start ≤ stretch.getLast hne) :
    windowBad limit start bad = true := by
  have last := List.getLast_mem hne
  refine List.any_eq_true.mpr ⟨_, hsub.subset last, decide_eq_true ⟨hstart, Nat.le_trans hlen ?_⟩⟩
  have ends (x : Nat) (hx : x ∈ stretch) : x ≤ stretch.getLast hne := by
    obtain ⟨init, b, rfl⟩ : ∃ init b, stretch = init ++ [b] := ⟨_, _, (List.dropLast_concat_getLast hne).symm⟩
    obtain ⟨-, -, below⟩ := List.pairwise_append.mp hrise
    rw [List.getLast_concat]
    rcases List.mem_append.mp hx with hx | hx
    · exact Nat.le_of_lt (below x hx b (List.mem_singleton_self b))
    · exact Nat.le_of_eq (List.mem_singleton.mp hx)
  have all : stretch.filter (fun x => decide (x ≤ stretch.getLast hne ∧ stretch.getLast hne < x + 64)) = stretch :=
    List.filter_eq_self.mpr fun x hx => decide_eq_true ⟨ends x hx, hspan _ last x hx⟩
  calc stretch.length
    _ = (stretch.filter fun x => decide (x ≤ stretch.getLast hne ∧ stretch.getLast hne < x + 64)).length := by rw [all]
    _ ≤ _ := (hsub.filter _).length_le

/-- The numbers of the invalid ones among those received, which are counted from `start` on. -/
def numbersOf (start : Nat) (bad : List Bool) : List Nat := (bad.zipIdx.filter Prod.fst).map fun x => start + x.2

theorem windowNow_eq (s : State) (n : Nat) (bad : List Bool) :
    windowNow s n bad = (lane s n).winBad ++ numbersOf (windowFrom s n bad.length) bad := rfl

theorem numbersOf_eq_zipIdx (start : Nat) (bad : List Bool) :
    numbersOf start bad = ((bad.zipIdx start).filter Prod.fst).map Prod.snd := by
  rw [numbersOf, List.zipIdx_eq_map_add (l := bad) (i := start)]
  simp [List.filter_map, Function.comp_def]

theorem numbersOf_append (start : Nat) (xs ys : List Bool) :
    numbersOf start (xs ++ ys) = numbersOf start xs ++ numbersOf (start + xs.length) ys := by
  simp [numbersOf_eq_zipIdx, List.zipIdx_append]

theorem numbersOf_sublist (start : Nat) (bad : List Bool) : (numbersOf start bad).Sublist (List.range' start bad.length) := by
  rw [numbersOf_eq_zipIdx, ← List.zipIdx_map_snd start bad]
  exact List.filter_sublist.map _

theorem numbersOf_rising (start : Nat) (bad : List Bool) : (numbersOf start bad).Pairwise (· < ·) :=
  List.Pairwise.sublist (numbersOf_sublist start bad) List.pairwise_lt_range'

theorem mem_numbersOf {start x : Nat} {bad : List Bool} (h : x ∈ numbersOf start bad) :
    start ≤ x ∧ x < start + bad.length :=
  List.mem_range'_1.mp ((numbersOf_sublist start bad).subset h)

theorem numbersOf_length (start : Nat) (bad : List Bool) : (numbersOf start bad).length = bad.countP id := by
  induction bad generalizing start with
  | nil => rfl
  | cons b bad ih => cases b <;> simp_all [numbersOf_eq_zipIdx]

theorem unlockReason_of_window {s : State} {n : Nat} {bad : List Bool}
    (h : windowBad (if ln66 s n then 16 else 8) (windowFrom s n bad.length) (windowNow s n bad) = true) :
    unlockReason s n 3 bad = 3 := by
  simp [unlockReason, h]

theorem limit_pos (s : State) (n : Nat) : 0 < if ln66 s n then 16 else 8 := by
  split <;> decide

/-- Enough invalid ones among at most 64 consecutive ones told of are reason 3. -/
theorem unlockReason_of_told {s : State} {n : Nat} (pre post : List Bool) {mid : List Bool} (hm : mid.length ≤ 64)
    (hc : (if ln66 s n then 16 else 8) ≤ mid.countP id) : unlockReason s n 3 (pre ++ mid ++ post) = 3 := by
  let at_ := windowFrom s n (pre ++ mid ++ post).length
  have hlen := numbersOf_length (at_ + pre.length) mid
  have hne : numbersOf (at_ + pre.length) mid ≠ [] := by
    have := limit_pos s n
    exact List.ne_nil_of_length_pos (by omega)
  refine unlockReason_of_window (windowBad_of_stretch (stretch := numbersOf (at_ + pre.length) mid) ?_ ?_
    (numbersOf_rising _ _) (by rw [hlen]; exact hc) hne ?_)
  · rw [windowNow_eq, numbersOf_append, numbersOf_append]
    exact ((List.sublist_append_right _ _).trans (List.sublist_append_left _ _)).trans (List.sublist_append_right _ _)
  · intro x hx y hy
    have := mem_numbersOf hx
    have := mem_numbersOf hy
    omega
  · have := mem_numbersOf (List.getLast_mem hne)
    omega

/-- Enough invalid ones within 64, some of them told of now and the others kept, are reason 3. -/
theorem unlockReason_of_kept {s : State} {n : Nat} {bad kept new : List Nat} {l : List Bool}
    (hold : windowNow s n [] = bad ++ kept) (hspan : ∀ x ∈ kept ++ new, ∀ y ∈ kept ++ new, x < y + 64)
    (hrise : (kept ++ new).Pairwise (· < ·)) (hlen : (if ln66 s n then 16 else 8) ≤ (kept ++ new).length) (hne : new ≠ [])
    (hl : windowNow s n l = bad ++ kept ++ new) : unlockReason s n 3 l = 3 := by
  have told : numbersOf (windowFrom s n l.length) l = new := by
    have kept_eq : (lane s n).winBad = bad ++ kept := by simpa [windowNow] using hold
    rw [windowNow_eq, kept_eq] at hl
    exact List.append_cancel_left hl
  refine unlockReason_of_window (windowBad_of_stretch (stretch := kept ++ new) ?_ hspan hrise hlen (by simp [hne]) ?_)
  · rw [hl, List.append_assoc]
    exact List.sublist_append_right _ _
  · rw [List.getLast_append_of_ne_nil _ hne]
    have last : new.getLast hne ∈ numbersOf (windowFrom s n l.length) l := by
      rw [told]
      exact List.getLast_mem hne
    exact (mem_numbersOf last).1

/-! ### LANE_UNLOCK (R131) -/

/-- A locked lane that leaves lock counts it, whatever its port does about it. -/
theorem unlocks_leaveLocked {n : Nat} (why : Nat) {s : State} (h : (lane s n).st = 6) :
    (lane (leaveLocked n why s) n).unlocks = satAdd 32 (lane s n).unlocks 1 := by
  show (unplaced n (leaveLocked n why s)).unlocks = _
  rw [leaveLocked, if_pos h, unplaced_laneLost, unplaced_raise, unplaced_setLane_self]

theorem execLaneUnlock_of_stay {s : State} {n : Fin 80} (reason : Fin 4) (bad : List Bool) (hr : Ready s)
    (h : (lane s n).st ≠ 6 ∨ unlockReason s n reason bad = 0) :
    execLaneUnlock n reason bad s = .next (laneReceives n bad s) := by
  refine (whenReady_of_ready _ hr).trans (next_congr (if_neg ?_))
  simp only [laneReceives, lane_setLane_self]
  exact fun ⟨locked, why⟩ => h.elim (· locked) why

theorem execLaneUnlock_of_leave {s : State} {n : Fin 80} {reason : Fin 4} {bad : List Bool} (hr : Ready s)
    (h : (lane s n).st = 6) (hw : unlockReason s n reason bad ≠ 0) :
    ∃ t, execLaneUnlock n reason bad s = .next t ∧ (lane t n).st = 1 ∧ (lane t n).unlockNs = some s.clk.ns
      ∧ (lane t n).unlocks = satAdd 32 (lane s n).unlocks 1 := by
  have locked : (lane (laneReceives n bad s) n).st = 6 := by simp [laneReceives, h]
  have count := unlocks_leaveLocked (unlockReason s n reason bad) locked
  rw [laneReceives, lane_setLane_self] at count
  refine ⟨_, (whenReady_of_ready _ hr).trans (next_congr (if_pos ⟨locked, hw⟩)), ?_⟩
  dsimp only
  split <;> simp [bringUpResume, restartLane, laneReceives, count]

/-- Settles O25: an equation per timer, the window by the stretch that meets it, and what an unlock leaves of its lane. -/
theorem laneTimers : Obligations.LaneTimers := by
  intro s n hr
  refine ⟨fun t0 h0 h1 h5 hw ha hs hd => execLaneRetrainTimeout_of_due hr h0 h1 h5 hw ha hs hd,
    fun t0 h0 h1 h5 hw hd => ?_, fun reason bad h => ⟨_, execLaneUnlock_of_stay reason bad hr h⟩,
    fun reason bad h hw => execLaneUnlock_of_leave hr h hw, fun pre mid post hm hc => unlockReason_of_told pre post hm hc,
    fun bad kept new hold hspan hrise hlen hne l hl => unlockReason_of_kept hold hspan hrise hlen hne hl,
    execLaneTrainTimeout_of_ready hr⟩
  have row := execLockFail_of_due hr h0 h1 h5 hw hd rfl
  exact ⟨fun ha => row.trans (next_congr (if_pos ha)), fun ha => row.trans (next_congr (if_neg (by simp [ha])))⟩

end Sys2Proof.Machine

/-! PROOFS. LANE_TRAIN (R134), LANE_TEST and its generator (R136, R137), and the PRBS checker (R138). -/

namespace Sys2Proof.Machine

/-! ### LANE_TRAIN (R134) -/

section

variable {s : State} {c : Cmd}

theorem laneTrainStart_of_busy
    (h : 2 ≤ (lane s (pkInst c.packet)).st ∧ (lane s (pkInst c.packet)).st ≤ 5 ∨ (lane s (pkInst c.packet)).st = 7) :
    laneTrainStart c s = finish c stBusy 0 0 0 s := if_pos h

/-- Neither in bring-up nor in test. -/
theorem not_busy {l : Lane} (h : l.st ≤ 1 ∨ l.st = 6) : ¬ (2 ≤ l.st ∧ l.st ≤ 5 ∨ l.st = 7) := by omega

theorem laneTrainStart_of_off (h : (lane s (pkInst c.packet)).st ≤ 1 ∨ (lane s (pkInst c.packet)).st = 6)
    (hoff : lnOn s (pkInst c.packet) = false) : laneTrainStart c s = finish c stBadParam 0 0 0 s :=
  (if_neg (not_busy h)).trans (if_pos (by simp [hoff]))

/-- A lane that is on and neither in bring-up nor in test takes the mode. -/
theorem laneTrainStart_of_on (h : (lane s (pkInst c.packet)).st ≤ 1 ∨ (lane s (pkInst c.packet)).st = 6)
    (hon : lnOn s (pkInst c.packet) = true) :
    let n := pkInst c.packet
    let s1 := (beginWork c 0 s).2
    let free (u : State) : State := setLane n { lane u n with hold := false, parked := false } u
    laneTrainStart c s = if u8At c.packet 0x18 = 0 then bringUpSeeds n (free (freshTimers n (leaveLocked n 4 s1)))
      else if (lane s n).st = 6 then trainDone n (free s1) else bringUpResume n (free (freshTimers n s1)) :=
  (if_neg (not_busy h)).trans (if_neg (by simp [hon]))

end

/-! ### The generator (R136, R137) -/

theorem prbsTaps_pos (pat : Nat) : 0 < (prbsTaps pat).1 := by
  unfold prbsTaps
  split <;> decide

/-- The generator sends its pattern from a register that is no zero and has the pattern's degree. -/
theorem genStart_sends (n pat : Nat) (s : State) :
    ∃ reg, .lane n 1 [pat, reg] ∈ (genStart n pat s).sent ∧ 0 < reg ∧ reg < 2 ^ (prbsTaps pat).1 := by
  refine ⟨_, List.mem_cons_self .., by omega, ?_⟩
  have deg := Nat.one_lt_two_pow (Nat.ne_of_gt (prbsTaps_pos pat))
  have := Nat.mod_lt (Config.freeValue s.free) (Nat.sub_pos_of_lt deg)
  omega

theorem lane_genStart (n pat : Nat) (s : State) : ∃ reg ns,
    lane (genStart n pat s) n = { lane s n with genOn := true, genReg := reg, genNs := ns } :=
  ⟨_, _, lane_setLane_self n _ s⟩

/-- The lane goes into test with its checker as told; a generator that does not run on with the same pattern starts. -/
theorem testOn_eq (n pat : Nat) (gen chk : Bool) (s : State) :
    let runs := gen && decide ((lane s n).st = 7 ∧ (lane s n).pattern = pat) && (lane s n).genOn
    ∃ l u, testOn n pat gen chk s = (if gen && !runs then genStart n pat (setLane n l u) else setLane n l u)
      ∧ l.st = 7 ∧ l.pattern = pat ∧ l.genOn = runs ∧ l.chkOn = chk := by
  simp only [testOn]
  generalize (if (decide ((lane s n).st = 7 ∧ (lane s n).pattern = pat) && (lane s n).chkOn && chk) = true then
    leaveLocked n 6 s else _) = u
  cases chk && !(decide ((lane s n).st = 7) && (lane s n).chkOn)
  all_goals exact ⟨_, _, rfl, rfl, rfl, rfl, rfl⟩

/-- What LANE_TEST leaves on: state 7, the pattern, and each function that it turns on. -/
theorem lane_testOn (n pat : Nat) (gen chk : Bool) (s : State) :
    (lane (testOn n pat gen chk s) n).st = 7 ∧ (lane (testOn n pat gen chk s) n).pattern = pat
      ∧ (lane (testOn n pat gen chk s) n).genOn = gen ∧ (lane (testOn n pat gen chk s) n).chkOn = chk := by
  obtain ⟨l, u, h, st, pattern, runs, chk⟩ := testOn_eq n pat gen chk s
  rw [h]
  split
  · rename_i starts
    obtain ⟨reg, ns, started⟩ := lane_genStart n pat (setLane n l u)
    rw [started, lane_setLane_self]
    exact ⟨st, pattern, (Bool.and_eq_true_iff.mp starts).1.symm, chk⟩
  · rename_i off
    rw [lane_setLane_self]
    refine ⟨st, pattern, runs.trans ?_, chk⟩
    cases gen
    · rfl
    · simpa using off

/-- A generator that was off starts. -/
theorem testOn_sends {n : Nat} {s : State} (pat : Nat) (chk : Bool) (h : (lane s n).genOn = false) :
    ∃ reg, .lane n 1 [pat, reg] ∈ (testOn n pat true chk s).sent ∧ 0 < reg ∧ reg < 2 ^ (prbsTaps pat).1 := by
  obtain ⟨l, u, hu, -⟩ := testOn_eq n pat true chk s
  rw [hu, if_pos (by simp [h])]
  exact genStart_sends n pat _

/-! ### LANE_TEST (R137) -/

section

variable {s : State} {c : Cmd}

theorem laneTestStart_of_off (h : lnOn s (pkInst c.packet) = false) : laneTestStart c s = finish c stBadParam 0 0 0 s :=
  if_pos (.inl (by simp [h]))

theorem laneTestStart_of_nothing {c1 : Cmd} (hon : lnOn s (pkInst c.packet) = true) (ht : (lane s (pkInst c.packet)).st ≠ 7)
    (hp : u8At c.packet 0x18 = 0) (hi : u8At c.packet 0x1A = 0)
    (hf : (beginWork c 0 s).2.cmds.flight.find? (sameCmd c) = some c1) :
    laneTestStart c s = finish c1 stOk 100 0 0 (beginWork c 0 s).2 := by
  simp [laneTestStart, pm8, hon, ht, hp, hi, hf, finishOk]

/-- A LANE_TEST without injection that turns a function on, of a lane out of service: the completion leaves what the test made of
the lane and what it sent. -/
theorem laneTestStart_of_named (hon : lnOn s (pkInst c.packet) = true) (hs : laneInService s (pkInst c.packet) = false)
    (hp : u8At c.packet 0x18 ≠ 0) (hf : bitOf (u8At c.packet 0x19) 0 = true ∨ bitOf (u8At c.packet 0x19) 1 = true)
    (hi : u8At c.packet 0x1A = 0) :
    let u := testOn (pkInst c.packet) (u8At c.packet 0x18) (bitOf (u8At c.packet 0x19) 0 && ln66 s (pkInst c.packet))
      (bitOf (u8At c.packet 0x19) 1) (beginWork c 0 s).2
    lane (laneTestStart c s) (pkInst c.packet) = lane u (pkInst c.packet) ∧ ∀ e ∈ u.sent, e ∈ (laneTestStart c s).sent := by
  intro u
  simp only [laneTestStart, pm8, u, hon, hs, hp, hi, hf, ne_eq, not_false_eq_true, not_true_eq_false, decide_true,
    Bool.true_and, Bool.not_true, Bool.false_eq_true, false_and, or_self, Nat.reduceEqDiff, if_true, if_false]
  split
  · exact ⟨lane_finish _ _ _ _ _ _ _, fun e he => sent_finish _ _ _ _ _ he⟩
  · exact ⟨rfl, fun e he => he⟩

end

/-! ### The checker (R138) -/

section

variable {s : State} {n : Fin 80} {rx : List Bool}

theorem execPrbsSync_of_match {inv : Bool} {reg : Nat} (hr : Ready s) (ht : (lane s n).st = 7) (hc : (lane s n).chkOn = true)
    (hs : (lane s n).prbsSync = false) (hm : prbsMatches (lane s n).pattern rx = some (inv, reg)) :
    execPrbsSync n rx s = .next (setLane n { lane s n with
      prbsSync := true, prbsInv := inv, prbsSyncNs := s.clk.ns, chkReg := reg, chkPos := 0, chkDiffs := [] } s) := by
  rw [execPrbsSync, whenReady_of_ready _ hr]
  simp [ht, hc, hs, hm]

theorem execPrbsSync_of_no_match (hr : Ready s) (hm : prbsMatches (lane s n).pattern rx = none) :
    execPrbsSync n rx s = .next s := by
  rw [execPrbsSync, whenReady_of_ready _ hr]
  simp [hm]

theorem execPrbsSyncLoss_in_sync {r : PrbsRun} {e : Nat} {lost : Bool} (hr : Ready s) (ht : (lane s n).st = 7)
    (hc : (lane s n).chkOn = true) (hs : (lane s n).prbsSync = true)
    (hm : prbsCompare (lane s n).pattern (lane s n).prbsInv rx (prbsRunNow s n rx.length) = (r, e, lost)) :
    let l := { lane s n with prbsErr := satAdd 32 (lane s n).prbsErr e, chkReg := r.reg, chkPos := r.pos, chkDiffs := r.diffs }
    execPrbsSyncLoss n rx s = .next (if lost then raise n 0x07 0 (setLane n
        { l with prbsSync := false, prbsBits := ((lane s n).prbsBits + r.pos) % 2 ^ 64 } s)
      else setLane n l s) := by
  rw [execPrbsSyncLoss, whenReady_of_ready _ hr]
  simp [ht, hc, hs, hm]

end

/-- Settles O26: LANE_TRAIN and LANE_TEST by their starts, the checker by an equation per row. -/
theorem laneTestAndTrain : Obligations.LaneTestAndTrain := by
  refine ⟨fun s sq tag c h => ?_, fun s sq tag c h => ?_, fun s n rx hr ht hc => ⟨fun hs => ?_, fun hs r e lost hm => ?_⟩⟩
  · have row : exec (.laneTrain sq tag) s = .next (laneTrainStart c s) := opcodeRow_of_starts _ _ h
    refine ⟨fun hb => row.trans (next_congr (laneTrainStart_of_busy hb)),
      fun hi hoff => row.trans (next_congr (laneTrainStart_of_off hi hoff)), fun hi hon hm => ?_, fun hi hon hm => ?_,
      fun hi hon hm => ?_⟩
    · exact row.trans (next_congr ((laneTrainStart_of_on hi hon).trans (if_pos hm)))
    · exact row.trans (next_congr ((laneTrainStart_of_on (.inl hi) hon).trans ((if_neg hm).trans (if_neg (by omega)))))
    · exact row.trans (next_congr ((laneTrainStart_of_on (.inr hi) hon).trans ((if_neg hm).trans (if_pos hi))))
  · have row : exec (.laneTest sq tag) s = .next (laneTestStart c s) := opcodeRow_of_starts _ _ h
    refine ⟨fun hoff => row.trans (next_congr (laneTestStart_of_off hoff)),
      fun c1 hon ht hp hi hf => row.trans (next_congr (laneTestStart_of_nothing hon ht hp hi hf)),
      fun hon h66 hs hp hg hf hi => ?_, fun hon h66 hs hp hf hi => ⟨_, row, ?_⟩⟩
    · obtain ⟨same, sent⟩ := laneTestStart_of_named hon hs hp (.inl hf) hi
      rw [hf, h66] at same sent
      obtain ⟨st, pat, gen, -⟩ := lane_testOn (pkInst c.packet) (u8At c.packet 0x18) true (bitOf (u8At c.packet 0x19) 1)
        (beginWork c 0 s).2
      obtain ⟨reg, hreg, lo, hi⟩ := testOn_sends (u8At c.packet 0x18) (bitOf (u8At c.packet 0x19) 1)
        ((congrArg Lane.genOn (lane_beginWork (pkInst c.packet) c 0 s)).trans hg)
      exact ⟨_, reg, row, by rw [same]; exact st, by rw [same]; exact pat, by rw [same]; exact gen, sent _ hreg, lo, hi⟩
    · obtain ⟨same, -⟩ := laneTestStart_of_named hon hs hp hf hi
      rw [h66, Bool.and_false] at same
      rw [same]
      exact lane_testOn _ _ _ _ _
  · exact ⟨fun inv reg hm => execPrbsSync_of_match hr ht hc hs hm, fun hm => execPrbsSync_of_no_match hr hm⟩
  · have row := execPrbsSyncLoss_in_sync hr ht hc hs hm
    exact ⟨fun hl => row.trans (next_congr (if_neg (by simp [hl]))), fun hl => row.trans (next_congr (if_pos hl))⟩

end Sys2Proof.Machine

/-! PROOFS. Brynlink links: the scrambler and its inverse (R147), and the state machine of Table 7.6 by its events (R150,
R151). -/

namespace Sys2Proof.Machine

/-- A row that needs the device ready answers what its effect makes of the state. -/
theorem whenReady_next {s t : State} {f : State → State} (hr : Ready s) (h : f s = t) : whenReady f s = .next t :=
  (whenReady_of_ready f hr).trans (next_congr h)

/-- A row of the streaming path answers what its effect makes of the state. -/
theorem whenLive_next {s t : State} {f : State → State} (hl : Live s) (h : f s = t) : whenLive f s = .next t :=
  (whenLive_of_live f hl).trans (next_congr h)

/-! ### The scrambler (R147) -/

/-- The bit sent for a payload bit: the payload's with those sent 39 and 58 bits before it. -/
def sentBit (before word : Nat) : Nat := b2n (bitOf word 0 != (bitOf before 19 != bitOf before 0))

theorem sentBit_lt (before word : Nat) : sentBit before word < 2 := by
  rw [sentBit, b2n]
  split <;> decide

theorem scramble_succ (k before word : Nat) :
    scramble (k + 1) before word =
      sentBit before word + 2 * scramble k (before / 2 + sentBit before word * 2 ^ 57) (word / 2) := rfl

/-- The bits on a lane: those sent before stand below those sent for the payload. -/
def lineBits (k before word : Nat) : Nat := scramble k before word * 2 ^ 58 + before

theorem testBit_lineBits_low (k before word : Nat) {i : Nat} (hi : i < 58) :
    (lineBits k before word).testBit i = before.testBit i := by
  have low : lineBits k before word % 2 ^ 58 = before % 2 ^ 58 := by simp [lineBits]
  simpa only [Nat.testBit_mod_two_pow, hi, decide_true, Bool.true_and] using congrArg (Nat.testBit · i) low

/-- One bit further, a lane holds what it holds for the rest of the payload. -/
theorem lineBits_succ (k before word : Nat) :
    lineBits (k + 1) before word / 2 = lineBits k (before / 2 + sentBit before word * 2 ^ 57) (word / 2) := by
  rw [lineBits, lineBits, scramble_succ]
  omega

/-- Every bit sent is the payload's with those sent 39 and 58 bits before it. -/
theorem testBit_scramble {k i : Nat} (before word : Nat) (hi : i < k) :
    (scramble k before word).testBit i =
      (word.testBit i ^^ ((lineBits k before word).testBit (i + 19) ^^ (lineBits k before word).testBit i)) := by
  induction k generalizing before word i with
  | zero => omega
  | succ k ih =>
    cases i with
    | zero =>
      have bit (b : Bool) : decide (b2n b = 1) = b := by cases b <;> rfl
      rw [testBit_lineBits_low _ _ _ (by decide), testBit_lineBits_low _ _ _ (by decide), scramble_succ, Nat.testBit_zero,
        Nat.add_mul_mod_self_left, Nat.mod_eq_of_lt (sentBit_lt _ _), sentBit, bit]
      rfl
    | succ i =>
      have rest : scramble (k + 1) before word / 2 = scramble k (before / 2 + sentBit before word * 2 ^ 57) (word / 2) := by
        have := sentBit_lt before word
        rw [scramble_succ]
        omega
      rw [Nat.testBit_succ, rest, ih _ _ (Nat.lt_of_succ_lt_succ hi), ← lineBits_succ, Nat.testBit_div_two, Nat.testBit_div_two,
        Nat.testBit_div_two]

/-- Descrambling adds the same two bits again. -/
theorem descramble_scramble {before word : Nat} (hw : word < 2 ^ 64) : descramble before (scramble 64 before word) = word := by
  have twice (a b c : Bool) : ((a ^^ (b ^^ c)) ^^ b ^^ c) = a := by decide +revert
  refine Nat.eq_of_testBit_eq fun i => ?_
  rw [descramble, Nat.testBit_mod_two_pow]
  by_cases hi : i < 64
  · rw [Nat.testBit_xor, Nat.testBit_xor, Nat.testBit_div_two_pow, testBit_scramble before word hi, decide_eq_true hi,
      Bool.true_and]
    exact twice _ _ _
  · have above : word < 2 ^ i := Nat.lt_of_lt_of_le hw (Nat.pow_le_pow_right (by decide) (Nat.le_of_not_lt hi))
    rw [decide_eq_false hi, Bool.false_and, Nat.testBit_lt_two_pow above]

/-! ### The state machine by its events (Table 7.6) -/

section

variable {s : State} {r : Nat}

theorem linkTrain_of_set {bs : List (List Byte)} (h : (link s r).st = 1) (ht : trainSet (link s r) bs = true)
    (hg : groupLocked s r (link s r).laneOff (link s r).widthNow = true) : linkTrain r bs s = linkTo r 2 s :=
  if_pos ⟨h, ht, hg⟩

theorem linkFault_without_unlock (h : (link s r).st = 3) : linkFault r false s = linkTo r 5 s := by
  simp [linkFault, h]

section Am

variable {bs : List (List Byte)} {n skew : Nat}

theorem linkAm_of_first (h : (link s r).st = 2) (hs : skew ≤ 32) (ha : amSet (link s r) bs = some n)
    (hc : (link s r).amCount = none) : linkAm r bs skew s = setLink r { link s r with amCount := some n } s := by
  simp [linkAm, h, hs, ha, hc]

theorem linkAm_of_next {k : Nat} (h : (link s r).st = 2) (hs : skew ≤ 32) (ha : amSet (link s r) bs = some n)
    (hc : (link s r).amCount = some k) (hk : n = (k + 1) % 2 ^ 32) : linkAm r bs skew s = linkActive r s := by
  simp [linkAm, h, hs, ha, hc, hk]

theorem linkAm_in_active (h : (link s r).st = 3) (hs : skew ≤ 32) (ha : amSet (link s r) bs = some n) :
    linkAm r bs skew s = setLink r { link s r with amCount := some n } s := by
  simp [linkAm, h, ha, hs]

theorem linkAm_of_bad (h : (link s r).st = 3) (hb : amSet (link s r) bs = none ∨ 32 < skew) :
    linkAm r bs skew s = linkTo r 5 s := by
  have bad : ((amSet (link s r) bs).isSome && decide (skew ≤ 32)) = false := by
    rcases hb with ha | hs
    · simp [ha]
    · simp [hs]
  simp [linkAm, h, bad, linkFault_without_unlock h]

end Am

/-- When its time has come, the AM block of each lane in use goes out. -/
theorem linkAmSend_of_due (h : (link s r).st ≠ 0) (hd : (link s r).amNext ≤ 100 * s.clk.ns) :
    ∃ j follow, linkAmSend r s = sendBlocks r (link s r).laneOff follow
      ((List.range (link s r).widthNow).map fun i => [amBlock ((link s r).laneOff + i) (link s r).amSent])
      (setLink r { link s r with
        amSent := ((link s r).amSent + 1) % 2 ^ 32, amNext := (link s r).amNext + 4194304, txAt := j } s) :=
  ⟨_, _, if_pos ⟨h, hd⟩⟩

section Timeout

variable (hd : (link s r).ns + 100000 ≤ s.clk.ns)
include hd

theorem linkTimeout_of_prev {w o : Nat} (h : (link s r).st = 1 ∨ (link s r).st = 2) (hp : (link s r).prev = some (w, o)) :
    linkTimeout r s = linkTo r 5 (setLink r { link s r with
      widthNow := w, laneOff := o, prev := none, fullFailNs := some s.clk.ns, reqWidth := none } s) := by
  have due : ((link s r).st = 1 ∨ (link s r).st = 2 ∨ (link s r).st = 4) ∧ (link s r).ns + us 100 ≤ s.clk.ns :=
    ⟨by omega, hd⟩
  simp only [linkTimeout, if_pos due, hp]

theorem linkTimeout_without_prev (h : (link s r).st = 1 ∨ (link s r).st = 2) (hp : (link s r).prev = none) :
    linkTimeout r s = linkTo r 5 (setLink r { link s r with reqWidth := none } s) := by
  have due : ((link s r).st = 1 ∨ (link s r).st = 2 ∨ (link s r).st = 4) ∧ (link s r).ns + us 100 ≤ s.clk.ns :=
    ⟨by omega, hd⟩
  have idle : (link s r).st ≠ 4 := by omega
  simp only [linkTimeout, if_pos due, hp]
  cases (link s r).reqWidth <;> simp [idle]

/-- A width request that is not answered: one for more lanes counts as failed. -/
theorem linkTimeout_of_request {w : Nat} (h : (link s r).st = 4) (hp : (link s r).prev = none)
    (hw : (link s r).reqWidth = some w) :
    linkTimeout r s = linkTo r 5 (setLink r { link s r with
      reqWidth := none
      fullFailNs := if (link s r).widthNow < w then some s.clk.ns else (link s r).fullFailNs } s) := by
  have due : ((link s r).st = 1 ∨ (link s r).st = 2 ∨ (link s r).st = 4) ∧ (link s r).ns + us 100 ≤ s.clk.ns :=
    ⟨by omega, hd⟩
  simp only [linkTimeout, if_pos due, hp, hw]
  simp [h]

end Timeout

theorem linkRecovered_of_due (h : (link s r).st = 5) (hd : (link s r).ns + 10000 ≤ s.clk.ns) :
    linkRecovered r s = linkPoll r (linkTo r 0 s) := if_pos ⟨h, hd⟩

end

theorem execLinkFault_without_unlock {s : State} {r : LinkRef} (hr : Ready s) (h : (link s (refNum r)).st = 3) :
    execLinkFault r false s = .next (linkTo (refNum r) 5 s) := whenReady_next hr (linkFault_without_unlock h)

/-- Settles O27: an equation per event of the state machine, and the scrambler bit by bit. -/
theorem linkComesUp : Obligations.LinkComesUp := by
  refine ⟨fun s r hr => ⟨fun bs h ht hg => ?_, fun bs n skew h hs ha => ⟨fun hc => ?_, fun k hc hk => ?_⟩,
    fun bs n skew h hs ha => ?_, fun bs skew h hb => ?_, fun h hd => ?_, fun h => execLinkFault_without_unlock hr h,
    fun h hd => ⟨fun hp => ?_, fun w o hp => ?_⟩, fun w h hd hp hw => ?_, fun h hd => ?_⟩,
    fun before word _ hw => descramble_scramble hw⟩
  · exact whenReady_next hr (linkTrain_of_set h ht hg)
  · exact whenReady_next hr (linkAm_of_first h hs ha hc)
  · exact whenReady_next hr (linkAm_of_next h hs ha hc hk)
  · exact whenReady_next hr (linkAm_in_active h hs ha)
  · exact whenReady_next hr (linkAm_of_bad h hb)
  · obtain ⟨j, follow, sent⟩ := linkAmSend_of_due h hd
    exact ⟨j, follow, whenReady_next hr sent⟩
  · exact whenReady_next hr (linkTimeout_without_prev hd h hp)
  · exact whenReady_next hr (linkTimeout_of_prev hd h hp)
  · exact whenReady_next hr (linkTimeout_of_request hd h hp hw)
  · exact whenReady_next hr (linkRecovered_of_due h hd)

end Sys2Proof.Machine

/-! PROOFS. Brynlink links: widths by request and acknowledgement (R152, R406), and credits (R149, R412). -/

namespace Sys2Proof.Machine

/-! ### Widths (R152, R406) -/

section

variable {s : State} {r : Nat}

theorem linkWidthAck_of_echo {w mask : Nat} (h : (link s r).st = 4) (hw : (link s r).reqWidth = some w)
    (hm : mask = laneMask w (link s r).reqOff) :
    linkWidthAck r w mask s = linkTo r 1 (setLink r { link s r with
      prev := if (link s r).widthNow < w then some ((link s r).widthNow, (link s r).laneOff) else none
      widthNow := w, laneOff := (link s r).reqOff, reqWidth := none } s) :=
  if_pos ⟨h, hw, hm⟩

theorem linkFullWidth_of_due {t0 : Nat} (h : (link s r).st = 3) (hw : (link s r).widthNow < linkFull s r)
    (hs : (link s r).fullSince = some t0) (hd : t0 + 1000000000 ≤ s.clk.ns)
    (hf : ∀ f, (link s r).fullFailNs = some f → f + 10000000000 ≤ s.clk.ns) :
    linkFullWidth r s = linkRequest r (linkFull s r) 0 s := by
  have since : t0 + sec 1 ≤ s.clk.ns := hd
  cases hn : (link s r).fullFailNs with
  | none => simp [linkFullWidth, h, hw, hs, since, hn]
  | some f =>
    have again : f + sec 10 ≤ s.clk.ns := hf f hn
    simp [linkFullWidth, h, hw, hs, since, hn, again]

end

/-- The aligned groups of the lanes of a felt port: offset and width (R406). -/
def feltGroups : List (Nat × Nat) := [(0, 1), (1, 1), (2, 1), (3, 1), (0, 2), (2, 2), (0, 4)]

/-- The mask of an aligned group tells its offset. -/
theorem offset_of_laneMask : ∀ g ∈ feltGroups,
    (List.range 4).find? (fun o => decide (laneMask g.2 g.1 = laneMask g.2 o ∧ o % max 1 g.2 = 0)) = some g.1
      ∧ [1, 2, 4].contains g.2 = true ∧ g.1 + g.2 ≤ 4 := by decide

theorem linkWidthReq_of_allowed {s : State} {r o w : Nat} (h : (link s r).st = 3) (hg : (o, w) ∈ feltGroups)
    (hm : linkMin s r ≤ w) :
    let s1 := linkPacketOn r o w pkWidthAck (widthPayload w (laneMask w o)) s
    linkWidthReq r w (laneMask w o) s = linkTo r 1 (setLink r { link s1 r with widthNow := w, laneOff := o } s1) := by
  obtain ⟨found, width, fits⟩ := offset_of_laneMask (o, w) hg
  simp only [linkWidthReq, found]
  exact if_pos ⟨h, width, hm, fits⟩

/-- A felt port's link by its number. -/
theorem link_felt (s : State) (k : Fin 4) : link s (64 + k) = (feltPort s k).link := by
  rw [link, if_neg (by omega), Nat.add_sub_cancel_left]

section

variable {s : State}

/-- A felt port takes a sound acknowledgement. -/
theorem execWidthAck_of_felt {r : LinkRef} {pkt : BrynPacket} {payload : List Byte} (hr : Ready s)
    (h : (link s (refNum r)).st = 4) (hf : 32 ≤ refNum r) (hp : packetSound pkt payload = true) (ht : pkt.ptype = 0x07) :
    execWidthAck r pkt payload s = .next (linkWidthAck (refNum r) (u8At payload 0) (u8At payload 1) s) := by
  refine whenReady_next hr ?_
  simp [h, hp, ht, Nat.not_lt.mpr hf]

theorem execWidthAck_of_headbox {r : LinkRef} {pkt : BrynPacket} {payload : List Byte} {s1 : State} (hr : Ready s)
    (h : (link s (refNum r)).st = 4) (hb : refNum r < 32) (hp : packetIn (refNum r) pkt 0x07 payload s = (.taken, s1)) :
    execWidthAck r pkt payload s = .next (linkWidthAck (refNum r) (u8At payload 0) (u8At payload 1) s1) := by
  refine whenReady_next hr ?_
  simp [h, hb, hp]

theorem execWidthReq_of_sound {k : Fin 4} {pkt : BrynPacket} {payload : List Byte} (hr : Ready s)
    (hp : packetSound pkt payload = true) (ht : pkt.ptype = 0x06) :
    execWidthReq k pkt payload s = .next (linkWidthReq (64 + k) (u8At payload 0) (u8At payload 1) s) :=
  whenReady_next hr (if_pos ⟨hp, ht⟩)

/-! ### Credits (R149, R412) -/

theorem linkCredit_of_due {r : Nat} (h : (link s r).st = 3) (hf : (link s r).freed ≠ 0)
    (hd : 16 ≤ (link s r).freed ∨ (link s r).freedNs + 1000 ≤ s.clk.ns) :
    linkCredit r s = linkPacket r pkCredit (leBytes 4 (((link s r).granted + (link s r).freed) % 2 ^ 32))
      (setLink r { link s r with granted := ((link s r).granted + (link s r).freed) % 2 ^ 32, freed := 0 } s) :=
  if_pos ⟨h, hf, hd⟩

theorem execCreditGrantReceived_of_sound {k : Fin 4} {pkt : BrynPacket} {payload : List Byte} (hr : Ready s)
    (h : (feltPort s k).link.st = 3) (hp : packetSound pkt payload = true) (ht : pkt.ptype = 0x02) :
    execCreditGrantReceived k pkt payload s = .next (holdFlush (feltPump k ((feltPort s k).queue.length + 1)
      (setFeltPort k { (feltPort s k) with link := { (feltPort s k).link with
        credit := (feltPort s k).link.credit + (u32At payload 0 + 2 ^ 32 - (feltPort s k).link.grantIn) % 2 ^ 32
        grantIn := u32At payload 0 } } s))) :=
  whenReady_next hr (if_pos ⟨h, hp, ht⟩)

end

/-- Settles O28: a width by its request and its echo, and credits by their grant. -/
theorem linkWidthAndCredit : Obligations.LinkWidthAndCredit := by
  refine ⟨fun s r hr => ⟨fun pkt payload w h hq hw hm hp ht hf => ?_,
    fun pkt payload s1 h hb hp => execWidthAck_of_headbox hr h hb hp, fun t0 h hw hs hd hf => ?_, fun h hf hd => ?_⟩,
    fun s k pkt payload hr h hp => ⟨fun o w ht hg hm hw hmask => ?_,
      fun ht => execCreditGrantReceived_of_sound hr h hp ht⟩⟩
  · subst hw
    exact (execWidthAck_of_felt hr h hf hp ht).trans (next_congr (linkWidthAck_of_echo h hq hm))
  · exact whenReady_next hr (linkFullWidth_of_due h hw hs hd hf)
  · exact whenReady_next hr (linkCredit_of_due h hf hd)
  · have active : (link s (64 + k)).st = 3 := (congrArg Link.st (link_felt s k)).trans h
    have row := execWidthReq_of_sound (k := k) hr hp ht
    rw [hw, hmask] at row
    exact row.trans (next_congr (linkWidthReq_of_allowed active hg hm))

end Sys2Proof.Machine

/-! PROOFS. Lines at a headbox by their packets (R144, R148, R149, R154, R156), and what a camera acknowledges (R145, R160). -/

namespace Sys2Proof.Machine

/-! ### Packets of a Brynlink headbox (R148, R149) -/

/-- A change of the rest of a headbox leaves its link. -/
theorem link_updPort {p : Nat} {f : Port → Port} (hf : ∀ x, (f x).link = x.link) (s : State) :
    link (updPort p f s) p = link s p := by
  simp only [link]
  split
  · rw [port_updPort_self, hf]
  · rfl

/-- A packet in sequence and within credit that is not wanted is discarded, and its credits are free. -/
theorem packetIn_of_other {s : State} {p want : Nat} {k : BrynPacket} (payload : List Byte) (hs : k.seq.toNat = (port s p).rxSeq)
    (ho : linkOver s p k.len.toNat = false)
    (hk : k.ptype.toNat ≠ want ∨ k.stream.toNat ≠ cf s 0x02 p 0x37 ∨ 16384 < k.len.toNat) :
    packetIn p k want payload s = (.discarded, updPort p (fun x => { x with discard := satAdd 32 x.discard 1 })
      (linkFree p k.len.toNat (updPort p (fun x => { x with rxSeq := (k.seq.toNat + 1) % 65536 }) s))) := by
  have same : link (updPort p (fun x => { x with rxSeq := (k.seq.toNat + 1) % 65536 }) s) p = link s p :=
    link_updPort (by intro x; rfl) s
  have within : linkOver (updPort p (fun x => { x with rxSeq := (k.seq.toNat + 1) % 65536 }) s) p k.len.toNat = false := by
    rw [← ho, linkOver, linkOver, same]
  have ordered : decide (k.seq.toNat ≠ (port s p).rxSeq) = false := decide_eq_false (not_not_intro hs)
  simp only [packetIn, ordered, Bool.false_eq_true, if_false, within, if_pos hk]

theorem enterLine_of_first {s : State} {p : Nat} (seq : Option Nat) (h : (port s p).part = none) :
    enterLine p true seq s = openLine p seq s := by
  simp [enterLine, h]

section

variable {s s1 : State} {p : Fin 32} {k : BrynPacket} {payload : List Byte}

theorem execLineData_of_discarded (hl : Live s) (hb : hbProto s p = 2) (h : (link s p).st = 3)
    (hp : packetIn p k 0x01 payload s = (.discarded, s1)) : execLineData p k payload s = .next s1 := by
  refine whenLive_next hl ?_
  simp [hb, h, hp]

/-- A packet that is a whole line opens it, fills or spoils it and ends it. -/
theorem execLineData_of_whole {a : Arrival} (hl : Live s) (hb : hbProto s p = 2) (h : (link s p).st = 3)
    (hp : packetIn p k 0x01 payload s = (a, s1)) (ha : a ≠ .discarded) (hr : (port s1 p).running = true)
    (hc : (port s1 p).cur ≠ none) (ho : portOut s1 p = false) (hn : (port s1 p).part = none)
    (hf : (lineHeader payload).first = true) (he : (lineHeader payload).last = true) :
    let s2 := openLine p (some (lineHeader payload).trigSeq) s1
    execLineData p k payload s = .next (endLine p
      (if a = .taken then addFragment p (payload.drop 16) (lineHeader payload).offset s2 else spoilLine p s2)) := by
  refine whenLive_next hl ?_
  simp [hb, h, hp, ha, hr, hc, ho, hf, he, enterLine_of_first _ hn]

theorem execRegAck_of_taken (hl : Live s) (hb : hbProto s p = 2) (h : (link s p).st = 3)
    (hp : packetIn p k 0x05 payload s = (.taken, s1)) :
    execRegAck p k payload s = .next (settingAck p (u16At payload 0) (u16At payload 2) s1) := by
  refine whenLive_next hl ?_
  simp [hb, h, hp]

theorem execLineTimeout_of_due {l : Partial} (hl : Live s) (h : (port s p).part = some l)
    (hd : l.firstNs + 1000 * cf s 0x02 p 0x3A ≤ s.clk.ns) : execLineTimeout p s = .next (endLine p s) := by
  have due : l.firstNs + us (cf s 0x02 p 0x3A) ≤ s.clk.ns := by rwa [us, Nat.mul_comm]
  exact whenLive_next hl (by simp [h, due])

end

/-! ### CoaXPress packets (R144) -/

section

variable {s : State} {p : Fin 32} {conn : Fin 4} {k : CxpPacket}

theorem execCxpStreamPacket_of_other (hl : Live s) (hb : hbProto s p = 1) (hr : (port s p).running = true)
    (hc : conn.val < hbWidth s p) (hk : k.supported = false ∨ k.stream.toNat ≠ cf s 0x02 p 0x36) :
    execCxpStreamPacket p conn k s = .next (updPort p (fun x => { x with discard := satAdd 32 x.discard 1 }) s) :=
  whenLive_next hl ((if_neg (by simp [hb, hr, hc])).trans (if_pos (by simpa using hk)))

/-- A packet that is a whole row opens a line, gives it its samples and ends it. -/
theorem execCxpStreamPacket_of_whole {s1 : State} (hl : Live s) (hb : hbProto s p = 1) (hr : (port s p).running = true)
    (hc : conn.val < hbWidth s p) (hk : k.supported = true) (hs : k.stream.toNat = cf s 0x02 p 0x36)
    (hlock : laneLocked s (hbBase s p + conn.val) = true)
    (h1 : s1 = updPort p (fun x => { x with quiet := x.quiet.filter fun m => m ≠ hbBase s p + conn.val }) s)
    (hcur : (port s1 p).cur ≠ none) (ho : portOut s1 p = false) (hn : (port s1 p).part = none) (hf : k.first = true)
    (he : k.last = true) (hg : k.good = true) (hfmt : k.format.toNat = hbFormat s p) :
    execCxpStreamPacket p conn k s = .next (endLine p
      (updPort p (fun x => { x with part := x.part.map fun l => { l with samples := l.samples ++ k.samples } })
        (openLine p none s1))) := by
  refine whenLive_next hl ((if_neg (by simp [hb, hr, hc])).trans ((if_neg (by simp [hk, hs])).trans ?_))
  simp only [hlock, if_true, ← h1]
  simp [hcur, ho, hf, he, hg, hfmt, enterLine_of_first none hn]

end

/-! ### Discovery (R145) -/

/-- IDs that name the connections of a width, each once, leave no position at fault. -/
theorem no_connection_at_fault {ids : List Nat} {w : Nat} (hw : w ≤ ids.length) (hi : ∀ i ∈ ids.take w, i < w)
    (hn : ids.Nodup) : (List.range w).find? (fun i => decide (w ≤ (ids.take w).getD i 0x3F) ||
      ((ids.take w).take i).contains ((ids.take w).getD i 0x3F)) = none := by
  refine List.find?_eq_none.mpr fun i hr => ?_
  have hlt : i < (ids.take w).length := by
    have := List.mem_range.mp hr
    rw [List.length_take]
    omega
  have once : (ids.take w)[i] ∉ (ids.take w).take i := by
    have distinct := hn.sublist (List.take_sublist w ids)
    rw [← List.take_append_drop i (ids.take w)] at distinct
    obtain ⟨-, -, apart⟩ := List.nodup_append.mp distinct
    have rest : (ids.take w)[i] ∈ (ids.take w).drop i := by
      rw [List.drop_eq_getElem_cons hlt]
      exact List.mem_cons_self
    exact fun before => apart _ before _ rest rfl
  have small := hi _ (List.getElem_mem hlt)
  rw [List.getD_eq_getElem?_getD, List.getElem?_eq_getElem hlt, Option.getD_some, Bool.or_eq_true, decide_eq_true_eq,
    List.contains_iff_mem]
  exact not_or.mpr ⟨Nat.not_le.mpr small, once⟩

/-- What every step of a fold leaves, the fold leaves. -/
theorem foldl_keeps {α β : Type} {g : State → β} {f : State → α → State} (h : ∀ u x, g (f u x) = g u)
    (l : List α) (s : State) : g (l.foldl f s) = g s := by
  induction l generalizing s with
  | nil => rfl
  | cons x l ih => exact (ih _).trans (h _ _)

/-- Each connection's lane takes the position that its ID gives. -/
def placeLanes (p : Nat) (pos : List Nat) (w : Nat) (s : State) : State :=
  (List.range w).foldl (fun s i =>
    setLane (hbBase s p + i) { lane s (hbBase s p + i) with position := (pos.getD i 0x3F) % 64 } s) s

theorem placeLanes_cfg (p : Nat) (pos : List Nat) (w : Nat) (s : State) : (placeLanes p pos w s).cfg = s.cfg :=
  foldl_keeps (g := State.cfg) (by intro u i; rfl) _ s

theorem placeLanes_sent (p : Nat) (pos : List Nat) (w : Nat) (s : State) : (placeLanes p pos w s).sent = s.sent :=
  foldl_keeps (g := State.sent) (by intro u i; rfl) _ s

/-- A field in force depends on the configuration alone. -/
theorem cf_of_cfg {s t : State} (h : t.cfg = s.cfg) (blk inst off : Nat) : cf t blk inst off = cf s blk inst off := by
  simp only [cf, cfAt, h]

/-! ### Control acknowledgements (R145, R160) -/

section

variable {s : State} {p : Fin 32}

theorem execCxpControlAck_of_write (tag st : BitVec 16) (hl : Live s) (hb : hbProto s p = 1) :
    execCxpControlAck p (.write tag st) s = .next (settingAck p tag.toNat st.toNat s) :=
  whenLive_next hl (if_neg (by simp [hb]))

theorem execCxpControlAck_of_io (hl : Live s) (hb : hbProto s p = 1) :
    execCxpControlAck p .io s = .next (updPort p (fun x => { x with trigOut := x.trigOut - 1 }) s) :=
  whenLive_next hl (if_neg (by simp [hb]))

section Discovery

variable (hl : Live s) (hb : hbProto s p = 1) (hr : (port s p).running = true) (hd : (port s p).discovered = false)
  (hf : (port s p).discRetry = false)
include hl hb hr hd hf

theorem execCxpControlAck_of_setup (hs : (port s p).setup = true) :
    execCxpControlAck p (.setup true) s = .next (portTryStart p (raise (80 + p) 0x03 (3 + 16 * hbWidth s p)
      (updPort p (fun x => { x with
        discovered := true, link := { x.link with widthNow := hbWidth s p }, hbNs := s.clk.ns }) s))) := by
  refine whenLive_next hl ?_
  simp [hb, hr, hd, hf, hs, at', Nat.mul_comm 16]

theorem execCxpControlAck_of_refused_setup (hs : (port s p).setup = true) :
    execCxpControlAck p (.setup false) s =
      .next (raise (80 + p) 0x09 3 (updPort p (fun x => { x with discRetry := true }) s)) := by
  refine whenLive_next hl ?_
  simp [hb, hr, hd, hf, hs, discoveryFails]

variable (hs : (port s p).setup = false) (hlock : ∀ i, i < hbWidth s p → laneLocked s (hbBase s p + i) = true)
include hs hlock

theorem execCxpControlAck_of_few {ids : List Nat} {offered : Nat} (ho : offered < hbWidth s p) :
    execCxpControlAck p (.discovery ids offered) s =
      .next (raise (80 + p) 0x09 1 (updPort p (fun x => { x with discRetry := true }) s)) :=
  whenLive_next hl ((if_neg (by simp [hb])).trans ((if_neg (by simpa [hr, hd, hf, hs] using hlock)).trans (if_pos ho)))

/-- A complete discovery places the lanes and tells the camera its connections and their rates. -/
theorem execCxpControlAck_of_complete {ids : List Nat} {offered : Nat} (ho : hbWidth s p ≤ offered)
    (hw : hbWidth s p ≤ ids.length) (hi : ∀ i ∈ ids.take (hbWidth s p), i < hbWidth s p) (hn : ids.Nodup) :
    let u := placeLanes p (ids.take (hbWidth s p)) (hbWidth s p) s
    execCxpControlAck p (.discovery ids offered) s =
      .next (emit (.camera p camSetup (hbWidth s p :: (List.range (hbWidth s p)).map fun i => lnRate s (hbBase s p + i)))
        (updPort p (fun x => { x with setup := true }) u)) := by
  intro u
  have rates : (fun i => lnRate u (hbBase u p + i)) = fun i => lnRate s (hbBase s p + i) := by
    simp only [lnRate, hbBase, cf_of_cfg (placeLanes_cfg _ _ _ s), u]
  refine whenLive_next hl ((if_neg (by simp [hb])).trans ((if_neg (by simpa [hr, hd, hf, hs] using hlock)).trans
    ((if_neg (Nat.not_lt.mpr ho)).trans ?_)))
  simp only [no_connection_at_fault hw hi hn, ← rates]
  rfl

end Discovery

end

/-- Settles O29: an equation per packet of a line, and one per control acknowledgement. -/
theorem linesArrive : Obligations.LinesArrive := by
  refine fun s p hl => ⟨fun k payload hb h hs ho hk => ?_,
    fun k payload s1 a hb h hp hr hc ho hn hf he => ⟨fun ha => ?_, fun ha => ?_⟩,
    fun k payload s1 => execRegAck_of_taken hl, fun conn k => execCxpStreamPacket_of_other hl,
    fun conn k s1 => execCxpStreamPacket_of_whole hl,
    fun hb => ⟨fun tag st => execCxpControlAck_of_write tag st hl hb, execCxpControlAck_of_io hl hb,
      fun hr hd hf hs => ⟨execCxpControlAck_of_setup hl hb hr hd hf hs, execCxpControlAck_of_refused_setup hl hb hr hd hf hs⟩,
      fun ids offered hr hd hf hs hlock => ⟨execCxpControlAck_of_few hl hb hr hd hf hs hlock, fun ho hw hi hn => ?_⟩⟩,
    fun l => execLineTimeout_of_due hl⟩
  · have other : k.ptype.toNat ≠ 1 ∨ k.stream.toNat ≠ cf s 0x02 p 0x37 ∨ 16384 < k.len.toNat :=
      hk.imp_left fun h e => h (BitVec.eq_of_toNat_eq e)
    exact execLineData_of_discarded hl hb h (packetIn_of_other payload hs ho other)
  · have row := execLineData_of_whole hl hb h hp (by simp [ha]) hr hc ho hn hf he
    exact row.trans (next_congr (congrArg _ (if_pos ha)))
  · have row := execLineData_of_whole hl hb h hp (by simp [ha]) hr hc ho hn hf he
    exact row.trans (next_congr (congrArg _ (if_neg (by simp [ha]))))
  · refine ⟨_, execCxpControlAck_of_complete hl hb hr hd hf hs hlock ho hw hi hn, ?_, congrArg _ (placeLanes_sent _ _ _ s)⟩
    exact congrArg Port.setup (port_updPort_self p (fun x => { x with setup := true }) _)

end Sys2Proof.Machine

/-! PROOFS. Triggers of a headbox by position and time (R153, R154), and its watches (R145, R146, R158, R160). -/

namespace Sys2Proof.Machine

section

variable {s : State} {p : Fin 32}

/-! ### Triggers (R153, R154) -/

theorem execTriggerEncoder_of_reached {e : Int} (hl : Live s) (h : (port s p).trigNext = some e) (hm : hbMode s p = 1)
    (hr : (port s p).running = true) (he : e ≤ encE s (hbEnc s p)) (hf : encBackward s (hbEnc s p) = false) :
    execTriggerEncoder p s = .next (issueTrigger p
      (updPort p (fun x => { x with trigNext := some (e + (max 1 (hbPitch s p) : Int)) }) s)) :=
  whenLive_next hl (by simp [h, hm, hr, he, hf])

theorem execTriggerTimer_of_due (hl : Live s) (hm : hbMode s p = 3) (hr : (port s p).running = true)
    (hc : (port s p).cur ≠ none) (hd : (port s p).trigTimerNs + hbPitch s p ≤ s.clk.ns) :
    execTriggerTimer p s = .next (issueTrigger p
      (setPort p { port s p with trigTimerNs := (port s p).trigTimerNs + hbPitch s p } s)) :=
  whenLive_next hl (if_pos ⟨hm, hr, Option.isSome_iff_ne_none.mpr hc, hd⟩)

/-- The oldest trigger no line has paired with leaves the list, and the stripe notes that it has told so. -/
theorem execTrigLost_of_due {u : Trig} {rest : List Trig} {t0 : Stripe} (hl : Live s) (h : (port s p).trigs = u :: rest)
    (hd : u.ns + 1000 * cf s 0x02 p 0x3C ≤ s.clk.ns) (hc : (port s p).cur = some t0) :
    let s1 := setPort p { port s p with trigs := rest, trigLost := satAdd 32 (port s p).trigLost 1
                                        cur := some { t0 with trigLostNoted := true } } s
    execTrigLost p s = .next (if t0.trigLostNoted then s1 else raise (80 + p) 0x06 u.seq s1) := by
  have due : u.ns + us (cf s 0x02 p 0x3C) ≤ s.clk.ns := by rwa [us, Nat.mul_comm]
  refine whenLive_next hl ?_
  simp only [h, if_pos due, hc, Option.map_some, Option.getD_some]

/-! ### Heartbeats and discovery (R145, R146) -/

theorem execCxpHeartbeat_of_cxp (hl : Live s) (hb : hbProto s p = 1) :
    execCxpHeartbeat p s = .next (updPort p (fun x => { x with hbNs := s.clk.ns, hbLost := false }) s) :=
  whenLive_next hl (if_pos hb)

theorem execHeartbeatLost_of_due (hl : Live s) (hb : hbProto s p = 1) (hr : (port s p).running = true)
    (hf : (port s p).discovered = true) (hn : (port s p).hbLost = false) (hd : (port s p).hbNs + 100000000 ≤ s.clk.ns) :
    execHeartbeatLost p s = .next (raise (80 + p) 0x08 0 (setPort p { port s p with hbLost := true } s)) :=
  whenLive_next hl (if_pos ⟨hb, hr, hf, by rw [hn]; rfl, hd⟩)

theorem execDiscoveryFail_of_due (hl : Live s) (hb : hbProto s p = 1) (hr : (port s p).running = true)
    (hf : (port s p).discovered = false) (hd : (port s p).discNs + 1000000000 ≤ s.clk.ns) :
    execDiscoveryFail p s = .next (if (port s p).discRetry then discover p s else raise (80 + p) 0x09 2 (discover p s)) :=
  whenLive_next hl (if_pos ⟨hb, hr, by rw [hf]; rfl, hd⟩)

/-! ### Setting writes and expected lines (R158, R160) -/

theorem execSetAckTimeout_of_headbox {k : Fin 36} {w : SetWrite} (hl : Live s) (hk : k.val = p.val)
    (h : (port s p).writes.find? (fun w =>
      !w.acked && !w.failed && decide (w.sentNs + 1000 * cf s 0x02 p 0x32 ≤ s.clk.ns)) = some w) :
    execSetAckTimeout k s = .next (settingFails p w 2 s) := by
  refine whenLive_next hl ?_
  rw [if_pos (by omega), hk, setTimeout]
  simp only [us, Nat.mul_comm _ 1000, h]

/-- The k-th expected capture moment since the last line, k mean spacings on, passes as a dropped line. -/
theorem execDroppedLinePeriod_of_due {c d : Int} {cs : List Int} (hl : Live s) (hc : (port s p).captures = c :: cs)
    (hd : cs.getLast? = some d) (hm : hbMode s p = 0) (ho : portOut s p = true) :
    let m : Int := (port s p).capLast + (2 * ((port s p).dropK + 1) * (c - d) + cs.length) / (2 * cs.length)
    m ≤ s.clk.tb → execDroppedLinePeriod p s = .next (lineCount p { tb := m.toNat, start := .expected } s) := by
  intro m due
  refine whenLive_next hl ?_
  simp only [hc, hd]
  exact if_pos ⟨hm, ho, due⟩

end

/-- Settles O30: an equation per row. -/
theorem triggersAndWatches : Obligations.TriggersAndWatches := fun _ _ hl =>
  ⟨fun _ => execTriggerEncoder_of_reached hl, execTriggerTimer_of_due hl, fun _ _ _ => execTrigLost_of_due hl,
    execCxpHeartbeat_of_cxp hl, execHeartbeatLost_of_due hl, execDiscoveryFail_of_due hl,
    fun _ _ => execSetAckTimeout_of_headbox hl, fun _ _ _ => execDroppedLinePeriod_of_due hl⟩

end Sys2Proof.Machine

/-! PROOFS. Wires: service, exit, deadline and swap (R171 to R177), and how WIRE_SWAP and REPROCESS start (R176, R179). -/

namespace Sys2Proof.Machine

/-! ### Service, exit and deadline (R171, R173) -/

/-- Every port's passed DEADLINE, and then its unit that no successor follows, is settled before a wire chooses a line. -/
def wireSettled (w : Nat) (s : State) : State := (List.range 32).foldl (fun s p => flushWait w p (enforceDeadline w p s)) s

/-- Every port's unit that no successor follows is settled before a line leaves the wire. -/
def wireFlushed (w : Nat) (s : State) : State := (List.range 32).foldl (fun s p => flushWait w p s) s

theorem deadlineNs_eq (t : Stripe) : deadlineNs t = t.closeNs + 1000 * t.deadline := by
  rw [deadlineNs, us, Nat.mul_comm]

section

variable {s : State} {w p : Nat} {it : Item}

theorem wireServeBody_of_inline (hh : wireHeld s w = false) (hn : nextInline (wireSettled w s) w = some (p, it)) :
    wireServeBody w s = rawStops p (takeItem w p it (wireSettled w s)) := by
  unfold wireSettled at *
  simp [wireServeBody, hh, hn]

/-- With no in-line line the buffered stripe in service goes on, and no other is chosen. -/
theorem wireServeBody_of_serving (hh : wireHeld s w = false) (hi : nextInline (wireSettled w s) w = none)
    (hn : nextServing (wireSettled w s) w = some (p, it)) :
    wireServeBody w s = rawStops p (takeItem w p it (wireSettled w s)) := by
  unfold wireSettled at *
  simp [wireServeBody, hh, hi, hn]

theorem wireExitBody_of_done (hn : ((List.range 32).findSome? fun p => (firstLive (port (wireFlushed w s) p)).bind fun i =>
      if i.st = .done ∧ i.wire = some w then some (p, i) else none) = some (p, it)) :
    let s1 := stripeSweep p (putItem p { it with st := .out } (wireFlushed w s))
    wireExitBody w s = pipePump p (port s1 p).pipe.length s1 := by
  intro s1
  unfold wireFlushed at hn
  unfold wireExitBody
  simp only [hn]
  rfl

theorem deadlineBody_of_passed {u : Stripe} (hc : closedWaiting s w p = some u) (hi : inService s w p u = true)
    (hd : u.closeNs + 1000 * u.deadline ≤ s.clk.ns) :
    deadlineBody w p s = pipePump p (port (passDeadline w p u s) p).pipe.length (passDeadline w p u s) := by
  have enforced : enforceDeadline w p s = passDeadline w p u s := by
    rw [enforceDeadline, hc]
    exact if_pos ⟨hi, by rw [deadlineNs_eq]; exact hd⟩
  rw [deadlineBody, enforced]

end

/-! ### Hand-over and drain (R177) -/

section

variable {s : State} {x : Swap}

theorem execSwapHandover_of_due (hl : Live s) (hs : s.ing.swap = some x) (hd : handoverDue s x = true) :
    execSwapHandover s = .next (swapHandover x s) :=
  whenLive_next hl (by simp [hs, hd])

/-- The state in which WIRE_SWAP completes: the swap is over, and its wire empty. -/
def swapDrained (x : Swap) (s : State) : State :=
  raise (112 + x.out) 0x04 (swapDetail x) (updWire x.out
    (fun y => { y with draining := false, serving := none, ctxPort := none, ctx := [] }) { s with ing := { s.ing with swap := none } })

theorem swapDoneBody_of_drained {c : Cmd} (hs : s.ing.swap = some x) (hh : x.handed = true) (hb : wireBusy s x.out = false)
    (hc : (swapDrained x s).cmds.flight.find? (fun c => decide (c.cid = x.cid)) = some c) :
    swapDoneBody s = finishOk c x.tb 0 (swapDrained x s) := by
  unfold swapDrained at *
  simp [swapDoneBody, hs, hh, hb, hc]

end

/-- Settles O31: an equation per row. -/
theorem wiresServe : Obligations.WiresServe := by
  intro s hl
  refine ⟨fun w p it hh => ?_, fun w p it hh => ?_, fun w p it => ?_,
    fun w p u hc hi hd => whenLive_next hl (deadlineBody_of_passed hc hi hd),
    fun x hs hd => execSwapHandover_of_due hl hs hd, fun x c hs hh hb => ?_⟩
  · intro s1 hn
    exact whenLive_next hl (wireServeBody_of_inline hh hn)
  · intro s1 hi hn
    exact whenLive_next hl (wireServeBody_of_serving hh hi hn)
  · intro s0 hn s1
    exact whenLive_next hl (wireExitBody_of_done hn)
  · intro s1 hc
    exact whenLive_next hl (swapDoneBody_of_drained hs hh hb hc)

/-! ### The start of WIRE_SWAP (R176) -/

section WireSwap

variable {s : State} {c : Cmd}

theorem wireSwapStart_of_pending (h : s.ing.swap ≠ none) : wireSwapStart c s = finishCheck c stBusy s :=
  if_pos (Or.inl (Option.isSome_iff_ne_none.mpr h))

variable (hs : s.ing.swap = none) (hr : (wire s (u8At c.packet 0x19)).reproc = none)
  (ht : wireTested s (u8At c.packet 0x19) = false) (ho : groupTouchesWire s (u8At c.packet 0x18) = false)
  (hi : groupTouchesWire s (u8At c.packet 0x19) = false)
include hs hr ht ho hi

theorem wireSwapStart_of_unfit (h : wireRole s (u8At c.packet 0x18) = 1 ∨ wireRole s (u8At c.packet 0x19) = 0
      ∨ (wire s (u8At c.packet 0x19)).state = 3) :
    wireSwapStart c s = finishCheck c stBadParam s :=
  (if_neg (by simp [pm8, hs, hr, ht, ho, hi])).trans (if_pos h)

/-- Where the in-line port of the wire runs, the swap waits for the port's next stripe. -/
theorem wireSwapStart_of_running (hso : wireRole s (u8At c.packet 0x18) ≠ 1) (hsi : wireRole s (u8At c.packet 0x19) ≠ 0)
    (hf : (wire s (u8At c.packet 0x19)).state ≠ 3) (hp : wireInline s (u8At c.packet 0x18) < 32)
    (hrun : (port s (wireInline s (u8At c.packet 0x18))).running = true) :
    let x : Swap := { out := u8At c.packet 0x18, into := u8At c.packet 0x19, cid := c.cid,
                      sid := (port s (wireInline s (u8At c.packet 0x18))).nextSid }
    wireSwapStart c s = (beginWork c 0 { s with ing := { s.ing with swap := some x } }).2 :=
  (if_neg (by simp [pm8, hs, hr, ht, ho, hi])).trans
    ((if_neg (by simp [pm8, hso, hsi, hf])).trans (if_pos (by simp [pm8, hp, hrun])))

end WireSwap

/-! ### The start of REPROCESS (R179) -/

/-- A command that begins its work changes only the book of the commands. -/
theorem beginWork_cmds (c : Cmd) (total : Nat) (s : State) :
    (beginWork c total s).2 = { s with cmds := (beginWork c total s).2.cmds } := by
  simp only [beginWork]
  split
  · split <;> rfl
  · rfl

/-- The REPROCESS that a command starts on its wire. -/
def reprocOf (c : Cmd) (sel : List RawStripe) : Reproc :=
  { cid := c.cid, port := u8At c.packet 0x18, bank := u8At c.packet 0x19, reel := u8At c.packet 0x1A
    todo := sel.map RawStripe.block, ctx := { sid := 0 } }

/-- The state in which REPROCESS runs: its wire holds the selected stripes, the couch and the slices a context of their own. -/
def reprocBegun (c : Cmd) (sel : List RawStripe) (s : State) : State :=
  knotUpd (fun x => { x with
      repSlices := (List.range 8).foldl (fun t k => let l := tblGet {} x.slices k
                                                    tblSet t (c.cid * 8 + k) { back := l.back, tback := l.tback }) x.repSlices })
    (repSweep (couchUpd (fun x => { x with
        reps := tblSet x.reps (pkInst c.packet) { cid := c.cid, port := u8At c.packet 0x18, reel := u8At c.packet 0x1A } })
      (updWire (pkInst c.packet) (fun x => { x with reproc := some (reprocOf c sel) })
        (beginWork c (sel.map RawStripe.lines).sum s).2)))

/-- The couch's and the slices' part of the start leaves the wires and the ports. -/
theorem reprocBegun_ing (c : Cmd) (sel : List RawStripe) (s : State) : (reprocBegun c sel s).ing =
    (updWire (pkInst c.packet) (fun x => { x with reproc := some (reprocOf c sel) })
      (beginWork c (sel.map RawStripe.lines).sum s).2).ing := by
  simp only [reprocBegun, knotUpd, repSweep, couchUpd]

theorem reprocBegun_wire (c : Cmd) (sel : List RawStripe) (s : State) :
    (wire (reprocBegun c sel s) (pkInst c.packet)).reproc = some (reprocOf c sel) := by
  rw [wire, reprocBegun_ing, ← wire, wire_updWire_self]

theorem reprocBegun_frame (c : Cmd) (sel : List RawStripe) (s : State) :
    (reprocBegun c sel s).ing.ports = s.ing.ports ∧ (reprocBegun c sel s).hbm = s.hbm ∧ (reprocBegun c sel s).host = s.host := by
  refine ⟨?_, ?_, ?_⟩
  · rw [reprocBegun_ing, updWire, beginWork_cmds]
  all_goals simp only [reprocBegun, knotUpd, repSweep, couchUpd, updWire]; rw [beginWork_cmds]

section Reprocess

variable {s : State} {c : Cmd} (h2 : (wire s (pkInst c.packet)).state ≠ 2) (h3 : (wire s (pkInst c.packet)).state ≠ 3)
  (hs : s.ing.swap = none) (hr : ∀ v, v < 9 → (wire s v).reproc = none) (hw : pkInst c.packet < 9)
  (hreel : u8At c.packet 0x1A = 0xFF ∨ rlSource s (u8At c.packet 0x1A) = 5)
  (hb : bankUnready s (u8At c.packet 0x18) (u8At c.packet 0x19) = false)
include h2 h3 hs hr hw hreel hb

/-- Nothing stands against the command: whether the stripes of MD start are gone decides it. -/
theorem reprocStart_of_free :
    let sel := rawSelected s (u8At c.packet 0x18) (pmS64 c.packet 0x20) (pmS64 c.packet 0x28)
    (∀ r ∈ sel, r.pixels = cf s 0x04 (u8At c.packet 0x18) 0) →
    reprocStart c s =
      if rawGone s (u8At c.packet 0x18) (pmS64 c.packet 0x20) = true then finishCheck c stTileGone s
      else if sel.isEmpty = true then reprocEnd (pkInst c.packet) stOk (reprocBegun c sel s) else reprocBegun c sel s := by
  intro sel hpx
  refine (if_neg ?_).trans (if_neg ?_)
  · simp +contextual [hs, h2, h3, hr, hw]
  · rintro (⟨hlt, hne⟩ | hu | hu)
    · rcases hreel with h | h
      · exact absurd hlt (by simp [pm8, h])
      · exact hne h
    · exact Bool.noConfusion (hb.symm.trans hu)
    · obtain ⟨r, hmem, hne⟩ := List.any_eq_true.mp hu
      exact of_decide_eq_true hne (hpx r hmem)

end Reprocess

/-- Settles O32: each row by its start. -/
theorem swapAndReprocessStart : Obligations.SwapAndReprocessStart := by
  intro s sq tag c
  refine ⟨fun h => ?_, fun h h2 h3 hs hr hw hreel hb => ?_⟩
  · have row : exec (.wireSwap sq tag) s = .next (wireSwapStart c s) := opcodeRow_of_starts _ _ h
    rw [row]
    refine ⟨fun hs => next_congr (wireSwapStart_of_pending hs), fun hs hr ht ho hi => ⟨fun hu => ?_, ?_⟩⟩
    · exact next_congr (wireSwapStart_of_unfit hs hr ht ho hi hu)
    · exact fun hso hsi hf hp hrun => next_congr (wireSwapStart_of_running hs hr ht ho hi hso hsi hf hp hrun)
  · have row : exec (.reprocess sq tag) s = .next (reprocStart c s) := opcodeRow_of_starts _ _ h
    intro sel hpx
    rw [row, reprocStart_of_free h2 h3 hs hr hw hreel hb hpx]
    refine ⟨fun hg => next_congr (if_pos hg), fun hg hne => ⟨reprocBegun c sel s, ?_, reprocBegun_wire c sel s,
      reprocBegun_frame c sel s⟩⟩
    exact next_congr ((if_neg (by simp [hg])).trans (if_neg (by simpa using hne)))

end Sys2Proof.Machine

/-! PROOFS. Dryer ports: frames and their rows (R202, R206, R216, R217, R225), the thermal pipe (R209), bias ramps (R201), drift
refinement (R220), and SHUTTER (R223). -/

namespace Sys2Proof.Machine

/-! ### The AFE die through bookkeeping and blind intervals -/

@[simp] theorem raise_afe (n c d : Nat) (s : State) : (raise n c d s).afe = s.afe := (raise_book n c d s).afe

@[simp] theorem finish_afe (c : Cmd) (st pc rs ps : Nat) (s : State) : (finish c st pc rs ps s).afe = s.afe :=
  (finish_book c st pc rs ps s).afe

@[simp] theorem finishOk_afe (c : Cmd) (rs ps : Nat) (s : State) : (finishOk c rs ps s).afe = s.afe :=
  finish_afe c stOk 100 rs ps s

@[simp] theorem knotUpd_afe (f : Knot → Knot) (s : State) : (knotUpd f s).afe = s.afe := rfl

@[simp] theorem formRec_afe (r : RecFields) (tile : Option Nat) (s : State) : (formRec r tile s).afe = s.afe := by
  simp only [formRec]
  split
  · rfl
  · split
    · rfl
    · simp only [ringDrop]
      split <;> simp

@[simp] theorem blindBands_afe (iv : BlindIv) (start len right : Int) (n : Nat) (left : Int) (s : State) :
    (blindBands iv start len right n left s).afe = s.afe := by
  induction n generalizing left s with
  | zero => rfl
  | succ n ih =>
    simp [blindBands, apply_ite State.afe, ih]

@[simp] theorem blindPiece_afe (iv : BlindIv) (start stop : Int) (s : State) :
    (blindPiece iv start stop s).afe = s.afe := by
  simp only [blindPiece]
  split
  · rfl
  · split <;> simp

@[simp] theorem blindPieces_afe (limit : Int) (n : Nat) (iv : BlindIv) (s : State) :
    (blindPieces limit n iv s).2.afe = s.afe := by
  induction n generalizing iv s with
  | zero => rfl
  | succ n ih =>
    simp only [blindPieces]
    split <;> simp [ih]

@[simp] theorem blindOpen_afe (kind source cause tag : Nat) (start : Int) (s : State) :
    (blindOpen kind source cause tag start s).afe = s.afe := rfl

@[simp] theorem blindClose_afe (source cause tag : Nat) (stop : Int) (s : State) :
    (blindClose source cause tag stop s).afe = s.afe := by
  simp only [blindClose]
  split <;> simp

@[simp] theorem finishCids_afe (cids : List Nat) (status result position : Nat) (s : State) :
    (finishCids cids status result position s).afe = s.afe := by
  refine List.foldlRecOn cids _ (motive := fun u : State => u.afe = s.afe) rfl fun u hu k _ => ?_
  split
  · split <;> simpa using hu
  · exact hu

/-- A dryer port is a record of the AFE die. -/
theorem dry_of_afe {s t : State} (h : t.afe = s.afe) (p : Nat) : dry t p = dry s p :=
  congrArg (fun a : Afe => tblGet ({} : Dry) a.dry p) h

/-! ### Rows of a frame (R206 to R208, R225) -/

/-- A mark opens and closes intervals and completes commands; the port keeps its frame. -/
theorem dryMark_frame (p : Nat) (md : Int) (m : DryMark) (s : State) :
    (dry (dryMark p md m s) p).frame = (dry s p).frame := by
  cases m with
  | blind => rw [dryMark, dry_of_afe (blindOpen_afe ..), dry_updDry_self]
  | overflow =>
    simp only [dryMark]
    split
    · rfl
    · rw [dry_of_afe (blindOpen_afe ..), dry_updDry_self]
  | viewed =>
    simp only [dryMark]
    split
    · rw [dry_of_afe (blindClose_afe ..), dry_updDry_self]
    · rfl
  | _ =>
    simp only [dryMark]
    rw [dry_of_afe (finishCids_afe ..)]
    split
    · rw [dry_of_afe (blindClose_afe ..), dry_updDry_self]
    · rfl

theorem dryStamps_frame (p : Nat) (s : State) : (dry (dryStamps p s) p).frame = (dry s p).frame := by
  refine List.foldlRecOn _ _ (motive := fun u : State => (dry u p).frame = (dry s p).frame) ?_ fun u hu m _ => ?_
  · rw [dry_updDry_self]
  · exact (dryMark_frame p _ m.mark u).trans hu

/-- Of the frame, saturated references set the note alone. -/
theorem refSatNote_fst (p : Nat) (f : DFrame) (est : List DcEst) (s : State) :
    (refSatNote p f est s).1 = { f with refNoted := (refSatNote p f est s).1.refNoted } := by
  simp only [refSatNote]
  split
  · split <;> rfl
  · rfl

/-- Of the frame, a row that enters the FIFO or finds it full changes the rows entered or the cut alone. -/
theorem rowEnters_fst (p : Nat) (f : DFrame) (r : DRow) (s : State) :
    (rowEnters p f r s).1 = { f with rows := (rowEnters p f r s).1.rows, cut := (rowEnters p f r s).1.cut } := by
  simp only [rowEnters]
  split <;> rfl

section Row

variable {s : State} {p : Nat} {f : DFrame} (tl : Nat) (taps : List TapRow)

/-- A row within ROWS is one more row of its frame. -/
theorem rowRun_frame_of_active (h : f.got < dpRows s p) : ∃ f', (dry (rowRun p f tl taps s) p).frame = some f'
    ∧ f'.number = f.number ∧ f'.got = f.got + 1 ∧ f'.long_ = f.long_ := by
  refine ⟨_, (dryStamps_frame p _).trans (congrArg Dry.frame (dry_updDry_self p _ _)), ?_⟩
  rw [if_neg (Nat.not_le.mpr h)]
  dsimp only
  split
  · rw [refSatNote_fst]
    exact ⟨rfl, rfl, rfl⟩
  · split
    · rw [rowEnters_fst, refSatNote_fst]
      exact ⟨rfl, rfl, rfl⟩
    · rw [refSatNote_fst]
      exact ⟨rfl, rfl, rfl⟩

/-- A row beyond ROWS is one more of its frame's long rows. -/
theorem rowRun_frame_of_beyond (h : dpRows s p ≤ f.got) : ∃ f', (dry (rowRun p f tl taps s) p).frame = some f'
    ∧ f'.number = f.number ∧ f'.got = f.got ∧ f'.long_ = f.long_ + 1 := by
  refine ⟨_, (dryStamps_frame p _).trans (congrArg Dry.frame (dry_updDry_self p _ _)), ?_⟩
  rw [if_pos h, refSatNote_fst]
  exact ⟨rfl, rfl, rfl⟩

theorem rowRun_frame : ∃ f', (dry (rowRun p f tl taps s) p).frame = some f' ∧ f'.number = f.number
    ∧ (f.got < dpRows s p → f'.got = f.got + 1 ∧ f'.long_ = f.long_)
    ∧ (dpRows s p ≤ f.got → f'.got = f.got ∧ f'.long_ = f.long_ + 1) := by
  rcases Nat.lt_or_ge f.got (dpRows s p) with h | h
  · obtain ⟨f', hf, hn, hc⟩ := rowRun_frame_of_active tl taps h
    exact ⟨f', hf, hn, fun _ => hc, fun hb => absurd h (Nat.not_lt.mpr hb)⟩
  · obtain ⟨f', hf, hn, hc⟩ := rowRun_frame_of_beyond tl taps h
    exact ⟨f', hf, hn, fun ha => absurd ha (Nat.not_lt.mpr h), fun _ => hc⟩

end Row

/-! ### Frames: their sync, rows and time-out (R202, R206, R216, R225) -/

section Frames

variable {s : State} {p : Fin 4} {f : DFrame}

theorem execFrameSync_of_due (hl : Live s) (hr : (dry s p).running = true) (ht : (dry s p).st = 3) (he : syncEarly s p = false) :
    let s1 := dryStopWaiting p (frameClose p true (blankEnds p s))
    execFrameSync p s = .next (if (dry s1 p).running then syncRun p s1 else s1) :=
  whenLive_next hl (if_neg (by simp [hr, ht, he]))

theorem execDryerRow_of_frame (tl : W64) (taps : List TapRow) (hl : Live s) (h : (dry s p).frame = some f) :
    execDryerRow p tl taps s = .next (rowRun p f (rowLsync f tl.toNat) taps s) :=
  whenLive_next hl (by rw [dryerRowBody, h])

theorem rowLsync_of_driven {t0 tl : Nat} (h : f.lsyncTbs[f.got]? = some t0) : rowLsync f tl = t0 := by
  rw [rowLsync, List.getD_eq_getElem?_getD, h, Option.getD_some]

theorem rowLsync_of_brought {tl : Nat} (h : f.lsyncTbs[f.got]? = none) : rowLsync f tl = tl := by
  rw [rowLsync, List.getD_eq_getElem?_getD, h, Option.getD_none]

theorem execFrameTimeout_of_due (hl : Live s) (h : (dry s p).frame = some f) (hm : dpc s p 0x0E = 1)
    (hd : f.syncNs + 1000 * dpc s p 0x70 ≤ s.clk.ns) :
    execFrameTimeout p s = .next (dryStopWaiting p (frameClose p true s)) := by
  have due : f.syncNs + us (dpc s p 0x70) ≤ s.clk.ns := by rwa [us, Nat.mul_comm]
  refine whenLive_next hl ?_
  rw [frameTimeoutBody, h]
  exact if_pos ⟨hm, due⟩

end Frames

/-! ### The thermal pipe (R209 to R211) -/

section Pipe

variable {s : State} {p : Nat} {r : DRow} {l : List DRow}

/-- y of a read row's pixels with the replaced ones (R210). -/
def pipeYs (p : Nat) (r : DRow) (s : State) : List (Option Int) :=
  (List.range r.px.length).map (replaceY (rowYs r) (if r.row = 0 then [] else (dry s p).prevY))

/-- The temperatures of a read row (R211). -/
def pipeTemps (p : Nat) (r : DRow) (s : State) : List Int :=
  (pipeYs p r s).map fun y => match y with
    | some v => (lutMap (lutAt s.free r.lut) v : Int)
    | none => 0

/-- The port once the pipe has taken a read row. -/
def pipeTaken (p : Nat) (r : DRow) (l : List DRow) (s : State) : State :=
  updDry p (fun d => { d with fifo := l, prevY := pipeYs p r s
                              out := d.out ++ [{ r with px := pipeTemps p r s, bad := [], tabs := [], lut := none }] }) s

theorem pipeRow_of_unstamped (h : (dry s p).fifo = r :: l) (hs : r.stamped = false) : pipeRow p s = s := by
  simp [pipeRow, h, hs]

/-- Tokens, and free values that are taken or not, are all that is added. -/
theorem passTokens_taking (k n m : Nat) (c : Prop) [Decidable c] (t : State) :
    ∃ i v, passTokens k n (if c then t else { t with free := t.free + m }) = { t with ing := i, free := v } := by
  split <;> exact ⟨_, _, rfl⟩

/-- Beside the port, a read row passes tokens, and takes free values where it has no LUT. -/
theorem pipeRow_of_read (h : (dry s p).fifo = r :: l) (hs : r.stamped = true) (hm : bitOf r.flags 0 = false) :
    ∃ i v, pipeRow p s = { pipeTaken p r l s with ing := i, free := v } := by
  have known : ¬ (!r.stamped) = true := by simp [hs]
  simp only [pipeRow, h, if_neg known, hm, Bool.false_eq_true, if_false]
  exact passTokens_taking _ _ _ (False ∨ r.lut.isSome = true) (pipeTaken p r l s)

theorem pipeTaken_out (p : Nat) (r : DRow) (l : List DRow) (s : State) : (dry (pipeTaken p r l s) p).out =
    (dry s p).out ++ [{ r with px := pipeTemps p r s, bad := [], tabs := [], lut := none }] :=
  congrArg Dry.out (dry_updDry_self p _ s)

theorem pipeTaken_fifo (p : Nat) (r : DRow) (l : List DRow) (s : State) : (dry (pipeTaken p r l s) p).fifo = l :=
  congrArg Dry.fifo (dry_updDry_self p _ s)

end Pipe

/-! ### Biases and refinement (R201, R202, R220) -/

section Bias

variable {s : State} {p t0 : Nat}

theorem biasReached_of_running (h : (dry s p).rampNs = some t0) (hb : biasNow s p = (dry s p).biasTo) (ht : (dry s p).st ≠ 1) :
    biasReached p s = updDry p (fun d => { d with biasFrom := d.biasTo, rampNs := none }) s := by
  simp [biasReached, h, hb, ht]

theorem biasReached_of_starting (h : (dry s p).rampNs = some t0) (hb : biasNow s p = (dry s p).biasTo) (ht : (dry s p).st = 1) :
    biasReached p s = dryTiming p ((List.range (dpc s p 0x74)).foldl
      (fun v k => roicSend p 1 (dry v p).runNo (dpc v p 0x62) (dpc v p (0x100 + 8 * k)) (dpc v p (0x104 + 8 * k)) v)
      (updDry p (fun d => { d with st := 2, initK := 0 }) (updDry p (fun d => { d with biasFrom := d.biasTo, rampNs := none }) s))) := by
  simp only [biasReached, h, if_neg (not_not_intro hb), if_pos ht]

theorem driftRefineBody_of_free (h : s.cmds.paused.contains 2 = false) : driftRefineBody p s =
    updDry p (fun d => { d with refine := d.refine.map fun r => { r with ready_ := true } }) s :=
  if_neg (by rw [h]; exact Bool.false_ne_true)

end Bias

/-- Settles O37: an equation per row; what a row and the pipe leave of the port by the lemmas about its frame and its FIFO. -/
theorem dryerFrames : Obligations.DryerFrames := by
  refine ⟨fun s p hl => ⟨execFrameSync_of_due hl, fun f tl taps hf => ?_, fun f => execFrameTimeout_of_due hl,
    fun r l h hs hm => ?_, fun r l h hs => whenLive_next hl (pipeRow_of_unstamped h hs)⟩, fun s p hr => ⟨?_, ?_, ?_⟩⟩
  · have row : exec (.dryerRow p tl taps) s = .next (rowRun p f (rowLsync f tl.toNat) taps s) :=
      execDryerRow_of_frame tl taps hl hf
    refine ⟨fun t0 h => ?_, fun h => ?_, ?_⟩
    · rw [row, rowLsync_of_driven h]
    · rw [row, rowLsync_of_brought h]
    · obtain ⟨f', hrun⟩ := rowRun_frame (s := s) (p := p) (f := f) (rowLsync f tl.toNat) taps
      exact ⟨_, f', row, hrun⟩
  · obtain ⟨i, v, taken⟩ := pipeRow_of_read h hs hm
    have port := dry_of_afe (congrArg State.afe taken) p
    exact ⟨_, whenLive_of_live _ hl, (congrArg Dry.fifo port).trans (pipeTaken_fifo p r l s),
      (congrArg Dry.out port).trans (pipeTaken_out p r l s), (congrArg State.hbm taken).trans rfl,
      (congrArg State.web taken).trans rfl, (congrArg State.cfg taken).trans rfl⟩
  · exact fun t0 h hb ht => whenReady_next hr (biasReached_of_running h hb ht)
  · exact fun t0 h hb ht => ⟨_, whenReady_next hr (biasReached_of_starting h hb ht), rfl⟩
  · exact fun h => whenReady_next hr (driftRefineBody_of_free h)

/-! ### SHUTTER (R223) -/

section Shutter

variable {s : State} {c : Cmd} {p : Nat}

/-- The request of a SHUTTER without a closure has reason HOST, and its command waits with it. -/
theorem dry_shutterClose_of_open (h : (dry s p).closure = none) : dry (shutterClose c p s) p =
    { dry s p with req := joinReason (dry s p).req (some 4), reqCids := (dry s p).reqCids ++ [c.cid] } := by
  have kept : dry (shutterWaits c s) p = dry s p := rfl
  simp only [shutterClose, dry_updDry_self, kept, h]

theorem dry_shutterHold_of_open (h : (dry s p).closure = none) : dry (shutterHold c p s) p =
    { dry s p with req := joinReason (dry s p).req (some 4), reqHold := true, reqHoldCids := (dry s p).reqHoldCids ++ [c.cid] } := by
  have kept : dry (shutterWaits c s) p = dry s p := rfl
  simp only [shutterHold, h, dry_updDry_self, kept]

/-- A closure that averages or is held holds at once. -/
theorem shutterHold_of_settled {k : Closure} (h : (dry s p).closure = some k) (hk : k.step = 3 ∨ k.step = 5) :
    shutterHold c p s = finishOk c s.clk.tb 0 (updDry p (fun d => { d with closure := some { k with hold := true } }) s) := by
  have past : ¬ (k.step = 1 ∨ k.step = 2) := by omega
  simp only [shutterHold, h, if_neg past, if_pos hk]

theorem shutterRelease_of_open (h : (dry s p).closure = none) : shutterRelease c p s = finishOk c 0 0 s := by
  simp only [shutterRelease, h]

theorem shutterStart_of_stopped (h : (dry s (pkInst c.packet)).running = false) :
    shutterStart c s = finishCheck c stBadParam s := by
  simp [shutterStart, h]

section Running

variable (hr : (dry s (pkInst c.packet)).running = true)
include hr

theorem shutterStart_of_inhibited (hi : (chan s (shutChan s (pkInst c.packet))).inhibit = true) :
    shutterStart c s = finishCheck c stTempInhibit s := by
  simp [shutterStart, hr, hi]

/-- What SHUTTER of a running port does while its channel is not inhibited, by its action. -/
theorem shutterStart_of_allowed (hi : (chan s (shutChan s (pkInst c.packet))).inhibit = false) :
    shutterStart c s = match u8At c.packet 0x18 with
      | 0 => shutterClose c (pkInst c.packet) s
      | 1 => shutterHold c (pkInst c.packet) s
      | 2 => shutterRelease c (pkInst c.packet) s
      | 3 => finishOk c 0 0 (shutterInhibit (pkInst c.packet) s)
      | _ => finishOk c 0 0 (updDry (pkInst c.packet) (fun d => { d with inhibit := false }) s) :=
  (if_neg (by simp [hr])).trans (if_neg (by simp [hi]))

end Running

end Shutter

/-- Settles O38: each action by what it does of a running port whose channel is not inhibited. -/
theorem shutterActions : Obligations.ShutterActions := by
  intro s sq tag c h p
  have row : exec (.shutter sq tag) s = .next (shutterStart c s) := opcodeRow_of_starts _ _ h
  rw [row]
  refine ⟨fun hr => next_congr (shutterStart_of_stopped hr), fun hr hi => next_congr (shutterStart_of_inhibited hr hi),
    fun hr hi => ?_⟩
  rw [shutterStart_of_allowed hr hi]
  refine ⟨fun ha ho => ?_, fun ha ho => ?_, fun k ha hk hst => ?_, fun ha ho => ?_, fun ha => ?_, fun ha => ?_⟩ <;> rw [ha]
  · have port := dry_shutterClose_of_open (c := c) ho
    exact ⟨_, rfl, congrArg Dry.req port, congrArg Dry.reqCids port⟩
  · have port := dry_shutterHold_of_open (c := c) ho
    exact ⟨_, rfl, congrArg Dry.req port, congrArg Dry.reqHold port, congrArg Dry.reqHoldCids port⟩
  · exact next_congr (shutterHold_of_settled hk hst)
  · exact next_congr (shutterRelease_of_open ho)
  · rfl
  · rfl

end Sys2Proof.Machine

/-! PROOFS. The couch: lines and rows (R230, R236, R237), thermal rows (R240), and edge blocks received (R242). -/

namespace Sys2Proof.Machine

/-- A wait of so many microseconds, in ns. -/
theorem us_eq (n : Nat) : us n = 1000 * n := Nat.mul_comm n 1000

/-! ### Lines and grid rows (R230, R236, R237) -/

section

variable {s : State}

/-- Of a line that the couch wants and that has come out of its wire, its flags, its row and what became of it decide. -/
theorem couchLineBody_of_wanted {p : Nat} {it : Item} {l : List Item} (hp : (port s p).pipe = it :: l) (hw : cpWant s p = true)
    (hst : it.st = .out ∨ it.st = .dropped) :
    couchLineBody p s =
      if bitOf it.flags 3 = true then popPipe p it s
      else if lineLate s (rowOf s it.md) = true then lateLine p it (rowOf s it.md) s
      else if it.st = .dropped then holdLine p it (rowOf s it.md) false 0 0 (popPipe p it s)
      else takeLine p it (rowOf s it.md) s := by
  rw [couchLineBody, hp]
  exact if_neg (by rcases hst with h | h <;> simp [hw, h])

theorem rowEmitBody_of_complete {k : Int} (hk : nextRow s = some k) (hg : gCols (rowBoundaryOpen k s) ≠ 0)
    (hc : rowComplete (rowBoundaryOpen k s) k = true) : rowEmitBody s = emitRow k .complete (rowBoundaryOpen k s) := by
  rw [rowEmitBody, hk]
  exact if_pos ⟨hg, hc⟩

theorem rowTimeoutBody_of_due {k : Int} {t0 : Nat} (hk : nextRow s = some k) (hf : firstClosed (rowBoundary k s) k = some t0)
    (hg : gCols (rowBoundary k s) ≠ 0) (hc : rowComplete (rowBoundary k s) k = false)
    (hd : t0 + 1000 * cf (rowBoundary k s) 0x06 0 0x24 ≤ s.clk.ns) :
    rowTimeoutBody s = emitRow k .timeout (rowBoundary k s) := by
  simp [rowTimeoutBody, hk, hf, hg, hc, us_eq, hd]

/-! ### Thermal rows (R240) -/

/-- Every row of a frame but its first goes straight into the grid. -/
theorem thermalMapBody_of_later {p : Nat} {r : DRow} {l : List DRow} (ho : (dry s p).out = r :: l) (hr : r.row ≠ 0) :
    thermalMapBody p s = couchDryerIdle (thermalMapRow p r (updDry p (fun d => { d with out := l }) s)) := by
  simp only [thermalMapBody, ho, if_neg hr]

theorem execThermalRowEmit_of_complete {k : Int} (hl : Live s) (hk : thermOldest s = some k) (hg : gCols s ≠ 0)
    (hc : thermComplete s k = true) : execThermalRowEmit s = .next (emitTherm k s) :=
  whenLive_next hl (by simp [hk, hg, hc])

theorem execThermTimeout_of_due {k : Int} {t0 : Nat} (hl : Live s) (hk : thermOldest s = some k) (hg : gCols s ≠ 0)
    (hc : thermComplete s k = false) (hf : thermFirstClosed s k = some t0) (hd : t0 + 1000 * cf s 0x06 0 0x44 ≤ s.clk.ns) :
    execThermTimeout s = .next (emitTherm k s) :=
  whenLive_next hl (by simp [hk, hg, hc, hf, us_eq, hd])

end

/-! ### Packets on a felt port in use (R149, R406) -/

section

variable {s : State} {k : Fin 4}

/-- The credits that a felt port's packet frees are the port's own. -/
theorem linkFree_felt (n : Nat) : ∃ l : Link, l.st = (feltPort s k).link.st ∧
    linkFree (64 + k) n s = setFeltPort k { feltPort s k with link := l } s := by
  refine ⟨{ (feltPort s k).link with
      usedIn := ((feltPort s k).link.usedIn + pktCredits n) % 2 ^ 32, freed := (feltPort s k).link.freed + pktCredits n
      freedNs := if (feltPort s k).link.freed = 0 then s.clk.ns else (feltPort s k).link.freedNs }, rfl, ?_⟩
  rw [linkFree, setLink, if_neg (by omega), link_felt, Nat.add_sub_cancel_left]

theorem linkFree_felt_boot (n : Nat) : (linkFree (64 + k) n s).boot = s.boot := by
  obtain ⟨l, -, h⟩ := linkFree_felt (s := s) (k := k) n
  rw [h, setFeltPort_boot]

/-- Freed credits leave the port in use. -/
theorem feltUsable_linkFree (n : Nat) : feltUsable (linkFree (64 + k) n s) k = feltUsable s k := by
  obtain ⟨l, hst, h⟩ := linkFree_felt (s := s) (k := k) n
  rw [feltUsable, h, feltPort_setFeltPort_self]
  simp only [hst]
  rfl

theorem feltPort_active_of_usable (hu : feltUsable s k = true) : (feltPort s k).link.st = 3 := by
  simp only [feltUsable, Bool.and_eq_true, decide_eq_true_eq] at hu
  exact hu.1.1.1

/-- A packet within credit on a port in use frees its credits and is acted on. -/
theorem fromUsable_of_usable {len : Nat} (act : State → State) (hu : feltUsable s k = true)
    (ho : linkOver s (64 + k) (4 + len) = false) : fromUsable k len act s = act (linkFree (64 + k) (4 + len) s) :=
  (if_pos ⟨feltPort_active_of_usable hu, ho⟩).trans (if_pos ((feltUsable_linkFree _).trans hu))

/-! ### Edge blocks (R242) -/

theorem edgeBody_of_no_side {p : Nat} {row : Int} {desc : Nat} {cols : List (Nat × List Nat × Nat)} (h : sideOf s p = none) :
    edgeBody p row desc cols s = seamDrop s := by
  rw [edgeBody, h]

/-- A block of the grid in force whose columns lie inside the device, of a row still open, joins the row. -/
theorem edgeBody_of_valid {p d : Nat} {row : Int} {desc : Nat} {cols : List (Nat × List Nat × Nat)} (h : sideOf s p = some d)
    (hg : gCols s ≠ 0) (hd : desc = gridDescriptor s) (hc : ∀ c ∈ cols, gBase s ≤ c.1 ∧ c.1 < gBase s + gCols s)
    (hl : lineLate s row = false) : edgeBody p row desc cols s = seamTake d row cols s := by
  have inside : (cols.any fun c => decide (c.1 < gBase s) || decide (gBase s + gCols s ≤ c.1)) = false := by
    simpa using hc
  simp only [edgeBody, h, hg, hd, inside, hl, if_false, not_true_eq_false, ne_eq, Bool.false_eq_true]

theorem execEdge_of_usable {row : W64} {desc : W32} {cols : List (Nat × List Nat × Nat)} (hl : Live s)
    (hu : feltUsable s k = true) (ho : linkOver s (64 + k) (4 + (14 + (cols.map fun c => 6 + 2 * c.2.1.length).sum)) = false) :
    execEdge k row desc cols s = .next (edgeBody k row.toInt desc.toNat cols
      (linkFree (64 + k) (4 + (14 + (cols.map fun c => 6 + 2 * c.2.1.length).sum)) s)) := by
  refine whenReady_next hl.ready ((fromUsable_of_usable _ hu ho).trans (if_neg ?_))
  rw [linkFree_felt_boot, hl.2]
  decide

end

/-- Settles O33: an equation per row. -/
theorem couchRows : Obligations.CouchRows := by
  intro s hl
  refine ⟨fun p it l hp hw hst => ?_, fun k hk hg hc => whenLive_next hl (rowEmitBody_of_complete hk hg hc),
    fun k t0 hk hf hg hc hd => whenLive_next hl (rowTimeoutBody_of_due hk hf hg hc hd),
    fun p r l ho hr => whenLive_next hl (thermalMapBody_of_later ho hr),
    fun k hk hg hc => execThermalRowEmit_of_complete hl hk hg hc,
    fun k t0 hk hg hc hf hd => execThermTimeout_of_due hl hk hg hc hf hd, fun k row desc cols => ?_⟩
  · have row : exec (.couchLine p) s = .next (couchLineBody p s) := whenLive_of_live _ hl
    rw [row, couchLineBody_of_wanted hp hw hst]
    refine ⟨fun hf => next_congr (if_pos hf), fun hf => ?_, fun hf => ?_, fun hf => ?_⟩
    all_goals rw [if_neg (ne_true_of_eq_false hf)]
    · exact fun hr => next_congr (if_pos hr)
    · exact fun hr hd => next_congr ((if_neg (ne_true_of_eq_false hr)).trans (if_pos hd))
    · exact fun hr ho => next_congr ((if_neg (ne_true_of_eq_false hr)).trans (if_neg (by simp [ho])))
  · intro n s1 hu ho
    have row : exec (.edge k row desc cols) s = .next (edgeBody k row.toInt desc.toNat cols s1) :=
      execEdge_of_usable hl hu ho
    rw [row]
    exact ⟨fun hs => next_congr (edgeBody_of_no_side hs),
      fun d hs hg hd hc hr => next_congr (edgeBody_of_valid hs hg hd hc hr)⟩

end Sys2Proof.Machine

/-! PROOFS. HBM and NVM: which operations of the device leave both as they are, and that those that write keep them in canonical
form. One rule for each function from states to states, in the order of the model's definitions: `memories_f` where `f` writes
neither memory, `formed_f` where it may. A rule is proved from those of the functions it calls. -/

namespace Sys2Proof.Machine

/-- The two byte memories of a device: HBM and NVM. -/
def memories (s : State) : Mem × Mem := (s.hbm, s.nvm.mem)

/-- Both of two memories are in canonical form. -/
def Formed (m : Mem × Mem) : Prop := memWf hbmUnlisted m.1 = true ∧ memWf nvmUnlisted m.2 = true

theorem memCanonical_iff (s : State) : MemCanonical s ↔ Formed (memories s) := Iff.rfl

/-! ### Record updates, branches, options and folds -/

@[simp] theorem memories_mk {clk : Clk} {boot : Boot} {pcie : Pcie} {host : HostIf} {cfg : Cfg} {cmds : Cmds} {nvm : Nvm}
    {sec : Sec} {chain : Chain} {bist : Bist} {ing : Ingest} {web : Web} {afe : Afe} {hbm : Mem} {sent : List Emit} {free : Nat}
    {pending : List Instr} :
    memories ⟨clk, boot, pcie, host, cfg, cmds, nvm, sec, chain, bist, ing, web, afe, hbm, sent, free, pending⟩ =
      (hbm, nvm.mem) := by rfl

@[simp] theorem hbm_nvm_eq (s : State) : (s.hbm, s.nvm.mem) = memories s := by rfl

@[simp] theorem memories_ite (p : Prop) [Decidable p] (s t : State) :
    memories (if p then s else t) = if p then memories s else memories t := apply_ite ..

@[simp] theorem memories_ite_snd {α : Type} (p : Prop) [Decidable p] (x y : α × State) :
    memories (if p then x else y).2 = if p then memories x.2 else memories y.2 :=
  apply_ite (fun z : α × State => memories z.2) ..

@[simp] theorem memories_getD_map {α : Type} {f : α → State} {s : State} (h : ∀ x, memories (f x) = memories s)
    (o : Option α) : memories ((o.map f).getD s) = memories s := by
  cases o with
  | none => rfl
  | some x => exact h x

@[simp] theorem memories_foldl {α : Type} {f : State → α → State} (h : ∀ u x, memories (f u x) = memories u)
    (l : List α) (s : State) : memories (l.foldl f s) = memories s := by
  induction l generalizing s with
  | nil => rfl
  | cons x xs ih => exact (ih _).trans (h s x)

@[simp] theorem memories_foldl_snd {α β : Type} {f : β × State → α → β × State}
    (h : ∀ u x, memories (f u x).2 = memories u.2) (l : List α) (u : β × State) :
    memories (l.foldl f u).2 = memories u.2 := by
  induction l generalizing u with
  | nil => rfl
  | cons x xs ih => exact (ih _).trans (h u x)

@[simp] theorem formed_ite (p : Prop) [Decidable p] (m n : Mem × Mem) :
    Formed (if p then m else n) ↔ (p → Formed m) ∧ (¬p → Formed n) := by split <;> simp_all

theorem formed_foldl {α : Type} {f : State → α → State} {s : State}
    (hf : ∀ u x, Formed (memories u) → Formed (memories (f u x))) (l : List α) (h : Formed (memories s)) :
    Formed (memories (l.foldl f s)) := by
  induction l generalizing s with
  | nil => exact h
  | cons x xs ih => exact ih (hf s x h)

theorem formed_foldl_snd {α β : Type} {f : β × State → α → β × State} {u : β × State}
    (hf : ∀ u x, Formed (memories u.2) → Formed (memories (f u x).2)) (l : List α) (h : Formed (memories u.2)) :
    Formed (memories (l.foldl f u).2) := by
  induction l generalizing u with
  | nil => exact h
  | cons x xs ih => exact ih (hf u x h)

theorem BookOnly.memories {s t : State} (h : BookOnly s t) : memories t = memories s := by
  rw [BookOnly] at h
  rw [h]
  rfl

theorem CountersOnly.memories {s t : State} (h : CountersOnly s t) : memories t = memories s := by
  rw [CountersOnly] at h
  rw [h]
  rfl

/-! ### Shared operations -/

@[simp] theorem memories_unlessTripped {f : State → State} (hf : ∀ u, memories (f u) = memories u) (s : State) :
    memories (unlessTripped f s) = memories s := by
  unfold unlessTripped
  split
  · rfl
  · exact hf s

@[simp] theorem memories_takeSel {sel : Nat → Bool} {part : Nat × Nat} {ok : Accepted → Bool} (s : State) :
    memories (takeSel sel part ok s) = memories s := by rfl

@[simp] theorem memories_takePart {blk inst : Nat} (s : State) :
    memories (takePart blk inst s) = memories s := by rfl

@[simp] theorem memories_passTokens {k n : Nat} (s : State) : memories (passTokens k n s) = memories s := by rfl

@[simp] theorem formed_hbmWrite {a : Nat} {bs : List Byte} {s : State} (h : Formed (memories s)) :
    Formed (memories (hbmWrite a bs s)) :=
  ⟨memWf_memWriteN a bs h.1, h.2⟩

@[simp] theorem formed_nvmStore {a : Nat} {bs : List Byte} {s : State} (h : Formed (memories s)) :
    Formed (memories (nvmStore a bs s)) :=
  ⟨h.1, memWf_memWriteN a bs h.2⟩

@[simp] theorem memories_countLife {i : Nat} (s : State) : memories (countLife i s) = memories s := by rfl

@[simp] theorem memories_emit {e : Emit} (s : State) :
    memories (emit e s) = memories s := (emit_traffic _ _).book.memories

@[simp] theorem memories_setFeltPort {k : Nat} {p : FeltPort} (s : State) :
    memories (setFeltPort k p s) = memories s := (setFeltPort_traffic _ _ _).book.memories

@[simp] theorem memories_feltPump {k : Nat} {n : Nat} (s : State) :
    memories (feltPump k n s) = memories s := (feltPump_traffic _ _ _).book.memories

@[simp] theorem memories_feltOn {k : Nat} {pkt : FeltPacket} (s : State) :
    memories (feltOn k pkt s) = memories s := (feltOn_traffic _ _ _).book.memories

@[simp] theorem memories_feltRoute {p : FeltPacket} (s : State) :
    memories (feltRoute p s) = memories s := (feltRoute_traffic _ _).book.memories

@[simp] theorem memories_feltTo {dst ptype : Nat} {payload : List Byte} (s : State) :
    memories (feltTo dst ptype payload s) = memories s := (feltTo_traffic _ _ _ _).book.memories

@[simp] theorem memories_hostWrite {a : Nat} {bs : List Byte} (s : State) :
    memories (hostWrite a bs s) = memories s := (hostWrite_traffic _ _ _).book.memories

@[simp] theorem memories_msixSend {v : Nat} (s : State) :
    memories (msixSend v s) = memories s := (msixSend_book _ _).memories

@[simp] theorem memories_logRaise {n cause detail sev : Nat} (s : State) :
    memories (logRaise n cause detail sev s) = memories s := (logRaise_book _ _ _ _ _).memories

@[simp] theorem memories_raiseMet {met : Bool} {n cause detail : Nat} (s : State) :
    memories (raiseMet met n cause detail s) = memories s := (raiseMet_book _ _ _ _ _).memories

@[simp] theorem memories_raise {n cause detail : Nat} (s : State) :
    memories (raise n cause detail s) = memories s := (raise_book _ _ _ _).memories

@[simp] theorem memories_grpEval {g : Nat} (s : State) :
    memories (grpEval g s) = memories s := (grpEval_book _ _).memories

@[simp] theorem memories_grpAdd {g : Option Nat} {n : Nat} (s : State) :
    memories (grpAdd g n s) = memories s := (grpAdd_book _ _ _).memories

@[simp] theorem memories_grpSettle {g : Option Nat} (s : State) :
    memories (grpSettle g s) = memories s := (grpSettle_book _ _).memories

/-! ### Encoders -/

@[simp] theorem memories_setEnc {e : Nat} {x : Enc} (s : State) : memories (setEnc e x s) = memories s := by rfl

@[simp] theorem memories_encMoved {e : Nat} {oldE newE : Int} (s : State) :
    memories (encMoved e oldE newE s) = memories s := by simp [encMoved]

@[simp] theorem memories_encRestart {e : Nat} (s : State) :
    memories (encRestart e s) = memories s := by simp [encRestart]

@[simp] theorem memories_couchFresh {e : Nat} (s : State) :
    memories (couchFresh e s) = memories s := by simp [couchFresh]

@[simp] theorem memories_encPreset {e : Nat} (s : State) :
    memories (encPreset e s) = memories s := by simp [encPreset]

@[simp] theorem memories_encEdgeBody {e : Nat} {a b : Bool} (s : State) :
    memories (encEdgeBody e a b s) = memories s := by simp [encEdgeBody]

@[simp] theorem memories_encZBody {e : Nat} (s : State) : memories (encZBody e s) = memories s := by
  simp only [encZBody]
  repeat' split
  all_goals simp

@[simp] theorem memories_encSampleBody {e : Nat} (s : State) :
    memories (encSampleBody e s) = memories s := by simp [encSampleBody]

/-! ### The AFE die -/

@[simp] theorem memories_updChan {n : Nat} {f : Chan → Chan} (s : State) :
    memories (updChan n f s) = memories s := by rfl

@[simp] theorem memories_updDry {p : Nat} {f : Dry → Dry} (s : State) :
    memories (updDry p f s) = memories s := by rfl

@[simp] theorem memories_updHk {u : Nat} {f : Hk → Hk} (s : State) : memories (updHk u f s) = memories s := by rfl

@[simp] theorem memories_updSp {n : Nat} {f : Sp → Sp} (s : State) : memories (updSp n f s) = memories s := by rfl

@[simp] theorem memories_spStart {n : Nat} {f : SpFrame} (s : State) :
    memories (spStart n f s) = memories s := by rfl

@[simp] theorem memories_spNext {n : Nat} {fs : List SpFrame} (s : State) :
    memories (spNext n fs s) = memories s := by
  induction fs generalizing s with
  | nil => rfl
  | cons f fs ih => simp [spNext, ih]

@[simp] theorem memories_spPump {n : Nat} (s : State) : memories (spPump n s) = memories s := by simp [spPump]

@[simp] theorem memories_spQueue {n : Nat} {f : SpFrame} (s : State) :
    memories (spQueue n f s) = memories s := by simp [spQueue]

@[simp] theorem memories_shutFault {p cause : Nat} (s : State) :
    memories (shutFault p cause s) = memories s := by simp [shutFault]

@[simp] theorem memories_shutCut {n : Nat} (s : State) : memories (shutCut n s) = memories s := by
  refine memories_foldl (fun s p => ?_) _ s
  split <;> simp

@[simp] theorem memories_hkLose {u k : Nat} (s : State) : memories (hkLose u k s) = memories s := by simp [hkLose]

@[simp] theorem memories_hkTrigger {u k : Nat} (s : State) :
    memories (hkTrigger u k s) = memories s := by simp [hkTrigger]

@[simp] theorem memories_swTrigger {u v : Nat} (s : State) :
    memories (swTrigger u v s) = memories s := by simp [swTrigger]

@[simp] theorem memories_shutTrigger {p : Nat} (s : State) :
    memories (shutTrigger p s) = memories s := by simp [shutTrigger]

/-! ### Commands in flight -/

@[simp] theorem memories_putCmd {c : Cmd} (s : State) : memories (putCmd c s) = memories s := by rfl

@[simp] theorem memories_setSlot {n : Nat} {x : Slot} (s : State) :
    memories (setSlot n x s) = memories s := by rfl

@[simp] theorem memories_beginWork {c : Cmd} {total : Nat} (s : State) :
    memories (beginWork c total s).2 = memories s := by
  simp only [beginWork]
  repeat' split
  all_goals simp

@[simp] theorem memories_progressTo {c : Cmd} {pos : Nat} (s : State) :
    memories (progressTo c pos s).2 = memories s := by
  simp only [progressTo]
  split <;> simp

@[simp] theorem memories_writeCqe {sq : Nat} {tag : W32} {status percent result position : Nat} {interim : Bool}
    (s : State) :
    memories (writeCqe sq tag status percent result position interim s) = memories s :=
  (writeCqe_book _ _ _ _ _ _ _ _).memories

@[simp] theorem memories_cplWrite {w : Waiting} (s : State) :
    memories (cplWrite w s) = memories s := (cplWrite_book _ _).memories

@[simp] theorem memories_finishOnly {c : Cmd} {status percent result position : Nat} (s : State) :
    memories (finishOnly c status percent result position s) = memories s :=
  (finishOnly_book _ _ _ _ _ _).memories

@[simp] theorem memories_settlePairs {n : Nat} (s : State) :
    memories (settlePairs n s) = memories s := (settlePairs_book _ _).memories

@[simp] theorem memories_waitingWrite (s : State) :
    memories (waitingWrite s) = memories s := by simp [waitingWrite]

@[simp] theorem memories_finish {c : Cmd} {status percent result position : Nat} (s : State) :
    memories (finish c status percent result position s) = memories s := (finish_book _ _ _ _ _ _).memories

@[simp] theorem memories_finishOk {c : Cmd} {result position : Nat} (s : State) :
    memories (finishOk c result position s) = memories s := by simp [finishOk]

@[simp] theorem memories_finishErr {c : Cmd} {status result : Nat} (s : State) :
    memories (finishErr c status result s) = memories s := by simp [finishErr]

@[simp] theorem memories_finishCheck {c : Cmd} {status : Nat} (s : State) :
    memories (finishCheck c status s) = memories s := by simp [finishCheck]

@[simp] theorem memories_finishHostFail {c : Cmd} {position : Nat} (s : State) :
    memories (finishHostFail c position s) = memories s := by simp [finishHostFail]

@[simp] theorem memories_runCmd {sq : Nat} {tag : W32} {op : Nat} {start cont : Cmd → State → State}
    (hstart : ∀ x u, memories (start x u) = memories u) (hcont : ∀ x u, memories (cont x u) = memories u)
    (s : State) : memories (runCmd sq tag op start cont s) = memories s := by
  simp only [runCmd]
  split <;> simp [hstart, hcont]

theorem formed_runCmd {sq : Nat} {tag : W32} {op : Nat} {start cont : Cmd → State → State} {s : State}
    (hstart : ∀ x u, Formed (memories u) → Formed (memories (start x u)))
    (hcont : ∀ x u, Formed (memories u) → Formed (memories (cont x u))) (h : Formed (memories s)) :
    Formed (memories (runCmd sq tag op start cont s)) := by
  simp only [runCmd]
  split <;> simp [hstart, hcont, h]

/-! ### Defect records -/

@[simp] theorem memories_knotUpd {f : Knot → Knot} (s : State) : memories (knotUpd f s) = memories s := by rfl

@[simp] theorem memories_couchUpd {f : Couch → Couch} (s : State) : memories (couchUpd f s) = memories s := by rfl

@[simp] theorem memories_histUpd {f : Hist → Hist} (s : State) : memories (histUpd f s) = memories s := by rfl

@[simp] theorem memories_ringDrop {src : Nat} {n : Nat} {r : Ring} {put : Ring → State → State}
    (hput : ∀ x u, memories (put x u) = memories u) (s : State) :
    memories (ringDrop src n r put s) = memories s := by simp [ringDrop, hput]

@[simp] theorem memories_putDq {n : Nat} {r : Ring} (s : State) : memories (putDq n r s) = memories s := by rfl

@[simp] theorem memories_putSr {n : Nat} {r : Ring} (s : State) : memories (putSr n r s) = memories s := by rfl

@[simp] theorem memories_formRec {r : RecFields} {tile : Option Nat} (s : State) :
    memories (formRec r tile s) = memories s := by
  simp only [formRec]
  split <;> simp

@[simp] theorem memories_blindBands {iv : BlindIv} {start len right : Int} {n : Nat} {left : Int} (s : State) :
    memories (blindBands iv start len right n left s) = memories s := by
  induction n generalizing left s with
  | zero => rfl
  | succ n ih => simp [blindBands, ih]

@[simp] theorem memories_blindPiece {iv : BlindIv} {start stop : Int} (s : State) :
    memories (blindPiece iv start stop s) = memories s := by
  simp only [blindPiece]
  repeat' split
  all_goals simp

@[simp] theorem memories_blindPieces {limit : Int} {n : Nat} {iv : BlindIv} (s : State) :
    memories (blindPieces limit n iv s).2 = memories s := by
  induction n generalizing iv s with
  | zero => rfl
  | succ n ih => simp [blindPieces, ih]

@[simp] theorem memories_blindOpen {kind source cause tag : Nat} {start : Int} (s : State) :
    memories (blindOpen kind source cause tag start s) = memories s := by rfl

@[simp] theorem memories_blindClose {source cause tag : Nat} {stop : Int} (s : State) :
    memories (blindClose source cause tag stop s) = memories s := by
  simp only [blindClose]
  split <;> simp

@[simp] theorem memories_blindWhole {kind source cause : Nat} {start stop : Int} (s : State) :
    memories (blindWhole kind source cause start stop s) = memories s := by simp [blindWhole]

@[simp] theorem memories_blindRow {lo : Int} (s : State) :
    memories (blindRow lo s) = memories s := by simp [blindRow]

/-! ### Lanes -/

@[simp] theorem memories_setLane {n : Nat} {l : Lane} (s : State) :
    memories (setLane n l s) = memories s := by rfl

@[simp] theorem memories_bringUpSeeds {n : Nat} (s : State) : memories (bringUpSeeds n s) = memories s := by
  simp only [bringUpSeeds]
  split <;> simp

@[simp] theorem memories_bringUpResume {n : Nat} (s : State) : memories (bringUpResume n s) = memories s := by rfl

@[simp] theorem memories_freshTimers {n : Nat} (s : State) : memories (freshTimers n s) = memories s := by rfl

@[simp] theorem memories_laneOff {n : Nat} (s : State) : memories (laneOff n s) = memories s := by rfl

@[simp] theorem memories_trainDone {n : Nat} (s : State) :
    memories (trainDone n s) = memories s := by simp [trainDone]

@[simp] theorem memories_prbsHold {old : State} {n : Nat} (s : State) :
    memories (prbsHold old n s) = memories s := by rfl

/-! ### Routes of the chain -/

@[simp] theorem memories_updMap {d : Nat} {f : MapEntry → MapEntry} (s : State) :
    memories (updMap d f s) = memories s := by rfl

@[simp] theorem memories_feltGather (s : State) : memories (feltGather s) = memories s := by simp [feltGather]

@[simp] theorem memories_holdFlush (s : State) : memories (holdFlush s) = memories s := by simp [holdFlush]

@[simp] theorem memories_notifyAll {payload : List Byte} (s : State) :
    memories (notifyAll payload s) = memories s := by simp [notifyAll]

@[simp] theorem memories_linkNoted {d port nb nbPort : Nat} (s : State) :
    memories (linkNoted d port nb nbPort s) = memories s := by simp [linkNoted]

@[simp] theorem memories_linkNotice {k : Nat} {up : Bool} (s : State) :
    memories (linkNotice k up s) = memories s := by simp [linkNotice]

@[simp] theorem memories_packetLost {p : FeltPacket} (s : State) :
    memories (packetLost p s) = memories s := by simp [packetLost]

@[simp] theorem memories_deviceLost {d : Nat} (s : State) :
    memories (deviceLost d s) = memories s := by simp [deviceLost]

@[simp] theorem memories_reparent {dist : Tbl Nat} (s : State) :
    memories (reparent dist s) = memories s := by simp [reparent]

@[simp] theorem memories_recompute (s : State) : memories (recompute s) = memories s := by simp [recompute]

/-! ### Reels -/

@[simp] theorem memories_updReel {r : Nat} {f : Reel → Reel} (s : State) :
    memories (updReel r f s) = memories s := by rfl

@[simp] theorem memories_unitDeliver {r : Nat} {bytes : List Byte} (s : State) :
    memories (unitDeliver r bytes s) = memories s := by
  simp only [unitDeliver]
  split <;> simp

@[simp] theorem memories_unitClose {r : Nat} (s : State) : memories (unitClose r s) = memories s := by
  simp only [unitClose]
  split <;> simp

@[simp] theorem memories_unitAdd {r : Nat} {o : OutRow} (s : State) :
    memories (unitAdd r o s) = memories s := by simp [unitAdd]

@[simp] theorem memories_upStage {r : Nat} {d : DownRow} (s : State) :
    memories (upStage r d s) = memories s := by simp [upStage]

@[simp] theorem memories_groupClose {r : Nat} (s : State) : memories (groupClose r s) = memories s := by
  simp only [groupClose]
  split <;> simp

@[simp] theorem memories_reelTake {r : Nat} (s : State) : memories (reelTake r s) = memories s := by
  simp only [reelTake]
  split <;> simp

@[simp] theorem memories_reelDrain {r : Nat} {n : Nat} (s : State) : memories (reelDrain r n s) = memories s := by
  induction n generalizing s with
  | zero => rfl
  | succ n ih => simp [reelDrain, ih]

@[simp] theorem memories_upFlush {r : Nat} (s : State) : memories (upFlush r s) = memories s := by
  simp only [upFlush]
  split <;> simp

@[simp] theorem memories_unitCut {r : Nat} (s : State) : memories (unitCut r s) = memories s := by simp [unitCut]

@[simp] theorem memories_reelFlush {r : Nat} (s : State) :
    memories (reelFlush r s) = memories s := by simp [reelFlush]

@[simp] theorem memories_reelBoundary {r : Nat} {lim : Option Nat} (s : State) :
    memories (reelBoundary r lim s) = memories s := by simp [reelBoundary]

@[simp] theorem memories_reelPush {r : Nat} {q : ReelIn} (s : State) :
    memories (reelPush r q s) = memories s := by rfl

@[simp] theorem memories_reelRaw {p : Nat} {num : Nat} {md : Int} {flags spp stripeTb : Nat} {samples : List Nat}
    (s : State) : memories (reelRaw p num md flags spp stripeTb samples s) = memories s := by simp [reelRaw]

@[simp] theorem memories_rawStops {p : Nat} (s : State) :
    memories (rawStops p s) = memories s := by simp [rawStops]

/-! ### Boundaries of couch, knotter and reels -/

@[simp] theorem memories_couchLaid {lim : Option Nat} (s : State) :
    memories (couchLaid lim s) = memories s := by rfl

@[simp] theorem memories_srcFresh {old : State} (s : State) :
    memories (srcFresh old s) = memories s := by simp [srcFresh]

@[simp] theorem memories_couchTake {lim : Option Nat} (s : State) :
    memories (couchTake lim s) = memories s := by simp [couchTake]

@[simp] theorem memories_couchDryerTake {p : Nat} {ok : Accepted → Bool} (s : State) :
    memories (couchDryerTake p ok s) = memories s := by rfl

@[simp] theorem memories_couchDryerReach {p : Nat} (s : State) : memories (couchDryerReach p s) = memories s := by
  simp only [couchDryerReach]
  split <;> simp

@[simp] theorem memories_thermSeen {p tb : Nat} (s : State) :
    memories (thermSeen p tb s) = memories s := by simp [thermSeen]

@[simp] theorem memories_thermMove {k : Nat} (s : State) :
    memories (thermMove k s) = memories s := by simp [thermMove]

@[simp] theorem memories_sliceTake {k : Nat} {lim : Option Nat} (s : State) :
    memories (sliceTake k lim s) = memories s := by simp [sliceTake]

@[simp] theorem memories_mergerLay {ok : Accepted → Bool} (s : State) :
    memories (mergerLay ok s) = memories s := by simp [mergerLay]

@[simp] theorem memories_mergerTake {lim : Option Nat} (s : State) :
    memories (mergerTake lim s) = memories s := by simp [mergerTake]

@[simp] theorem memories_slicesIdle (s : State) : memories (slicesIdle s) = memories s := by simp [slicesIdle]

@[simp] theorem memories_webTested (s : State) : memories (webTested s) = memories s := by simp [webTested]

@[simp] theorem memories_webStopped (s : State) : memories (webStopped s) = memories s := by simp [webStopped]

@[simp] theorem memories_couchDryerIdle (s : State) :
    memories (couchDryerIdle s) = memories s := by simp [couchDryerIdle]

/-! ### Headboxes -/

@[simp] theorem memories_setPort {p : Nat} {x : Port} (s : State) :
    memories (setPort p x s) = memories s := by rfl

@[simp] theorem memories_updPort {p : Nat} {f : Port → Port} (s : State) :
    memories (updPort p f s) = memories s := by rfl

@[simp] theorem memories_setLink {r : Nat} {l : Link} (s : State) :
    memories (setLink r l s) = memories s := by simp [setLink]

@[simp] theorem memories_sendBlocks {r off : Nat} {follow : Bool} {lanes : List (List Block)} (s : State) :
    memories (sendBlocks r off follow lanes s) = memories s := by simp [sendBlocks]

@[simp] theorem memories_linkBlocks {r off w : Nat} {bs : List Block} (s : State) :
    memories (linkBlocks r off w bs s) = memories s := by simp [linkBlocks]

@[simp] theorem memories_linkPacketOn {r off w ptype : Nat} {payload : List Byte} (s : State) :
    memories (linkPacketOn r off w ptype payload s) = memories s := by simp [linkPacketOn]

@[simp] theorem memories_linkPacket {r ptype : Nat} {payload : List Byte} (s : State) :
    memories (linkPacket r ptype payload s) = memories s := by simp [linkPacket]

@[simp] theorem memories_truncate {p sid : Nat} (s : State) : memories (truncate p sid s) = memories s := by
  simp only [truncate]
  split <;> simp

@[simp] theorem memories_pipeLeave {p : Nat} {it : Item} (s : State) :
    memories (pipeLeave p it s) = memories s := by simp [pipeLeave]

@[simp] theorem memories_stripeSweep {p : Nat} (s : State) : memories (stripeSweep p s) = memories s := by rfl

@[simp] theorem memories_pipePump {p : Nat} {n : Nat} (s : State) : memories (pipePump p n s) = memories s := by
  induction n generalizing s with
  | zero => rfl
  | succ n ih => 
    simp only [pipePump]
    split
    · rfl
    · split <;> simp [ih]

@[simp] theorem formed_rawWrite {block off : Nat} {bs : List Byte} {s : State} (h : Formed (memories s)) :
    Formed (memories (rawWrite block off bs s)) := by simp [rawWrite, h]

@[simp] theorem formed_rawBegin {p sid : Nat} {s : State} (h : Formed (memories s)) :
    Formed (memories (rawBegin p sid s)) := by simp [rawBegin, h]

@[simp] theorem formed_rawLine {block num : Nat} {md : Int} {tb flags : Nat} {samples : List Nat} {s : State}
    (h : Formed (memories s)) :
    Formed (memories (rawLine block num md tb flags samples s)) := by
  simp only [rawLine]
  split <;> simp [h]

@[simp] theorem formed_rawClose {block : Nat} {s : State} (h : Formed (memories s)) :
    Formed (memories (rawClose block s)) := by
  simp only [rawClose]
  split <;> simp [h]

@[simp] theorem memories_setTab {p bank i : Nat} {x : TabItem} (s : State) :
    memories (setTab p bank i x s) = memories s := by rfl

@[simp] theorem memories_releaseBank {p bank : Nat} (s : State) :
    memories (releaseBank p bank s) = memories s := by rfl

@[simp] theorem memories_layTables {p : Nat} {vals : Tbl Nat} (s : State) :
    memories (layTables p vals s) = memories s := by
  simp only [layTables]
  repeat' split
  all_goals simp

@[simp] theorem memories_layAll {vals : Tbl Nat} (s : State) : memories (layAll vals s) = memories s := by rfl

@[simp] theorem memories_dropParts {seq : W32} {gone : List (Nat × Nat)} {add : List (Nat × Nat)} (s : State) :
    memories (dropParts seq gone add s) = memories s := by rfl

@[simp] theorem memories_supersede {part : Nat × Nat} {vals : Tbl Nat} (s : State) :
    memories (supersede part vals s) = memories s := by rfl

@[simp] theorem memories_sendSetting {p seq : Nat} (s : State) :
    memories (sendSetting p seq s) = memories s := by simp [sendSetting]

@[simp] theorem memories_forgetPositions {old : State} {p : Nat} (s : State) :
    memories (forgetPositions old p s) = memories s := by simp [forgetPositions]

@[simp] theorem memories_bindFaults {p : Nat} (s : State) :
    memories (bindFaults p s) = memories s := by simp [bindFaults]

@[simp] theorem memories_unbind {old : State} {p : Nat} (s : State) :
    memories (unbind old p s) = memories s := by simp [unbind]

@[simp] theorem memories_portGroup {p : Nat} {g : Accepted} (s : State) :
    memories (portGroup p g s) = memories s := by
  simp only [portGroup]
  repeat' split
  all_goals simp

@[simp] theorem memories_portBoundary {p : Nat} (s : State) :
    memories (portBoundary p s) = memories s := by simp [portBoundary]

@[simp] theorem memories_settingsAt {p num : Nat} (s : State) :
    memories (settingsAt p num s).2 = memories s := by simp [settingsAt]

@[simp] theorem memories_writesSweep {p : Nat} (s : State) : memories (writesSweep p s) = memories s := by rfl

@[simp] theorem memories_settingFails {p : Nat} {w : SetWrite} {cause : Nat} (s : State) :
    memories (settingFails p w cause s) = memories s := by simp [settingFails]

@[simp] theorem memories_plansTake (s : State) : memories (plansTake s) = memories s := by simp [plansTake]

@[simp] theorem memories_wireUntied {w : Nat} (s : State) : memories (wireUntied w s) = memories s := by rfl

@[simp] theorem memories_wiresTake (s : State) : memories (wiresTake s) = memories s := by simp [wiresTake]

@[simp] theorem formed_beginStripe {p : Nat} {s : State} (h : Formed (memories s)) :
    Formed (memories (beginStripe p s)) := by simp [beginStripe, h]

@[simp] theorem memories_finishStops {blk p n : Nat} (s : State) :
    memories (finishStops blk p n s) = memories s := by simp [finishStops]

@[simp] theorem memories_landWrites {p : Nat} (s : State) :
    memories (landWrites p s) = memories s := by simp [landWrites]

@[simp] theorem memories_portHalt {p : Nat} (s : State) :
    memories (portHalt p s) = memories s := by simp [portHalt]

@[simp] theorem formed_rawSettle {p sid : Nat} {s : State} (h : Formed (memories s)) :
    Formed (memories (rawSettle p sid s)) := by
  simp only [rawSettle]
  repeat' split
  all_goals simp [h]

@[simp] theorem formed_closeStripe {p : Nat} {force : Bool} {s0 : State} (h : Formed (memories s0)) :
    Formed (memories (closeStripe p force s0)) := by
  simp only [closeStripe]
  split <;> simp [h]

@[simp] theorem formed_countLine {p : Nat} {tb : Nat} {latch : Bool} {md : Int} {flags0 : Nat} {expected : Bool}
    {samples : Option (List Nat)} {s : State} (h : Formed (memories s)) :
    Formed (memories (countLine p tb latch md flags0 expected samples s)) := by
  simp only [countLine]
  repeat' split
  all_goals simp [h]

@[simp] theorem memories_lateStamp {x : LateStamp} (s : State) :
    memories (lateStamp x s) = memories s := by simp [lateStamp]

@[simp] theorem memories_lateStampsDue (s : State) :
    memories (lateStampsDue s) = memories s := by simp [lateStampsDue]

@[simp] theorem memories_countKinds {p : Nat} {bad short long_ : Bool} (s : State) :
    memories (countKinds p bad short long_ s) = memories s := by rfl

@[simp] theorem formed_countDue {p : Nat} {l : LineDue} {s : State} (h : Formed (memories s)) :
    Formed (memories (countDue p l s)) := by
  simp only [countDue]
  split <;> simp [h]

@[simp] theorem formed_lineCount {p : Nat} {l : LineDue} {s : State} (h : Formed (memories s)) :
    Formed (memories (lineCount p l s)) := by simp [lineCount, h]

@[simp] theorem formed_linesDue {s : State} (h : Formed (memories s)) :
    Formed (memories (linesDue s)) := by
  unfold linesDue
  split
  · exact h
  · simp only [memories_mk, hbm_nvm_eq]
    refine formed_foldl_snd (fun u x hu => ?_) _ h
    split <;> simp [hu]

@[simp] theorem formed_dropPartial {p : Nat} {s : State} (h : Formed (memories s)) :
    Formed (memories (dropPartial p s)) := by
  simp only [dropPartial]
  split <;> simp [h]

@[simp] theorem formed_endLine {p : Nat} {s : State} (h : Formed (memories s)) :
    Formed (memories (endLine p s)) := by
  simp only [endLine]
  split <;> simp [h]

@[simp] theorem memories_openLine {p : Nat} {seq : Option Nat} (s : State) :
    memories (openLine p seq s) = memories s := by rfl

@[simp] theorem memories_spoilLine {p : Nat} (s : State) : memories (spoilLine p s) = memories s := by rfl

@[simp] theorem formed_issueTrigger {p : Nat} {s : State} (h : Formed (memories s)) :
    Formed (memories (issueTrigger p s)) := by simp [issueTrigger, h]

@[simp] theorem formed_portTryStart {p : Nat} {s : State} (h : Formed (memories s)) :
    Formed (memories (portTryStart p s)) := by simp [portTryStart, h]

/-! ### The couch -/

@[simp] theorem memories_updContrib {c : Nat} {f : Contrib → Contrib} (s : State) :
    memories (updContrib c f s) = memories s := by rfl

@[simp] theorem memories_closeUpTo {c : Nat} {k : Int} (s : State) :
    memories (closeUpTo c k s) = memories s := by simp [closeUpTo]

@[simp] theorem formed_srcCopy {r : GridRow} {s : State} (h : Formed (memories s)) :
    Formed (memories (srcCopy r s)) := by simp [srcCopy, h]

@[simp] theorem formed_srcCopyTherm {k : Int} {cells : List (Nat × Nat)} {s : State} (h : Formed (memories s)) :
    Formed (memories (srcCopyTherm k cells s)) := by simp [srcCopyTherm, h]

@[simp] theorem formed_viewStep {s : State} (h : Formed (memories s)) :
    Formed (memories (viewStep s)) := by
  simp only [viewStep]
  repeat' split
  all_goals simp [h]

@[simp] theorem memories_viewClose (s : State) : memories (viewClose s) = memories s := by
  simp only [viewClose]
  split <;> simp

@[simp] theorem memories_viewAdd {r : GridRow} (s : State) :
    memories (viewAdd r s) = memories s := by simp [viewAdd]

@[simp] theorem memories_gapStep {k : Int} {cells : List (Option (List Nat))} {src : Nat} {data any : Bool} (s : State) :
    memories (gapStep k cells src data any s) = memories s := by
  simp only [gapStep]
  repeat' split
  all_goals simp

@[simp] theorem memories_thermFlag {k : Int} {absent : Bool} (s : State) :
    memories (thermFlag k absent s) = memories s := by simp [thermFlag]

@[simp] theorem memories_seamForced {k : Int} {d : Nat} (s : State) :
    memories (seamForced k d s) = memories s := by simp [seamForced]

@[simp] theorem memories_forcedEvents {k : Int} {why : EmitWhy} (s : State) :
    memories (forcedEvents k why s) = memories s := by
  simp only [forcedEvents]
  split <;> simp

@[simp] theorem memories_reelsGrid {row : GridRow} (s : State) :
    memories (reelsGrid row s) = memories s := by simp [reelsGrid]

@[simp] theorem formed_emitRow {k : Int} {why : EmitWhy} {s : State} (h : Formed (memories s)) :
    Formed (memories (emitRow k why s)) := by simp [emitRow, h]

@[simp] theorem memories_rowBoundary {k : Int} (s : State) :
    memories (rowBoundary k s) = memories s := by simp [rowBoundary]

@[simp] theorem memories_rowBoundaryOpen {k : Int} (s : State) :
    memories (rowBoundaryOpen k s) = memories s := by simp [rowBoundaryOpen]

@[simp] theorem formed_makeRoom {p bytes : Nat} {n : Nat} {s : State} (h : Formed (memories s)) :
    Formed (memories (makeRoom p bytes n s)) := by
  induction n generalizing s with
  | zero => exact h
  | succ n ih =>
    simp only [makeRoom]
    repeat' split
    · exact h
    · exact h
    · exact h
    · exact ih (by simp [h])

@[simp] theorem memories_feltNeighbour {k ptype : Nat} {payload : List Byte} (s : State) :
    memories (feltNeighbour k ptype payload s) = memories s := by simp [feltNeighbour]

@[simp] theorem memories_edgeSend {p d : Nat} {row : Int} (s : State) :
    memories (edgeSend p d row s) = memories s := by simp [edgeSend]

@[simp] theorem memories_portCloses {p : Nat} {k : Int} (s : State) :
    memories (portCloses p k s) = memories s := by
  simp only [portCloses]
  split <;> simp

@[simp] theorem memories_thermAdd {row : Int} {col v flags tb : Nat} (s : State) :
    memories (thermAdd row col v flags tb s) = memories s := by rfl

@[simp] theorem memories_thermOutside (s : State) : memories (thermOutside s) = memories s := by rfl

@[simp] theorem memories_thermPut {g row : Int} {v flags tb : Nat} (s : State) :
    memories (thermPut g row v flags tb s) = memories s := by simp [thermPut]

@[simp] theorem memories_thermPixel {views : List DryView} {p x y v : Nat} {md : Int} {flags tb : Nat} (s : State) :
    memories (thermPixel views p x y v md flags tb s) = memories s := by
  simp only [thermPixel]
  split <;> simp

@[simp] theorem memories_thermClose {p : Nat} {k : Int} (s : State) :
    memories (thermClose p k s) = memories s := by rfl

@[simp] theorem formed_emitTherm {k : Int} {s : State} (h : Formed (memories s)) :
    Formed (memories (emitTherm k s)) := by simp [emitTherm, h]

/-! ### Brynlink links -/

@[simp] theorem memories_sendTrain {r : Nat} (s : State) :
    memories (sendTrain r s) = memories s := by simp [sendTrain]

@[simp] theorem formed_linkOut {r : Nat} {s : State} (h : Formed (memories s)) :
    Formed (memories (linkOut r s)) := by simp [linkOut, h]

@[simp] theorem memories_linkRaise {r : Nat} (s : State) :
    memories (linkRaise r s) = memories s := by simp [linkRaise]

@[simp] theorem formed_linkTo {r st : Nat} {s : State} (h : Formed (memories s)) :
    Formed (memories (linkTo r st s)) := by simp [linkTo, h]

@[simp] theorem formed_linkPoll {r : Nat} {s : State} (h : Formed (memories s)) :
    Formed (memories (linkPoll r s)) := by
  simp only [linkPoll]
  repeat' split
  all_goals simp [h]

@[simp] theorem formed_linkActive {r : Nat} {s : State} (h : Formed (memories s)) :
    Formed (memories (linkActive r s)) := by simp [linkActive, h]

@[simp] theorem formed_linkRequest {r w off : Nat} {s : State} (h : Formed (memories s)) :
    Formed (memories (linkRequest r w off s)) := by simp [linkRequest, h]

@[simp] theorem formed_linkFault {r : Nat} {unlock : Bool} {s : State} (h : Formed (memories s)) :
    Formed (memories (linkFault r unlock s)) := by
  simp only [linkFault]
  repeat' split
  all_goals simp [h]

@[simp] theorem formed_linkLaneLost {r n pos : Nat} {s : State} (h : Formed (memories s)) :
    Formed (memories (linkLaneLost r n pos s)) := by simp [linkLaneLost, h]

@[simp] theorem formed_linkTrain {r : Nat} {bs : List (List Byte)} {s : State} (h : Formed (memories s)) :
    Formed (memories (linkTrain r bs s)) := by simp [linkTrain, h]

@[simp] theorem formed_linkAm {r : Nat} {bs : List (List Byte)} {skew : Nat} {s : State} (h : Formed (memories s)) :
    Formed (memories (linkAm r bs skew s)) := by
  simp only [linkAm]
  repeat' split
  all_goals simp [h]

@[simp] theorem memories_linkAmSend {r : Nat} (s : State) :
    memories (linkAmSend r s) = memories s := by simp [linkAmSend]

@[simp] theorem formed_linkWidthAck {r w mask : Nat} {s : State} (h : Formed (memories s)) :
    Formed (memories (linkWidthAck r w mask s)) := by simp [linkWidthAck, h]

@[simp] theorem formed_linkTimeout {r : Nat} {s : State} (h : Formed (memories s)) :
    Formed (memories (linkTimeout r s)) := by simp [linkTimeout, h]

@[simp] theorem formed_linkRecovered {r : Nat} {s : State} (h : Formed (memories s)) :
    Formed (memories (linkRecovered r s)) := by simp [linkRecovered, h]

@[simp] theorem formed_linkFullWidth {r : Nat} {s : State} (h : Formed (memories s)) :
    Formed (memories (linkFullWidth r s)) := by simp [linkFullWidth, h]

@[simp] theorem formed_linkWidthReq {r w mask : Nat} {s : State} (h : Formed (memories s)) :
    Formed (memories (linkWidthReq r w mask s)) := by
  simp only [linkWidthReq]
  split <;> simp [h]

@[simp] theorem memories_linkCredit {r : Nat} (s : State) :
    memories (linkCredit r s) = memories s := by simp [linkCredit]

@[simp] theorem memories_linkFree {r len : Nat} (s : State) :
    memories (linkFree r len s) = memories s := by simp [linkFree]

@[simp] theorem memories_fromNb {k len : Nat} {act : State → State} (hact : ∀ u, memories (act u) = memories u)
    (s : State) : memories (fromNb k len act s) = memories s := by simp [fromNb, hact]

theorem formed_fromNb {k len : Nat} {act : State → State} {s : State}
    (hact : ∀ u, Formed (memories u) → Formed (memories (act u))) (h : Formed (memories s)) :
    Formed (memories (fromNb k len act s)) := by simp [fromNb, hact, h]

@[simp] theorem memories_fromUsable {k len : Nat} {act : State → State}
    (hact : ∀ u, memories (act u) = memories u) (s : State) :
    memories (fromUsable k len act s) = memories s := by simp [fromUsable, hact]

theorem formed_fromUsable {k len : Nat} {act : State → State} {s : State}
    (hact : ∀ u, Formed (memories u) → Formed (memories (act u))) (h : Formed (memories s)) :
    Formed (memories (fromUsable k len act s)) :=
  formed_fromNb (fun u hu => by simp [hact, hu]) h

@[simp] theorem formed_feltCommit {old : State} {k : Nat} {s : State} (h : Formed (memories s)) :
    Formed (memories (feltCommit old k s)) := by simp [feltCommit, h]

/-! ### Rows of the couch -/

@[simp] theorem memories_popPipe {p : Nat} {it : Item} (s : State) :
    memories (popPipe p it s) = memories s := by simp [popPipe]

@[simp] theorem memories_holdLine {p : Nat} {it : Item} {row : Int} {data : Bool} {addr len : Nat} (s : State) :
    memories (holdLine p it row data addr len s) = memories s := by simp [holdLine]

@[simp] theorem memories_lateLine {p : Nat} {it : Item} {row : Int} (s : State) :
    memories (lateLine p it row s) = memories s := by simp [lateLine]

@[simp] theorem formed_takeLine {p : Nat} {it : Item} {row : Int} {s : State} (h : Formed (memories s)) :
    Formed (memories (takeLine p it row s)) := by
  simp only [takeLine]
  repeat' split
  all_goals simp [h]

@[simp] theorem formed_couchLineBody {p : Nat} {s : State} (h : Formed (memories s)) :
    Formed (memories (couchLineBody p s)) := by
  simp only [couchLineBody]
  split <;> simp [h]

@[simp] theorem formed_rowEmitBody {s : State} (h : Formed (memories s)) :
    Formed (memories (rowEmitBody s)) := by
  simp only [rowEmitBody]
  split <;> simp [h]

@[simp] theorem formed_rowTimeoutBody {s : State} (h : Formed (memories s)) :
    Formed (memories (rowTimeoutBody s)) := by
  simp only [rowTimeoutBody]
  repeat' split
  all_goals simp [h]

@[simp] theorem memories_seamDrop (s : State) : memories (seamDrop s) = memories s := by rfl

@[simp] theorem memories_seamTake {d : Nat} {row : Int} {cols : List (Nat × List Nat × Nat)} (s : State) :
    memories (seamTake d row cols s) = memories s := by simp [seamTake]

@[simp] theorem memories_seamMismatch {d : Nat} (s : State) :
    memories (seamMismatch d s) = memories s := by simp [seamMismatch]

@[simp] theorem memories_edgeBody {k : Nat} {row : Int} {desc : Nat} {cols : List (Nat × List Nat × Nat)} (s : State) :
    memories (edgeBody k row desc cols s) = memories s := by
  simp only [edgeBody]
  split <;> simp

/-! ### Lanes that lose lock -/

@[simp] theorem formed_laneLost {n pos : Nat} {s : State} (h : Formed (memories s)) :
    Formed (memories (laneLost n pos s)) := by
  simp only [laneLost]
  repeat' split
  all_goals simp [h]

@[simp] theorem formed_leaveLocked {n reason : Nat} {s : State} (h : Formed (memories s)) :
    Formed (memories (leaveLocked n reason s)) := by simp [leaveLocked, h]

@[simp] theorem formed_laneCommit {old : State} {n : Nat} {s : State} (h : Formed (memories s)) :
    Formed (memories (laneCommit old n s)) := by simp [laneCommit, h]

@[simp] theorem formed_laneLocks {n : Nat} {inv : Bool} {id : Nat} {s : State} (h : Formed (memories s)) :
    Formed (memories (laneLocks n inv id s)) := by
  simp only [laneLocks]
  split <;> simp [h]

/-! ### Rows of the lanes -/

@[simp] theorem memories_laneReceives {n : Nat} {bad : List Bool} (s : State) :
    memories (laneReceives n bad s) = memories s := by rfl

@[simp] theorem formed_laneTrainStart {c : Cmd} {s : State} (h : Formed (memories s)) :
    Formed (memories (laneTrainStart c s)) := by simp [laneTrainStart, h]

@[simp] theorem memories_genStart {n pat : Nat} (s : State) : memories (genStart n pat s) = memories s := by rfl

@[simp] theorem memories_inject {n k : Nat} (s : State) : memories (inject n k s) = memories s := by rfl

@[simp] theorem formed_testOn {n pat : Nat} {gen chk : Bool} {s : State} (h : Formed (memories s)) :
    Formed (memories (testOn n pat gen chk s)) := by simp [testOn, h]

@[simp] theorem formed_laneTestStart {c : Cmd} {s : State} (h : Formed (memories s)) :
    Formed (memories (laneTestStart c s)) := by
  simp only [laneTestStart]
  repeat' split
  all_goals simp [h]

/-! ### The watermark drive -/

@[simp] theorem memories_skipJob {n : Nat} {cause : Nat} {late : Int} {j : MJob} (s : State) :
    memories (skipJob n cause late j s) = memories s := by
  simp only [skipJob]
  split <;> simp

@[simp] theorem memories_fireJob {n : Nat} {late : Bool} {j : MJob} (s : State) :
    memories (fireJob n late j s) = memories s := by
  simp only [fireJob]
  split <;> simp

@[simp] theorem memories_dropJob {j : MJob} (s : State) : memories (dropJob j s) = memories s := by
  simp only [dropJob]
  split <;> simp

@[simp] theorem memories_endDrive {n : Nat} (s : State) :
    memories (endDrive n s) = memories s := by simp [endDrive]

@[simp] theorem memories_killDrive {n : Nat} (s : State) :
    memories (killDrive n s) = memories s := by simp [killDrive]

@[simp] theorem memories_startDrive {n : Nat} {w : MWait} (s : State) :
    memories (startDrive n w s) = memories s := by simp [startDrive]

@[simp] theorem memories_shedLate {n : Nat} {t : Nat} {w : MWait} (s : State) :
    memories (shedLate n t w s).2 = memories s := by simp [shedLate]

@[simp] theorem memories_requestStart {n : Nat} {w : MWait} (s : State) :
    memories (requestStart n w s) = memories s := by
  simp only [requestStart]
  split <;> simp

@[simp] theorem memories_serveSteps {n : Nat} {k : Nat} {w : MWait} (s : State) :
    memories (serveSteps n k w s) = memories s := by
  induction k generalizing w s with
  | zero => rfl
  | succ k ih => simp [serveSteps, ih]

@[simp] theorem memories_serveWait {n : Nat} {w : MWait} (s : State) :
    memories (serveWait n w s) = memories s := by simp [serveWait]

@[simp] theorem memories_servePlaced {n : Nat} {w : MWait} (s : State) :
    memories (servePlaced n w s) = memories s := by simp [servePlaced]

@[simp] theorem memories_driveStart {n : Nat} {late : Bool} {j : MJob} (s : State) :
    memories (driveStart n late j s) = memories s := by
  simp only [driveStart]
  repeat' split
  all_goals simp

@[simp] theorem memories_firstLook {n : Nat} {j : MJob} (s : State) :
    memories (firstLook n j s) = memories s := by simp [firstLook]

@[simp] theorem memories_jobDue {n : Nat} {j : MJob} (s : State) :
    memories (jobDue n j s) = memories s := by simp [jobDue]

@[simp] theorem memories_jobsSeen {n : Nat} (s : State) :
    memories (jobsSeen n s) = memories s := by simp [jobsSeen]

@[simp] theorem memories_closeLook {n : Nat} (s : State) : memories (closeLook n s) = memories s := by
  simp only [closeLook]
  split <;> simp

@[simp] theorem memories_comparatorsLook (s : State) :
    memories (comparatorsLook s) = memories s := by simp [comparatorsLook]

@[simp] theorem memories_tickJobs {n : Nat} (s : State) :
    memories (tickJobs n s) = memories s := by simp [tickJobs]

@[simp] theorem memories_tickLower {n : Nat} (s : State) :
    memories (tickLower n s) = memories s := by simp [tickLower]

@[simp] theorem memories_tickSwitch {n : Nat} (s : State) :
    memories (tickSwitch n s) = memories s := by simp [tickSwitch]

@[simp] theorem memories_jobArrives {n : Nat} (s : State) : memories (jobArrives n s) = memories s := by
  simp only [jobArrives]
  split <;> simp

@[simp] theorem memories_jobsUnseen (s : State) : memories (jobsUnseen s) = memories s := by simp [jobsUnseen]

@[simp] theorem memories_handJob {n : Nat} {j : MJob} (s : State) :
    memories (handJob n j s) = memories s := by simp [handJob]

@[simp] theorem memories_recordJobs {r : RecFields} {dev : Nat} (s : State) :
    memories (recordJobs r dev s) = memories s := by simp [recordJobs]

@[simp] theorem memories_setArm {n : Nat} {b : Bool} (s : State) : memories (setArm n b s) = memories s := by rfl

@[simp] theorem memories_skipAll {n : Nat} (s : State) : memories (skipAll n s) = memories s := by simp [skipAll]

@[simp] theorem memories_disarm {n : Nat} (s : State) : memories (disarm n s) = memories s := by simp [disarm]

@[simp] theorem memories_discardAll {clearArm : Bool} (s : State) :
    memories (discardAll clearArm s) = memories s := by simp [discardAll]

@[simp] theorem memories_faultChan {n : Nat} (s : State) :
    memories (faultChan n s) = memories s := by simp [faultChan]

@[simp] theorem memories_armOne {n : Nat} (s : State) : memories (armOne n s) = memories s := by simp [armOne]

@[simp] theorem memories_armWrite {v : Nat} (s : State) :
    memories (armWrite v s) = memories s := by simp [armWrite]

@[simp] theorem memories_markTook {n : Nat} {f : Option Nat} {old : State} (s : State) :
    memories (markTook n f old s) = memories s := by
  simp only [markTook]
  split <;> simp

@[simp] theorem memories_shutDrive {n : Nat} (s : State) : memories (shutDrive n s) = memories s := by
  simp only [shutDrive]
  split <;> simp

@[simp] theorem memories_shutRelease {n : Nat} (s : State) : memories (shutRelease n s) = memories s := by
  simp only [shutRelease]
  split <;> simp

@[simp] theorem memories_cutDrive {n : Nat} (s : State) :
    memories (cutDrive n s) = memories s := by simp [cutDrive]

@[simp] theorem memories_coilCut {n : Nat} (s : State) : memories (coilCut n s) = memories s := by simp [coilCut]

@[simp] theorem memories_coilJudge {n : Nat} (s : State) :
    memories (coilJudge n s) = memories s := by simp [coilJudge]

@[simp] theorem memories_coilReady (s : State) : memories (coilReady s) = memories s := by simp [coilReady]

@[simp] theorem memories_coilStep {n : Nat} (s : State) :
    memories (coilStep n s) = memories s := by simp [coilStep]

@[simp] theorem memories_coilMeasured {n iv vv : Nat} (s : State) :
    memories (coilMeasured n iv vv s) = memories s := by simp [coilMeasured]

/-! ### Dryer ports -/

@[simp] theorem memories_biasRebase {p : Nat} (s : State) : memories (biasRebase p s) = memories s := by rfl

@[simp] theorem memories_biasMove {p : Nat} {target : List Nat} (s : State) :
    memories (biasMove p target s) = memories s := by rfl

@[simp] theorem memories_roicSend {p kind seq w addr value : Nat} (s : State) :
    memories (roicSend p kind seq w addr value s) = memories s := by simp [roicSend]

@[simp] theorem memories_setDTab {p bank i st : Nat} (s : State) :
    memories (setDTab p bank i st s) = memories s := by rfl

@[simp] theorem memories_pipeRow {p : Nat} (s : State) : memories (pipeRow p s) = memories s := by
  simp only [pipeRow]
  split <;> simp

@[simp] theorem memories_restartAll {p : Nat} (s : State) : memories (restartAll p s) = memories s := by rfl

@[simp] theorem memories_finishCids {cids : List Nat} {status result position : Nat} (s : State) :
    memories (finishCids cids status result position s) = memories s := by
  refine memories_foldl (fun s k => ?_) _ s
  split <;> simp

@[simp] theorem memories_closureStart {p : Nat} (s : State) :
    memories (closureStart p s) = memories s := by simp [closureStart]

@[simp] theorem memories_closureTry {p : Nat} (s : State) :
    memories (closureTry p s) = memories s := by simp [closureTry]

@[simp] theorem formed_closureMeasure {p : Nat} {c : Closure} {s : State} (h : Formed (memories s)) :
    Formed (memories (closureMeasure p c s)) := by simp [closureMeasure, h]

@[simp] theorem memories_closureReopen {p : Nat} {c : Closure} (s : State) :
    memories (closureReopen p c s) = memories s := by simp [closureReopen]

@[simp] theorem memories_closureSettled {p : Nat} {c : Closure} (s : State) :
    memories (closureSettled p c s) = memories s := by simp [closureSettled]

@[simp] theorem memories_closureOver {p : Nat} {c : Closure} (s : State) :
    memories (closureOver p c s) = memories s := by simp [closureOver]

@[simp] theorem memories_closureOpened {p : Nat} {c : Closure} (s : State) :
    memories (closureOpened p c s) = memories s := by simp [closureOpened]

@[simp] theorem formed_closureSync {p : Nat} {c : Closure} {s : State} (h : Formed (memories s)) :
    Formed (memories (closureSync p c s)) := by
  simp only [closureSync]
  repeat' split
  all_goals simp [h]

@[simp] theorem formed_dryLay {p : Nat} {vals : Tbl Nat} {s : State} (h : Formed (memories s)) :
    Formed (memories (dryLay p vals s)) := by simp [dryLay, h]

@[simp] theorem memories_drySend {p : Nat} {w : FpaWrite} (s : State) :
    memories (drySend p w s) = memories s := by simp [drySend]

@[simp] theorem formed_dryGroup {p : Nat} {at_ : Option Nat} {g : Accepted} {s : State} (h : Formed (memories s)) :
    Formed (memories (dryGroup p at_ g s)) := by
  simp only [dryGroup]
  repeat' split
  all_goals simp [h]

@[simp] theorem memories_dryCalWait {p : Nat} {g : Accepted} (s : State) :
    memories (dryCalWait p g s) = memories s := by simp [dryCalWait]

@[simp] theorem memories_forcedAgain {p : Nat} (s : State) : memories (forcedAgain p s) = memories s := by rfl

@[simp] theorem formed_dryCalOver {p : Nat} {s : State} (h : Formed (memories s)) :
    Formed (memories (dryCalOver p s)) := by
  have hs := formed_foldl (f := fun s w => dropParts (BitVec.ofNat 32 w.1) [(dryCalPart, p)] [] (dryLay p w.2 s))
    (fun u x hu => by simp [hu]) (dry s p).calWaits h
  simp [dryCalOver, h, hs]

@[simp] theorem formed_dryBoundary {p : Nat} {at_ : Option Nat} {s : State} (h : Formed (memories s)) :
    Formed (memories (dryBoundary p at_ s)) :=
  formed_foldl (fun u g hu => by simp [hu]) _ (by simp [h])

@[simp] theorem memories_dryWritesSweep {p : Nat} (s : State) :
    memories (dryWritesSweep p s) = memories s := by rfl

@[simp] theorem formed_drySettings {p num : Nat} {s : State} (h : Formed (memories s)) :
    Formed (memories (drySettings p num s).2) := by
  simp only [drySettings, memories_dryWritesSweep, memories_updDry]
  exact formed_foldl (fun u w hu => by simp [hu]) _ h

@[simp] theorem memories_drySettingFails {p : Nat} {w : FpaWrite} {cause : Nat} (s : State) :
    memories (drySettingFails p w cause s) = memories s := by simp [drySettingFails]

@[simp] theorem memories_roicDone {f : SpFrame} {input : List Byte} (s : State) :
    memories (roicDone f input s) = memories s := by
  simp only [roicDone]
  repeat' split
  all_goals simp

@[simp] theorem memories_dryTiming {p : Nat} (s : State) :
    memories (dryTiming p s) = memories s := by simp [dryTiming]

@[simp] theorem memories_biasReached {p : Nat} (s : State) : memories (biasReached p s) = memories s := by
  simp only [biasReached]
  split <;> simp

@[simp] theorem memories_startDryer {p : Nat} (s : State) : memories (startDryer p s) = memories s := by rfl

@[simp] theorem memories_dryMark {p : Nat} {md : Int} {m : DryMark} (s : State) :
    memories (dryMark p md m s) = memories s := by
  simp only [dryMark]
  split <;> simp

@[simp] theorem memories_dryStamps {p : Nat} (s : State) :
    memories (dryStamps p s) = memories s := by simp [dryStamps]

@[simp] theorem memories_dryMarkAt {p tb : Nat} {m : DryMark} (s : State) :
    memories (dryMarkAt p tb m s) = memories s := by rfl

@[simp] theorem memories_frameClose {p : Nat} {short : Bool} (s : State) :
    memories (frameClose p short s) = memories s := by
  simp only [frameClose]
  split <;> simp

@[simp] theorem memories_intervalAbandon {p : Nat} {cids : List Nat} (s : State) :
    memories (intervalAbandon p cids s) = memories s := by simp [intervalAbandon]

@[simp] theorem memories_closureAbandon {p : Nat} (s : State) :
    memories (closureAbandon p s) = memories s := by simp [closureAbandon]

@[simp] theorem formed_dryLand {p : Nat} {s : State} (h : Formed (memories s)) :
    Formed (memories (dryLand p s)) := by
  simp only [dryLand, memories_dryWritesSweep, memories_updDry]
  exact formed_foldl (fun u w hu => by simp [hu]) _ h

@[simp] theorem formed_dryHalt {p : Nat} {s : State} (h : Formed (memories s)) :
    Formed (memories (dryHalt p s)) := by simp [dryHalt, h]

@[simp] theorem formed_dryStopNow {p : Nat} {s : State} (h : Formed (memories s)) :
    Formed (memories (dryStopNow p s)) := by simp [dryStopNow, h]

@[simp] theorem formed_dryStopAll {s : State} (h : Formed (memories s)) :
    Formed (memories (dryStopAll s)) :=
  formed_foldl (fun u p hu => by simp [hu]) _ h

/-! ### Rows of the headboxes -/

@[simp] theorem memories_packetIn {p : Nat} {pkt : BrynPacket} {want : Nat} {payload : List Byte} (s : State) :
    memories (packetIn p pkt want payload s).2 = memories s := by simp [packetIn]

@[simp] theorem memories_addFragment {p : Nat} {bytes : List Byte} {offset : Nat} (s : State) :
    memories (addFragment p bytes offset s) = memories s := by rfl

@[simp] theorem formed_enterLine {p : Nat} {first : Bool} {seq : Option Nat} {s : State} (h : Formed (memories s)) :
    Formed (memories (enterLine p first seq s)) := by simp [enterLine, h]

@[simp] theorem memories_settingAck {p tag status : Nat} (s : State) :
    memories (settingAck p tag status s) = memories s := by
  simp only [settingAck]
  split <;> simp

@[simp] theorem memories_setTimeout {p : Nat} (s : State) : memories (setTimeout p s) = memories s := by
  simp only [setTimeout]
  split <;> simp

@[simp] theorem memories_discoveryFails {p d : Nat} (s : State) :
    memories (discoveryFails p d s) = memories s := by simp [discoveryFails]

@[simp] theorem memories_discover {p : Nat} (s : State) : memories (discover p s) = memories s := by rfl

@[simp] theorem formed_startHeadbox {p : Nat} {s : State} (h : Formed (memories s)) :
    Formed (memories (startHeadbox p s)) := by simp [startHeadbox, h]

/-! ### Rows of the dryer ports -/

@[simp] theorem memories_blankEnds {p : Nat} (s : State) : memories (blankEnds p s) = memories s := by
  simp only [blankEnds]
  split <;> simp

@[simp] theorem formed_dryStopWaiting {p : Nat} {s : State} (h : Formed (memories s)) :
    Formed (memories (dryStopWaiting p s)) := by simp [dryStopWaiting, h]

@[simp] theorem memories_readFpaT {p : Nat} (s : State) : memories (readFpaT p s) = memories s := by
  simp only [readFpaT]
  split <;> simp

@[simp] theorem formed_refineApply {p : Nat} {s : State} (h : Formed (memories s)) :
    Formed (memories (refineApply p s)) := by
  simp only [refineApply]
  split <;> simp [h]

@[simp] theorem memories_dryProfileEnds {p : Nat} (s : State) :
    memories (dryProfileEnds p s) = memories s := by simp [dryProfileEnds]

@[simp] theorem memories_frameBegin {p : Nat} {change : Bool} (s : State) :
    memories (frameBegin p change s) = memories s := by simp [frameBegin]

@[simp] theorem formed_syncBoundary {p num : Nat} {s : State} (h : Formed (memories s)) :
    Formed (memories (syncBoundary p num s).2) := by simp [syncBoundary, h]

@[simp] theorem memories_syncRequests {p : Nat} (s : State) :
    memories (syncRequests p s) = memories s := by simp [syncRequests]

@[simp] theorem formed_syncRun {p : Nat} {s : State} (h : Formed (memories s)) :
    Formed (memories (syncRun p s)) := by
  unfold syncRun
  extract_lets s1 s2 r
  have h1 : Formed (memories s1) := by simp [s1, h]
  have h2 : Formed (memories s2) := by
    simp only [s2]
    split <;> simp [h1]
  clear_value s2
  simp [r, h2]

@[simp] theorem formed_frameSyncBody {p : Nat} {s : State} (h : Formed (memories s)) :
    Formed (memories (frameSyncBody p s)) := by simp [frameSyncBody, h]

@[simp] theorem formed_frameTimeoutBody {p : Nat} {s : State} (h : Formed (memories s)) :
    Formed (memories (frameTimeoutBody p s)) := by
  simp only [frameTimeoutBody]
  split <;> simp [h]

@[simp] theorem memories_drySetTimeout {p : Nat} (s : State) : memories (drySetTimeout p s) = memories s := by
  simp only [drySetTimeout]
  split <;> simp

@[simp] theorem memories_refSatNote {p : Nat} {f : DFrame} {est : List DcEst} (s : State) :
    memories (refSatNote p f est s).2 = memories s := by
  simp only [refSatNote]
  split <;> simp

@[simp] theorem memories_averageRow {p row : Nat} {px : List (Int × Bool × Bool)} (s : State) :
    memories (averageRow p row px s) = memories s := by
  simp only [averageRow]
  split <;> simp

@[simp] theorem memories_firstRow {p t : Nat} {deliver : Bool} (s : State) :
    memories (firstRow p t deliver s) = memories s := by simp [firstRow]

@[simp] theorem memories_rowEnters {p : Nat} {f : DFrame} {r : DRow} (s : State) :
    memories (rowEnters p f r s).2 = memories s := by simp [rowEnters]

@[simp] theorem memories_rowRun {p : Nat} {f : DFrame} {tl : Nat} {taps : List TapRow} (s : State) :
    memories (rowRun p f tl taps s) = memories s := by simp [rowRun]

@[simp] theorem memories_dryerRowBody {p tl : Nat} {taps : List TapRow} (s : State) :
    memories (dryerRowBody p tl taps s) = memories s := by
  simp only [dryerRowBody]
  split <;> simp

@[simp] theorem memories_lsyncStep {p : Nat} (s : State) : memories (lsyncStep p s) = memories s := by
  simp only [lsyncStep]
  split <;> simp

@[simp] theorem memories_dryerTick (s : State) : memories (dryerTick s) = memories s := by simp [dryerTick]

@[simp] theorem memories_thermalMapRow {p : Nat} {r : DRow} (s : State) :
    memories (thermalMapRow p r s) = memories s := by
  simp only [thermalMapRow]
  repeat' split
  all_goals simp

@[simp] theorem memories_thermalMapBody {p : Nat} (s : State) : memories (thermalMapBody p s) = memories s := by
  simp only [thermalMapBody]
  split <;> simp

@[simp] theorem memories_driftRefineBody {p : Nat} (s : State) :
    memories (driftRefineBody p s) = memories s := by simp [driftRefineBody]

@[simp] theorem memories_shutterWaits {c : Cmd} (s : State) : memories (shutterWaits c s) = memories s := by rfl

@[simp] theorem memories_shutterClose {c : Cmd} {p : Nat} (s : State) :
    memories (shutterClose c p s) = memories s := by rfl

@[simp] theorem memories_shutterHold {c : Cmd} {p : Nat} (s : State) :
    memories (shutterHold c p s) = memories s := by
  simp only [shutterHold]
  split <;> simp

@[simp] theorem memories_shutterRelease {c : Cmd} {p : Nat} (s : State) :
    memories (shutterRelease c p s) = memories s := by
  simp only [shutterRelease]
  split <;> simp

@[simp] theorem memories_shutterInhibit {p : Nat} (s : State) :
    memories (shutterInhibit p s) = memories s := by rfl

@[simp] theorem memories_shutterStart {c : Cmd} (s : State) : memories (shutterStart c s) = memories s := by
  simp only [shutterStart]
  repeat' split
  all_goals simp

@[simp] theorem formed_startCameraPort {c : Cmd} {p : Nat} {s : State} (h : Formed (memories s)) :
    Formed (memories (startCameraPort c p s)) := by simp [startCameraPort, h]

@[simp] theorem memories_startDryerPort {c : Cmd} {p : Nat} (s : State) :
    memories (startDryerPort c p s) = memories s := by simp [startDryerPort]

@[simp] theorem formed_portStartStart {c : Cmd} {s : State} (h : Formed (memories s)) :
    Formed (memories (portStartStart c s)) := by simp [portStartStart, h]

@[simp] theorem formed_stopCameraPort {c : Cmd} {p mode : Nat} {s : State} (h : Formed (memories s)) :
    Formed (memories (stopCameraPort c p mode s)) := by simp [stopCameraPort, h]

@[simp] theorem formed_stopDryerPort {c : Cmd} {p mode : Nat} {s : State} (h : Formed (memories s)) :
    Formed (memories (stopDryerPort c p mode s)) := by simp [stopDryerPort, h]

@[simp] theorem formed_portStopStart {c : Cmd} {s : State} (h : Formed (memories s)) :
    Formed (memories (portStopStart c s)) := by simp [portStopStart, h]

/-! ### Calibration elements and housekeeping units -/

@[simp] theorem memories_updEl {c i : Nat} {f : CalEl → CalEl} (s : State) :
    memories (updEl c i f s) = memories s := by rfl

@[simp] theorem memories_updCal {f : Cal → Cal} (s : State) : memories (updCal f s) = memories s := by rfl

@[simp] theorem memories_calDone (s : State) : memories (calDone s) = memories s := by rfl

@[simp] theorem memories_calCmdTakes {key : Nat} {ok : Bool} {k : CalCmd} (s : State) :
    memories (calCmdTakes key ok k s) = memories s := by
  simp only [calCmdTakes]
  repeat' split
  all_goals simp

@[simp] theorem memories_calOutcome {key : Nat} {ok : Bool} (s : State) :
    memories (calOutcome key ok s) = memories s := by simp [calOutcome]

@[simp] theorem memories_elLand {c i : Nat} {v : Int × Nat × Nat} (s : State) :
    memories (elLand c i v s) = memories s := by rfl

@[simp] theorem memories_elPass {c i : Nat} (s : State) : memories (elPass c i s) = memories s := by simp [elPass]

@[simp] theorem memories_elReject {c i : Nat} (s : State) :
    memories (elReject c i s) = memories s := by simp [elReject]

@[simp] theorem memories_elJudge {c i : Nat} {ofs : Int} {gain : Nat} {parts : List Nat} (s : State) :
    memories (elJudge c i ofs gain parts s).2 = memories s := by simp [elJudge]

@[simp] theorem memories_hkResume {u : Nat} (s : State) : memories (hkResume u s) = memories s := by rfl

@[simp] theorem memories_selfcalStart {u : Nat} (s : State) :
    memories (selfcalStart u s) = memories s := by simp [selfcalStart]

@[simp] theorem memories_selfcalRequest {u : Nat} (s : State) :
    memories (selfcalRequest u s) = memories s := by simp [selfcalRequest]

@[simp] theorem memories_selfcalWaited {u : Nat} (s : State) :
    memories (selfcalWaited u s) = memories s := by simp [selfcalWaited]

@[simp] theorem memories_injStart {u : Nat} (s : State) : memories (injStart u s) = memories s := by
  simp only [injStart]
  split <;> simp

@[simp] theorem memories_injEnds {u : Nat} (s : State) : memories (injEnds u s) = memories s := by simp [injEnds]

@[simp] theorem memories_regularEnds {u : Nat} {sig : HkSignal} (s : State) :
    memories (regularEnds u sig s) = memories s := by simp [regularEnds]

@[simp] theorem memories_coilResult {u : Nat} (s : State) :
    memories (coilResult u s) = memories s := by simp [coilResult]

@[simp] theorem memories_injectedEnds {u : Nat} {sig : HkSignal} (s : State) :
    memories (injectedEnds u sig s) = memories s := by simp [injectedEnds]

@[simp] theorem memories_elPassed {c i : Nat} (s : State) : memories (elPassed c i s) = memories s := by
  simp only [elPassed]
  split <;> simp

@[simp] theorem memories_conversionEnds {u : Nat} {sig : HkSignal} (s : State) :
    memories (conversionEnds u sig s) = memories s := by simp [conversionEnds]

@[simp] theorem memories_selfcalJudged {u : Nat} {ok : Bool} (s : State) :
    memories (selfcalJudged u ok s) = memories s := by simp [selfcalJudged]

@[simp] theorem memories_selfcalEnds {u : Nat} {ofs : Int} {gain : Nat} (s : State) :
    memories (selfcalEnds u ofs gain s) = memories s := by simp [selfcalEnds]

@[simp] theorem memories_hkTook {old : State} {u : Nat} (s : State) :
    memories (hkTook old u s) = memories s := by simp [hkTook]

@[simp] theorem memories_hkChanged {u : Nat} (s : State) :
    memories (hkChanged u s) = memories s := by simp [hkChanged]

@[simp] theorem memories_adcCalStart {i : Nat} {forced : Bool} (s : State) :
    memories (adcCalStart i forced s) = memories s := by rfl

@[simp] theorem memories_adcTry {i : Nat} (s : State) : memories (adcTry i s) = memories s := by simp [adcTry]

@[simp] theorem memories_valveTry {n : Nat} (s : State) :
    memories (valveTry n s) = memories s := by simp [valveTry]

@[simp] theorem memories_calStart {c i : Nat} (s : State) : memories (calStart c i s) = memories s := by
  simp only [calStart]
  repeat' split
  all_goals simp

@[simp] theorem memories_adcRestart {i : Nat} (s : State) : memories (adcRestart i s) = memories s := by rfl

@[simp] theorem memories_adcAttempted {c i : Nat} (s : State) :
    memories (adcAttempted c i s) = memories s := by simp [adcAttempted]

@[simp] theorem formed_elBack {c i : Nat} {s : State} (h : Formed (memories s)) :
    Formed (memories (elBack c i s)) := by simp [elBack, h]

@[simp] theorem memories_heldApply {c i : Nat} (s : State) :
    memories (heldApply c i s) = memories s := by simp [heldApply]

@[simp] theorem memories_heldCheck {c i : Nat} (s : State) : memories (heldCheck c i s) = memories s := by
  simp only [heldCheck]
  split <;> simp

@[simp] theorem formed_calEnds {c i : Nat} {ofs : Int} {gain : Nat} {parts : List Nat} {s : State} (h : Formed (memories s)) :
    Formed (memories (calEnds c i ofs gain parts s)) := by simp [calEnds, h]

@[simp] theorem memories_elDue {c i : Nat} (s : State) : memories (elDue c i s) = memories s := by rfl

@[simp] theorem formed_calAbandon {s : State} (h : Formed (memories s)) :
    Formed (memories (calAbandon s)) := by
  have h1 := formed_foldl (f := fun s i => if (calEl s 1 i).run.isSome then elDue 1 i (elBack 1 i s) else s)
    (fun u i hu => by simp [hu]) (List.range 64) h
  have h2 := formed_foldl (f := fun s i => if (calEl s 3 i).run.isSome then elDue 3 i (elBack 3 i s) else s)
    (fun u i hu => by simp [hu]) (List.range 16) h1
  simp [calAbandon, h2]

@[simp] theorem memories_spareTest {tests : List Bool} (s : State) :
    memories (spareTest tests s).2.2 = memories s := by
  simp only [spareTest]
  split <;> simp

@[simp] theorem memories_sramRepairFrom {row : Nat} {n : Nat} {tests : List Bool} (s : State) :
    memories (sramRepairFrom row n tests s).2.2 = memories s := by
  induction n generalizing tests s with
  | zero => simp [sramRepairFrom]
  | succ n ih => 
    simp only [sramRepairFrom]
    split <;> simp [ih]

@[simp] theorem memories_sramRepair {row : Nat} {tests : List Bool} (s : State) :
    memories (sramRepair row tests s).2.2 = memories s := by simp [sramRepair]

@[simp] theorem memories_sramRepairAll {named : Nat → Bool} {tests : List Bool} (s : State) :
    memories (sramRepairAll named tests s) = memories s := memories_foldl_snd (fun a row => by simp) _ _

@[simp] theorem memories_sramAuto {tests : List Bool} (s : State) :
    memories (sramAuto tests s) = memories s := by simp [sramAuto]

@[simp] theorem memories_calResumes (s : State) : memories (calResumes s) = memories s := by simp [calResumes]

/-! ### Host data -/

@[simp] theorem memories_hostOutAt {pos : Nat → Nat} {c : Cmd} {bs : List Byte} {io : HostIo}
    {fin : Cmd → State → State} (hfin : ∀ x u, memories (fin x u) = memories u) (s : State) :
    memories (hostOutAt pos c bs io fin s) = memories s := by
  simp only [hostOutAt]
  split
  · rfl
  · split <;> simp [hfin]

@[simp] theorem memories_hostOut {c : Cmd} {bs : List Byte} {io : HostIo} {fin : Cmd → State → State}
    (hfin : ∀ x u, memories (fin x u) = memories u) (s : State) :
    memories (hostOut c bs io fin s) = memories s := by simp [hostOut, hfin]

@[simp] theorem memories_hrdSend {k : Nat} {a : Nat} {n : Nat} (s : State) :
    memories (hrdSend k a n s) = memories s := by
  induction k generalizing a n s with
  | zero => rfl
  | succ k ih => simp [hrdSend, ih]

@[simp] theorem memories_hrdAsk {c : Cmd} {d : HostRead} (s : State) :
    memories (hrdAsk c d s) = memories s := by simp [hrdAsk]

@[simp] theorem memories_hostIn {c : Cmd} {d : HostRead} {pos : Nat} {go : List Byte → State → State}
    (hgo : ∀ x u, memories (go x u) = memories u) (s : State) :
    memories (hostIn c d pos go s) = memories s := by
  simp only [hostIn]
  split <;> simp [hgo]

theorem formed_hostIn {c : Cmd} {d : HostRead} {pos : Nat} {go : List Byte → State → State} {s : State}
    (hgo : ∀ x u, Formed (memories u) → Formed (memories (go x u))) (h : Formed (memories s)) :
    Formed (memories (hostIn c d pos go s)) := by
  simp only [hostIn]
  split <;> simp [hgo, h]

@[simp] theorem memories_needHost {f : Cmd → State → State} {c : Cmd}
    (hf : ∀ x u, memories (f x u) = memories u) (s : State) :
    memories (needHost f c s) = memories s := by simp [needHost, hf]

theorem formed_needHost {f : Cmd → State → State} {c : Cmd} {s : State}
    (hf : ∀ x u, Formed (memories u) → Formed (memories (f x u))) (h : Formed (memories s)) :
    Formed (memories (needHost f c s)) := by simp [needHost, hf, h]

/-! ### Non-volatile storage -/

@[simp] theorem memories_updNvm {f : Nvm → Nvm} (s : State) : memories (updNvm f s) = (s.hbm, (f s.nvm).mem) := by rfl

@[simp] theorem memories_calLoad {vals : Tbl Int} (s : State) :
    memories (calLoad vals s) = memories s := by simp [calLoad]

@[simp] theorem memories_startPage {job : PageJob} {addr : Nat} {bs : List Byte} (s : State) :
    memories (startPage job addr bs s) = memories s := by rfl

@[simp] theorem memories_batchPage {step : Nat} (s : State) : memories (batchPage step s) = memories s := by
  simp only [batchPage]
  split <;> simp [updNvm]

@[simp] theorem memories_logStart (s : State) : memories (logStart s) = memories s := by rfl

@[simp] theorem memories_storePage {j : CalStoreJob} (s : State) :
    memories (storePage j s) = memories s := by simp [storePage]

@[simp] theorem memories_recordPage {r : RecWrite} {rs : List RecWrite} (s : State) :
    memories (recordPage r rs s) = memories s := by rfl

@[simp] theorem memories_writerPage {c : Cmd} (s : State) : memories (writerPage c s) = memories s := by rfl

@[simp] theorem memories_nvmPump (s : State) : memories (nvmPump s) = memories s := by
  simp only [nvmPump]
  repeat' split
  all_goals simp

@[simp] theorem memories_storeBegin (s : State) : memories (storeBegin s) = memories s := by simp [storeBegin]

@[simp] theorem memories_batchBegin (s : State) : memories (batchBegin s) = memories s := by simp [batchBegin]

@[simp] theorem memories_recordWrite {id : Nat} {payload : List Byte} (s : State) :
    memories (recordWrite id payload s) = memories s := by simp [recordWrite]

@[simp] theorem memories_writerDone {cid : Nat} (s : State) : memories (writerDone cid s) = memories s := by rfl

@[simp] theorem formed_recordSpoil {id addr : Nat} {s : State} (h : Formed (memories s)) :
    Formed (memories (recordSpoil id addr s)) := by
  simp only [recordSpoil]
  split <;> simp [h]

@[simp] theorem formed_writerEnds {cid addr : Nat} {s : State} (h : Formed (memories s)) :
    Formed (memories (writerEnds cid addr s)) := by
  simp only [writerEnds]
  split <;> simp [h]

@[simp] theorem memories_batchEnds {k : Nat} (s : State) :
    memories (batchEnds k s) = memories s := by simp [batchEnds]

@[simp] theorem memories_logEnds {k : Nat} (s : State) : memories (logEnds k s) = memories s := by rfl

@[simp] theorem memories_storeEnds {sound : Bool} (s : State) : memories (storeEnds sound s) = memories s := by
  simp only [storeEnds]
  split <;> simp

@[simp] theorem memories_selectorEnds (s : State) : memories (selectorEnds s) = memories s := by
  simp only [selectorEnds]
  split <;> simp

@[simp] theorem memories_enrolInhibit (s : State) : memories (enrolInhibit s) = memories s := by
  simp only [enrolInhibit]
  split <;> simp

@[simp] theorem formed_recordEnds {id addr : Nat} {s : State} (h : Formed (memories s)) :
    Formed (memories (recordEnds id addr s)) := by
  simp only [recordEnds]
  split <;> simp [h]

@[simp] theorem formed_jobEnds {j : PageJob} {addr : Nat} {sound : Bool} {s : State} (h : Formed (memories s)) :
    Formed (memories (jobEnds j addr sound s)) := by
  simp only [jobEnds]
  split <;> simp [h]

@[simp] theorem memories_readServe {io : HostIo} {c : Cmd} (s : State) :
    memories (readServe io c s) = memories s := by
  simp only [readServe]
  split <;> simp

@[simp] theorem memories_readsServe (s : State) : memories (readsServe s) = memories s := by simp [readsServe]

@[simp] theorem memories_writersInhibit (s : State) : memories (writersInhibit s) = memories s := by
  rw [writersInhibit, memories_foldl]
  · simp
  · intro s i
    split <;> simp

@[simp] theorem memories_countersLoad (s : State) : memories (countersLoad s) = memories s := by
  simp only [countersLoad]
  split <;> simp

@[simp] theorem memories_tornCheck (s : State) : memories (tornCheck s) = memories s := by
  simp only [tornCheck]
  split <;> simp

@[simp] theorem memories_logLoad (s : State) : memories (logLoad s) = memories s := by
  unfold logLoad
  extract_lets newest
  clear_value newest
  cases newest <;> rfl

@[simp] theorem memories_bankLoad (s : State) : memories (bankLoad s) = memories s := by
  simp only [bankLoad]
  split <;> simp

@[simp] theorem memories_bankCheck (s : State) : memories (bankCheck s) = memories s := by
  simp only [bankCheck]
  split <;> simp

@[simp] theorem memories_recordsCheck (s : State) :
    memories (recordsCheck s) = memories s := by simp [recordsCheck]

@[simp] theorem memories_nvmReady (s : State) : memories (nvmReady s) = memories s := by simp [nvmReady]

@[simp] theorem memories_nvmNotes (s : State) : memories (nvmNotes s) = memories s := by simp [nvmNotes]

@[simp] theorem memories_bootEntry (s : State) : memories (bootEntry s) = memories s := by simp [bootEntry]

@[simp] theorem formed_pageTorn {s : State} (h : Formed (memories s)) :
    Formed (memories (pageTorn s)) := by
  simp only [pageTorn]
  split <;> simp [h]

/-! ### Images, staging and fuses -/

@[simp] theorem memories_updSec {f : Sec → Sec} (s : State) : memories (updSec f s) = memories s := by rfl

@[simp] theorem memories_flashFrame {cmd : Nat} {addr : List Byte} {dummy lanes : Nat} {data : List Byte} {inLen : Nat}
    (s : State) : memories (flashFrame cmd addr dummy lanes data inLen s) = memories s := by simp [flashFrame]

@[simp] theorem memories_flashRead {a n : Nat} (s : State) :
    memories (flashRead a n s) = memories s := by simp [flashRead]

@[simp] theorem memories_flashReadSlot {a : Nat} {im : List Byte} (s : State) :
    memories (flashReadSlot a im s) = memories s := by simp [flashReadSlot]

@[simp] theorem memories_flashWrite {cmd a : Nat} {data : List Byte} (s : State) :
    memories (flashWrite cmd a data s) = memories s := by simp [flashWrite]

@[simp] theorem memories_flashErase {a n : Nat} (s : State) :
    memories (flashErase a n s) = memories s := by simp [flashErase]

@[simp] theorem memories_flashProgram {a p q : Nat} {im : List Byte} (s : State) :
    memories (flashProgram a p q im s) = memories s := by simp [flashProgram]

@[simp] theorem memories_stageChecked {c : Cmd} {im : List Byte} (s : State) :
    memories (stageChecked c im s) = memories s := by simp [stageChecked]

@[simp] theorem formed_stageRead {d : HostRead} {c : Cmd} {s : State} (h : Formed (memories s)) :
    Formed (memories (stageRead d c s)) :=
  formed_hostIn (fun bs u hu => by simp [hu]) h

@[simp] theorem formed_startFwStage {d : HostRead} {c : Cmd} {s : State} (h : Formed (memories s)) :
    Formed (memories (startFwStage d c s)) := by simp [startFwStage, h]

@[simp] theorem memories_stageProgram {n : Nat} {back : List Byte} {c : Cmd} (s : State) :
    memories (stageProgram n back c s) = memories s := by simp [stageProgram]

@[simp] theorem formed_contFwStage {d : HostRead} {n : Nat} {back : List Byte} {c : Cmd} {s : State}
    (h : Formed (memories s)) :
    Formed (memories (contFwStage d n back c s)) := by
  have hr := formed_needHost (f := stageRead d) (c := c) (fun _ _ hu => formed_stageRead hu) h
  simp [contFwStage, h, hr]

@[simp] theorem memories_ownerWritten (s : State) : memories (ownerWritten s) = memories s := by
  simp only [ownerWritten]
  split <;> simp

@[simp] theorem memories_fuseBlow (s : State) : memories (fuseBlow s) = memories s := by simp [fuseBlow]

@[simp] theorem memories_activateEnds (s : State) : memories (activateEnds s) = memories s := by
  simp only [activateEnds]
  split <;> simp

/-! ### Identity, firmware and attestation -/

@[simp] theorem memories_startCertRead {io : HostIo} {c : Cmd} (s : State) :
    memories (startCertRead io c s) = memories s := by
  simp only [startCertRead]
  split <;> simp

@[simp] theorem memories_startAttest {io : HostIo} {c : Cmd} (s : State) :
    memories (startAttest io c s) = memories s := by simp [startAttest]

@[simp] theorem memories_fuseBody (s : State) : memories (fuseBody s) = memories s := by simp [fuseBody]

@[simp] theorem memories_chalBody (s : State) : memories (chalBody s) = memories s := by simp [chalBody]

@[simp] theorem memories_respBody {scope : Byte} {sig : List Byte} (s : State) :
    memories (respBody scope sig s) = memories s := by simp [respBody]

@[simp] theorem memories_lockoutBody (s : State) : memories (lockoutBody s) = memories s := by
  simp only [lockoutBody]
  split <;> simp

/-! ### Wires -/

@[simp] theorem memories_updWire {w : Nat} {f : Wire → Wire} (s : State) :
    memories (updWire w f s) = memories s := by rfl

@[simp] theorem memories_putItem {p : Nat} {it : Item} (s : State) :
    memories (putItem p it s) = memories s := by rfl

@[simp] theorem formed_dropItems {p sid : Nat} {which : Item → Bool} {s : State} (h : Formed (memories s)) :
    Formed (memories (dropItems p sid which s)) := by
  simp only [dropItems]
  split <;> simp [h]

@[simp] theorem formed_dropRest {p sid : Nat} {s : State} (h : Formed (memories s)) :
    Formed (memories (dropRest p sid s)) := by simp [dropRest, h]

@[simp] theorem memories_flagBad {p : Nat} {it : Item} (s : State) : memories (flagBad p it s) = memories s := by
  simp only [flagBad]
  split <;> simp

@[simp] theorem memories_finishWait {w p : Nat} {next : Option Unit'} (s : State) :
    memories (finishWait w p next s) = memories s := by
  simp only [finishWait]
  repeat' split
  all_goals simp

@[simp] theorem memories_flushWait {w p : Nat} (s : State) : memories (flushWait w p s) = memories s := by
  simp only [flushWait]
  split <;> simp

@[simp] theorem formed_rawTake {p : Nat} {it : Item} {raw : List Nat} {s : State} (h : Formed (memories s)) :
    Formed (memories (rawTake p it raw s)) := by
  simp only [rawTake]
  split <;> simp [h]

@[simp] theorem formed_takeItem {w p : Nat} {it : Item} {s0 : State} (h : Formed (memories s0)) :
    Formed (memories (takeItem w p it s0)) := by simp [takeItem, h]

@[simp] theorem formed_passDeadline {w p : Nat} {t : Stripe} {s : State} (h : Formed (memories s)) :
    Formed (memories (passDeadline w p t s)) := by simp [passDeadline, h]

@[simp] theorem formed_enforceDeadline {w p : Nat} {s : State} (h : Formed (memories s)) :
    Formed (memories (enforceDeadline w p s)) := by
  simp only [enforceDeadline]
  split <;> simp [h]

@[simp] theorem formed_shedStripe {w p : Nat} {t : Stripe} {s : State} (h : Formed (memories s)) :
    Formed (memories (shedStripe w p t s)) := by simp [shedStripe, h]

@[simp] theorem formed_chooseStripe {w : Nat} {n : Nat} {s : State} (h : Formed (memories s)) :
    Formed (memories (chooseStripe w n s)) := by
  induction n generalizing s with
  | zero => exact h
  | succ n ih =>
    simp only [chooseStripe]
    repeat' split
    · exact h
    · exact ih (by simp [h])
    · simp [h]

@[simp] theorem memories_swapConfig {out into : Nat} (s : State) :
    memories (swapConfig out into s) = memories s := by simp [swapConfig]

@[simp] theorem memories_portBack {out into p : Nat} (s : State) :
    memories (portBack out into p s) = memories s := by rfl

@[simp] theorem memories_swapUndo {x : Swap} (s : State) :
    memories (swapUndo x s) = memories s := by simp [swapUndo]

@[simp] theorem memories_repEmit {w : Nat} (s : State) : memories (repEmit w s) = memories s := by
  simp only [repEmit]
  repeat' split
  all_goals simp

@[simp] theorem memories_repLine {w : Nat} {md : Int} {flags : Nat} {samples : List Nat} (s : State) :
    memories (repLine w md flags samples s) = memories s := by
  simp only [repLine]
  repeat' split
  all_goals simp

@[simp] theorem memories_repFlagged {w : Nat} (s : State) : memories (repFlagged w s) = memories s := by
  simp only [repFlagged]
  split <;> simp

@[simp] theorem memories_reprocClose {w : Nat} (s : State) : memories (reprocClose w s) = memories s := by
  simp only [reprocClose]
  split <;> simp

@[simp] theorem memories_reprocEnd {w status : Nat} (s : State) :
    memories (reprocEnd w status s) = memories s := by
  simp only [reprocEnd]
  repeat' split
  all_goals simp

@[simp] theorem memories_repSpoil {w : Nat} {r : Reproc} {md : Int} {flags n : Nat} (s : State) :
    memories (repSpoil w r md flags n s) = memories s := by simp [repSpoil]

@[simp] theorem memories_repFlush {w : Nat} {r : Reproc} {next : Option Unit'} (s : State) :
    memories (repFlush w r next s) = memories s := by
  simp only [repFlush]
  split <;> simp

@[simp] theorem memories_repPass {w : Nat} {r : Reproc} {x : RawLine} {last : Bool} (s : State) :
    memories (repPass w r x last s) = memories s := by simp [repPass]

@[simp] theorem memories_repNext {w : Nat} {r : Reproc} (s : State) :
    memories (repNext w r s) = memories s := by simp [repNext]

@[simp] theorem memories_repRead {w : Nat} {r : Reproc} {b : Nat} (s : State) :
    memories (repRead w r b s) = memories s := by
  simp only [repRead]
  split <;> simp

@[simp] theorem memories_reprocServe {w : Nat} (s : State) : memories (reprocServe w s) = memories s := by
  simp only [reprocServe]
  repeat' split
  all_goals simp

/-! ### The knotter -/

@[simp] theorem memories_putSlice {rep : Option Nat} {k : Nat} {x : Slice} (s : State) :
    memories (putSlice rep k x s) = memories s := by
  simp only [putSlice]
  split <;> simp

@[simp] theorem memories_fullEnd {k : Nat} {r : GridRow} (s : State) :
    memories (fullEnd k r s) = memories s := by simp [fullEnd]

@[simp] theorem memories_fullBegin {k : Nat} {r : GridRow} {lost : Nat} (s : State) :
    memories (fullBegin k r lost s) = memories s := by simp [fullBegin]

@[simp] theorem memories_fullStep {k : Nat} {r : GridRow} {lb : Labels} (s : State) :
    memories (fullStep k r lb s) = memories s := by simp [fullStep]

@[simp] theorem memories_learnStep {k : Nat} {r : GridRow} {learn : Bool} (s : State) :
    memories (learnStep k r learn s) = memories s := by simp [learnStep]

@[simp] theorem memories_maxNote {r : GridRow} (s : State) :
    memories (maxNote r s) = memories s := by simp [maxNote]

@[simp] theorem memories_splitRow {r : GridRow} (s : State) :
    memories (splitRow r s) = memories s := by simp [splitRow]

@[simp] theorem formed_tileTake {dev : Nat} {r0 r1 c0 c1 : Int} {s : State} (h : Formed (memories s)) :
    Formed (memories (tileTake dev r0 r1 c0 c1 s).2) := by simp [tileTake, h]

@[simp] theorem memories_latencyNote {ns : Nat} {edge : Bool} (s : State) :
    memories (latencyNote ns edge s) = memories s := by simp [latencyNote]

@[simp] theorem formed_formComp {cells : List KCell} {flags : Nat} {live : Bool} {ns : Nat} {edge : Bool} {s : State}
    (h : Formed (memories s)) :
    Formed (memories (formComp cells flags live ns edge s)) := by
  simp only [formComp]
  repeat' split
  all_goals simp [h]

@[simp] theorem memories_fragSend {side : Nat} {part split rep : Bool} {cells : List KCell} (s : State) :
    memories (fragSend side part split rep cells s) = memories s := by simp [fragSend]

@[simp] theorem memories_consume {g : List Comp} (s : State) : memories (consume g s) = memories s := by rfl

@[simp] theorem formed_formGroup {g : List Comp} {s : State} (h : Formed (memories s)) :
    Formed (memories (formGroup g s)) := by simp [formGroup, h]

@[simp] theorem memories_edgeSends {c : EdgeComp} (s : State) :
    memories (edgeSends c s) = memories s := by simp [edgeSends]

@[simp] theorem memories_edgeMarks {c : EdgeComp} (s : State) : memories (edgeMarks c s) = memories s := by rfl

@[simp] theorem memories_edgeCuts {n : Nat} (s : State) : memories (edgeCuts n s) = memories s := by
  induction n generalizing s with
  | zero => rfl
  | succ n ih => simp [edgeCuts, ih]

@[simp] theorem memories_edgeCut (s : State) : memories (edgeCut s) = memories s := by simp [edgeCut]

@[simp] theorem memories_edgeSpent {c : EdgeComp} {passed : Bool} (s : State) :
    memories (edgeSpent c passed s) = memories s := by rfl

@[simp] theorem memories_fragAnswer {f : FragIn} (s : State) :
    memories (fragAnswer f s) = memories s := by simp [fragAnswer]

@[simp] theorem memories_fragsAnswer (s : State) : memories (fragsAnswer s) = memories s := by simp [fragsAnswer]

@[simp] theorem formed_formEdge {c : EdgeComp} {timeout : Bool} {s : State} (h : Formed (memories s)) :
    Formed (memories (formEdge c timeout s)) := by
  unfold formEdge
  extract_lets g ns passed s1 cells
  have h1 : Formed (memories s1) := by simp [s1, h]
  split
  · exact h1
  · exact formed_foldl (fun u x hu => by simp [hu]) _ h1

@[simp] theorem memories_mergerBoundary {lim : Option Nat} (s : State) :
    memories (mergerBoundary lim s) = memories s := by simp [mergerBoundary]

/-! ### Rows of the wires -/

@[simp] theorem formed_wireServeBody {w : Nat} {s : State} (h : Formed (memories s)) :
    Formed (memories (wireServeBody w s)) := by
  unfold wireServeBody
  extract_lets s1 s2
  have h1 : Formed (memories s1) := formed_foldl (fun u p hu => by simp [hu]) _ h
  have h2 : Formed (memories s2) := by
    simp only [s2]
    split <;> simp [h1]
  clear_value s1 s2
  repeat' split
  all_goals simp [h, h1, h2]

@[simp] theorem memories_wireExitBody {w : Nat} (s : State) : memories (wireExitBody w s) = memories s := by
  unfold wireExitBody
  extract_lets s0
  have h0 : memories s0 = memories s := by simp [s0]
  clear_value s0
  split <;> simp [h0]

@[simp] theorem formed_deadlineBody {w p : Nat} {s : State} (h : Formed (memories s)) :
    Formed (memories (deadlineBody w p s)) := by simp [deadlineBody, h]

@[simp] theorem memories_swapHandover {x : Swap} (s : State) :
    memories (swapHandover x s) = memories s := by simp [swapHandover]

@[simp] theorem memories_swapDoneBody (s : State) : memories (swapDoneBody s) = memories s := by
  simp only [swapDoneBody]
  repeat' split
  all_goals simp

@[simp] theorem memories_wireSwapStart {c : Cmd} (s : State) :
    memories (wireSwapStart c s) = memories s := by simp [wireSwapStart]

@[simp] theorem memories_repSweep (s : State) : memories (repSweep s) = memories s := by rfl

@[simp] theorem memories_reprocStart {c : Cmd} (s : State) :
    memories (reprocStart c s) = memories s := by simp [reprocStart]

@[simp] theorem formed_stoppedTake {s : State} (h : Formed (memories s)) :
    Formed (memories (stoppedTake s)) := by
  unfold stoppedTake
  extract_lets s1 s2 s3
  have h1 : Formed (memories s1) := formed_foldl (fun u p hu => by simp [hu]) _ h
  have h2 : Formed (memories s2) := formed_foldl (fun u p hu => by simp [hu]) _ (by simp [h1])
  clear_value s2
  simp [s3, h2]

/-! ### Rows of the converters and of calibration -/

@[simp] theorem memories_senseBody {n : Nat} (s : State) : memories (senseBody n s) = memories s := by
  simp only [senseBody]
  split <;> simp

@[simp] theorem memories_adcSelfcalStart {c : Cmd} (s : State) :
    memories (adcSelfcalStart c s) = memories s := by simp [adcSelfcalStart]

@[simp] theorem memories_refChecked {n2 : Option Nat} (s : State) :
    memories (refChecked n2 s) = memories s := by simp [refChecked]

@[simp] theorem memories_forcedBody {p : Nat} (s : State) :
    memories (forcedBody p s) = memories s := by simp [forcedBody]

@[simp] theorem formed_calibrationEndBody {c i : Nat} {ofs : Int} {gain : Nat} {parts : List Nat} {s : State}
    (h : Formed (memories s)) :
    Formed (memories (calibrationEndBody c i ofs gain parts s)) := by simp [calibrationEndBody, h]

@[simp] theorem memories_calibrateRows {tests : List Bool} {c : Cmd} (s : State) :
    memories (calibrateRows tests c s) = memories s := by simp [calibrateRows]

@[simp] theorem memories_calibrateStart {tests : List Bool} {c : Cmd} (s : State) :
    memories (calibrateStart tests c s) = memories s := by simp [calibrateStart]

@[simp] theorem memories_storeWordFails {w : StoreWord} (s : State) :
    memories (storeWordFails w s) = memories s := by simp [storeWordFails]

@[simp] theorem memories_sramEccBody {row : Nat} {uncorr : Bool} {word : Option StoreWord} {tests : List Bool}
    (s : State) : memories (sramEccBody row uncorr word tests s) = memories s := by
  simp only [sramEccBody]
  repeat' split
  all_goals simp

@[simp] theorem formed_chestFails {a : Nat} {s : State} (h : Formed (memories s)) :
    Formed (memories (chestFails a s)) := by
  simp only [chestFails]
  split <;> simp [h]

@[simp] theorem memories_rawFails {a : Nat} (s : State) : memories (rawFails a s) = memories s := by
  refine memories_foldl (fun s w => ?_) _ s
  dsimp only
  repeat' split
  all_goals simp

/-! ### Rows of non-volatile storage -/

@[simp] theorem formed_pageEndBody {sound : Bool} {s : State} (h : Formed (memories s)) :
    Formed (memories (pageEndBody sound s)) := by
  simp only [pageEndBody]
  split <;> simp [h]

@[simp] theorem memories_startNvmRead {io : HostIo} {c : Cmd} (s : State) :
    memories (startNvmRead io c s) = memories s := by simp [startNvmRead]

@[simp] theorem memories_startNvmWrite {d : HostRead} {c : Cmd} (s : State) :
    memories (startNvmWrite d c s) = memories s := by simp [startNvmWrite]

/-! ### Table images -/

@[simp] theorem memories_setItem {k : ItemId} {st : Nat} {im : List Byte} (s : State) :
    memories (setItem k st im s) = memories s := by simp [setItem]

@[simp] theorem formed_putImage {k : ItemId} {off : Nat} {bs : List Byte} {s : State} (h : Formed (memories s)) :
    Formed (memories (putImage k off bs s)) := by simp [putImage, h]

@[simp] theorem memories_setErrs {k : ItemId} {es : List Nat} (s : State) :
    memories (setErrs k es s) = memories s := by simp [setErrs]

@[simp] theorem formed_putLoaded {k : ItemId} {off : Nat} {bs : List Byte} {s : State} (h : Formed (memories s)) :
    Formed (memories (putLoaded k off bs s)) := by simp [putLoaded, h]

@[simp] theorem memories_itemValid {k : ItemId} {im : List Byte} (s : State) :
    memories (itemValid k im s) = memories s := by simp [itemValid]

@[simp] theorem memories_loadEnds {c : Cmd} (s : State) :
    memories (loadEnds c s) = memories s := by simp [loadEnds]

@[simp] theorem formed_loadRead {d : HostRead} {c : Cmd} {s0 : State} (h : Formed (memories s0)) :
    Formed (memories (loadRead d c s0)) := by
  simp only [loadRead]
  split <;> simp [h]

@[simp] theorem formed_startLoad {d : HostRead} {c : Cmd} {s : State} (h : Formed (memories s)) :
    Formed (memories (startLoad d c s)) := by simp [startLoad, h]

/-! ### Rows of the host -/

@[simp] theorem memories_addCmd {c : Cmd} (s : State) : memories (addCmd c s) = memories s := by rfl

@[simp] theorem memories_forwardCmd {dev : Nat} {c : Cmd} (s : State) :
    memories (forwardCmd dev c s) = memories s := by simp [forwardCmd]

@[simp] theorem memories_sendAway {target : Nat} {c : Cmd} (s : State) :
    memories (sendAway target c s) = memories s := by simp [sendAway]

@[simp] theorem memories_awayPump {sq : Nat} {n : Nat} (s : State) : memories (awayPump sq n s) = memories s := by
  induction n generalizing s with
  | zero => rfl
  | succ n ih => 
    simp only [awayPump]
    split <;> simp [ih]

@[simp] theorem memories_takePacket {sq target : Nat} {bs : List Byte} (s : State) :
    memories (takePacket sq target bs s) = memories s := by simp [takePacket]

@[simp] theorem memories_fetchBody {sq : Nat} {f : Fetched} (s : State) :
    memories (fetchBody sq f s) = memories s := by
  simp only [fetchBody]
  repeat' split
  all_goals simp

@[simp] theorem memories_interimBody {sq : Nat} {tag : W32} (s : State) :
    memories (interimBody sq tag s) = memories s := by
  simp only [interimBody]
  repeat' split
  all_goals simp

@[simp] theorem memories_pair0Make (s : State) : memories (pair0Make s) = memories s := by rfl

@[simp] theorem memories_pair0Drop (s : State) : memories (pair0Drop s) = memories s := by simp [pair0Drop]

@[simp] theorem memories_q0Fields {v : Nat} (s : State) : memories (q0Fields v s) = memories s := by rfl

@[simp] theorem memories_q0ClearFault {v : Nat} (s : State) : memories (q0ClearFault v s) = memories s := by rfl

@[simp] theorem memories_q0CtrlWrite {v : Nat} (s : State) :
    memories (q0CtrlWrite v s) = memories s := by simp [q0CtrlWrite]

@[simp] theorem memories_ringFault {cause kind n : Nat} (s : State) :
    memories (ringFault cause kind n s) = memories s := by simp [ringFault]

@[simp] theorem memories_sqTailBody {q : Nat} {v : W32} (s : State) :
    memories (sqTailBody q v s) = memories s := by
  simp only [sqTailBody]
  split <;> simp

@[simp] theorem memories_cqHeadBody {q : Nat} {v : W32} (s : State) :
    memories (cqHeadBody q v s) = memories s := by
  simp only [cqHeadBody]
  split <;> simp

@[simp] theorem memories_srHeadBody {r : Nat} {v : W32} (s : State) :
    memories (srHeadBody r v s) = memories s := by
  simp only [srHeadBody]
  split <;> simp

@[simp] theorem memories_evtHeadBody {e : Nat} {v : W32} (s : State) :
    memories (evtHeadBody e v s) = memories s := by
  simp only [evtHeadBody]
  split <;> simp

@[simp] theorem memories_dqHeadBody {v : Nat} (s : State) : memories (dqHeadBody v s) = memories s := by
  simp only [dqHeadBody]
  split <;> simp

@[simp] theorem memories_dbWrite {own : Bool} {off v : Nat} (s : State) :
    memories (dbWrite own off v s) = memories s := by simp [dbWrite]

@[simp] theorem memories_pageBody {dev off v : Nat} (s : State) :
    memories (pageBody dev off v s) = memories s := by simp [pageBody]

@[simp] theorem memories_bar2BaseBody {v : Nat} (s : State) :
    memories (bar2BaseBody v s) = memories s := by simp [bar2BaseBody]

@[simp] theorem formed_hbmWindow {off addr : Nat} {acc : Bar2} {s : State} (h : Formed (memories s)) :
    Formed (memories (hbmWindow off addr acc s)) := by
  simp only [hbmWindow]
  split <;> simp [h]

@[simp] theorem memories_bar2Sent {dev : Nat} {acc : Bar2} (s : State) :
    memories (bar2Sent dev acc s) = memories s := by
  simp only [bar2Sent]
  split <;> simp

@[simp] theorem formed_bar2Remote {dev off addr : Nat} {acc : Bar2} {s : State} (h : Formed (memories s)) :
    Formed (memories (bar2Remote dev off addr acc s)) := by
  simp only [bar2Remote]
  repeat' split
  all_goals simp [h]

@[simp] theorem memories_evtGrpBody {g v : Nat} (s : State) :
    memories (evtGrpBody g v s) = memories s := by simp [evtGrpBody]

@[simp] theorem memories_pendClear {w : Nat} {v : W32} (s : State) :
    memories (pendClear w v s) = memories s := by rfl

@[simp] theorem memories_evtPendBody {w : Nat} {v : W32} {met : Option (Fin 32 × BitVec 8 × W32)} (s : State) :
    memories (evtPendBody w v met s) = memories s := by
  simp only [evtPendBody]
  split <;> simp

@[simp] theorem memories_mirrorDq {n : Nat} (s : State) : memories (mirrorDq n s) = memories s := by
  simp only [mirrorDq]
  split <;> simp

@[simp] theorem memories_mirrorSr {n : Nat} (s : State) : memories (mirrorSr n s) = memories s := by
  simp only [mirrorSr]
  split <;> simp

@[simp] theorem memories_mirrorBody {r : MirrorRing} (s : State) : memories (mirrorBody r s) = memories s := by
  simp only [mirrorBody]
  split <;> simp

@[simp] theorem memories_makeRing {p : List Byte} (s : State) : memories (makeRing p s) = memories s := by
  simp only [makeRing]
  split <;> simp

@[simp] theorem memories_queueCreateStart {c : Cmd} (s : State) :
    memories (queueCreateStart c s) = memories s := by simp [queueCreateStart]

@[simp] theorem memories_queueRecsGone {n : Nat} (s : State) : memories (queueRecsGone n s) = memories s := by rfl

@[simp] theorem memories_dropRing {kind n : Nat} (s : State) : memories (dropRing kind n s) = memories s := by
  simp only [dropRing]
  split <;> simp

@[simp] theorem memories_queueDeleteStart {c : Cmd} (s : State) :
    memories (queueDeleteStart c s) = memories s := by
  simp only [queueDeleteStart]
  repeat' split
  all_goals simp

@[simp] theorem memories_echoStart {c : Cmd} (s : State) :
    memories (echoStart c s) = memories s := by simp [echoStart]

@[simp] theorem memories_progressStart {c : Cmd} (s : State) : memories (progressStart c s) = memories s := by
  simp only [progressStart]
  split <;> simp

/-! ### Temperatures and the governor -/

@[simp] theorem memories_updTherm {f : Therm → Therm} (s : State) : memories (updTherm f s) = memories s := by rfl

@[simp] theorem memories_stepChange {new : Nat} (s : State) :
    memories (stepChange new s) = memories s := by simp [stepChange]

@[simp] theorem memories_governor (s : State) : memories (governor s) = memories s := by simp [governor]

@[simp] theorem memories_stepMinTaken (s : State) :
    memories (stepMinTaken s) = memories s := by simp [stepMinTaken]

@[simp] theorem memories_warning (s : State) : memories (warning s) = memories s := by simp [warning]

@[simp] theorem formed_haltDryer {p : Nat} {s0 : State} (h : Formed (memories s0)) :
    Formed (memories (haltDryer p s0)) := by simp [haltDryer, h]

@[simp] theorem formed_haltAll {s : State} (h : Formed (memories s)) :
    Formed (memories (haltAll s)) := by
  unfold haltAll
  refine formed_stoppedTake (formed_foldl (fun u p hu => by simp [hu]) _ ?_)
  simp [h]

@[simp] theorem memories_stopBist (s : State) : memories (stopBist s) = memories s := by
  simp only [stopBist]
  split <;> simp

@[simp] theorem memories_tripCommands (s : State) :
    memories (tripCommands s) = memories s := by
  have hn : (stopBist s).hbm = s.hbm := congrArg Prod.fst (memories_stopBist s)
  simp [tripCommands, hn]

@[simp] theorem formed_trip {s : State} (h : Formed (memories s)) :
    Formed (memories (trip s)) := by simp [trip, h]

@[simp] theorem memories_nvmWindow (s : State) : memories (nvmWindow s) = memories s := by
  simp only [nvmWindow]
  split <;> simp

@[simp] theorem memories_calDueEl {c i : Nat} (s : State) :
    memories (calDueEl c i s) = memories s := by simp [calDueEl]

@[simp] theorem memories_calDue (s : State) : memories (calDue s) = memories s := by simp [calDue]

@[simp] theorem memories_sensorEvents {v : List Verdict} {i : Nat} (s : State) :
    memories (sensorEvents v i s) = memories s := by
  simp only [sensorEvents]
  split <;> simp

@[simp] theorem memories_senseAll {now : List Int} (s : State) :
    memories (senseAll now s) = memories s := by simp [senseAll]

@[simp] theorem formed_actThermal {s : State} (h : Formed (memories s)) :
    Formed (memories (actThermal s)) := by simp [actThermal, h]

@[simp] theorem formed_thermalBody {temps : List Int} {s : State} (h : Formed (memories s)) :
    Formed (memories (thermalBody temps s)) := by simp [thermalBody, h]

/-! ### Serial ports and GPIO -/

@[simp] theorem memories_spmCtrlWrite {n v : Nat} (s : State) :
    memories (spmCtrlWrite n v s) = memories s := by simp [spmCtrlWrite]

@[simp] theorem formed_masterDoneBody {n : Nat} {data : List Byte} {s : State} (h : Formed (memories s)) :
    Formed (memories (masterDoneBody n data s)) := by
  simp only [masterDoneBody]
  split <;> simp [h]

@[simp] theorem memories_inhibitTake (s : State) : memories (inhibitTake s) = memories s := by rfl

@[simp] theorem memories_viewFill (s : State) : memories (viewFill s) = memories s := by simp [viewFill]

@[simp] theorem memories_viewRefreshBody (s : State) :
    memories (viewRefreshBody s) = memories s := by simp [viewRefreshBody]

@[simp] theorem memories_frameAborts {n edges : Nat} (s : State) :
    memories (frameAborts n edges s) = memories s := by simp [frameAborts]

@[simp] theorem memories_slaveReadBody {n reg edges : Nat} {late : Bool} (s : State) :
    memories (slaveReadBody n reg edges late s) = memories s := by simp [slaveReadBody]

@[simp] theorem memories_slaveWriteBody {n reg edges : Nat} {vs : List Byte} (s : State) :
    memories (slaveWriteBody n reg edges vs s) = memories s := by simp [slaveWriteBody]

@[simp] theorem formed_gpioRises {n : Nat} {s : State} (h : Formed (memories s)) :
    Formed (memories (gpioRises n s)) := by
  have h1 := formed_foldl (f := fun s p => if hbMode s p = 2 ∧ cf s 0x02 p 0x11 = n ∧ (port s p).running ∧ (port s p).cur.isSome ∧
    !s.boot.tripped then issueTrigger p s else s) (fun u p hu => by simp [hu]) (List.range 32) h
  simpa [gpioRises] using h1

@[simp] theorem formed_gpioTake {n : Nat} {s : State} (h : Formed (memories s)) :
    Formed (memories (gpioTake n s)) := by simp [gpioTake, h]

@[simp] theorem formed_gpioSettle {n : Nat} {s : State} (h : Formed (memories s)) :
    Formed (memories (gpioSettle n s)) := by
  simp only [gpioSettle]
  split <;> simp [h]

@[simp] theorem formed_gpioFilters {s : State} (h : Formed (memories s)) :
    Formed (memories (gpioFilters s)) :=
  formed_foldl (fun u x hu => by simp [hu]) _ h

@[simp] theorem formed_gpioEdgeBody {n : Nat} {level : Bool} {s : State} (h : Formed (memories s)) :
    Formed (memories (gpioEdgeBody n level s)) := by simp [gpioEdgeBody, h]

@[simp] theorem memories_strobeEndBody {n : Nat} (s : State) : memories (strobeEndBody n s) = memories s := by
  simp only [strobeEndBody]
  split <;> simp

/-! ### Configuration -/

@[simp] theorem memories_encoderTook {old : State} {e : Nat} (s : State) :
    memories (encoderTook old e s) = memories s := by simp [encoderTook]

@[simp] theorem formed_layoutTook {old : State} {s0 : State} (h : Formed (memories s0)) :
    Formed (memories (layoutTook old s0)) := by
  simp only [layoutTook, memories_knotUpd, memories_histUpd, memories_mk, hbm_nvm_eq]
  exact formed_foldl (fun u j hu => by simp [hu]) _ h

@[simp] theorem formed_tookAt {old : State} {g : Tbl Nat} {part : Nat × Nat} {s : State} (h : Formed (memories s)) :
    Formed (memories (tookAt old g part s)) := by
  simp only [tookAt]
  split <;> simp [h]

@[simp] theorem formed_handOver {g : Tbl Nat} {s : State} (h : Formed (memories s)) :
    Formed (memories (handOver g s)) := by
  unfold handOver
  refine formed_stoppedTake (formed_foldl (fun u p hu => by simp [hu]) _ ?_)
  simp [h]

@[simp] theorem memories_stageData {c : Cmd} {bs : List Byte} (s : State) :
    memories (stageData c bs s) = memories s := by simp [stageData]

@[simp] theorem memories_stageAwayData {c : Cmd} {bs : List Byte} (s : State) :
    memories (stageAwayData c bs s) = memories s := by simp [stageAwayData]

@[simp] theorem memories_cfgStageStart {d : HostRead} {c : Cmd} (s : State) :
    memories (cfgStageStart d c s) = memories s := by simp [cfgStageStart]

@[simp] theorem memories_closeGroup {g : Nat} (s : State) : memories (closeGroup g s) = memories s := by rfl

@[simp] theorem memories_commitStart {c : Cmd} (s : State) :
    memories (commitStart c s) = memories s := by simp [commitStart]

@[simp] theorem formed_commitEnds {c : Cmd} {s : State} (h : Formed (memories s)) :
    Formed (memories (commitEnds c s)) := by
  simp only [commitEnds]
  repeat' split
  all_goals simp [h]

@[simp] theorem memories_discardStart {c : Cmd} (s : State) :
    memories (discardStart c s) = memories s := by simp [discardStart]

@[simp] theorem memories_cfgReadStart {io : HostIo} {c : Cmd} (s : State) :
    memories (cfgReadStart io c s) = memories s := by
  simp only [cfgReadStart]
  repeat' split
  all_goals simp

@[simp] theorem formed_boundaryTake {blk inst : Nat} {s : State} (h : Formed (memories s)) :
    Formed (memories (boundaryTake blk inst s)) := by
  simp only [boundaryTake]
  repeat' split
  all_goals simp [h]

/-! ### Stopping a command -/

@[simp] theorem memories_stopLoad {c : Cmd} (s : State) :
    memories (stopLoad c s) = memories s := by simp [stopLoad]

@[simp] theorem memories_stopPortStop {c : Cmd} (s : State) :
    memories (stopPortStop c s) = memories s := by simp [stopPortStop]

@[simp] theorem memories_stopShutter {c : Cmd} (s : State) :
    memories (stopShutter c s) = memories s := by simp [stopShutter]

@[simp] theorem memories_stopMarkFire {c : Cmd} (s : State) :
    memories (stopMarkFire c s) = memories s := by simp [stopMarkFire]

@[simp] theorem memories_withdrawRecord {id : Nat} (s : State) :
    memories (withdrawRecord id s) = memories s := by rfl

@[simp] theorem memories_stopWriter {c : Cmd} (s : State) :
    memories (stopWriter c s) = memories s := by simp [stopWriter]

@[simp] theorem memories_stopStage {c : Cmd} (s : State) :
    memories (stopStage c s) = memories s := by simp [stopStage]

@[simp] theorem memories_stopActivate {c : Cmd} (s : State) :
    memories (stopActivate c s) = memories s := by simp [stopActivate]

@[simp] theorem memories_stopCalibrate {c : Cmd} (s : State) :
    memories (stopCalibrate c s) = memories s := by simp [stopCalibrate]

@[simp] theorem memories_stopSelfcal {c : Cmd} (s : State) :
    memories (stopSelfcal c s) = memories s := by simp [stopSelfcal]

@[simp] theorem memories_stopSwap {c : Cmd} (s : State) : memories (stopSwap c s) = memories s := by
  simp only [stopSwap]
  split <;> simp

@[simp] theorem memories_stopEffect {c : Cmd} (s : State) : memories (stopEffect c s) = memories s := by
  simp only [stopEffect]
  repeat' split
  all_goals simp

@[simp] theorem memories_abortStart {c : Cmd} (s : State) : memories (abortStart c s) = memories s := by
  simp only [abortStart]
  split <;> simp

@[simp] theorem memories_tenderStop {t cause : Nat} {but : Option Nat} (s : State) :
    memories (tenderStop t cause but s) = memories s := by simp [tenderStop]

@[simp] theorem memories_heldComplete (s : State) :
    memories (heldComplete s) = memories s := by simp [heldComplete]

@[simp] theorem memories_tenderEnd {t : Nat} (s : State) :
    memories (tenderEnd t s) = memories s := by simp [tenderEnd]

@[simp] theorem memories_activateStart {image : List Byte} {c : Cmd} (s : State) :
    memories (activateStart image c s) = memories s := by simp [activateStart]

@[simp] theorem memories_activateGo {c : Cmd} (s : State) :
    memories (activateGo c s) = memories s := by simp [activateGo]

/-! ### Rows of the knotter, the reels and the history ring -/

@[simp] theorem memories_sliceRun {k : Nat} {r : GridRow} (s : State) :
    memories (sliceRun k r s) = memories s := by simp [sliceRun]

@[simp] theorem memories_knotIdle (s : State) : memories (knotIdle s) = memories s := by simp [knotIdle]

@[simp] theorem memories_knotterRowBody {k : Nat} (s : State) : memories (knotterRowBody k s) = memories s := by
  simp only [knotterRowBody]
  split <;> simp

@[simp] theorem memories_mergerUnder {g : List Comp} (s : State) : memories (mergerUnder g s) = memories s := by
  simp only [mergerUnder]
  split <;> simp

@[simp] theorem formed_mergerBody {s : State} (h : Formed (memories s)) :
    Formed (memories (mergerBody s)) := by
  simp only [mergerBody]
  split <;> simp [h]

@[simp] theorem memories_fragBody {k : Nat} {cells : List FragCell} {part split : Bool} (s : State) :
    memories (fragBody k cells part split s) = memories s := by
  simp only [fragBody]
  split <;> simp

@[simp] theorem formed_mergeTimeoutBody {s : State} (h : Formed (memories s)) :
    Formed (memories (mergeTimeoutBody s)) := by
  simp only [mergeTimeoutBody]
  split <;> simp [h]

@[simp] theorem formed_tileWriteBody {s : State} (h : Formed (memories s)) :
    Formed (memories (tileWriteBody s)) := by
  simp only [tileWriteBody]
  split <;> simp [h]

@[simp] theorem memories_recordBody (s : State) : memories (recordBody s) = memories s := by
  simp only [recordBody]
  repeat' split
  all_goals simp

@[simp] theorem memories_histLookupBody {v : Nat} (s : State) :
    memories (histLookupBody v s) = memories s := by rfl

@[simp] theorem memories_reelHoldBody {r : Nat} (s : State) : memories (reelHoldBody r s) = memories s := by
  simp only [reelHoldBody]
  repeat' split
  all_goals simp

/-! ### Rows of the watermark drive -/

@[simp] theorem memories_retryBody {n : Nat} (s : State) : memories (retryBody n s) = memories s := by
  simp only [retryBody]
  split <;> simp

@[simp] theorem memories_peakEndBody {n ma : Nat} (s : State) : memories (peakEndBody n ma s) = memories s := by
  simp only [peakEndBody]
  split <;> simp

@[simp] theorem memories_driveEndBody {n : Nat} (s : State) : memories (driveEndBody n s) = memories s := by
  simp only [driveEndBody]
  split <;> simp

@[simp] theorem memories_raiseSwitches {cause detail : Nat} (s : State) :
    memories (raiseSwitches cause detail s) = memories s := by simp [raiseSwitches]

@[simp] theorem memories_valveSupply {v : Nat} {held : Bool} (s : State) :
    memories (valveSupply v held s) = memories s := by rfl

@[simp] theorem memories_vvalveOut {v : Nat} (s : State) :
    memories (vvalveOut v s) = memories s := by simp [vvalveOut]

@[simp] theorem memories_vvalveOk {v : Nat} (s : State) :
    memories (vvalveOk v s) = memories s := by simp [vvalveOk]

@[simp] theorem memories_vvalveReady (s : State) : memories (vvalveReady s) = memories s := by simp [vvalveReady]

@[simp] theorem memories_markFireStart {c : Cmd} (s : State) :
    memories (markFireStart c s) = memories s := by simp [markFireStart]

/-! ### Registers that a read clears -/

@[simp] theorem memories_rcClear {off : Nat} (s : State) :
    memories (rcClear off s) = memories s := (rcClear_countersOnly _ _).memories

/-! ### Register accesses -/

@[simp] theorem memories_lowHalf {off : Nat} (s : State) : memories (lowHalf off s).2 = memories s := by rfl

@[simp] theorem memories_highHalf {off span : Nat} (s : State) :
    memories (highHalf off span s).2 = memories s := by
  simp only [highHalf]
  split <;> simp

@[simp] theorem memories_read32 {off span : Nat} (s : State) :
    memories (read32 off span s).2 = memories s := by simp [read32]

@[simp] theorem memories_regRead {size off span : Nat} (s : State) :
    memories (regRead size off span s).2 = memories s := by simp [regRead]

@[simp] theorem memories_write64 {off v : Nat} (s : State) :
    memories (write64 off v s) = memories s := by simp [write64]

@[simp] theorem memories_glbStatusWrite {v : Nat} (s : State) :
    memories (glbStatusWrite v s) = memories s := by rfl

@[simp] theorem memories_supplyWrite {v : Nat} (s : State) :
    memories (supplyWrite v s) = memories s := by simp [supplyWrite]

@[simp] theorem memories_write32Reg {off v : Nat} (s : State) : memories (write32Reg off v s) = memories s := by
  simp only [write32Reg]
  split <;> simp

@[simp] theorem memories_write32 {off v : Nat} (s : State) :
    memories (write32 off v s) = memories s := by simp [write32]

@[simp] theorem memories_regWrite {size off v : Nat} (s : State) :
    memories (regWrite size off v s) = memories s := by simp [regWrite]

@[simp] theorem memories_regLocal {off span : Nat} {acc : RegAccess} (s : State) :
    memories (regLocal off span acc s) = memories s := by
  simp only [regLocal]
  split <;> simp

@[simp] theorem memories_noAnswer {acc : RegAccess} (s : State) : memories (noAnswer acc s) = memories s := by
  simp only [noAnswer]
  split <;> simp

@[simp] theorem memories_forwardBody {sel off : Nat} {acc : RegAccess} (s : State) :
    memories (forwardBody sel off acc s) = memories s := by simp [forwardBody]

@[simp] theorem memories_pageWrite {size off v : Nat} (s : State) :
    memories (pageWrite size off v s) = memories s := by simp [pageWrite]

@[simp] theorem memories_bar0Serve {sel off : Nat} {acc : RegAccess} (s : State) :
    memories (bar0Serve sel off acc s) = memories s := by
  simp only [bar0Serve]
  repeat' split
  all_goals simp

@[simp] theorem memories_bar0Access {off : Nat} {acc : RegAccess} (s : State) :
    memories (bar0Access off acc s) = memories s := by
  simp only [bar0Access]
  split <;> simp

@[simp] theorem memories_readsRelease (s : State) :
    memories (readsRelease s) = memories s := by simp [readsRelease]

@[simp] theorem memories_bar2Landed {dev : Nat} (s : State) :
    memories (bar2Landed dev s) = memories s := by simp [bar2Landed]

@[simp] theorem memories_msixFlush {v : Nat} (s : State) :
    memories (msixFlush v s) = memories s := by simp [msixFlush]

@[simp] theorem memories_bar4Put {off v : Nat} (s : State) :
    memories (bar4Put off v s) = memories s := by simp [bar4Put]

@[simp] theorem memories_bar4Access {off : Nat} {acc : RegAccess} (s : State) :
    memories (bar4Access off acc s) = memories s := by
  simp only [bar4Access]
  repeat' split
  all_goals simp

@[simp] theorem memories_barAccess {bar : HostBar} {off : Nat} {acc : RegAccess} (s : State) :
    memories (barAccess bar off acc s) = memories s := by
  simp only [barAccess]
  split <;> simp

/-! ### IDENTIFY -/

@[simp] theorem memories_startIdentify {io : HostIo} {c : Cmd} (s : State) :
    memories (startIdentify io c s) = memories s := by simp [startIdentify]

/-! ### Self-test -/

@[simp] theorem memories_bistBegin {cid : Option Nat} {blk inst mask : Nat} (s : State) :
    memories (bistBegin cid blk inst mask s) = memories s := by simp [bistBegin]

@[simp] theorem memories_startBist {c : Cmd} (s : State) :
    memories (startBist c s) = memories s := by simp [startBist]

@[simp] theorem memories_bistRepair {rs : List W32} {ts : List Bool} {n : Nat} {ok : Bool} (s : State) :
    memories (bistRepair rs ts n ok s).2.2 = memories s := by
  induction rs generalizing ts n ok s with
  | nil => rfl
  | cons r rs ih => simp [bistRepair, ih]

@[simp] theorem memories_bistEnd {r : BistRun} (s : State) : memories (bistEnd r s) = memories s := by
  simp only [bistEnd]
  split <;> simp

@[simp] theorem memories_bistBlock {sig : List Byte} {rows : List W32} {tests : List Bool} (s : State) :
    memories (bistBlock sig rows tests s) = memories s := by
  simp only [bistBlock]
  repeat' split
  all_goals simp

@[simp] theorem memories_sparePeriod (s : State) : memories (sparePeriod s) = memories s := by
  simp only [sparePeriod]
  split <;> simp

/-! ### The map of the chain and its time -/

@[simp] theorem memories_updChain {f : Chain → Chain} (s : State) : memories (updChain f s) = memories s := by rfl

@[simp] theorem memories_updFelt {k : Nat} {f : FeltPort → FeltPort} (s : State) :
    memories (updFelt k f s) = memories s := by rfl

@[simp] theorem memories_feltNb {k ptype : Nat} {payload : List Byte} (s : State) :
    memories (feltNb k ptype payload s) = memories s := by simp [feltNb]

@[simp] theorem memories_tbStep {n : Nat} (s : State) : memories (tbStep n s) = memories s := by simp [tbStep]

@[simp] theorem memories_setSync {ok : Bool} (s : State) :
    memories (setSync ok s) = memories s := by simp [setSync]

@[simp] theorem memories_probe {hd : List Byte} {tb : W64} {path : List Byte} {k : Fin 4} (s : State) :
    memories (probe hd tb path s k) = memories s := by
  simp only [probe]
  split <;> simp

@[simp] theorem memories_probeAll {mode : Nat} (s : State) :
    memories (probeAll mode s) = memories s := by simp [probeAll]

@[simp] theorem memories_searchBegin {cid : Option Nat} {mode : Nat} (s : State) :
    memories (searchBegin cid mode s) = memories s := by simp [searchBegin]

@[simp] theorem memories_portsLearn {e : MapEntry} (s : State) :
    memories (portsLearn e s) = memories s := by simp [portsLearn]

@[simp] theorem memories_joinSend {d step : Nat} (s : State) :
    memories (joinSend d step s) = memories s := by simp [joinSend]

@[simp] theorem memories_mapTaken {step : Nat} (s : State) :
    memories (mapTaken step s) = memories s := by simp [mapTaken]

@[simp] theorem memories_searchFull (s : State) : memories (searchFull s) = memories s := by simp [searchFull]

@[simp] theorem memories_searchVerify (s : State) :
    memories (searchVerify s) = memories s := by simp [searchVerify]

@[simp] theorem memories_searchEnd {mode : Nat} (s : State) :
    memories (searchEnd mode s) = memories s := by simp [searchEnd]

@[simp] theorem memories_mapStore (s : State) : memories (mapStore s) = memories s := by simp [mapStore]

@[simp] theorem memories_autoSearch (s : State) : memories (autoSearch s) = memories s := by
  simp only [autoSearch]
  split <;> simp

@[simp] theorem memories_startEnum {c : Cmd} (s : State) :
    memories (startEnum c s) = memories s := by simp [startEnum]

@[simp] theorem memories_contEnum {io : HostIo} {c : Cmd} (s : State) :
    memories (contEnum io c s) = memories s := by
  simp only [contEnum]
  split <;> simp

/-! ### Rows of the felt -/

@[simp] theorem memories_relay {k : Nat} {h : RouteHdr} {ptype : Nat} {payload : List Byte} (s : State) :
    memories (relay k h ptype payload s) = memories s := by simp [relay]

@[simp] theorem memories_routed {k : Nat} {h : RouteHdr} {ptype : Nat} {payload : List Byte} {act : State → State}
    (hact : ∀ u, memories (act u) = memories u) (s : State) :
    memories (routed k h ptype payload act s) = memories s := by simp [routed, hact]

theorem formed_routed {k : Nat} {h : RouteHdr} {ptype : Nat} {payload : List Byte} {act : State → State} {s : State}
    (hact : ∀ u, Formed (memories u) → Formed (memories (act u))) (hs : Formed (memories s)) :
    Formed (memories (routed k h ptype payload act s)) := by
  unfold routed
  exact formed_fromUsable (fun u hu => by simp [hact, hu]) hs

@[simp] theorem memories_portShift {k : Nat} {up : Bool} (s : State) :
    memories (portShift k up s) = memories s := by simp [portShift]

@[simp] theorem memories_markForeign {k : Nat} {serial : List Byte} (s : State) :
    memories (markForeign k serial s) = memories s := by simp [markForeign]

@[simp] theorem memories_markLoop {k : Nat} (s : State) :
    memories (markLoop k s) = memories s := by simp [markLoop]

@[simp] theorem memories_learnNb {k : Nat} {m : EnumMsg} (s : State) :
    memories (learnNb k m s) = memories s := by simp [learnNb]

@[simp] theorem memories_enumReply {k : Fin 4} {m : EnumMsg} (s : State) :
    memories (enumReply k m s) = memories s := by simp [enumReply]

@[simp] theorem memories_probeOn {k : Fin 4} {m : EnumMsg} (s : State) :
    memories (probeOn k m s) = memories s := by simp [probeOn]

@[simp] theorem memories_probeTaken {k : Fin 4} {m : EnumMsg} (s : State) :
    memories (probeTaken k m s) = memories s := by simp [probeTaken]

@[simp] theorem memories_enumFound {m : EnumMsg} (s : State) : memories (enumFound m s) = memories s := by
  simp only [enumFound]
  repeat' split
  all_goals simp

@[simp] theorem memories_replyTaken {k : Nat} {m : EnumMsg} (s : State) :
    memories (replyTaken k m s) = memories s := by simp [replyTaken]

@[simp] theorem memories_enumBody {k : Fin 4} {m : EnumMsg} (s : State) :
    memories (enumBody k m s) = memories s := by simp [enumBody]

@[simp] theorem memories_syncRequest {k t1 : Nat} (s : State) :
    memories (syncRequest k t1 s) = memories s := by simp [syncRequest]

@[simp] theorem memories_syncReply {k t1 t2 t3 : Nat} (s : State) :
    memories (syncReply k t1 t2 t3 s) = memories s := by simp [syncReply]

@[simp] theorem memories_syncExchange (s : State) : memories (syncExchange s) = memories s := by
  simp only [syncExchange]
  split <;> simp

@[simp] theorem memories_syncJudge (s : State) : memories (syncJudge s) = memories s := by simp [syncJudge]

@[simp] theorem memories_syncUpdate (s : State) : memories (syncUpdate s) = memories s := by simp [syncUpdate]

@[simp] theorem memories_autoProbe (s : State) : memories (autoProbe s) = memories s := by
  simp only [autoProbe]
  split <;> simp

@[simp] theorem memories_syncAverage (s : State) : memories (syncAverage s) = memories s := by simp [syncAverage]

@[simp] theorem memories_parentLost (s : State) : memories (parentLost s) = memories s := by
  simp only [parentLost]
  split <;> simp

@[simp] theorem memories_encDown {x : EncSample} (s : State) :
    memories (encDown x s) = memories s := by simp [encDown]

@[simp] theorem memories_encSend (s : State) : memories (encSend s) = memories s := by simp [encSend]

@[simp] theorem memories_encTaken {e : Int} {t number : Nat} (s : State) :
    memories (encTaken e t number s) = memories s := by simp [encTaken]

@[simp] theorem memories_shareLost (s : State) : memories (shareLost s) = memories s := by simp [shareLost]

@[simp] theorem memories_cmdTaken {src sq : Nat} {bs : List Byte} (s : State) :
    memories (cmdTaken src sq bs s) = memories s := by simp [cmdTaken]

@[simp] theorem memories_interimTaken {c : Cmd} {b : List Byte} (s : State) :
    memories (interimTaken c b s) = memories s := by simp [interimTaken]

@[simp] theorem memories_cplTaken {src cq : Nat} {b : List Byte} (s : State) :
    memories (cplTaken src cq b s) = memories s := by
  simp only [cplTaken]
  split <;> simp

@[simp] theorem formed_regTaken {src : Nat} {m : RegMsg} {s : State} (h : Formed (memories s)) :
    Formed (memories (regTaken src m s)) := by
  simp only [regTaken]
  split <;> simp [h]

@[simp] theorem memories_joined {id hops parent pport : Nat} {hd : List Byte} {step : Nat} (s : State) :
    memories (joined id hops parent pport hd step s) = memories s := by simp [joined]

@[simp] theorem memories_ctrlTaken {k : Nat} {m : CtrlMsg} (s : State) :
    memories (ctrlTaken k m s) = memories s := by
  simp only [ctrlTaken]
  split <;> simp

@[simp] theorem memories_ctrlBody {k : Nat} {h : RouteHdr} {m : CtrlMsg} (s : State) :
    memories (ctrlBody k h m s) = memories s := by
  simp only [ctrlBody]
  split <;> simp

@[simp] theorem memories_hwrTaken {src : Nat} {a : Nat} {bs : List Byte} (s : State) :
    memories (hwrTaken src a bs s) = memories s := by simp [hwrTaken]

@[simp] theorem memories_hostRequest {p : FeltPacket} (s : State) :
    memories (hostRequest p s) = memories s := by simp [hostRequest]

@[simp] theorem memories_hwrRelease (s : State) : memories (hwrRelease s) = memories s := by simp [hwrRelease]

@[simp] theorem memories_hrdAnswer {src : Nat} {bs : List Byte} (s : State) :
    memories (hrdAnswer src bs s) = memories s := by simp [hrdAnswer]

@[simp] theorem memories_hrdTaken {src : Nat} {m : HrdMsg} (s : State) :
    memories (hrdTaken src m s) = memories s := by
  simp only [hrdTaken]
  split <;> simp

@[simp] theorem memories_feltDown {k : Nat} (s : State) :
    memories (feltDown k s) = memories s := by simp [feltDown]

@[simp] theorem memories_routeTimeout {sq : Nat} {tag : W32} (s : State) :
    memories (routeTimeout sq tag s) = memories s := by
  simp only [routeTimeout]
  split <;> simp

@[simp] theorem memories_deviceJoined {d : Nat} {reset : Bool} (s : State) :
    memories (deviceJoined d reset s) = memories s := by simp [deviceJoined]

/-! ### Start-up and reset -/

@[simp] theorem memories_updBoot {f : Boot → Boot} (s : State) : memories (updBoot f s) = memories s := by rfl

@[simp] theorem memories_flashBoot {fl : FlashContent} (s0 : State) :
    memories (flashBoot fl s0) = memories s0 := by simp [flashBoot, -List.foldl_append]

@[simp] theorem memories_holdBegin (s : State) : memories (holdBegin s) = memories s := by rfl

@[simp] theorem memories_beginStart {fl : FlashContent} {temps : List Int} (s : State) :
    memories (beginStart fl temps s) = memories s := by simp [beginStart]

@[simp] theorem memories_holdCheck {temps : List Int} (s : State) :
    memories (holdCheck temps s) = memories s := by simp [holdCheck]

@[simp] theorem formed_profHeadbox {p : Nat} {s : State} (h : Formed (memories s)) :
    Formed (memories (profHeadbox p s)) := by simp [profHeadbox, h]

@[simp] theorem memories_profDryer {p : Nat} (s : State) :
    memories (profDryer p s) = memories s := by simp [profDryer]

@[simp] theorem formed_profStart {g : Tbl Nat} {s : State} (h : Formed (memories s)) :
    Formed (memories (profStart g s)) := by
  have h1 : Formed (memories (updBoot (fun b => { b with images := imageOrder b.profile, imagesFailed := [] })
    (handOver g s))) := by
    simp [h]
  have h2 := formed_foldl (f := fun s p => profHeadbox p s) (fun u p hu => by simp [hu]) (List.range 32) h1
  simpa [profStart] using h2

@[simp] theorem memories_imageRead {i : Nat} (s : State) :
    memories (imageRead i s) = memories s := by simp [imageRead]

@[simp] theorem memories_mapImage {k : ItemId} {im : List Byte} (s : State) :
    memories (mapImage k im s) = memories s := by simp [mapImage]

@[simp] theorem formed_imageLoaded {crc : Nat} {im : List Byte} {s : State} (h : Formed (memories s)) :
    Formed (memories (imageLoaded crc im s)) := by
  simp only [imageLoaded]
  split <;> simp [h]

@[simp] theorem memories_profJudge (s : State) : memories (profJudge s).2 = memories s := by
  simp only [profJudge]
  repeat' split
  all_goals simp

@[simp] theorem memories_chainReady (s : State) : memories (chainReady s) = memories s := by
  simp only [chainReady]
  split <;> simp

@[simp] theorem memories_boardIds (s : State) : memories (boardIds s) = memories s := by
  simp only [boardIds]
  split <;> simp

@[simp] theorem memories_readySet (s : State) : memories (readySet s) = memories s := by rfl

@[simp] theorem memories_readyTimes (s : State) : memories (readyTimes s) = memories s := by simp [readyTimes]

@[simp] theorem memories_lanesReady (s : State) : memories (lanesReady s) = memories s := by simp [lanesReady]

@[simp] theorem formed_deviceReady {s : State} (h : Formed (memories s)) :
    Formed (memories (deviceReady s)) := by
  simp only [deviceReady]
  split <;> simp [h]

@[simp] theorem formed_resetState {cause : Nat} {phase : Phase} {s0 : State} (h : Formed (memories s0)) :
    Formed (memories (resetState cause phase s0)) :=
  ⟨rfl, (formed_pageTorn h).2⟩

/-! ### Rows of start-up, endpoint, crystal and AFE link -/

@[simp] theorem memories_tryStart {fl : FlashContent} {temps : List Int} (s : State) :
    memories (tryStart fl temps s) = memories s := by simp [tryStart]

@[simp] theorem memories_powerValid {fl : FlashContent} {temps : List Int} (s : State) :
    memories (powerValid fl temps s) = memories s := by simp [powerValid]

@[simp] theorem formed_brownOut {k : Nat} {s : State} (h : Formed (memories s)) :
    Formed (memories (brownOut k s)) := by simp [brownOut, h]

@[simp] theorem memories_railDip {k : Nat} {back : Bool} (s : State) :
    memories (railDip k back s) = memories s := by simp [railDip]

@[simp] theorem formed_sysRst {lowNs : Nat} {taken : Bool} {s : State} (h : Formed (memories s)) :
    Formed (memories (sysRst lowNs taken s)) := by
  simp only [sysRst]
  repeat' split
  all_goals simp [h]

@[simp] theorem formed_tapMove {hold : Bool} {fl : FlashContent} {temps : List Int} {s : State} (h : Formed (memories s)) :
    Formed (memories (tapMove hold fl temps s)) := by simp [tapMove, h]

@[simp] theorem formed_tapInstruction {i : TapInstr} {fl : FlashContent} {temps : List Int} {s : State}
    (h : Formed (memories s)) :
    Formed (memories (tapInstruction i fl temps s)) := by
  simp only [tapInstruction]
  repeat' split
  all_goals simp [h]

@[simp] theorem formed_debugLeaves {s : State} (h : Formed (memories s)) :
    Formed (memories (debugLeaves s)) := by simp [debugLeaves, h]

@[simp] theorem memories_flightDrop (s : State) : memories (flightDrop s) = memories s := by simp [flightDrop]

@[simp] theorem memories_pcieReset {low : Bool} (s : State) :
    memories (pcieReset low s) = memories s := by simp [pcieReset]

@[simp] theorem memories_linkChange {gen width : Nat} (s : State) :
    memories (linkChange gen width s) = memories s := by simp [linkChange]

@[simp] theorem memories_aerUncorr {status : W32} (s : State) :
    memories (aerUncorr status s) = memories s := by simp [aerUncorr]

@[simp] theorem memories_busMaster {on : Bool} (s : State) :
    memories (busMaster on s) = memories s := by simp [busMaster]

@[simp] theorem formed_xtalFail {s : State} (h : Formed (memories s)) :
    Formed (memories (xtalFail s)) := by simp [xtalFail, h]

@[simp] theorem memories_xtalOk (s : State) : memories (xtalOk s) = memories s := by simp [xtalOk]

@[simp] theorem formed_afeLink {s : State} (h : Formed (memories s)) :
    Formed (memories (afeLink s)) := by
  simp only [afeLink]
  split
  · exact h
  · exact formed_calAbandon (formed_dryStopAll (by simp [h]))

@[simp] theorem memories_afeLinkRestored (s : State) :
    memories (afeLinkRestored s) = memories s := by simp [afeLinkRestored]

@[simp] theorem memories_overloadJudge {w : Nat} (s : State) :
    memories (overloadJudge w s) = memories s := by simp [overloadJudge]

@[simp] theorem memories_rateWindow {caps : List Nat} (s : State) :
    memories (rateWindow caps s) = memories s := by simp [rateWindow]

/-! ### The tick -/

@[simp] theorem memories_tbAdvance (s : State) : memories (tbAdvance s) = memories s := by rfl

@[simp] theorem memories_operatingSecond (s : State) :
    memories (operatingSecond s) = memories s := by simp [operatingSecond]

@[simp] theorem memories_headGoesOn (s : State) : memories (headGoesOn s) = memories s := by simp [headGoesOn]



/-! ### The commands -/

/-- From memories in canonical form, whatever `o` answers next has them in canonical form. -/
def KeepsForm (o : Out) (s : State) : Prop := Formed (memories s) → ∀ t, o = .next t → Formed (memories t)

theorem formed_of_same {f : State → State} (hf : ∀ u, memories (f u) = memories u) (s : State) (h : Formed (memories s)) :
    Formed (memories (f s)) := by rwa [hf]

theorem keepsForm_next {s t : State} (h : Formed (memories s) → Formed (memories t)) : KeepsForm (.next t) s := by
  rintro hs _ ⟨⟩
  exact h hs

theorem keepsForm_whenReady {f : State → State} (hf : ∀ u, Formed (memories u) → Formed (memories (f u))) (s : State) :
    KeepsForm (whenReady f s) s := keepsForm_next (fun h => by simp [hf, h])

theorem keepsForm_whenHost {f : State → State} (hf : ∀ u, Formed (memories u) → Formed (memories (f u))) (s : State) :
    KeepsForm (whenHost f s) s := keepsForm_next (fun h => by simp [hf, h])

theorem keepsForm_whenLive {f : State → State} (hf : ∀ u, Formed (memories u) → Formed (memories (f u))) (s : State) :
    KeepsForm (whenLive f s) s := keepsForm_next (fun h => by simp [hf, h])

theorem keepsForm_opcodeRow {sq : Fin 1024} {tag : W32} {op : Nat} {start cont : Cmd → State → State}
    (hstart : ∀ x u, Formed (memories u) → Formed (memories (start x u)))
    (hcont : ∀ x u, Formed (memories u) → Formed (memories (cont x u))) (s : State) :
    KeepsForm (opcodeRow sq tag op start cont s) s := keepsForm_whenReady (fun _ => formed_runCmd hstart hcont) s

theorem keepsForm_execThermalRowEmit (s : State) : KeepsForm (execThermalRowEmit s) s :=
    keepsForm_whenLive (fun u hu => by split <;> simp [hu]) s

theorem keepsForm_execThermTimeout (s : State) : KeepsForm (execThermTimeout s) s := by
  refine keepsForm_whenLive (fun u hu => ?_) s
  repeat' split
  all_goals simp [hu]

theorem keepsForm_execLaneSignalDetect {n : Fin 80} (s : State) :
    KeepsForm (execLaneSignalDetect n s) s := keepsForm_whenReady (fun u hu => by simp [hu]) s

theorem keepsForm_execLaneCdrLock {n : Fin 80} (s : State) : KeepsForm (execLaneCdrLock n s) s :=
    keepsForm_whenReady (fun u hu => by simp [hu]) s

theorem keepsForm_execLaneEqDone {n : Fin 80} {ctle : Fin 16} (s : State) :
    KeepsForm (execLaneEqDone n ctle s) s := keepsForm_whenReady (fun u hu => by simp [hu]) s

theorem keepsForm_execDfeAdaptStep {n : Fin 80} {up down : BitVec 5} (s : State) :
    KeepsForm (execDfeAdaptStep n up down s) s := keepsForm_whenReady (fun u hu => by simp [hu]) s

theorem keepsForm_execLaneAligned {n : Fin 80} (s : State) : KeepsForm (execLaneAligned n s) s :=
    keepsForm_whenReady (fun u hu => by simp [hu]) s

theorem keepsForm_execLaneRelock {n : Fin 80} {rx : LaneWord} (s : State) : KeepsForm (execLaneRelock n rx s) s := by
  refine keepsForm_whenReady (fun u hu => ?_) s
  repeat' split
  all_goals simp [hu]

theorem keepsForm_execLaneUnlock {n : Fin 80} {reason : Fin 4} {bad : List Bool} (s : State) :
    KeepsForm (execLaneUnlock n reason bad s) s := keepsForm_whenReady (fun u hu => by simp [hu]) s

theorem keepsForm_execLaneRetrainTimeout {n : Fin 80} (s : State) :
    KeepsForm (execLaneRetrainTimeout n s) s := keepsForm_whenReady (fun u hu => by dsimp only; split <;> simp [hu]) s

theorem keepsForm_execLockFail {n : Fin 80} (s : State) :
    KeepsForm (execLockFail n s) s := keepsForm_whenReady (fun u hu => by dsimp only; split <;> simp [hu]) s

theorem keepsForm_execLaneTrainTimeout {n : Fin 80} (s : State) :
    KeepsForm (execLaneTrainTimeout n s) s := keepsForm_whenReady (fun u hu => by simp [hu]) s

theorem keepsForm_execPrbsSync {n : Fin 80} {rx : List Bool} (s : State) : KeepsForm (execPrbsSync n rx s) s := by
  refine keepsForm_whenReady (fun u hu => ?_) s
  dsimp only
  repeat' split
  all_goals simp [hu]

theorem keepsForm_execPrbsSyncLoss {n : Fin 80} {rx : List Bool} (s : State) :
    KeepsForm (execPrbsSyncLoss n rx s) s := keepsForm_whenReady (fun u hu => by simp [hu]) s

theorem keepsForm_execLinkFault {r : LinkRef} {unlock : Bool} (s : State) :
    KeepsForm (execLinkFault r unlock s) s := keepsForm_whenReady (fun u hu => by simp [hu]) s

theorem keepsForm_execWidthAck {r : LinkRef} {pkt : BrynPacket} {payload : List Byte} (s : State) :
    KeepsForm (execWidthAck r pkt payload s) s := keepsForm_whenReady (fun u hu => by simp [hu]) s

theorem keepsForm_execWidthReq {k : Fin 4} {pkt : BrynPacket} {payload : List Byte} (s : State) :
    KeepsForm (execWidthReq k pkt payload s) s := keepsForm_whenReady (fun u hu => by simp [hu]) s

theorem keepsForm_execCreditGrantReceived {k : Fin 4} {pkt : BrynPacket} {payload : List Byte} (s : State) :
    KeepsForm (execCreditGrantReceived k pkt payload s) s := keepsForm_whenReady (fun u hu => by simp [hu]) s

theorem keepsForm_execLineData {p : Fin 32} {pkt : BrynPacket} {payload : List Byte} (s : State) :
    KeepsForm (execLineData p pkt payload s) s := keepsForm_whenLive (fun u hu => by simp [hu]) s

theorem keepsForm_execCxpStreamPacket {p : Fin 32} {conn : Fin 4} {pkt : CxpPacket} (s : State) :
    KeepsForm (execCxpStreamPacket p conn pkt s) s := keepsForm_whenLive (fun u hu => by simp [hu]) s

theorem keepsForm_execLineTimeout {p : Fin 32} (s : State) :
    KeepsForm (execLineTimeout p s) s := keepsForm_whenLive (fun u hu => by split <;> simp [hu]) s

theorem keepsForm_execDroppedLinePeriod {p : Fin 32} (s : State) : KeepsForm (execDroppedLinePeriod p s) s := by
  refine keepsForm_whenLive (fun u hu => ?_) s
  dsimp only
  repeat' split
  all_goals simp [hu]

theorem keepsForm_execRegAck {p : Fin 32} {pkt : BrynPacket} {payload : List Byte} (s : State) :
    KeepsForm (execRegAck p pkt payload s) s := keepsForm_whenLive (fun u hu => by simp [hu]) s

theorem keepsForm_execCxpControlAck {p : Fin 32} {ack : CxpAck} (s : State) : KeepsForm (execCxpControlAck p ack s) s := by
  refine keepsForm_whenLive (fun u hu => ?_) s
  dsimp only
  repeat' split
  all_goals simp [hu]

theorem keepsForm_execCxpHeartbeat {p : Fin 32} (s : State) :
    KeepsForm (execCxpHeartbeat p s) s := keepsForm_whenLive (fun u hu => by simp [hu]) s

theorem keepsForm_execHeartbeatLost {p : Fin 32} (s : State) :
    KeepsForm (execHeartbeatLost p s) s := keepsForm_whenLive (fun u hu => by simp [hu]) s

theorem keepsForm_execDiscoveryFail {p : Fin 32} (s : State) :
    KeepsForm (execDiscoveryFail p s) s := keepsForm_whenLive (fun u hu => by simp [hu]) s

theorem keepsForm_execTriggerEncoder {p : Fin 32} (s : State) :
    KeepsForm (execTriggerEncoder p s) s := keepsForm_whenLive (fun u hu => by split <;> simp [hu]) s

theorem keepsForm_execTriggerTimer {p : Fin 32} (s : State) :
    KeepsForm (execTriggerTimer p s) s := keepsForm_whenLive (fun u hu => by simp [hu]) s

theorem keepsForm_execTrigLost {p : Fin 32} (s : State) :
    KeepsForm (execTrigLost p s) s := keepsForm_whenLive (fun u hu => by dsimp only; split <;> simp [hu]) s

theorem keepsForm_execEncoderEdge {e : Fin 4} {a b : Bool} (s : State) : KeepsForm (execEncoderEdge e a b s) s :=
    keepsForm_next (fun h => by simp [h])

theorem keepsForm_execSetAckTimeout {p : Fin 36} (s : State) :
    KeepsForm (execSetAckTimeout p s) s := keepsForm_whenLive (fun u hu => by simp [hu]) s

theorem keepsForm_execFuseStep (s : State) : KeepsForm (execFuseStep s) s := keepsForm_next (fun h => by simp [h])

theorem keepsForm_execSwapHandover (s : State) : KeepsForm (execSwapHandover s) s :=
    keepsForm_whenLive (fun u hu => by split <;> simp [hu]) s

theorem keepsForm_execInjectedStart {u : Fin 4} (s : State) :
    KeepsForm (execInjectedStart u s) s := keepsForm_whenReady (fun u hu => by simp [hu]) s

theorem keepsForm_execRefCheck {n2 : Option (Fin 440000)} (s : State) :
    KeepsForm (execRefCheck n2 s) s := keepsForm_whenReady (fun u hu => by simp [hu]) s

theorem keepsForm_execCalibrate {sq : Fin 1024} {tag : W32} {tests : List Bool} (s : State) :
    KeepsForm (execCalibrate sq tag tests s) s :=
      keepsForm_opcodeRow (fun _ => formed_of_same memories_calibrateStart) (fun _ _ hu => by simp [hu]) s

theorem keepsForm_execHbmEccUncorr {addr : BitVec 37} (s : State) : KeepsForm (execHbmEccUncorr addr s) s := by
  dsimp only [execHbmEccUncorr]
  exact keepsForm_whenReady (fun _ hu => by simp [hu]) s

theorem keepsForm_execNvmRead {sq : Fin 1024} {tag : W32} {io : HostIo} (s : State) :
    KeepsForm (execNvmRead sq tag io s) s :=
      keepsForm_opcodeRow (fun _ => formed_of_same memories_startNvmRead) (fun _ _ hu => by simp [hu]) s

theorem keepsForm_execBar2Access {off : BitVec 36} {acc : Bar2} (s : State) : KeepsForm (execBar2Access off acc s) s := by
  dsimp only [execBar2Access]
  split
  · rintro _ _ ⟨⟩
  · exact keepsForm_whenHost (fun u hu => by simp [hu]) s

theorem keepsForm_execGpioEdge {n : Fin 48} {level : Bool} (s : State) : KeepsForm (execGpioEdge n level s) s :=
    keepsForm_next (fun h => by simp [h])

theorem keepsForm_execCfgCommit {sq : Fin 1024} {tag : W32} (s : State) :
    KeepsForm (execCfgCommit sq tag s) s := keepsForm_opcodeRow (fun _ _ hu => by simp [hu]) (fun _ _ => formed_commitEnds) s

theorem keepsForm_execCfgCommitDiscard {sq : Fin 1024} {tag : W32} (s : State) :
    KeepsForm (execCfgCommitDiscard sq tag s) s := keepsForm_opcodeRow (fun _ _ hu => by simp [hu]) (fun _ _ h => h) s

theorem keepsForm_execCommitBoundary {blk inst : BitVec 8} (s : State) :
    KeepsForm (execCommitBoundary blk inst s) s := keepsForm_whenReady (fun u hu => by simp [hu]) s

theorem keepsForm_execReelUnitTimeout {r : Fin 64} (s : State) :
    KeepsForm (execReelUnitTimeout r s) s := keepsForm_whenLive (fun u hu => by split <;> simp [hu]) s

theorem keepsForm_execDecayEnd {n : Fin 16} (s : State) : KeepsForm (execDecayEnd n s) s :=
    keepsForm_whenReady (fun u hu => by simp [hu]) s

theorem keepsForm_execCoilUpdate (s : State) : KeepsForm (execCoilUpdate s) s :=
    keepsForm_whenReady (fun u hu => by simp [hu]) s

theorem keepsForm_execOvercurrent {n : Fin 16} (s : State) : KeepsForm (execOvercurrent n s) s :=
    keepsForm_whenReady (fun u hu => by simp [hu]) s

theorem keepsForm_execHsOvercurrent {m : Fin 4} (s : State) :
    KeepsForm (execHsOvercurrent m s) s := keepsForm_whenReady (fun u hu => by simp [hu]) s

theorem keepsForm_execSync {k : Fin 4} {kind : Fin 2} {t1 t2 t3 : W64} (s : State) :
    KeepsForm (execSync k kind t1 t2 t3 s) s := keepsForm_whenReady (fun u hu => by simp [hu]) s

theorem keepsForm_execEnc {k : Fin 4} {e t : W64} {number : W32} (s : State) :
    KeepsForm (execEnc k e t number s) s := keepsForm_whenReady (fun u hu => by simp [hu]) s

theorem keepsForm_execDb {k : Fin 4} {h : RouteHdr} {off v : W32} (s : State) :
    KeepsForm (execDb k h off v s) s := keepsForm_whenReady (fun u hu => by simp [hu]) s

theorem keepsForm_execCtrl {k : Fin 4} {h : RouteHdr} {m : CtrlMsg} (s : State) :
    KeepsForm (execCtrl k h m s) s := keepsForm_whenReady (fun u hu => by simp [hu]) s

theorem keepsForm_execDeviceReady (s : State) : KeepsForm (execDeviceReady s) s := keepsForm_next (fun h => by simp [h])

theorem keepsForm_execSysRstNRelease {fl : FlashContent} {temps : List Int} (s : State) :
    KeepsForm (execSysRstNRelease fl temps s) s := keepsForm_next (fun h => by simp [h])

theorem keepsForm_execDbgChal (s : State) : KeepsForm (execDbgChal s) s := keepsForm_next (fun h => by simp [h])

theorem keepsForm_execDbgResp {scope : Byte} {sig : List Byte} (s : State) :
    KeepsForm (execDbgResp scope sig s) s := keepsForm_next (fun h => by simp [h])

theorem keepsForm_execPerstNRelease (s : State) : KeepsForm (execPerstNRelease s) s := keepsForm_next (fun h => by simp [h])

/-- Every command keeps the memories in canonical form. -/
theorem keepsForm_exec (i : Instr) (s : State) : KeepsForm (exec i s) s := by
  cases i with
  | identify => exact keepsForm_opcodeRow (fun _ => formed_of_same memories_startIdentify) (fun _ _ h => h) _
  | progress => exact keepsForm_opcodeRow (fun _ => formed_of_same memories_progressStart) (fun _ _ h => h) _
  | abort =>
    exact keepsForm_opcodeRow (fun _ => formed_of_same memories_abortStart) (fun _ => formed_of_same memories_abortStart) _
  | echo => exact keepsForm_opcodeRow (fun _ => formed_of_same memories_echoStart) (fun _ _ h => h) _
  | cfgStage => exact keepsForm_opcodeRow (fun _ => formed_of_same memories_cfgStageStart) (fun _ _ h => h) _
  | cfgCommit => exact keepsForm_execCfgCommit _
  | cfgCommitDiscard => exact keepsForm_execCfgCommitDiscard _
  | cfgRead => exact keepsForm_opcodeRow (fun _ => formed_of_same memories_cfgReadStart) (fun _ _ h => h) _
  | laneTrain => exact keepsForm_opcodeRow (fun _ _ => formed_laneTrainStart) (fun _ _ h => h) _
  | laneTest => exact keepsForm_opcodeRow (fun _ _ => formed_laneTestStart) (fun _ _ h => h) _
  | portStart => exact keepsForm_opcodeRow (fun _ _ => formed_portStartStart) (fun _ _ h => h) _
  | portStop => exact keepsForm_opcodeRow (fun _ _ => formed_portStopStart) (fun _ _ h => h) _
  | tableLoad =>
    exact keepsForm_opcodeRow (fun _ _ => formed_needHost (fun _ _ => formed_startLoad))
      (fun _ _ => formed_needHost (fun _ _ => formed_loadRead)) _
  | reprocess => exact keepsForm_opcodeRow (fun _ => formed_of_same memories_reprocStart) (fun _ _ h => h) _
  | shutter => exact keepsForm_opcodeRow (fun _ => formed_of_same memories_shutterStart) (fun _ _ h => h) _
  | rulesLoad =>
    exact keepsForm_opcodeRow (fun _ _ => formed_needHost (fun _ _ => formed_startLoad))
      (fun _ _ => formed_needHost (fun _ _ => formed_loadRead)) _
  | queueCreate => exact keepsForm_opcodeRow (fun _ => formed_of_same memories_queueCreateStart) (fun _ _ h => h) _
  | queueDelete => exact keepsForm_opcodeRow (fun _ => formed_of_same memories_queueDeleteStart) (fun _ _ h => h) _
  | markFire => exact keepsForm_opcodeRow (fun _ => formed_of_same memories_markFireStart) (fun _ _ h => h) _
  | adcSelfcal => exact keepsForm_opcodeRow (fun _ => formed_of_same memories_adcSelfcalStart) (fun _ _ h => h) _
  | calibrate => exact keepsForm_execCalibrate _
  | nvmRead => exact keepsForm_execNvmRead _
  | nvmWrite =>
    exact keepsForm_opcodeRow (fun _ _ => formed_needHost (fun _ => formed_of_same memories_startNvmWrite)) (fun _ _ h => h) _
  | attest => exact keepsForm_opcodeRow (fun _ => formed_of_same memories_startAttest) (fun _ _ h => h) _
  | fwStage =>
    exact keepsForm_opcodeRow (fun _ _ => formed_needHost (fun _ _ => formed_startFwStage)) (fun _ _ => formed_contFwStage) _
  | fwActivate =>
    exact keepsForm_opcodeRow (fun _ => formed_of_same memories_activateStart) (fun _ => formed_of_same memories_activateGo) _
  | certRead => exact keepsForm_opcodeRow (fun _ => formed_of_same memories_startCertRead) (fun _ _ h => h) _
  | bistRun => exact keepsForm_opcodeRow (fun _ => formed_of_same memories_startBist) (fun _ _ h => h) _
  | wireSwap => exact keepsForm_opcodeRow (fun _ => formed_of_same memories_wireSwapStart) (fun _ _ h => h) _
  | chainEnum =>
    exact keepsForm_opcodeRow (fun _ => formed_of_same memories_startEnum) (fun _ => formed_of_same memories_contEnum) _
  | commandFetch => exact keepsForm_whenReady (formed_of_same memories_fetchBody) _
  | interimCompletion => exact keepsForm_whenReady (formed_of_same memories_interimBody) _
  | pair0Create => exact keepsForm_whenHost (formed_of_same memories_q0CtrlWrite) _
  | pair0Delete => exact keepsForm_whenHost (formed_of_same memories_q0CtrlWrite) _
  | dbSqTail => exact keepsForm_whenHost (formed_of_same memories_sqTailBody) _
  | dbCqHead => exact keepsForm_whenHost (formed_of_same memories_cqHeadBody) _
  | dbSrHead => exact keepsForm_whenHost (formed_of_same memories_srHeadBody) _
  | dbEvtHead => exact keepsForm_whenHost (formed_of_same memories_evtHeadBody) _
  | dbDqHead => exact keepsForm_whenHost (formed_of_same memories_dqHeadBody) _
  | doorbellPageWrite => exact keepsForm_whenHost (formed_of_same memories_pageBody) _
  | glbBar2Base => exact keepsForm_whenHost (formed_of_same memories_bar2BaseBody) _
  | bar2Access => exact keepsForm_execBar2Access _
  | forwardedAccess => exact keepsForm_whenHost (formed_of_same memories_bar0Access) _
  | evtGrp => exact keepsForm_whenHost (formed_of_same memories_evtGrpBody) _
  | evtPend => exact keepsForm_whenHost (formed_of_same memories_evtPendBody) _
  | mrkArm => exact keepsForm_whenHost (formed_of_same memories_armWrite) _
  | wireHistLookup => exact keepsForm_whenHost (formed_of_same memories_histLookupBody) _
  | hkSwtrig => exact keepsForm_whenHost (formed_of_same memories_swTrigger) _
  | masterGo => exact keepsForm_whenHost (formed_of_same memories_spmCtrlWrite) _
  | registerWrite => exact keepsForm_whenHost (formed_of_same memories_barAccess) _
  | registerReadClear => exact keepsForm_whenHost (formed_of_same memories_barAccess) _
  | splitReadLow => exact keepsForm_whenHost (formed_of_same memories_bar0Access) _
  | splitReadHigh => exact keepsForm_whenHost (formed_of_same memories_bar0Access) _
  | powerValid => exact keepsForm_next (formed_of_same memories_powerValid _)
  | deviceReady => exact keepsForm_execDeviceReady _
  | profileImageLoaded => exact keepsForm_whenLive (fun _ => formed_imageLoaded) _
  | thermalHoldCheck => exact keepsForm_next (formed_of_same memories_holdCheck _)
  | brownOut => exact keepsForm_next formed_brownOut
  | railDip => exact keepsForm_next (formed_of_same memories_railDip _)
  | sysRstN => exact keepsForm_next formed_sysRst
  | perstN => exact keepsForm_next (formed_of_same memories_pcieReset _)
  | functionLevelReset => exact keepsForm_next (formed_of_same memories_pcieReset _)
  | d3hotEntry => exact keepsForm_next (formed_of_same memories_pcieReset _)
  | dlDown => exact keepsForm_next (formed_of_same memories_pcieReset _)
  | busMasterEnable => exact keepsForm_whenHost (formed_of_same memories_busMaster) _
  | vvalveOut => exact keepsForm_next (formed_of_same memories_vvalveOut _)
  | vvalveOk => exact keepsForm_next (formed_of_same memories_vvalveOk _)
  | xtalFail => exact keepsForm_whenReady (fun _ => formed_xtalFail) _
  | xtalOk => exact keepsForm_whenReady (formed_of_same memories_xtalOk) _
  | afeKeepalive => exact keepsForm_whenReady (formed_of_same memories_emit) _
  | afeLink => exact keepsForm_whenReady (fun _ => formed_afeLink) _
  | afeLinkRestored => exact keepsForm_whenReady (formed_of_same memories_afeLinkRestored) _
  | tenderWatchdog => exact keepsForm_whenReady (formed_of_same memories_tenderStop) _
  | tenderRestartEnd => exact keepsForm_whenReady (formed_of_same memories_tenderEnd) _
  | rateWindowEnd => exact keepsForm_whenReady (formed_of_same memories_rateWindow) _
  | commitBoundary => exact keepsForm_execCommitBoundary _
  | groupTimer => exact keepsForm_whenReady (formed_of_same memories_grpEval) _
  | tailMirrorWrite => exact keepsForm_whenReady (formed_of_same memories_mirrorBody) _
  | recordDelivery => exact keepsForm_whenLive (formed_of_same memories_recordBody) _
  | laneSignalDetect => exact keepsForm_execLaneSignalDetect _
  | laneCdrLock => exact keepsForm_execLaneCdrLock _
  | laneEqDone => exact keepsForm_execLaneEqDone _
  | dfeAdaptStep => exact keepsForm_execDfeAdaptStep _
  | laneAligned => exact keepsForm_execLaneAligned _
  | laneRelock => exact keepsForm_execLaneRelock _
  | laneUnlock => exact keepsForm_execLaneUnlock _
  | laneRetrainTimeout => exact keepsForm_execLaneRetrainTimeout _
  | lockFail => exact keepsForm_execLockFail _
  | prbsSync => exact keepsForm_execPrbsSync _
  | prbsSyncLoss => exact keepsForm_execPrbsSyncLoss _
  | train => exact keepsForm_whenReady (fun _ => formed_linkTrain) _
  | am => exact keepsForm_whenReady (fun _ => formed_linkAm) _
  | amSend => exact keepsForm_whenReady (formed_of_same memories_linkAmSend) _
  | lineData => exact keepsForm_execLineData _
  | regAck => exact keepsForm_execRegAck _
  | widthAck => exact keepsForm_execWidthAck _
  | linkFault => exact keepsForm_execLinkFault _
  | linkStateTimeout => exact keepsForm_whenReady (fun _ => formed_linkTimeout) _
  | recoveryEnd => exact keepsForm_whenReady (fun _ => formed_linkRecovered) _
  | fullWidthRequest => exact keepsForm_whenReady (fun _ => formed_linkFullWidth) _
  | credit => exact keepsForm_whenReady (formed_of_same memories_linkCredit) _
  | cxpStreamPacket => exact keepsForm_execCxpStreamPacket _
  | cxpControlAck => exact keepsForm_execCxpControlAck _
  | cxpHeartbeat => exact keepsForm_execCxpHeartbeat _
  | heartbeatLost => exact keepsForm_execHeartbeatLost _
  | discoveryFail => exact keepsForm_execDiscoveryFail _
  | triggerEncoder => exact keepsForm_execTriggerEncoder _
  | triggerTimer => exact keepsForm_execTriggerTimer _
  | trigLost => exact keepsForm_execTrigLost _
  | lineTimeout => exact keepsForm_execLineTimeout _
  | droppedLinePeriod => exact keepsForm_execDroppedLinePeriod _
  | setAckTimeout => exact keepsForm_execSetAckTimeout _
  | wireServe => exact keepsForm_whenLive (fun _ => formed_wireServeBody) _
  | wireLineExit => exact keepsForm_whenLive (formed_of_same memories_wireExitBody) _
  | deadline => exact keepsForm_whenLive (fun _ => formed_deadlineBody) _
  | swapHandover => exact keepsForm_execSwapHandover _
  | swapDone => exact keepsForm_whenLive (formed_of_same memories_swapDoneBody) _
  | couchLine => exact keepsForm_whenLive (fun _ => formed_couchLineBody) _
  | rowEmit => exact keepsForm_whenLive (fun _ => formed_rowEmitBody) _
  | rowTimeout => exact keepsForm_whenLive (fun _ => formed_rowTimeoutBody) _
  | thermalRowMap => exact keepsForm_whenLive (formed_of_same memories_thermalMapBody) _
  | thermalRowEmit => exact keepsForm_execThermalRowEmit _
  | thermTimeout => exact keepsForm_execThermTimeout _
  | edge =>
    exact keepsForm_whenReady (fun _ => formed_fromUsable (formed_of_same (memories_unlessTripped memories_edgeBody))) _
  | knotterRow => exact keepsForm_whenLive (formed_of_same memories_knotterRowBody) _
  | mergerComponent => exact keepsForm_whenLive (fun _ => formed_mergerBody) _
  | frag =>
    exact keepsForm_whenReady (fun _ => formed_fromUsable (formed_of_same (memories_unlessTripped memories_fragBody))) _
  | mergeTimeout => exact keepsForm_whenLive (fun _ => formed_mergeTimeoutBody) _
  | tileWrite => exact keepsForm_whenReady (fun _ => formed_tileWriteBody) _
  | reelRow => exact keepsForm_whenLive (formed_of_same memories_reelTake) _
  | reelUnitTimeout => exact keepsForm_execReelUnitTimeout _
  | frameSync => exact keepsForm_whenLive (fun _ => formed_frameSyncBody) _
  | dryerRow => exact keepsForm_whenLive (formed_of_same memories_dryerRowBody) _
  | thermalPipeRow => exact keepsForm_whenLive (formed_of_same memories_pipeRow) _
  | frameTimeout => exact keepsForm_whenLive (fun _ => formed_frameTimeoutBody) _
  | driftRefine => exact keepsForm_whenReady (formed_of_same memories_driftRefineBody) _
  | markerJob => exact keepsForm_whenReady (formed_of_same memories_jobArrives) _
  | driveStart => exact keepsForm_whenReady (formed_of_same memories_tickSwitch) _
  | peakPhaseEnd => exact keepsForm_whenReady (formed_of_same memories_peakEndBody) _
  | driveEnd => exact keepsForm_whenReady (formed_of_same memories_driveEndBody) _
  | decayEnd => exact keepsForm_execDecayEnd _
  | headroomRetry => exact keepsForm_whenReady (formed_of_same memories_retryBody) _
  | coilUpdate => exact keepsForm_execCoilUpdate _
  | senseInstant => exact keepsForm_whenReady (formed_of_same memories_senseBody) _
  | overcurrent => exact keepsForm_execOvercurrent _
  | hsOvercurrent => exact keepsForm_execHsOvercurrent _
  | hkConversionEnd => exact keepsForm_whenReady (formed_of_same memories_conversionEnds) _
  | injectedStart => exact keepsForm_execInjectedStart _
  | selfcalDone => exact keepsForm_whenReady (formed_of_same memories_selfcalEnds) _
  | masterDone => exact keepsForm_whenReady (fun _ => formed_masterDoneBody) _
  | slaveReadFrame => exact keepsForm_whenReady (formed_of_same memories_slaveReadBody) _
  | slaveWriteFrame => exact keepsForm_whenReady (formed_of_same memories_slaveWriteBody) _
  | viewRefresh => exact keepsForm_whenReady (formed_of_same memories_viewRefreshBody) _
  | gpioEdge => exact keepsForm_execGpioEdge _
  | encoderEdge => exact keepsForm_execEncoderEdge _
  | encoderZ => exact keepsForm_whenReady (formed_of_same memories_encZBody) _
  | encoderSample => exact keepsForm_whenReady (formed_of_same memories_encSampleBody) _
  | thermalEvaluation => exact keepsForm_whenReady (fun _ => formed_thermalBody) _
  | refCheck => exact keepsForm_execRefCheck _
  | calibrationStart => exact keepsForm_whenReady (formed_of_same memories_calStart) _
  | forced => exact keepsForm_whenReady (formed_of_same memories_forcedBody) _
  | calibrationEnd => exact keepsForm_whenReady (fun _ => formed_calibrationEndBody) _
  | sramEccError => exact keepsForm_whenReady (formed_of_same memories_sramEccBody) _
  | hbmEccUncorr => exact keepsForm_execHbmEccUncorr _
  | pageWriteEnd => exact keepsForm_whenReady (fun _ => formed_pageEndBody) _
  | counterBatch => exact keepsForm_whenReady (formed_of_same memories_batchBegin) _
  | calStore => exact keepsForm_whenReady (formed_of_same memories_storeBegin) _
  | fuseStep => exact keepsForm_execFuseStep _
  | testInstruction => exact keepsForm_next formed_tapInstruction
  | dbgChal => exact keepsForm_execDbgChal _
  | dbgResp => exact keepsForm_execDbgResp _
  | enum => exact keepsForm_whenReady (formed_of_same memories_enumBody) _
  | sync => exact keepsForm_execSync _
  | syncExchange => exact keepsForm_whenReady (formed_of_same memories_syncExchange) _
  | syncAverage => exact keepsForm_whenReady (formed_of_same memories_syncAverage) _
  | enc => exact keepsForm_execEnc _
  | encSend => exact keepsForm_whenReady (formed_of_same memories_encSend) _
  | shareLost => exact keepsForm_whenReady (formed_of_same memories_shareLost) _
  | cmd => exact keepsForm_whenReady (fun _ => formed_routed (formed_of_same memories_cmdTaken)) _
  | cpl => exact keepsForm_whenReady (fun _ => formed_routed (formed_of_same memories_cplTaken)) _
  | reg => exact keepsForm_whenReady (fun _ => formed_routed (fun _ => formed_regTaken)) _
  | db => exact keepsForm_execDb _
  | msi => exact keepsForm_whenReady (fun _ => formed_routed (formed_of_same memories_msixSend)) _
  | ctrl => exact keepsForm_execCtrl _
  | hwr => exact keepsForm_whenReady (fun _ => formed_routed (formed_of_same memories_hwrTaken)) _
  | hrd => exact keepsForm_whenReady (fun _ => formed_routed (formed_of_same memories_hrdTaken)) _
  | feltLinkDown => exact keepsForm_whenReady (formed_of_same memories_feltDown) _
  | routeTimeout => exact keepsForm_whenReady (formed_of_same memories_routeTimeout) _
  | deviceJoined => exact keepsForm_whenReady (formed_of_same memories_deviceJoined) _
  | parentLost => exact keepsForm_whenReady (formed_of_same memories_parentLost) _
  | bistBlockEnd => exact keepsForm_whenReady (formed_of_same memories_bistBlock) _
  | sparePeriod => exact keepsForm_whenLive (formed_of_same memories_sparePeriod) _
  | debugLockoutEnd => exact keepsForm_whenReady (formed_of_same memories_lockoutBody) _
  | sysRstNRelease => exact keepsForm_execSysRstNRelease _
  | perstNRelease => exact keepsForm_execPerstNRelease _
  | linkChange => exact keepsForm_next (formed_of_same memories_linkChange _)
  | aerUncorr => exact keepsForm_whenHost (formed_of_same memories_aerUncorr) _
  | laneTrainTimeout => exact keepsForm_execLaneTrainTimeout _
  | widthReq => exact keepsForm_execWidthReq _
  | creditGrantReceived => exact keepsForm_execCreditGrantReceived _
  | reelUnitHoldExpiry => exact keepsForm_whenReady (formed_of_same memories_reelHoldBody) _
  | eventLogWriteInterval => exact keepsForm_whenReady (formed_of_same memories_nvmPump) _
  | strobePulseEnd => exact keepsForm_whenReady (formed_of_same memories_strobeEndBody) _
  | biasRampEnd => exact keepsForm_whenReady (formed_of_same memories_biasReached) _

/-! ### The step -/

theorem formed_tick {s : State} (h : Formed (memories s)) : Formed (memories (tick s)) := by
  simp only [tick]
  split
  · have h1 : Formed (memories (viewStep (dryerTick (linesDue (lateStampsDue (headGoesOn (tbAdvance
        { s with clk := { s.clk with ns := s.clk.ns + 1 } }))))))) := formed_viewStep (by simp [h])
    simp [h1]
  · exact h

theorem formed_step {s t : State} (h : Formed (memories s)) (ht : step s = .next t) : Formed (memories t) := by
  unfold step at ht
  split at ht
  case h_1 =>
    cases ht
    exact formed_tick h
  case h_2 c cs _ => exact keepsForm_exec c { s with pending := cs } h t ht

/-- Settles O3: the tick and every command keep both memories in canonical form. -/
theorem stepKeepsMemoryCanonical : Obligations.StepKeepsMemoryCanonical :=
  fun s t h ht => (memCanonical_iff t).mpr (formed_step ((memCanonical_iff s).mp h) ht)

/-- Settles O4: both memories are empty at reset. -/
theorem resetMemoryCanonical : Obligations.ResetMemoryCanonical := ⟨rfl, rfl⟩

end Sys2Proof.Machine

/-! PROOFS. The queue of waiting commands: a step takes its front command, and nothing else touches it. -/

namespace Sys2Proof.Machine

/-- Settles O1: the meaning of a step on a queue with a front command. -/
theorem stepRunsFrontCommand : Obligations.StepRunsFrontCommand := fun _ _ _ => rfl

/-- Settles O5: every command keeps the queue that the step hands it. -/
theorem commandsLeaveQueueAlone : Obligations.CommandsLeaveQueueAlone :=
  fun _ _ h => congrArg Prod.snd (timeAndQueue_step h)

end Sys2Proof.Machine

/-! PROOFS. Reels: a row taken in, a unit closed after its time, a unit held without a route (R277, R279, R280), and look-ups in
the history ring (R288). -/

namespace Sys2Proof.Machine

theorem whenHost_next {s t : State} {f : State → State} (hs : HostOn s) (h : f s = t) : whenHost f s = .next t :=
  (whenHost_of_on f hs).trans (next_congr h)

/-- The later of two settings of one entry stands. -/
theorem tblSet_tblSet {α : Type} (t : Tbl α) (i : Nat) (v w : α) : tblSet (tblSet t i v) i w = tblSet t i w := by
  induction t with
  | nil => simp [tblSet]
  | cons x t ih =>
    obtain ⟨k, u⟩ := x
    simp only [tblSet]
    split
    · simp [tblSet]
    · split
      · simp [tblSet]
      · simp [tblSet, *]

section
variable {s : State} {r : Nat}

theorem reelTake_of_off {q : ReelIn} {l : List ReelIn} (hq : (reel s r).inq = q :: l) (h : rlSource s r = 0) :
    reelTake r s = updReel r (fun x => { x with inq := l }) s := by
  simp only [reelTake, hq, if_pos h]

/-- With no row group open a row closes none. -/
theorem reelTake_of_no_group {q : ReelIn} {l : List ReelIn} (hq : (reel s r).inq = q :: l) (h : rlSource s r ≠ 0)
    (hg : (reel s r).grp = []) : reelTake r s =
      updReel r (fun x => { x with grp := x.grp ++ [q] }) (updReel r (fun x => { x with inq := l }) s) := by
  simp [reelTake, hq, h, hg]

theorem execReelUnitTimeout_of_due {r : Fin 64} {u : RUnit} (hl : Live s) (hu : (reel s r).unit = some u)
    (ht : u.openNs + sec 1 ≤ s.clk.ns) : execReelUnitTimeout r s = .next (unitCut r s) :=
  whenLive_next hl (by simp only [hu, if_pos ht])

theorem reelHoldBody_of_route {bs : List Byte} {t0 : Nat} {l : List (List Byte × Nat)} (hh : (reel s r).held = (bs, t0) :: l)
    (h : hostBlocked s = false) : reelHoldBody r s = unitDeliver r bs (updReel r (fun x => { x with held := l }) s) := by
  simp [reelHoldBody, hh, h]

theorem updReel_updReel (f g : Reel → Reel) : updReel r g (updReel r f s) = updReel r (fun x => g (f x)) s := by
  simp [updReel, reel, tblSet_tblSet]

/-- A unit without a route and without a stream ring is dropped after 1 ms. -/
theorem reelHoldBody_of_no_ring {bs : List Byte} {t0 : Nat} {l : List (List Byte × Nat)} (hh : (reel s r).held = (bs, t0) :: l)
    (h : hostBlocked s = true) (ht : t0 + ms 1 ≤ s.clk.ns) (hn : tblFind s.host.srs (rlf s r 0x14) = none) :
    reelHoldBody r s = updReel r (fun x => { x with held := l, small := false }) s := by
  simp [reelHoldBody, hh, h, ht, hn, updReel_updReel]

end

/-- Settles O35: an equation per row. -/
theorem reelsAndHistory : Obligations.ReelsAndHistory :=
  ⟨fun _ _ hl => ⟨fun _ _ hq h => whenLive_next hl (reelTake_of_off hq h),
      fun _ _ hq h hg => whenLive_next hl (reelTake_of_no_group hq h hg), fun _ hu h => execReelUnitTimeout_of_due hl hu h⟩,
    fun _ _ _ _ _ hr hh => ⟨fun h => whenReady_next hr (reelHoldBody_of_route hh h),
      fun h ht hn => whenReady_next hr (reelHoldBody_of_no_ring hh h ht hn)⟩,
    fun _ _ hs => whenHost_of_on _ hs⟩

end Sys2Proof.Machine

/-! PROOFS. Marker channels: jobs on their way and pending (R292, R294), drives through peak, hold and decay (R296, R299, R301),
MRK_ARM and MARK_FIRE (R302 to R305). -/

namespace Sys2Proof.Machine

section
variable {s : State} {n : Nat}

/-! ### Jobs -/

theorem jobArrives_of_ahead {j : MJob} {l : List MJob} (hj : (chan s n).incoming = j :: l) (hn : j.now_ = false)
    (ho : openNow (updChan n (fun c => { c with incoming := l }) s) n j = false) :
    jobArrives n s = updChan n (fun c => { c with jobs := insertJob { j with seen := !encBackward s (mkEnc s n) } c.jobs })
      (updChan n (fun c => { c with incoming := l }) s) := by
  simp only [jobArrives, hj, hn, ho, Bool.false_eq_true, if_false]
  rfl

/-- No position is open while its encoder moves backward. -/
theorem openNow_of_backward {j : MJob} (h : encBackward s (mkEnc s n) = true) : openNow s n j = false := by
  simp [openNow, h]

/-- The jobs of a tick: those of the channels below on the switch, then the channel's own. -/
theorem tickSwitch_eq : tickSwitch n s = ((List.range (n % 4 + 1)).map (4 * (n / 4) + ·)).foldl
    (fun s k => tickJobs k s) s := by
  rw [List.range_succ, List.map_append, List.foldl_append, List.map_singleton, Nat.div_add_mod]
  rfl

theorem retryBody_of_unplaced {w : MWait} (hw : (chan s n).wait = some w) (hm : w.shutter = false) (ht : w.th = none) :
    retryBody n s = serveWait n w (updChan n (fun c => { c with wait := none }) s) := by
  simp [retryBody, hw, hm, ht]

theorem retryBody_of_placed {w : MWait} {t0 : Nat} (hw : (chan s n).wait = some w) (hm : w.shutter = false)
    (ht : w.th = some t0) (hd : t0 ≤ s.clk.ns) :
    retryBody n s = servePlaced n w (updChan n (fun c => { c with wait := none }) s) := by
  simp [retryBody, hw, hm, ht, hd]

/-! ### Drives -/

section
variable {d : MDrive} {ma : Nat} (hd : (chan s n).drive = some d) (hp : (chan s n).phase = 1) (ht : d.peakEndNs ≤ s.clk.ns)
include hd hp ht

theorem peakEndBody_of_full (h : 9 * mkPeak s n ≤ 10 * ma) :
    peakEndBody n ma s = updChan n (fun c => { c with phase := 2, holdNs := s.clk.ns, peakFull := true }) s := by
  have open_ : ¬10 * ma < mkPeak s n := by omega
  simp [peakEndBody, hd, hp, Nat.not_lt.mpr ht, open_, h]

theorem peakEndBody_of_short (h : 10 * ma < 9 * mkPeak s n) (ho : mkPeak s n ≤ 10 * ma) (hf : (chan s n).peakFull = true) :
    peakEndBody n ma s = raise (198 + n) 0x07 ma
      (updChan n (fun c => { c with phase := 2, holdNs := s.clk.ns, peakFull := false }) s) := by
  simp [peakEndBody, hd, hp, Nat.not_lt.mpr ht, Nat.not_lt.mpr ho, Nat.not_le.mpr h, hf]

theorem peakEndBody_of_open_load (h : 10 * ma < mkPeak s n) :
    peakEndBody n ma s = raise (198 + n) 0x05 ma (faultChan n (updChan n (fun c => { c with peakFull := false }) s)) := by
  simp [peakEndBody, hd, hp, Nat.not_lt.mpr ht, h]

end

theorem driveEndBody_of_due {d : MDrive} (hd : (chan s n).drive = some d) (hp : (chan s n).phase = 2) (hm : d.shutter = false)
    (ht : d.minEndNs ≤ s.clk.ns) (hc : d.closeMet = true ∨ d.closeK.all (closeNow s n) = true) :
    driveEndBody n s = endDrive n s := by
  simp only [driveEndBody, hd]
  exact if_pos ⟨hp, by simp [hm], ht, by simpa using hc⟩

/-! ### MARK_FIRE -/

section
variable {c : Cmd}

theorem markFireStart_of_preset (hm : pm8 c.packet 0x18 ≠ 1) (ha : (enc s (mkEnc s (pkInst c.packet))).armed ≠ none) :
    markFireStart c s = finishCheck c stBusy s := by
  simp [markFireStart, hm, Option.isSome_iff_ne_none, ha]

/-- No preset stands in the way: the job fires at once, or none is armed. -/
def NoPreset (s : State) (c : Cmd) : Prop :=
  pm8 c.packet 0x18 = 1 ∨ (enc s (mkEnc s (pkInst c.packet))).armed = none

theorem preset_not_in_way (h : NoPreset s c) :
    ¬((!decide (pm8 c.packet 0x18 = 1)) = true ∧ (enc s (mkEnc s (pkInst c.packet))).armed.isSome = true) := by
  rcases h with h | h <;> simp [h]

theorem markFireStart_of_no_marker (h : NoPreset s c) (hf : mkFunction s (pkInst c.packet) ≠ 1) :
    markFireStart c s = finishCheck c stBadParam s :=
  (if_neg (preset_not_in_way h)).trans (if_pos hf)

theorem markFireStart_of_inhibited (h : NoPreset s c) (hf : mkFunction s (pkInst c.packet) = 1)
    (hi : (chan s (pkInst c.packet)).inhibit = true) : markFireStart c s = finishCheck c stTempInhibit s :=
  (if_neg (preset_not_in_way h)).trans ((if_neg (not_not_intro hf)).trans (if_pos hi))

/-- The job that MARK_FIRE hands over: at once, or at the position of its parameters and the channel's offset (R302). -/
def firedJob (s : State) (c : Cmd) : MJob :=
  if pm8 c.packet 0x18 = 1 then { seq := 0xFFFFFF, cid := some c.cid, now_ := true, tol := pm32 c.packet 0x28 }
  else
    let o := pmS64 c.packet 0x20 + cfS s 0x09 (pkInst c.packet) 0x10 8
    { fOpen := o, fClose := o + mkf s (pkInst c.packet) 0x24, seq := 0xFFFFFF, cid := some c.cid, tol := pm32 c.packet 0x28 }

theorem markFireStart_of_armed (h : NoPreset s c) (hf : mkFunction s (pkInst c.packet) = 1)
    (hi : (chan s (pkInst c.packet)).inhibit = false) (ha : mkArmed s (pkInst c.packet) = true)
    (hx : (chan s (pkInst c.packet)).fault = false) :
    markFireStart c s = handJob (pkInst c.packet) (firedJob s c) (beginWork c 0 s).2 := by
  unfold markFireStart
  rw [if_neg (preset_not_in_way h), if_neg (not_not_intro hf), if_neg (ne_true_of_eq_false hi), if_neg (by simp [ha, hx]),
    firedJob]
  by_cases hm : pm8 c.packet 0x18 = 1 <;> simp [hm]

end

theorem exec_markFire {sq : Fin 1024} {tag : W32} {c : Cmd} {t : State} (h : Starts s sq tag 0x0080 c)
    (ht : markFireStart c s = t) : exec (.markFire sq tag) s = .next t :=
  (opcodeRow_of_starts _ _ h).trans (next_congr ht)

end

/-- Settles O39: an equation per row, and MARK_FIRE by what stands in its way. -/
theorem markerJobsAndDrives : Obligations.MarkerJobsAndDrives := by
  refine ⟨fun s n hr => ⟨fun j l hj hn ho he => whenReady_next hr ?_, fun j l hj hn he => whenReady_next hr ?_,
      whenReady_next hr tickSwitch_eq,
      fun w hw hm => ⟨fun ht => whenReady_next hr (retryBody_of_unplaced hw hm ht),
        fun t0 ht h0 => whenReady_next hr (retryBody_of_placed hw hm ht h0)⟩,
      fun d ma hd hp ht => ⟨fun h => whenReady_next hr (peakEndBody_of_full hd hp ht h),
        fun h ho hf => whenReady_next hr (peakEndBody_of_short hd hp ht h ho hf),
        fun h => whenReady_next hr (peakEndBody_of_open_load hd hp ht h)⟩,
      fun d hd hp hm ht hc => whenReady_next hr (driveEndBody_of_due hd hp hm ht hc),
      fun hp ht => whenReady_next hr (if_pos ⟨hp, ht⟩)⟩,
    fun s v hs => whenHost_of_on _ hs, fun s sq tag c h => ⟨fun hm ha => exec_markFire h (markFireStart_of_preset ?_ ha),
      fun hf hp => exec_markFire h (markFireStart_of_no_marker hp hf),
      fun hf hm hi => exec_markFire h (markFireStart_of_inhibited (.inl hm) hf hi),
      fun hf hm hi ha hx => exec_markFire h ?_, fun hf hm hp hi ha hx => exec_markFire h ?_⟩⟩
  · rw [jobArrives_of_ahead hj hn ho, he]
    rfl
  · rw [jobArrives_of_ahead hj hn (openNow_of_backward he), he]
    rfl
  · simp [pm8, hm]
  · rw [markFireStart_of_armed (.inl hm) hf hi ha hx, firedJob, if_pos (show pm8 c.packet 0x18 = 1 from hm)]
    rfl
  · rw [markFireStart_of_armed (.inr hp) hf hi ha hx, firedJob, if_neg (by simp [pm8, hm])]
    rfl

end Sys2Proof.Machine

/-! PROOFS. The supply of the watermark drive (R307), its faults (R296, R297), the ageing and sensing of its coils, and the
keep-alive of the AFE link (R8). -/

namespace Sys2Proof.Machine

section
variable {s : State} {v : Nat}

theorem range_four : List.range 4 = [0, 1, 2, 3] := rfl

theorem raiseSwitches_eq (cause detail : Nat) (s : State) :
    raiseSwitches cause detail s = [0, 1, 2, 3].foldl (fun s m => raise (214 + m) cause detail s) s := by
  rw [raiseSwitches, range_four]

theorem execOvercurrent_of_ready {n : Fin 16} (hr : Ready s) :
    execOvercurrent n s = .next (raise (198 + n) 0x06 0 (faultChan n s)) := by
  rw [execOvercurrent, whenReady_of_ready _ hr]

theorem execHsOvercurrent_of_ready {m : Fin 4} (hr : Ready s) : execHsOvercurrent m s =
    .next (raise (214 + m) 0x03 0 ([0, 1, 2, 3].foldl (fun s k =>
      shutCut (4 * m + k) (skipAll (4 * m + k) (setArm (4 * m + k) false (killDrive (4 * m + k) s)))) s)) := by
  rw [execHsOvercurrent, whenReady_of_ready _ hr, range_four]

/-! ### Supply -/

theorem vvalveOut_of_outside (h : v < 9000 ∨ 34000 < v) : vvalveOut v s =
    if s.boot.phase = .ready then
      let cut := (List.range 16).foldl (fun s n => cutDrive n s) (valveSupply v true s)
      if s.afe.held then cut else raiseSwitches 0x01 v cut
    else valveSupply v true s := if_neg (by omega)

theorem vvalveOk_of_inside (h : 9000 ≤ v ∧ v ≤ 34000) : vvalveOk v s =
    if s.boot.phase = .ready ∧ s.afe.held = true then raiseSwitches 0x02 v (valveSupply v false s)
    else valveSupply v false s := if_pos h

/-! ### Coils -/

theorem execCoilUpdate_of_due (hr : Ready s) (h : s.afe.coilNs + ms 1 ≤ s.clk.ns) : execCoilUpdate s =
    .next ((List.range 16).foldl (fun s n => coilStep n s) { s with afe := { s.afe with coilNs := s.afe.coilNs + ms 1 } }) :=
  whenReady_next hr (if_pos h)

/-- The sense instant before the end of the drive `d`, once, when its hold has lasted 200 µs. -/
def lastSense (s : State) (n : Nat) (d : MDrive) : Bool :=
  !d.endSensed && decide ((chan s n).holdNs + us 200 ≤ s.clk.ns) && endNears s n d

/-- The drive `d` with its sense instant noted. -/
def sensed (s : State) (n : Nat) (d : MDrive) : MDrive :=
  if lastSense s n d then { d with endSensed := true } else { d with senses := d.senses + 1 }

theorem senseBody_of_due {n : Nat} {d : MDrive} (hd : (chan s n).drive = some d) (hp : (chan s n).phase = 2)
    (h : lastSense s n d = true ∨ (chan s n).holdNs + ms 100 * (d.senses + 1) ≤ s.clk.ns) : senseBody n s =
      if (chan s n).calEndNs.isNone then
        hkTrigger (n / 4) (n % 4) (updChan n (fun c => { c with drive := some (sensed s n d) }) s)
      else updChan n (fun c => { c with drive := some (sensed s n d) }) s := by
  simp only [senseBody, hd]
  rw [if_neg (not_not_intro hp)]
  refine if_neg ?_
  rw [← lastSense]
  rcases h with h | h <;> simp [h]

end

/-- Settles O40: the supply by its limits and the phase, faults and coils an equation per row. -/
theorem valveSupplyAndFaults : Obligations.ValveSupplyAndFaults := by
  refine ⟨fun s mv => ⟨fun h => ?_, fun h1 h2 => ?_⟩, fun s hr => ⟨fun n => execOvercurrent_of_ready hr,
    fun m => execHsOvercurrent_of_ready hr,
    fun h => execCoilUpdate_of_due hr h, fun n d hd hp => ?_, whenReady_of_ready _ hr⟩⟩
  · have out := vvalveOut_of_outside (s := s) h
    refine ⟨fun hn => next_congr (out.trans (if_neg hn)), fun hr hh => next_congr (out.trans ?_),
      fun hr hh => next_congr (out.trans ?_)⟩
    · exact (if_pos hr).trans (if_pos hh)
    · exact (if_pos hr).trans ((if_neg (ne_true_of_eq_false hh)).trans (raiseSwitches_eq _ _ _))
  · have ok := vvalveOk_of_inside (s := s) ⟨h1, h2⟩
    refine ⟨fun hn => next_congr (ok.trans (if_neg ?_)), fun hr hh => next_congr (ok.trans ?_)⟩
    · rintro ⟨hr, hh⟩
      rcases hn with hn | hn
      · exact hn hr
      · simp [hn] at hh
    · exact (if_pos ⟨hr, hh⟩).trans (raiseSwitches_eq _ _ _)
  · intro last s1 h
    have due := senseBody_of_due hd hp h
    refine ⟨fun hc => whenReady_next hr (due.trans (if_pos ?_)), fun hc => whenReady_next hr (due.trans (if_neg ?_))⟩
    · simp [hc]
    · simp [Option.isNone_iff_eq_none, hc]

end Sys2Proof.Machine

/-! PROOFS. Housekeeping units: triggers and injected sequences (R313), ends of conversions and their codes (R311, R314, Table
15.1, R319), self-calibration (R317, R318). -/

namespace Sys2Proof.Machine

section
variable {s : State} {u : Nat}

/-! ### Triggers -/

/-- A source of the signals enabled, not pending yet, becomes pending. -/
theorem hkTrigger_of_enabled {k : Nat} (hm : hkMode s u ≠ 0) (hj : hkc s u 2 ≠ 0) (he : bitOf (hkc s u 3) (k - 4) = true)
    (hst : (hk s u).st ≠ 3) (hp : (hk s u).pending.contains k = false) :
    hkTrigger u k s = updHk u (fun x => { x with pending := x.pending ++ [k] }) s := by
  unfold hkTrigger
  rw [if_neg (by simp [hm, hj, he])]
  exact if_neg (by simpa [hst] using hp)

theorem injStart_of_first {k : Nat} (h : ((List.range 7).find? fun k => (hk s u).pending.contains k) = some k) :
    injStart u s = updHk u (fun x => { x with
      st := 2, src := k, injIn := (List.range (hkc s u 2)).map fun j => hkc s u (0x20 + j), inj := 0
      pending := x.pending.filter fun j => j ≠ k, chan := if k < 4 then 4 * u + k else x.chan, convNs := s.clk.ns, slow := false
      fixed := none, cin := ((List.range (hkc s u 2)).map fun j => hkc s u (0x20 + j)).getD 0 0 }) s := by
  simp only [injStart, h]

theorem execInjectedStart_of_free {u : Fin 4} (hr : Ready s) (h2 : (hk s u).st ≠ 2) (h3 : (hk s u).st ≠ 3)
    (hm : hkMode s u ≠ 0) (hj : hkc s u 2 ≠ 0) : execInjectedStart u s = .next (injStart u s) :=
  whenReady_next hr (if_neg (by simp [h2, h3, hm, hj]))

/-! ### Conversions -/

section
variable {sig : HkSignal} (ht : (hk s u).convNs + (if (hk s u).slow then us 4 else us 1) ≤ s.clk.ns)
include ht

theorem conversionEnds_of_regular (h : (hk s u).st = 1) :
    conversionEnds u sig s = elPassed 2 u (regularEnds u sig s) :=
  (if_neg (Nat.not_lt.mpr ht)).trans (if_pos h)

theorem conversionEnds_of_injected (h : (hk s u).st = 2) :
    conversionEnds u sig s = elPassed 2 u (injectedEnds u sig s) :=
  (if_neg (Nat.not_lt.mpr ht)).trans ((if_neg (by simp [h])).trans (if_pos h))

end

@[simp] theorem stampGood_raw (old new : HkRes) : (stampGood s old new).raw = new.raw := by
  unfold stampGood
  split <;> rfl

/-- RAW of the entry that a regular conversion fills. -/
theorem regularEnds_raw (sig : HkSignal) : (tblGet {} (hk (regularEnds u sig s) u).res (hk s u).entry).raw =
    hkRaw s (hk s u).cin ((hk s u).fixed.getD (hkFactors s u (hk s u).cin)) sig := by
  simp only [regularEnds]
  split <;> simp [hkResume, hkResult]

/-! ### Codes (Table 15.1, R319) -/

section
variable {i : Nat} {f : Int × Nat × Bool × Nat} {x : HkSignal}

theorem hkRaw_of_signal (h24 : i ≠ 24) (h29 : i ≠ 29) (ht : f.2.2.1 = false) : hkRaw s i f x = hkCode i x.signal.toNat := by
  simp [hkRaw, h24, h29, ht]

theorem hkRaw_of_supply (ht : f.2.2.1 = false) : hkRaw s 29 f x = hkCode 29 (1000 * s.afe.vmv) := by
  simp [hkRaw, ht]

/-- Half a code in µV times the divider decides the rounding. -/
theorem hkCode_of_div {signal half : Nat} (h : 1200000 * hkDiv i = half) :
    hkCode i signal = min 4095 ((signal * 8192 + half) / (2 * half)) := by
  rw [hkCode, h, Nat.mul_assoc 2 1200000, h, Nat.mul_right_comm 2 signal, Nat.mul_comm _ signal]

/-- The test DAC on a sound path reads within 4 codes of 4 TEST_CODE. -/
theorem hkRaw_of_test_sound {e : Fin 9} (h : i = 24 ∨ f.2.2.1 = true) (he : x.err = some e) (h1 : 1 ≤ f.2.2.2)
    (h2 : f.2.2.2 ≤ 1022) : (hkRaw s i f x : Int) = 4 * (f.2.2.2 : Int) + e - 4 := by
  have bound : (e : Nat) ≤ 8 := by omega
  simp only [hkRaw, if_pos h, he, clampI]
  repeat rw [if_neg (by omega)]
  omega

theorem hkRaw_of_test_damaged (h : i = 24 ∨ f.2.2.1 = true) (he : x.err = none) :
    hkRaw s i f x = x.signal.toNat % 4096 := by
  simp only [hkRaw, if_pos h, he]

end

/-! ### Self-calibration -/

theorem selfcalJudged_eq (ok : Bool) : selfcalJudged u ok s =
    finishCids (hk s u).cids (if ok then stOk else stCalRejected) (if ok then 1 else 0) 0
      (raise (218 + u) 0x02 (b2n ok)
        (updHk u (fun x => { x with cids := [], temp := if ok then effOf s 36 else x.temp }) s)) := by
  cases ok <;> rfl

theorem selfcalEnds_of_due {ofs : Int} {gain : Nat} (h : (hk s u).st = 3) (ht : (hk s u).calNs + 1600000 ≤ s.clk.ns)
    (hp : t2Paused s = false) : selfcalEnds u ofs gain s =
      selfcalJudged u (elJudge 2 u ofs gain [] (hkResume u s)).1 (elJudge 2 u ofs gain [] (hkResume u s)).2 :=
  (if_neg (by omega)).trans (if_neg (ne_true_of_eq_false hp))

end

/-- Settles O41: an equation per row, and the codes by their divider. -/
theorem convertersRun : Obligations.ConvertersRun := by
  refine ⟨fun s u v hs hv hm hj he hst hp => whenHost_next hs ((if_pos hv).trans (hkTrigger_of_enabled hm hj he hst hp)),
    fun s u hr => ⟨fun k h2 h3 hm hj hk => ?_,
      fun sig h ht => ⟨whenReady_next hr (conversionEnds_of_regular ht h), regularEnds_raw sig⟩,
      fun sig h ht => whenReady_next hr (conversionEnds_of_injected ht h),
      fun ofs gain h ht hp => whenReady_next hr ((selfcalEnds_of_due h ht hp).trans (selfcalJudged_eq _))⟩,
    fun s i signal x f hx ht => ?_, fun s i x f h => ⟨fun e he h1 h2 => ?_, hkRaw_of_test_damaged h⟩,
    fun s sq tag c h => opcodeRow_of_starts _ _ h⟩
  · exact (execInjectedStart_of_free hr h2 h3 hm hj).trans (next_congr (injStart_of_first hk))
  · subst hx
    refine ⟨fun hi => ?_, ?_, ?_, ?_⟩
    · have one : hkDiv i = 1 := by
        unfold hkDiv
        repeat rw [if_neg (by omega)]
      rw [hkRaw_of_signal (by omega) (by omega) ht, hkCode_of_div (half := 1200000) (by rw [one])]
    · rintro rfl
      rw [hkRaw_of_signal (by decide) (by decide) ht, hkCode_of_div (half := 6000000) (by rfl)]
    · rintro rfl
      rw [hkRaw_of_signal (by decide) (by decide) ht, hkCode_of_div (half := 48000000) (by rfl)]
    · rintro rfl
      rw [hkRaw_of_supply ht, hkCode_of_div (half := 48000000) (by rfl)]
      omega
  · rw [hkRaw_of_test_sound h he h1 h2]
    omega

end Sys2Proof.Machine

/-! PROOFS. Serial ports: MASTER_GO and the end of a host frame (R328), frames of a slave (R330 to R332), and
the view (R333). -/

namespace Sys2Proof.Machine

theorem bitOf_setBitN_zero_self (v : Nat) : bitOf (setBitN v 0 true) 0 = true := by
  by_cases h : v.testBit 0 = true
  · simp [bitOf, setBitN, h]
  · simp only [bitOf, setBitN, if_neg h]
    simp only [Nat.testBit_zero, decide_eq_true_eq] at *
    simp
    omega

/-- Setting bit 0 leaves the others. -/
theorem bitOf_setBitN_zero (v : W32) (i : Nat) : bitOf (setBitN v.toNat 0 true) (i + 1) = v.getLsbD (i + 1) := by
  have half : setBitN v.toNat 0 true / 2 = v.toNat / 2 := by
    unfold setBitN
    split
    · rfl
    next h =>
      simp only [Nat.testBit_zero, decide_eq_true_eq] at h
      simp
      omega
  rw [bitOf, Nat.testBit_add_one, half, ← Nat.testBit_add_one]
  rfl

section
variable {s : State} {n : Nat}

/-! ### Host frames -/

/-- The bits that a write of SPM_CTRL takes into port `n` (Table 16.2). -/
def goTaken (n : Nat) (v : W32) (s : State) : State :=
  updSp n (fun x => { x with dir := v.getLsbD 1, useSel := v.getLsbD 2, doneBit := x.doneBit && !v.getLsbD 9 }) s

theorem spmCtrlWrite_of_go {v : W32} (hb : spBusy (sp (goTaken n v s) n) = false) :
    spmCtrlWrite n (setBitN v.toNat 0 true) s =
      let s2 := updSp n (fun x => { x with err := goErr (goTaken n v s) n }) (goTaken n v s)
      if goErr (goTaken n v s) n = 0 then spQueue n (hostFrame s2 n) s2
      else raise (222 + n) 0x05 (goErr (goTaken n v s) n) s2 := by
  simp only [spmCtrlWrite, bitOf_setBitN_zero_self, bitOf_setBitN_zero v 0, bitOf_setBitN_zero v 1,
    bitOf_setBitN_zero v 8]
  exact if_neg (by simpa [goTaken] using hb)

theorem masterDoneBody_of_read {f : SpFrame} {bs : List Byte} (hf : (sp s n).run = some f) (ht : (sp s n).endNs ≤ s.clk.ns)
    (hk : f.kind = 0) (hl : f.inLen = bs.length) (hb : bs ≠ []) : masterDoneBody n bs s =
      spPump n (raise (222 + n) 0x04 (bs.length + f.outLen) (updSp n (fun x => { x with doneBit := true })
        (hbmWrite f.buf bs (updSp n (fun x => { x with run := none, lastNs := s.clk.ns }) s)))) := by
  simp [masterDoneBody, hf, Nat.not_lt.mpr ht, hk, hl, hb, padTo_of_length]

/-! ### Frames of a slave -/

/-- The device shifts out `out` on a port that it serves as a slave. -/
def slaveShifts (n : Nat) (out : List Byte) (s : State) : State := emit (.slaveOut n (slavePins true) out) s

theorem slaveReadBody_of_whole {reg k : Nat} (h : spSlave s n = true) : slaveReadBody n reg (8 * (k + 1)) false s =
    updSp n (fun x => { x with aborted := false, underran := false })
      (slaveShifts n
        (leBytes 1 (viewStatus s) ++ (List.range k).flatMap fun j => slice (viewSnap s n) ((reg + j) % 128) 1) s) := by
  have slots : (8 * (k + 1) + 7) / 8 - 1 = k := by omega
  simp [slaveReadBody, h, slots, slaveShifts]

theorem slaveWriteBody_of_cut {reg edges : Nat} {bs : List Byte} (h : spSlave s n = true) (he : edges % 8 ≠ 0 ∨ edges < 16) :
    slaveWriteBody n reg edges bs s = frameAborts n edges (slaveShifts n (leBytes 1 (viewStatus s)) s) :=
  (if_neg (by simp [h])).trans (if_pos he)

theorem slaveWriteBody_of_taken {reg : Nat} {bs : List Byte} (h : spSlave s n = true) (hb : bs ≠ [])
    (ht : (slaveBytes (sp s n) reg bs).2 = true) (hi : (slaveBytes (sp s n) reg bs).1.inhibit = (sp s n).inhibit)
    (ho : (slaveBytes (sp s n) reg bs).1.override = (sp s n).override) :
    slaveWriteBody n reg (8 * (bs.length + 1)) bs s =
      inhibitTake (updSp n (fun _ => { (slaveBytes (sp s n) reg bs).1 with aborted := false, underran := false })
        (slaveShifts n (leBytes 1 (viewStatus s)) s)) := by
  have whole : ¬(8 * (bs.length + 1) % 8 ≠ 0 ∨ 8 * (bs.length + 1) < 16) := by
    have := List.length_pos_iff.mpr hb
    omega
  have bytes : padTo (8 * (bs.length + 1) / 8 - 1) bs = bs := padTo_of_length (by omega)
  have same (e : Emit) : sp (emit e s) n = sp s n := rfl
  simp only [slaveWriteBody, h, Bool.not_true, Bool.false_eq_true, if_false, if_neg whole, bytes, same, ht, if_true, hi, ho,
    ne_eq, not_true_eq_false, or_self]
  rfl

theorem viewRefreshBody_of_due (h : s.afe.viewNs + us 100 ≤ s.clk.ns) : viewRefreshBody s =
    { s with afe := { s.afe with view := viewBytes s, viewNs := s.afe.viewNs + us 100 } } := by
  simp only [viewRefreshBody, viewFill, if_neg (Nat.not_lt.mpr h)]

end

/-- Settles O43: an equation per row. -/
theorem serialPortsRun : Obligations.SerialPortsRun := by
  refine ⟨fun s n v hs => ?_,
    fun s n hr => ⟨fun f bs hf ht hk hl hb => whenReady_next hr (masterDoneBody_of_read hf ht hk hl hb),
    fun reg k h => whenReady_next hr (slaveReadBody_of_whole h),
    fun reg edges bs h he => whenReady_next hr (slaveWriteBody_of_cut h he),
    fun reg bs h hb => ?_, fun h => whenReady_next hr (viewRefreshBody_of_due h)⟩⟩
  · intro s1 hb
    have go : exec (.masterGo n v) s = _ := whenHost_next hs (spmCtrlWrite_of_go hb)
    refine ⟨fun he => go.trans (next_congr ((if_pos he).trans ?_)), fun he => go.trans (next_congr (if_neg he))⟩
    rw [show goErr (goTaken n v s) n = 0 from he]
    rfl
  · intro y ht hi ho
    exact whenReady_next hr (slaveWriteBody_of_taken h hb ht hi ho)

end Sys2Proof.Machine

/-! PROOFS. Input pins and strobes (R334), encoders (R336 to R338) and the evaluation of temperatures (R347). -/

namespace Sys2Proof.Machine

section
variable {s : State} {n : Nat}

/-! ### Pins -/

theorem execGpioEdge_of_ready {n : Fin 48} {level : Bool} (hr : Ready s) :
    execGpioEdge n level s = .next (gpioEdgeBody n level s) := next_congr (if_pos hr)

theorem gpioEdgeBody_of_same {level : Bool} (hd : gpioDrives s n = false) (h : bitOf s.afe.gpio n = level) :
    gpioEdgeBody n level s = { s with afe := { s.afe with gpioNew := tblErase s.afe.gpioNew n } } := by
  simp [gpioEdgeBody, hd, h]

/-- A change at an input ball is noted where none is. -/
theorem gpioEdgeBody_of_change (hd : gpioDrives s n = false) (hn : tblFind s.afe.gpioNew n = none) :
    gpioEdgeBody n (!bitOf s.afe.gpio n) s =
      gpioSettle n { s with afe := { s.afe with gpioNew := tblSet s.afe.gpioNew n s.clk.ns } } := by
  simp [gpioEdgeBody, hd, hn]

theorem gpioEdgeBody_of_noted {t0 : Nat} (hd : gpioDrives s n = false) (hn : tblFind s.afe.gpioNew n = some t0) :
    gpioEdgeBody n (!bitOf s.afe.gpio n) s = gpioSettle n s := by
  simp [gpioEdgeBody, hd, hn]

theorem gpioSettle_of_lasted {t0 : Nat} (hn : tblFind s.afe.gpioNew n = some t0) (ht : t0 + 5 * pinf s n 2 ≤ s.clk.ns) :
    gpioSettle n s = gpioTake n s := by
  simp only [gpioSettle, hn, if_pos ht]

/-- The change at a ball just noted. -/
def gpioNoted (n : Nat) (s : State) : State := { s with afe := { s.afe with gpioNew := tblSet s.afe.gpioNew n s.clk.ns } }

theorem tblFind_gpioNoted : tblFind (gpioNoted n s).afe.gpioNew n = some s.clk.ns := tblFind_tblSet_self _ _ _

theorem gpioSettle_gpioNoted_of_filter (hf : pinf s n 2 ≠ 0) : gpioSettle n (gpioNoted n s) = gpioNoted n s := by
  simp only [gpioSettle, tblFind_gpioNoted]
  exact if_neg (Nat.not_le.mpr (Nat.lt_add_of_pos_right (Nat.mul_pos (by decide) (Nat.pos_of_ne_zero hf))))

theorem gpioSettle_gpioNoted_of_no_filter (hf : pinf s n 2 = 0) : gpioSettle n (gpioNoted n s) = gpioTake n (gpioNoted n s) :=
  gpioSettle_of_lasted tblFind_gpioNoted (Nat.le_of_eq (by rw [show pinf (gpioNoted n s) n 2 = 0 from hf]; rfl))

/-- A falling edge, seen as the pin is inverted or not. -/
theorem gpioTake_of_fall (h : bitOf s.afe.gpio n = !bitOf (pinf s n 1) 0) : gpioTake n s =
    let s1 := { s with afe := { s.afe with
      gpio := setBitN s.afe.gpio n (bitOf (pinf s n 1) 0), gpioNew := tblErase s.afe.gpioNew n } }
    if bitOf (pinf s n 1) 2 then raise (230 + n) 0x02 0 s1 else s1 := by
  simp [gpioTake, h]

theorem gpioTake_of_rise (h : bitOf s.afe.gpio n = bitOf (pinf s n 1) 0) : gpioTake n s =
    let s2 := gpioRises n { s with afe := { s.afe with
      gpio := setBitN s.afe.gpio n (!bitOf (pinf s n 1) 0), gpioNew := tblErase s.afe.gpioNew n } }
    if bitOf (pinf s n 1) 1 then raise (230 + n) 0x01 0 s2 else s2 := by
  simp [gpioTake, h]

theorem strobeEndBody_of_due {t0 : Nat} (h : tblFind s.afe.strobes n = some t0) (ht : t0 + 100 * pinf s n 6 ≤ s.clk.ns) :
    strobeEndBody n s = { s with afe := { s.afe with strobes := tblErase s.afe.strobes n } } := by
  simp only [strobeEndBody, h, if_pos ht]

/-! ### Encoders -/

section
variable {e : Nat} {a b : Bool}

theorem execEncoderEdge_of_ready {e : Fin 4} (hr : Ready s) : execEncoderEdge e a b s = .next (encEdgeBody e a b s) :=
  next_congr (if_pos hr)

/-- The encoder with the levels of an edge. -/
def encLevels (e : Nat) (a b : Bool) (s : State) : State := setEnc e { enc s e with aIn := a, bIn := b } s

/-- The quadrature step that an edge of one signal makes (R336). -/
def quadStep (s : State) (e : Nat) (a b : Bool) : Int :=
  if quadPos a b = (quadPos (enc s e).aIn (enc s e).bIn + 1) % 4 ↔ cf s 0x0C e 0 = 0 then 1 else -1

theorem encEdgeBody_of_step (hs : sharedHere s e = false)
    (h : a ≠ (enc s e).aIn ∧ b = (enc s e).bIn ∨ a = (enc s e).aIn ∧ b ≠ (enc s e).bIn) :
    ∃ s1 new, encEdgeBody e a b s = encMoved e (encE s e) new s1 ∧ (enc s1 e).n = (enc s e).n + quadStep s e a b
      ∧ (enc s1 e).aIn = a ∧ (enc s1 e).bIn = b := by
  have one : ¬(sharedHere s e = true ∨ (enc s e).aIn = a ∧ (enc s e).bIn = b) := by
    rcases h with ⟨ha, -⟩ | ⟨-, hb⟩
    · simp [hs, Ne.symm ha]
    · simp [hs, Ne.symm hb]
  have single : ¬((enc s e).aIn ≠ a ∧ (enc s e).bIn ≠ b) := by
    rcases h with ⟨ha, hb⟩ | ⟨ha, hb⟩ <;> simp [ha, hb]
  unfold encEdgeBody
  rw [if_neg one, if_neg single]
  exact ⟨_, _, rfl, by simp [quadStep], by simp, by simp⟩

/-- The encoder with an edge of both signals at once counted. -/
def encError (e : Nat) (a b : Bool) (s : State) : State :=
  setEnc e { enc (encLevels e a b s) e with err := min ((enc s e).err + 1) (2 ^ 32 - 1), errNs := some s.clk.ns }
    (encLevels e a b s)

theorem encEdgeBody_of_both (hs : sharedHere s e = false) (ha : a ≠ (enc s e).aIn) (hb : b ≠ (enc s e).bIn) :
    encEdgeBody e a b s =
      if (match (enc s e).errNs with
        | none => true
        | some t => decide (t + sec 1 ≤ s.clk.ns)) = true then raise (226 + e) 0x03 0 (encError e a b s)
      else encError e a b s := by
  unfold encEdgeBody
  rw [if_neg (by simp [hs, Ne.symm ha]), if_pos ⟨Ne.symm ha, Ne.symm hb⟩]
  rfl

theorem encZBody_of_first (hs : sharedHere s e = false) (hz : (enc s e).zLast = none) (ha : (enc s e).armed ≠ some 2) :
    encZBody e s = setEnc e { enc s e with zLast := some (enc s e).n } s := by
  simp [encZBody, hs, hz, ha]

theorem encSampleBody_of_early (h : s.clk.ns < (enc s e).sampleNs + 1000) : encSampleBody e s = s :=
  if_pos (.inr h)

theorem encSampleBody_of_due (hs : sharedHere s e = false) (h : (enc s e).sampleNs + 1000 ≤ s.clk.ns) :
    encSampleBody e s = setEnc e { enc s e with
      pos := encE s e, sampleNs := s.clk.ns / 1000 * 1000
      samples := keepRecent (fun y => s.clk.tb - y.1) 2000000000 ((s.clk.tb, encE s e) :: (enc s e).samples) } s :=
  if_neg (by simp [hs, h])

end
end

/-- Settles O44: an equation per row and case. -/
theorem pinsEncodersTemperatures : Obligations.PinsEncodersTemperatures := by
  intro s hr
  refine ⟨fun n level hd h => (execGpioEdge_of_ready hr).trans (next_congr (gpioEdgeBody_of_same hd h)),
    fun n inv hd hn hf hi => ?_,
    fun n hd hn hf => ?_, fun n t0 hd hn ht => ?_, fun n t0 h ht => whenReady_next hr (strobeEndBody_of_due h ht),
    fun e a b hs h => ?_, fun e a b hs ha hb => ?_, fun e hs hz ha => whenReady_next hr (encZBody_of_first hs hz ha),
    fun e => ⟨fun h => whenReady_next hr (encSampleBody_of_early h),
      fun hs h => ⟨_, whenReady_next hr (encSampleBody_of_due hs h), rfl⟩⟩,
    fun temps h => whenReady_next hr (if_neg (Nat.not_lt.mpr h))⟩
  · have edge {level : Bool} (h : level = !bitOf s.afe.gpio n) :
        execGpioEdge n level s = .next (gpioTake n (gpioNoted n s)) := by
      subst h
      exact (execGpioEdge_of_ready hr).trans
        (next_congr ((gpioEdgeBody_of_change hd hn).trans (gpioSettle_gpioNoted_of_no_filter hf)))
    subst hi
    exact ⟨fun h => (edge (by simp [h])).trans (next_congr (gpioTake_of_fall h)),
      fun h => (edge (by simp [h])).trans (next_congr (gpioTake_of_rise h))⟩
  · exact (execGpioEdge_of_ready hr).trans
      (next_congr ((gpioEdgeBody_of_change hd hn).trans (gpioSettle_gpioNoted_of_filter hf)))
  · exact (execGpioEdge_of_ready hr).trans (next_congr ((gpioEdgeBody_of_noted hd hn).trans (gpioSettle_of_lasted hn ht)))
  · obtain ⟨s1, new, he, hn, ha, hb⟩ := encEdgeBody_of_step hs h
    exact ⟨s1, _, new, (execEncoderEdge_of_ready hr).trans (next_congr he), hn, ha, hb, rfl⟩
  · have both := (execEncoderEdge_of_ready hr).trans (next_congr (encEdgeBody_of_both hs ha hb))
    refine ⟨fun h => both.trans (next_congr (if_pos ?_)), fun t0 h ht => both.trans (next_congr (if_neg ?_))⟩
    · cases he : (enc s e).errNs with
      | none => rfl
      | some t0 => simpa [sec] using h t0 he
    · simpa [h, sec] using ht

end Sys2Proof.Machine

/-! PROOFS. Pages of NVM (R373, R377): what the page write of a withdrawn record leaves. -/

namespace Sys2Proof.Machine

section
variable {s : State} {p : PageWrite}

/-- The state in which the job of a page write ends: its bytes are in NVM. -/
def pageLanded (s : State) (p : PageWrite) : State :=
  countLife 24 (nvmStore p.addr p.bytes { s with nvm := { s.nvm with page := none } })

/-- When a page write has come to its end, only its job decides what NVM holds besides the page. -/
theorem memories_pageEndBody_of_due {ok : Bool} (hp : s.nvm.page = some p) (ht : p.startNs + ms 2 ≤ s.clk.ns) :
    memories (pageEndBody ok s) = memories (jobEnds p.job p.addr ok (pageLanded s p)) := by
  simp only [pageEndBody, hp, if_neg (Nat.not_lt.mpr ht), memories_nvmPump, memories_readsServe, memories_ownerWritten,
    pageLanded]

/-- A copy that is valid loses its ID: two bytes of zero go over it. -/
theorem recordSpoil_of_valid {id addr a b len : Nat} (hi : recordPlace id = some (a, b, len))
    (hv : copyValid s id len (copyAt id addr) = true) :
    recordSpoil id addr s = nvmStore (copyAt id addr + 4) (zeros 2) s := by
  simp only [recordSpoil, hi, if_pos hv]

theorem exec_pageWriteEnd_withdrawn {t : State} {id a b len : Nat} (hr : Ready s) (hp : s.nvm.page = some p)
    (ht : p.startNs + ms 2 ≤ s.clk.ns) (hj : p.job = .withdrawn id) (hi : recordPlace id = some (a, b, len))
    (hv : copyValid (pageLanded s p) id len (copyAt id p.addr) = true) (h : exec (.pageWriteEnd true) s = .next t) :
    t.nvm.mem = memWriteN nvmUnlisted (memWriteN nvmUnlisted s.nvm.mem p.addr p.bytes) (copyAt id p.addr + 4) (zeros 2) := by
  have row : exec (.pageWriteEnd true) s = .next (pageEndBody true s) := whenReady_of_ready _ hr
  have spoiled : jobEnds p.job p.addr true (pageLanded s p) = nvmStore (copyAt id p.addr + 4) (zeros 2) (pageLanded s p) := by
    rw [hj]
    exact recordSpoil_of_valid hi hv
  have kept := memories_pageEndBody_of_due (ok := true) hp ht
  rw [spoiled, Host.Outcome.next.inj (row.symm.trans h)] at kept
  exact congrArg Prod.snd kept

end

/-- A page write that carries a whole copy of record 5, withdrawn while it was in progress (R377). -/
def withdrawnPage : PageWrite := { job := .withdrawn 5, addr := 0x2E00, bytes := recordImage 5 1 [0], startNs := 0 }

/-- The device 2 ms after `withdrawnPage` began. -/
def withdrawnState : State :=
  { State.reset with
    clk := { State.reset.clk with ns := 2000000 }
    nvm := { State.reset.nvm with page := some withdrawnPage } }

/-- Refutes O45: the end of the page write of a withdrawn record spoils the copy that the page completed, so NVM holds two bytes
other than the page's (R377). -/
theorem not_nvmPages : ¬ Obligations.NvmPages := by
  intro h
  obtain ⟨pages, -⟩ := h withdrawnState rfl
  obtain ⟨t, ht, hmem, -⟩ := pages withdrawnPage true rfl (by decide)
  have valid : copyValid (pageLanded withdrawnState withdrawnPage) 5 1 0x2E00 = true := by decide +kernel
  have spoiled := exec_pageWriteEnd_withdrawn (s := withdrawnState) (p := withdrawnPage) rfl rfl (by decide) rfl rfl valid ht
  have landed : memWriteN nvmUnlisted (memWriteN nvmUnlisted withdrawnState.nvm.mem withdrawnPage.addr withdrawnPage.bytes)
      (copyAt 5 withdrawnPage.addr + 4) (zeros 2) ≠
      memWriteN nvmUnlisted withdrawnState.nvm.mem withdrawnPage.addr withdrawnPage.bytes := by decide +kernel
  exact landed (spoiled.symm.trans hmem)

end Sys2Proof.Machine

/-! PROOFS. Firmware staged, programmed and activated (R394 to R396), fuses (R400), and debug by challenge (R404). -/

namespace Sys2Proof.Machine

section
variable {s : State} {c : Cmd}

/-! ### FW_STAGE -/

section
variable {bs : List Byte} (hm : mayRequest s = true) (hh : s.chain.head = true) (hb : c.buf = [])
include hm hh hb

/-- At the head the first bytes of a staged image are those at hand. -/
theorem needHost_stage_of_first : needHost (startFwStage (.data bs)) c s =
    let im := bs.take (pkLen c.packet)
    if 16 ≤ im.length ∧ !stageForm c im then finishCheck c stBadParam s
    else if 16 ≤ im.length ∧ stageTaken c s then finishCheck c stBusy s
    else
      let s1 := hbmWrite stagingBase im s
      if im.length < pkLen c.packet then
        putCmd { c with started := true, buf := im, total := pkLen c.packet,
                        startNs := if c.started then c.startNs else s.clk.ns } s1
      else stageChecked c im s1 := by
  rw [needHost_of_may _ hm, startFwStage, stageRead, hostIn_data_of_head bs _ hh, hb]
  rfl

theorem needHost_stage_of_badForm (h16 : 16 ≤ bs.length) (hl : 16 ≤ pkLen c.packet)
    (hf : stageForm c (bs.take (pkLen c.packet)) = false) :
    needHost (startFwStage (.data bs)) c s = finish c stBadParam 0 0 0 s := by
  have long : 16 ≤ (bs.take (pkLen c.packet)).length := by rw [List.length_take]; omega
  rw [needHost_stage_of_first hm hh hb]
  exact if_pos ⟨long, by rw [hf]; rfl⟩

theorem needHost_stage_of_taken (h16 : 16 ≤ bs.length) (hl : 16 ≤ pkLen c.packet)
    (hf : stageForm c (bs.take (pkLen c.packet)) = true) (ht : stageTaken c s = true) :
    needHost (startFwStage (.data bs)) c s = finish c stBusy 0 0 0 s := by
  have long : 16 ≤ (bs.take (pkLen c.packet)).length := by rw [List.length_take]; omega
  rw [needHost_stage_of_first hm hh hb]
  exact (if_neg (by simp [hf])).trans (if_pos ⟨long, ht⟩)

theorem needHost_stage_of_part (hs : c.started = false) (hj : 16 ≤ bs.length → stageForm c bs = true ∧ stageTaken c s = false)
    (hl : bs.length < pkLen c.packet) : needHost (startFwStage (.data bs)) c s =
      putCmd { c with started := true, buf := bs, total := pkLen c.packet, startNs := s.clk.ns }
        (hbmWrite stagingBase bs s) := by
  have whole : bs.take (pkLen c.packet) = bs := List.take_of_length_le hl.le
  have formed : ¬ (16 ≤ bs.length ∧ (!stageForm c bs) = true) := fun ⟨h16, hf⟩ => by simp [(hj h16).1] at hf
  have free : ¬ (16 ≤ bs.length ∧ stageTaken c s = true) := fun ⟨h16, ht⟩ => by simp [(hj h16).2] at ht
  rw [needHost_stage_of_first hm hh hb]
  simp only [whole, if_neg formed, if_neg free, if_pos hl, hs, Bool.false_eq_true, if_false]

end

section
variable {d : HostRead} {n : Nat} {back : List Byte}

theorem contFwStage_programs (ha : c.aux = 1) (hf : flashHeld s = false) :
    contFwStage d n back c s = stageProgram n back c s := by
  rw [contFwStage, if_neg (by omega), if_pos ⟨ha, by rw [hf]; rfl⟩]

/-- The programming of the last bytes, and the read-back that judges it. -/
theorem stageProgram_of_last (hn : c.total ≤ c.position + n) :
    let r := progressTo c c.total (flashProgram (slotFlash s (fwSlot c)) c.position c.total c.buf s)
    let s1 := flashRead (slotFlash s (fwSlot c)) c.buf.length r.2
    stageProgram n back c s =
      if sha384 back = sha384 c.buf then finishOk r.1 (imVersion c.buf) r.1.position
          (updSec (fun x => { x with slotHash := tblSet x.slotHash (fwSlot c) (imHash c.buf) }) s1)
      else finishErr r.1 stAuthFail 0 (flashErase (slotFlash s (fwSlot c)) 1 s1) := by
  intro r s1
  have all : ¬ r.1.position < r.1.total := Nat.lt_irrefl _
  simp only [stageProgram, Nat.min_eq_left hn]
  exact if_neg all

end

/-! ### FW_ACTIVATE -/

section
variable {im : List Byte}
  (hq : (s.cmds.flight.any fun d => decide (pkOp d.packet = 0x00C1) && d.started && d.sentTo.isNone) = false)
  (hf : flashHeld s = false)
include hq hf

theorem activateStart_of_unverified (hv : fwVerifies s (slotImageOf im) = false) : activateStart im c s =
    finish c stAuthFail (percentOf c) 0 c.position (flashReadSlot (slotFlash s (fwSlot c)) (slotImageOf im) s) := by
  simp only [activateStart, hq, hf, hv, Bool.false_eq_true, if_false, Bool.not_false, if_true, finishErr]

theorem activateStart_of_rollback (hv : fwVerifies s (slotImageOf im) = true)
    (hk : imRollback (slotImageOf im) < s.sec.fuseSteps) :
    activateStart im c s =
      finish c stRollback (percentOf c) 0 c.position (flashReadSlot (slotFlash s (fwSlot c)) (slotImageOf im) s) := by
  have below : rollbackOk s (slotImageOf im) = false := decide_eq_false (Nat.not_le.mpr hk)
  simp only [activateStart, hq, hf, hv, below, Bool.false_eq_true, if_false, Bool.not_false, Bool.not_true, if_true, finishErr]

theorem activateStart_of_verified (hv : fwVerifies s (slotImageOf im) = true)
    (hk : s.sec.fuseSteps ≤ imRollback (slotImageOf im)) :
    activateStart im c s =
      let read := flashReadSlot (slotFlash s (fwSlot c)) (slotImageOf im) s
      recordWrite 5 [if fwSlot c = 0 then 0 else 1]
        (putCmd { (beginWork c 0 read).1 with aux := 1, buf := (slotImageOf im).take 256 } (beginWork c 0 read).2) := by
  have above : rollbackOk s (slotImageOf im) = true := decide_eq_true hk
  simp only [activateStart, hq, hf, hv, above, Bool.false_eq_true, if_false, Bool.not_true]

end

/-! ### Fuses and debug -/

theorem fuseBlow_of_below (h : s.sec.fuseSteps < s.sec.fuseTarget) :
    fuseBlow s = { s with sec := { s.sec with fuseSteps := s.sec.fuseSteps + 1 } } := if_pos h

theorem fuseBody_of_below (hr : Ready s) (h : s.sec.fuseSteps < s.sec.fuseTarget) : fuseBody s =
    activateEnds (raise 326 0x03 (s.sec.fuseSteps + 1) { s with sec := { s.sec with fuseSteps := s.sec.fuseSteps + 1 } }) := by
  have phase : s.boot.phase = .ready := hr
  simp only [fuseBody, if_neg (Nat.not_le.mpr h), phase, if_true, fuseBlow_of_below h]

theorem debugLeaves_of_free (h : s.sec.tapHold = false) : debugLeaves s = s := by
  simp [debugLeaves, h]

theorem execDbgChal_of_free (hr : Ready s) (h : s.sec.tapHold = false) : execDbgChal s = .next (chalBody s) := by
  rw [execDbgChal, debugLeaves_of_free h, whenReady_of_ready _ hr]

theorem execDbgResp_of_free {scope : Byte} {sig : List Byte} (hr : Ready s) (h : s.sec.tapHold = false) :
    execDbgResp scope sig s = .next (respBody scope sig s) := by
  rw [execDbgResp, debugLeaves_of_free h, whenReady_of_ready _ hr]

theorem chalBody_of_open (h : lockedOut s = false) : chalBody s = { s with
    sent := .jtag (challengeOf s ++ ownSerial) :: s.sent
    sec := { s.sec with challenge := some (challengeOf s), challenges := s.sec.challenges + 1 } } := by
  simp only [chalBody, h, Bool.false_eq_true, if_false]
  rfl

theorem respBody_of_none {scope : Byte} {sig : List Byte} (h : s.sec.challenge = none) : respBody scope sig s =
    raise 326 0x06 0 { s with sec := { s.sec with challenge := none, lockoutNs := some s.clk.ns } } := by
  simp only [respBody, h, Bool.false_eq_true, if_false]
  rfl

theorem respBody_of_signed {scope : Byte} {sig ch : List Byte} (h : s.sec.challenge = some ch)
    (hs : signed (debugKey s) (sha384 (ch ++ [scope])) (padTo 96 sig) = true) : respBody scope sig s =
      raise 326 0x05 scope.toNat
        { s with sec := { s.sec with challenge := none, debug := s.sec.debug ||| (scope.toNat % 4) } } := by
  simp only [respBody, h, hs, if_true]
  rfl

theorem lockoutBody_of_over {t0 : Nat} (h : s.sec.lockoutNs = some t0) (ht : t0 + 1000000000 ≤ s.clk.ns) :
    lockoutBody s = { s with sec := { s.sec with lockoutNs := none } } := by
  rw [lockoutBody, h]
  exact if_pos ht

end

section
variable {s : State} {sq : Fin 1024} {tag : W32} {c : Cmd}

theorem execFwStage_of_starts {d : HostRead} {n : Nat} {back : List Byte} (h : Starts s sq tag 0x00C1 c) :
    exec (.fwStage sq tag d n back) s = .next (needHost (startFwStage d) c s) := opcodeRow_of_starts _ _ h

theorem execFwStage_of_carriesOn {d : HostRead} {n : Nat} {back : List Byte} (h : CarriesOn s sq tag 0x00C1 c) :
    exec (.fwStage sq tag d n back) s = .next (contFwStage d n back c s) := opcodeRow_of_carriesOn _ _ h

theorem execFwActivate_of_starts {im : List Byte} (h : Starts s sq tag 0x00C2 c) :
    exec (.fwActivate sq tag im) s = .next (activateStart im c s) := opcodeRow_of_starts _ _ h

end

/-- Settles O47: each clause is the branch of its body that the premises name. -/
theorem firmwareAndDebug : Obligations.FirmwareAndDebug := by
  refine ⟨fun s sq tag c => ⟨?_, ?_, ?_, ?_⟩, fun s hr => ⟨?_, ?_, ?_, ?_, ?_⟩⟩
  · intro bs back n h hm hh hb h16 hl
    refine ⟨fun hf => ?_, fun hf ht => ?_⟩
    · rw [execFwStage_of_starts h, needHost_stage_of_badForm hm hh hb h16 hl hf]
    · rw [execFwStage_of_starts h, needHost_stage_of_taken hm hh hb h16 hl hf ht]
  · intro bs back n h hm hh hb hj hl
    rw [execFwStage_of_starts h, needHost_stage_of_part hm hh hb h.2.1 hj hl]
  · intro d n back h ha hf hn
    refine ⟨fun hs => ?_, fun hs => ?_⟩
    · rw [execFwStage_of_carriesOn h, contFwStage_programs ha hf, stageProgram_of_last hn, if_pos hs]
      rfl
    · rw [execFwStage_of_carriesOn h, contFwStage_programs ha hf, stageProgram_of_last hn, if_neg hs]
      rfl
  · intro im h hq hf
    refine ⟨fun hv => ?_, fun hv hk => ?_, fun hv hk => ?_⟩
    · rw [execFwActivate_of_starts h, activateStart_of_unverified hq hf hv]
    · rw [execFwActivate_of_starts h, activateStart_of_rollback hq hf hv hk]
    · rw [execFwActivate_of_starts h, activateStart_of_verified hq hf hv hk]
      rfl
  · exact fun h => next_congr ((if_pos (.inl hr)).trans (fuseBody_of_below hr h))
  · exact fun hf hl => (execDbgChal_of_free hr hf).trans (next_congr (chalBody_of_open hl))
  · exact fun scope sig hf hc => (execDbgResp_of_free hr hf).trans (next_congr (respBody_of_none hc))
  · exact fun scope sig ch hf hc hs => (execDbgResp_of_free hr hf).trans (next_congr (respBody_of_signed hc hs))
  · exact fun t0 h ht => whenReady_next hr (lockoutBody_of_over h ht)

end Sys2Proof.Machine

/-! PROOFS. Chain time (R416, R418): SYNC packets, their time stamps, the average of each ms and a parent that is lost. -/

namespace Sys2Proof.Machine

/-! ### Little-endian bytes -/

theorem length_leBytes (n v : Nat) : (leBytes n v).length = n := by
  induction n generalizing v with
  | zero => rfl
  | succ n ih => simp [leBytes, ih]

theorem leNat_leBytes (n v : Nat) : leNat (leBytes n v) = v % 256 ^ n := by
  induction n generalizing v with
  | zero => simp [leBytes, leNat, Nat.mod_one]
  | succ n ih =>
    rw [leBytes, leNat, ih, BitVec.toNat_ofNat]
    exact (Nat.mod_mul (a := 256)).symm.trans (by rw [Nat.pow_succ'])

/-- A word of 64 bits between other bytes reads back. -/
theorem u64At_leBytes {a c : List Byte} {off v : Nat} (ha : a.length = off) (hv : v < 2 ^ 64) :
    u64At (a ++ leBytes 8 v ++ c) off = v := by
  rw [u64At, slice, List.append_assoc, List.drop_left' ha, List.take_left' (length_leBytes 8 v), leNat_leBytes]
  exact Nat.mod_eq_of_lt hv

section
variable {s : State}

/-! ### The packets -/

section
variable {k : Fin 4} (hr : Ready s) (hu : feltUsable s k.val = true) (ho : linkOver s (64 + k.val) 36 = false)
include hr hu ho

theorem execSync_of_usable (kind : Fin 2) (t1 t2 t3 : W64) : exec (.sync k kind t1 t2 t3) s = .next
    (if kind.val = 0 then syncRequest k.val t1.toNat (linkFree (64 + k.val) 36 s)
      else syncReply k.val t1.toNat t2.toNat t3.toNat (linkFree (64 + k.val) 36 s)) :=
  whenReady_next hr (fromUsable_of_usable _ hu ho)

end

theorem syncRequest_linkFree (k : Fin 4) (t1 n : Nat) : syncRequest k.val t1 (linkFree (64 + k.val) n s) =
    feltNb k.val 0x11 (syncBytes 1 t1 (tb64 s % 2 ^ 64) (tb64 s % 2 ^ 64))
      (feltNb k.val 0x1A (ctrlSync (s.chain.head || s.chain.chainSync) (cfS s 0x11 k.val 2 2))
        (linkFree (64 + k.val) n s)) := by
  obtain ⟨l, -, hg⟩ := linkFree_felt (s := s) (k := k) n
  rw [hg]
  rfl

/-- A reply that belongs to the request sent adds its offset to those kept. -/
theorem syncReply_linkFree_of_own {k : Fin 4} {t1 n : Nat} (t2 t3 : Nat) (h1 : s.chain.syncT1 = some t1)
    (hp : s.chain.parentPort = some k.val) :
    let u := syncReply k.val t1 t2 t3 (linkFree (64 + k.val) n s)
    u.chain.thetas = (theta2 t1 t2 t3 (tb64 s % 2 ^ 64) (cfS s 0x11 k.val 2 2 - s.chain.parentAsym) :: s.chain.thetas).take 10
      ∧ u.chain.syncT1 = none ∧ u.clk = s.clk ∧ u.sent = s.sent ∧ u.cfg = s.cfg := by
  obtain ⟨l, -, hg⟩ := linkFree_felt (s := s) (k := k) n
  rw [hg, syncReply, if_pos ⟨h1, hp⟩]
  exact ⟨rfl, rfl, rfl, rfl, rfl⟩

theorem syncExchange_of_due {k : Nat} (hp : s.chain.parentPort = some k) (ht : s.chain.syncNext ≤ s.clk.ns) : syncExchange s =
    feltNb k 0x11 (syncBytes 0 0 0 0)
      (updChain (fun c => { c with syncT1 := none, syncNext := nextDue c.syncNext 100000 s.clk.ns }) s) := by
  simp only [syncExchange, hp, if_neg (Nat.not_lt.mpr ht)]
  rfl

/-! ### The time stamps -/

section
variable {q : FeltPacket} (hq : q.ptype = 0x11)
include hq

theorem syncStamp_of_request (h : u8At q.payload 0 = 0) : syncStamp q s =
    ({ q with payload := q.payload.take 8 ++ leBytes 8 (tb64 s % 2 ^ 64) ++ q.payload.drop 16 },
      { s with chain := { s.chain with syncT1 := some (tb64 s % 2 ^ 64) } }) := by
  simp only [syncStamp, hq, ne_eq, not_true_eq_false, if_false, h, if_true]

theorem syncStamp_of_reply (h : u8At q.payload 0 ≠ 0) : syncStamp q s =
    ({ q with payload := q.payload.take 24 ++ leBytes 8 (tb64 s % 2 ^ 64) }, s) := by
  simp only [syncStamp, hq, ne_eq, not_true_eq_false, if_false, h]

/-- The kind of the packet, in its first 8 bytes, stays. -/
theorem syncStamp_head (hl : q.payload.length = 32) {i : Nat} (hi : i < 8) :
    (syncStamp q s).1.payload[i]? = q.payload[i]? := by
  by_cases h : u8At q.payload 0 = 0
  · rw [syncStamp_of_request hq h]
    simp [List.getElem?_append, hl, hi]
  · rw [syncStamp_of_reply hq h]
    have inside : i < 24 := by omega
    simp [List.getElem?_append, hl, inside]

end

/-! ### The average of each ms -/

/-- What the judgement of the exchanges and the search leave as they stand: the offset, the rate and what lies outside the
chain. -/
def timeKept (s : State) : Int × Int × Option Search × Clk × Cfg × Mem :=
  (s.chain.theta, s.chain.slew, s.chain.search, s.clk, s.cfg, s.hbm)

theorem timeKept_mk {t : State} {th sl : Int} {se : Option Search} {ck : Clk} {cg : Cfg} {m : Mem}
    (h : timeKept t = (th, sl, se, ck, cg, m)) : t.chain.theta = th ∧ t.chain.slew = sl ∧ t.chain.search = se ∧ t.clk = ck
      ∧ t.cfg = cg ∧ t.hbm = m := by
  simpa [timeKept] using h

@[simp] theorem timeKept_raise (n c d : Nat) (s : State) : timeKept (raise n c d s) = timeKept s := by
  rw [raise_book n c d s]
  rfl

@[simp] theorem timeKept_setSync (ok : Bool) (s : State) : timeKept (setSync ok s) = timeKept s := by
  unfold setSync
  split
  · rfl
  · exact timeKept_raise _ _ _ _

@[simp] theorem timeKept_syncJudge (s : State) : timeKept (syncJudge s) = timeKept s := by
  unfold syncJudge
  extract_lets t n s1
  have counted : timeKept s1 = timeKept s := rfl
  rw [← counted]
  split
  · exact timeKept_setSync _ _
  · split
    · exact timeKept_setSync _ _
    · rfl

theorem autoSearch_autoProbe_of_none (h : s.chain.search = none) : autoSearch (autoProbe s) = s := by
  simp [autoSearch, autoProbe, h]

theorem syncUpdate_of_joined (h : s.chain.joining = false) : syncUpdate s = syncJudge (updChain (fun c => { c with
    theta := thetaAvg c.thetas, joining := false, slew := slewFor (thetaAvg c.thetas) }) s) := by
  simp only [syncUpdate, updChain, h, Bool.false_eq_true, false_and, if_false]

theorem timeKept_syncUpdate_of_joined (h : s.chain.joining = false) : timeKept (syncUpdate s) =
    (thetaAvg s.chain.thetas, slewFor (thetaAvg s.chain.thetas), s.chain.search, s.clk, s.cfg, s.hbm) := by
  rw [syncUpdate_of_joined h, timeKept_syncJudge]
  rfl

/-- The state that has noted when the next average is due. -/
def averageNoted (due : Nat) (s : State) : State := updChain (fun c => { c with avgNext := due }) s

theorem syncAverage_of_due (ht : s.chain.avgNext ≤ s.clk.ns) (hh : s.chain.head = false) (hp : s.chain.parentPort.isSome = true)
    (hl : s.chain.thetas ≠ []) : 
    syncAverage s = autoSearch (autoProbe (syncUpdate (averageNoted (nextDue s.chain.avgNext (ms 1) s.clk.ns) s))) := by
  simp [syncAverage, averageNoted, updChain, Nat.not_lt.mpr ht, hh, hl, Option.isSome_iff_ne_none.mp hp]

theorem timeKept_syncUpdate_averageNoted (n : Nat) (h : s.chain.joining = false) : timeKept (syncUpdate (averageNoted n s)) =
    (thetaAvg s.chain.thetas, slewFor (thetaAvg s.chain.thetas), s.chain.search, s.clk, s.cfg, s.hbm) := by
  have joined : (averageNoted n s).chain.joining = false := by simpa [averageNoted, updChain] using h
  rw [timeKept_syncUpdate_of_joined joined]
  simp [averageNoted, updChain]

theorem timeKept_syncAverage (ht : s.chain.avgNext ≤ s.clk.ns) (hh : s.chain.head = false)
    (hp : s.chain.parentPort.isSome = true) (hl : s.chain.thetas ≠ []) (hj : s.chain.joining = false) (hs : s.chain.search = none) :
    timeKept (syncAverage s) =
      (thetaAvg s.chain.thetas, slewFor (thetaAvg s.chain.thetas), s.chain.search, s.clk, s.cfg, s.hbm) := by
  have judged := timeKept_syncUpdate_averageNoted (nextDue s.chain.avgNext (ms 1) s.clk.ns) hj
  obtain ⟨-, -, search, -⟩ := timeKept_mk judged
  rw [syncAverage_of_due ht hh hp hl, autoSearch_autoProbe_of_none (search.trans hs), judged]

theorem parentLost_of_over {t : Nat} (hp : s.chain.parentLostNs = some t) (ht : t + 1000000 ≤ s.clk.ns)
    (hh : s.chain.head = false) (hc : s.chain.chainSync = true) : parentLost s =
      raise 329 0x03 (ofS 32 s.chain.theta) (updChain (fun c => { c with goodUpdates := 0, chainSync := false }) s) := by
  have ended : t + ms 1 ≤ s.clk.ns ∧ (!s.chain.head) = true := ⟨ht, by rw [hh]; rfl⟩
  have held : ¬ (updChain (fun c => { c with goodUpdates := 0 }) s).chain.chainSync = false := by simp [updChain, hc]
  simp only [parentLost, hp, if_pos ended, setSync, if_neg held]
  rfl

end

/-- Settles O49: a packet from a usable port acts on the state that has freed its credits, and the stamps and the average are
taken branch by branch. -/
theorem chainTimeFollowsParent : Obligations.ChainTimeFollowsParent := by
  intro s hr
  refine ⟨fun k t1 t2 t3 hu ho => ?_, fun k hp ht => whenReady_next hr (syncExchange_of_due hp ht),
    fun q hq hl => ⟨fun h => ?_, fun h => ?_, fun i => syncStamp_head hq hl⟩, fun ht hh hp hl hj hs => ?_,
    fun t hp ht hh hc => whenReady_next hr (parentLost_of_over hp ht hh hc)⟩
  · intro g t
    refine ⟨?_, fun h1 hp => ⟨_, execSync_of_usable hr hu ho 1 t1 t2 t3, syncReply_linkFree_of_own t2.toNat t3.toNat h1 hp⟩⟩
    exact (execSync_of_usable hr hu ho 0 t1 t2 t3).trans (next_congr (syncRequest_linkFree k t1.toNat 36))
  · rw [syncStamp_of_request hq h]
    exact ⟨u64At_leBytes (by simp [hl]) (Nat.mod_lt _ (by decide)), rfl⟩
  · rw [syncStamp_of_reply hq h]
    refine ⟨?_, rfl⟩
    have stamp := u64At_leBytes (a := q.payload.take 24) (c := []) (off := 24) (by simp [hl])
      (Nat.mod_lt (tb64 s) (y := 2 ^ 64) (by decide))
    rwa [List.append_nil] at stamp
  · obtain ⟨theta, slew, -, clk, cfg, hbm⟩ := timeKept_mk (timeKept_syncAverage ht hh hp hl hj hs)
    refine ⟨syncAverage s, whenReady_of_ready _ hr, theta, ?_, clk, cfg, hbm⟩
    rw [slew, theta]
    rfl

end Sys2Proof.Machine

/-! PROOFS. The shared encoder (R419, R421): samples sent, taken and lost. -/

namespace Sys2Proof.Machine

/-! ### A raise leaves the commands -/

@[simp] theorem hostWrite_cmds (a : Nat) (bs : List Byte) (s : State) : (hostWrite a bs s).cmds = s.cmds := by
  rw [hostWrite_traffic a bs s]

@[simp] theorem feltTo_cmds (d t : Nat) (bs : List Byte) (s : State) : (feltTo d t bs s).cmds = s.cmds := by
  rw [feltTo_traffic d t bs s]

@[simp] theorem msixSend_cmds (v : Nat) (s : State) : (msixSend v s).cmds = s.cmds := by
  simp only [msixSend]
  repeat' split
  all_goals simp

@[simp] theorem evtRingWrite_cmds (e n c d : Nat) (s : State) : (evtRingWrite e n c d s).cmds = s.cmds := by
  simp only [evtRingWrite]
  repeat' split
  all_goals simp

@[simp] theorem raiseCore_cmds (met : Bool) (n c d : Nat) (s : State) : (raiseCore met n c d s).cmds = s.cmds := by
  have ring : (if bitOf (routeOf s n) 16 then evtRingWrite (bits (routeOf s n) 10 6) n c d s else s).cmds = s.cmds := by
    split <;> simp
  rw [raiseCore, ← ring]
  generalize (if bitOf (routeOf s n) 16 then evtRingWrite (bits (routeOf s n) 10 6) n c d s else s) = s1
  split
  · exact msixSend_cmds _ _
  · rfl

@[simp] theorem logRaise_cmds (n c d v : Nat) (s : State) : (logRaise n c d v s).cmds = s.cmds := by
  simp only [logRaise]
  repeat' split
  all_goals rfl

@[simp] theorem raise_cmds (n c d : Nat) (s : State) : (raise n c d s).cmds = s.cmds := by
  simp only [raise, raiseMet]
  repeat' split
  all_goals simp

/-! ### What the marks, the drives and the raises that follow a sample leave -/

/-- The samples of the shared encoder, whether they come, and what lies outside chain and AFE die. -/
def sampleView (s : State) : List EncSample × Nat × Bool × Clk × Cfg × Mem × Cmds :=
  (s.chain.samples, s.chain.lastSampleNs, s.chain.shareOk, s.clk, s.cfg, s.hbm, s.cmds)

theorem sampleView_mk {t : State} {l : List EncSample} {ns : Nat} {ok : Bool} {ck : Clk} {cg : Cfg} {m : Mem} {q : Cmds}
    (h : sampleView t = (l, ns, ok, ck, cg, m, q)) : t.chain.samples = l ∧ t.chain.lastSampleNs = ns ∧ t.chain.shareOk = ok
      ∧ t.clk = ck ∧ t.cfg = cg ∧ t.hbm = m ∧ t.cmds = q := by
  simpa [sampleView] using h

section
variable {s : State}

@[simp] theorem sampleView_raise (n c d : Nat) (s : State) : sampleView (raise n c d s) = sampleView s := by
  have shared : (raise n c d s).chain.samples = s.chain.samples ∧ (raise n c d s).chain.lastSampleNs = s.chain.lastSampleNs
      ∧ (raise n c d s).chain.shareOk = s.chain.shareOk := by
    rw [raise_book n c d s]
    exact ⟨rfl, rfl, rfl⟩
  have book := raise_book n c d s
  simp [sampleView, shared, book.clk, book.cfg, book.hbm]

@[simp] theorem sampleView_setEnc (e : Nat) (x : Enc) (s : State) : sampleView (setEnc e x s) = sampleView s := rfl

@[simp] theorem sampleView_encMoved (e : Nat) (o n : Int) (s : State) : sampleView (encMoved e o n s) = sampleView s := by
  simp only [encMoved]
  repeat' split
  all_goals simp

@[simp] theorem sampleView_jobsUnseen (s : State) : sampleView (jobsUnseen s) = sampleView s := by
  refine foldl_keeps (fun u n => ?_) _ s
  split <;> rfl

theorem encDown_traffic (x : EncSample) (s : State) : TrafficOnly s (encDown x s) := by
  unfold encDown
  generalize childPorts s = ks
  induction ks generalizing s with
  | nil => exact TrafficOnly.refl s
  | cons k ks ih => exact (feltOn_traffic _ _ s).trans (ih _)

@[simp] theorem sampleView_encDown (x : EncSample) (s : State) : sampleView (encDown x s) = sampleView s := by
  rw [encDown_traffic x s]
  rfl

@[simp] theorem sampleView_linkFree (k : Fin 4) (n : Nat) : sampleView (linkFree (64 + k.val) n s) = sampleView s := by
  obtain ⟨l, -, h⟩ := linkFree_felt (s := s) (k := k) n
  rw [h]
  rfl

/-! ### Samples sent -/

theorem encSend_of_due (h : shareSrc s = s.chain.devId) (ht : s.chain.encNext ≤ s.clk.ns) : encSend s =
    encDown ⟨encE s (shareEnc s), tb64 s, s.chain.encSent⟩ (updChain (fun c => { c with
      encSent := (c.encSent + 1) % 2 ^ 32, encNext := nextDue c.encNext 1000 s.clk.ns }) s) := by
  have due : ¬ (shareSrc s ≠ s.chain.devId ∨ s.clk.ns < s.chain.encNext) := by
    rintro (hn | hn)
    · exact hn h
    · exact Nat.not_lt.mpr ht hn
  rw [encSend, if_neg due]
  rfl

/-! ### Samples taken -/

/-- The newest sample is kept, whatever the age of the others. -/
theorem head?_keepRecent {α : Type} (age : α → Nat) (span : Nat) (x : α) (xs : List α) :
    (keepRecent age span (x :: xs)).head? = some x := by
  unfold keepRecent
  split <;> rfl

/-- The state that has taken a sample as its newest. -/
def sampleKept (x : EncSample) (ns : Nat) (s : State) : State :=
  updChain (fun c => { c with samples := keepRecent (fun y => (x.t - y.t).toNat / 64) 2000000000 (x :: c.samples)
                              lastSampleNs := ns, shareOk := true }) s

theorem sampleView_sampleKept (x : EncSample) (ns : Nat) (s : State) : sampleView (sampleKept x ns s) =
    (keepRecent (fun y => (x.t - y.t).toNat / 64) 2000000000 (x :: s.chain.samples), ns, true, s.clk, s.cfg, s.hbm,
      s.cmds) := rfl

theorem sampleView_encTaken {e : Int} {t number : Nat} (hf : shareSrc s ≠ 0xFF) (hd : shareSrc s ≠ s.chain.devId) :
    sampleView (encTaken e t number s) = sampleView (sampleKept ⟨e, (t : Int) - s.chain.theta, number⟩ s.clk.ns
      (encDown ⟨e, (t : Int) - s.chain.theta, number⟩ s)) := by
  simp only [encTaken, if_neg hd, if_neg hf]
  generalize encDown ⟨e, (t : Int) - s.chain.theta, number⟩ s = u
  repeat' split
  all_goals simp only [sampleView_raise, sampleView_encMoved, sampleKept]

/-- A sample from the parent, taken after its credits were freed. -/
theorem encTaken_linkFree {k : Fin 4} {n : Nat} {e : Int} {t number : Nat} (hf : shareSrc s ≠ 0xFF)
    (hd : shareSrc s ≠ s.chain.devId) :
    let u := encTaken e t number (linkFree (64 + k.val) n s)
    u.chain.shareOk = true ∧ u.chain.lastSampleNs = s.clk.ns
      ∧ u.chain.samples.head? = some ⟨e, (t : Int) - s.chain.theta, number⟩
      ∧ u.clk = s.clk ∧ u.cfg = s.cfg ∧ u.hbm = s.hbm ∧ u.cmds = s.cmds := by
  obtain ⟨l, -, hg⟩ := linkFree_felt (s := s) (k := k) n
  rw [hg]
  let x : EncSample := ⟨e, (t : Int) - s.chain.theta, number⟩
  let g := setFeltPort k.val { feltPort s k.val with link := l } s
  obtain ⟨-, -, -, clk, cfg, hbm, cmds⟩ := sampleView_mk (sampleView_encDown x g)
  have taken : sampleView (encTaken e t number g) = sampleView (sampleKept x s.clk.ns (encDown x g)) :=
    sampleView_encTaken hf hd
  obtain ⟨samples, ns, ok, clk', cfg', hbm', cmds'⟩ := sampleView_mk (taken.trans (sampleView_sampleKept x s.clk.ns _))
  exact ⟨ok, ns, (congrArg List.head? samples).trans (head?_keepRecent _ _ _ _), clk'.trans clk, cfg'.trans cfg, hbm'.trans hbm,
    cmds'.trans cmds⟩

section
variable {k : Fin 4} (hr : Ready s) (hu : feltUsable s k.val = true) (ho : linkOver s (64 + k.val) 24 = false)
include hr hu ho

theorem execEnc_of_usable (e t : W64) (number : W32) : exec (.enc k e t number) s = .next
    (if (linkFree (64 + k.val) 24 s).chain.parentPort = some k.val
      then encTaken e.toInt t.toNat number.toNat (linkFree (64 + k.val) 24 s) else linkFree (64 + k.val) 24 s) :=
  whenReady_next hr (fromUsable_of_usable _ hu ho)

end

theorem parentPort_linkFree (k : Fin 4) (n : Nat) : (linkFree (64 + k.val) n s).chain.parentPort = s.chain.parentPort := by
  obtain ⟨l, -, hg⟩ := linkFree_felt (s := s) (k := k) n
  rw [hg]
  rfl

/-! ### Samples lost -/

/-- The loss ends the samples and is raised last. -/
theorem shareLost_of_over (hk : s.chain.shareOk = true) (ht : s.chain.lastSampleNs + 100000 ≤ s.clk.ns) :
    ∃ (v : Nat) (u : State), shareLost s = raise 329 0x06 v u
      ∧ sampleView u = sampleView (updChain (fun c => { c with shareOk := false }) s) := by
  have ended : s.chain.shareOk = true ∧ s.chain.lastSampleNs + us 100 ≤ s.clk.ns := ⟨hk, ht⟩
  rw [shareLost, if_pos ended]
  refine ⟨_, _, rfl, ?_⟩
  split
  · rw [sampleView_raise, sampleView_setEnc, sampleView_jobsUnseen]
  · rw [sampleView_jobsUnseen]

theorem shareLost_of_early (ht : s.clk.ns < s.chain.lastSampleNs + 100000) : shareLost s = s :=
  if_neg fun h => Nat.not_lt.mpr h.2 ht

end

/-- Settles O50: each row acts on the state that has freed the packet's credits, and what follows a sample leaves the
samples. -/
theorem sharedEncoderSamples : Obligations.SharedEncoderSamples := by
  refine fun s hr => ⟨fun h ht => whenReady_next hr (encSend_of_due h ht),
    fun k e t number hu ho => ⟨fun hp => ?_, fun hp hf hd => ?_⟩,
    fun hk ht => ?_, fun ht => whenReady_next hr (shareLost_of_early ht)⟩
  · rw [execEnc_of_usable hr hu ho, parentPort_linkFree, if_neg hp]
  · refine ⟨_, ?_, encTaken_linkFree (k := k) (n := 24) hf hd⟩
    rw [execEnc_of_usable hr hu ho, parentPort_linkFree, if_pos hp]
  · obtain ⟨v, u, row, view⟩ := shareLost_of_over hk ht
    obtain ⟨-, -, ok, clk, cfg, hbm, -⟩ := sampleView_mk ((sampleView_raise 329 0x06 v u).trans view)
    rw [← row] at ok clk cfg hbm
    exact ⟨_, whenReady_of_ready _ hr, ok, row ▸ pendBit_raise_self (by decide) _ _ _, clk, cfg, hbm⟩

end Sys2Proof.Machine

/-! PROOFS. Search, joins, losses and time-outs of the chain (R406, R408, R410, R423, R424). -/

namespace Sys2Proof.Machine

/-! ### What a join leaves: what the device is in the chain, crystal time, configuration, HBM, commands and held reads -/

/-- What the device is in the chain, and what lies outside it that a join leaves. -/
def joinView (s : State) : (Nat × Bool × Bool × List Byte) × Nat × Cfg × Mem × Cmds × List (Nat × Nat × Nat) :=
  ((s.chain.devId, s.chain.head, s.chain.mapped, s.chain.headSerial), s.clk.ns, s.cfg, s.hbm, s.cmds, s.host.heldReads)

theorem TrafficOnly.joinView {s t : State} (h : TrafficOnly s t) : joinView t = joinView s := by
  rw [h]
  rfl

@[simp] theorem joinView_raise (n c d : Nat) (s : State) : joinView (raise n c d s) = joinView s := by
  have chain : (raise n c d s).chain.devId = s.chain.devId ∧ (raise n c d s).chain.head = s.chain.head
      ∧ (raise n c d s).chain.mapped = s.chain.mapped ∧ (raise n c d s).chain.headSerial = s.chain.headSerial
      ∧ (raise n c d s).host.heldReads = s.host.heldReads := by
    rw [raise_book n c d s]
    exact ⟨rfl, rfl, rfl, rfl, rfl⟩
  have book := raise_book n c d s
  simp [joinView, chain, book.clk, book.cfg, book.hbm]

@[simp] theorem joinView_setFeltPort (k : Nat) (p : FeltPort) (s : State) : joinView (setFeltPort k p s) = joinView s := rfl

@[simp] theorem joinView_updFelt (k : Nat) (f : FeltPort → FeltPort) (s : State) : joinView (updFelt k f s) = joinView s := rfl

@[simp] theorem joinView_updMap (d : Nat) (f : MapEntry → MapEntry) (s : State) : joinView (updMap d f s) = joinView s := rfl

@[simp] theorem joinView_feltTo (d t : Nat) (bs : List Byte) (s : State) : joinView (feltTo d t bs s) = joinView s :=
  (feltTo_traffic d t bs s).joinView

@[simp] theorem joinView_feltRoute (p : FeltPacket) (s : State) : joinView (feltRoute p s) = joinView s :=
  (feltRoute_traffic p s).joinView

@[simp] theorem joinView_linkFree (k : Fin 4) (n : Nat) (s : State) : joinView (linkFree (64 + k.val) n s) = joinView s := by
  obtain ⟨l, -, h⟩ := linkFree_felt (s := s) (k := k) n
  rw [h, joinView_setFeltPort]

@[simp] theorem joinView_setSync (ok : Bool) (s : State) : joinView (setSync ok s) = joinView s := by
  unfold setSync
  split
  · rfl
  · exact joinView_raise _ _ _ _

@[simp] theorem joinView_notifyAll (bs : List Byte) (s : State) : joinView (notifyAll bs s) = joinView s :=
  foldl_keeps (g := joinView) (fun _ _ => joinView_feltTo _ _ _ _) _ s

@[simp] theorem joinView_holdFlush (s : State) : joinView (holdFlush s) = joinView s :=
  foldl_keeps (g := joinView) (fun _ _ => joinView_feltRoute _ _) _ _

@[simp] theorem joinView_feltGather (s : State) : joinView (feltGather s) = joinView s := by
  refine foldl_keeps (g := joinView) (fun u k => ?_) _ s
  rfl

@[simp] theorem joinView_packetLost (p : FeltPacket) (s : State) : joinView (packetLost p s) = joinView s := by
  unfold packetLost
  split
  · dsimp only
    rw [joinView_raise]
    split <;> rfl
  · rfl

@[simp] theorem joinView_deviceLost (d : Nat) (s : State) : joinView (deviceLost d s) = joinView s := by
  unfold deviceLost
  rw [joinView_notifyAll]
  refine (foldl_keeps (g := joinView) (fun _ _ => joinView_packetLost _ _) _ _).trans ?_
  exact joinView_raise _ _ _ _

@[simp] theorem joinView_reparent (dist : Tbl Nat) (s : State) : joinView (reparent dist s) = joinView s := by
  unfold reparent
  split <;> rfl

@[simp] theorem joinView_recompute (s : State) : joinView (recompute s) = joinView s := by
  simp only [recompute, joinView_holdFlush]
  split
  · rw [foldl_keeps (g := joinView) (fun _ _ => joinView_deviceLost _ _), joinView_feltGather, joinView_reparent]
    rfl
  · rw [joinView_feltGather, joinView_reparent]
    rfl

@[simp] theorem joinView_linkNoted (d port nb nbPort : Nat) (s : State) :
    joinView (linkNoted d port nb nbPort s) = joinView s := by
  unfold linkNoted
  split <;> rfl

@[simp] theorem joinView_linkNotice (k : Nat) (up : Bool) (s : State) : joinView (linkNotice k up s) = joinView s := by
  unfold linkNotice
  split
  · rfl
  · simp

@[simp] theorem joinView_markForeign (k : Nat) (serial : List Byte) (s : State) :
    joinView (markForeign k serial s) = joinView s := by
  unfold markForeign
  split
  · rfl
  · simp [portShift]

theorem joinView_thetaClear (s : State) : joinView (updChain (fun c => { c with theta := 0 }) s) = joinView s := rfl

/-- A step of TB_NOW moves no crystal time. -/
@[simp] theorem joinView_tbStep (n : Nat) (s : State) : joinView (tbStep n s) = joinView s := by
  unfold tbStep
  split
  · rfl
  · exact joinView_raise _ _ _ _

/-- Without a held read there is none to answer. -/
theorem joinView_readsRelease_of_none {s : State} (h : s.host.heldReads = []) : joinView (readsRelease s) = joinView s := by
  unfold readsRelease
  rw [h]
  split
  · simp [joinView, h]
  · rfl

section
variable {s : State}

/-- The join itself: what it leaves, with the new place in the chain. -/
theorem joinView_joined (id hops parent pport : Nat) (hd : List Byte) (step : Nat) :
    joinView (joined id hops parent pport hd step s) =
      ((id, false, true, hd), s.clk.ns, s.cfg, s.hbm, s.cmds, s.host.heldReads) := by
  let s1 := if (!s.chain.mapped || s.chain.head || decide (s.chain.devId ≠ id)) = true then setSync false s else s
  have told : joinView s1 = joinView s := by
    simp only [s1]
    split <;> simp
  obtain ⟨-, outside⟩ := Prod.mk.inj told
  have placed (c : Chain) (h : (c.devId, c.head, c.mapped, c.headSerial) = (id, false, true, hd)) :
      joinView { s1 with chain := c } = ((id, false, true, hd), s.clk.ns, s.cfg, s.hbm, s.cmds, s.host.heldReads) :=
    Prod.ext h outside
  unfold joined
  refine (foldl_keeps (g := joinView) (fun u k => ?_) _ _).trans ?_
  · split <;> simp
  · split
    · rw [joinView_tbStep, joinView_updMap]
      exact placed _ rfl
    · rw [joinView_thetaClear, joinView_tbStep, joinView_updMap]
      exact placed _ rfl

/-! ### CHAIN_ENUM -/

section
variable {c : Cmd}

theorem startEnum_of_idle (h : s.chain.search = none) :
    startEnum c s = searchBegin (some c.cid) (pm8 c.packet 0x18) (beginWork c 0 s).2 := by
  simp [startEnum, h]

theorem startEnum_of_searching (h : s.chain.search ≠ none) : startEnum c s = finishCheck c stBusy s :=
  if_pos (Option.isSome_iff_ne_none.mpr h)

theorem contEnum_of_own {io : HostIo} {ns : Nat} (hm : mayRequest s = true) (h : s.chain.search = some ⟨some c.cid, 0, ns⟩) :
    contEnum io c s = hostOutAt (fun _ => foundCount (searchEnd 0 s)) ((cmdById (searchEnd 0 s) c.cid).getD c)
      (mapBytes (searchEnd 0 s)) io (fun c s => finishOk c (foundCount s) (foundCount s) (mapStore s)) (searchEnd 0 s) := by
  simp [contEnum, h, hm]

end

/-! ### Probes -/

section
variable {k : Fin 4} {m : EnumMsg} (hr : Ready s) (hc : cf s 0x11 k.val 0 = 1) (hl : (feltPort s k.val).link.st = 3)
  (ho : linkOver s (64 + k.val) (4 + (enumBytes m).length) = false) (hm : m.reply = false)
include hr hc hl ho hm

/-- On a port in use a probe acts on the state that has freed its credits. -/
theorem execEnum_of_probe :
    exec (.enum k m) s = .next (probeTaken k m (linkFree (64 + k.val) (4 + (enumBytes m).length) s)) := by
  have enabled : cf (linkFree (64 + k.val) (4 + (enumBytes m).length) s) 0x11 k.val 0 = 1 := by
    obtain ⟨l, -, h⟩ := linkFree_felt (s := s) (k := k) (4 + (enumBytes m).length)
    rw [h]
    exact hc
  refine whenReady_next hr ((if_pos ⟨hl, ho⟩).trans ?_)
  simp [enabled, hm]

end

section
variable {k : Fin 4} {n : Nat}

theorem feltPort_linkFree : ∃ l : Link, feltPort (linkFree (64 + k.val) n s) k.val = { feltPort s k.val with link := l } := by
  obtain ⟨l, -, h⟩ := linkFree_felt (s := s) (k := k) n
  exact ⟨l, by rw [h, feltPort_setFeltPort_self]⟩

theorem ownHead_linkFree : ownHead (linkFree (64 + k.val) n s) = ownHead s := by
  obtain ⟨l, -, h⟩ := linkFree_felt (s := s) (k := k) n
  rw [h]
  rfl

theorem probeTaken_of_own {m : EnumMsg} (h : m.serial = ownSerial) : probeTaken k m s = markLoop k.val s := if_pos h

theorem probeTaken_of_foreign {m : EnumMsg} (h : m.serial ≠ ownSerial) (ho : otherHead (ownHead s) m.headSerial = true)
    (hf : (feltPort s k.val).foreign_ = false) : probeTaken k m s = enumReply k m (linkNotice k.val false (recompute
      (raise (330 + k.val) 0x02 (serial32 m.serial) (updFelt k.val (fun p => { p with foreign_ := true }) s)))) := by
  simp [probeTaken, h, ho, markForeign, hf, portShift]

theorem otherHead_of_ne {a b : List Byte} (ha : a ≠ []) (hb : b ≠ []) (h : a ≠ b) : otherHead a b = true := by
  simp [otherHead, ha, hb, h]

end

/-! ### Links, time-outs and devices that are back -/

theorem feltDown_of_active {k : Nat} (h : (feltPort s k).link.st = 3) : feltDown k s = s := if_pos h

theorem feltDown_of_down {k : Nat} (h : (feltPort s k).link.st ≠ 3) : feltDown k s = readsRelease (linkNotice k false (recompute
    (setFeltPort k { feltPort s k with queue := (feltPort s k).queue.filter fun x => decide (x.dst ≠ 0xFF) } s))) := if_neg h

theorem routeTimeout_of_over {sq : Nat} {tag : W32} {c : Cmd}
    (h : s.cmds.flight.find? (fun c => decide (c.sq = sq ∧ c.tag = tag) && c.sentTo.isSome
      && decide (c.sentNs + 1000 * cf s 0x11 4 4 ≤ s.clk.ns)) = some c) :
    routeTimeout sq tag s = finish c stUnreachable c.aux 0 c.position s := by
  rw [routeTimeout, show us (cf s 0x11 4 4) = 1000 * cf s 0x11 4 4 from Nat.mul_comm _ _, h]

theorem deviceJoined_of_back {d : Nat} {reset : Bool} (hh : s.chain.head = true) (hp : (mapEntry s d).present = true)
    (hu : (mapEntry s d).unreachable = true) (hr : reachable s d = true) : deviceJoined d reset s =
      raise 329 0x09 (d + (if reset then 256 else 0))
        (joinSend d 0 (updMap d (fun e => { e with unreachable := false }) s)) := by
  have flag : bAt 8 reset = if reset then 256 else 0 := by cases reset <;> rfl
  simp only [deviceJoined, hh, hp, hu, hr, and_self, if_true, flag]

end

section
variable {s : State} {sq : Fin 1024} {tag : W32} {io : HostIo} {c : Cmd}

theorem execChainEnum_of_starts (h : Starts s sq tag 0xF0 c) : exec (.chainEnum sq tag io) s = .next (startEnum c s) :=
  opcodeRow_of_starts _ _ h

theorem execChainEnum_of_carriesOn (h : CarriesOn s sq tag 0xF0 c) : exec (.chainEnum sq tag io) s = .next (contEnum io c s) :=
  opcodeRow_of_carriesOn _ _ h

end

section
variable {s : State} {k : Fin 4} {h : RouteHdr} {id hops parent pport : Byte} {hd : List Byte} {step : W64}

theorem execCtrl_of_ready {m : CtrlMsg} (hr : Ready s) : exec (.ctrl k h m) s = .next (readsRelease (ctrlBody k.val h m s)) :=
  whenReady_of_ready (fun s => readsRelease (ctrlBody k.val h m s)) hr

/-- A join with this device's serial from a usable port is taken. -/
theorem execCtrl_of_join (hr : Ready s) (hu : feltUsable s k.val = true)
    (ho : linkOver s (64 + k.val) (4 + (ctrlPayload (.join id hops parent pport ownSerial hd step)).length) = false) :
    exec (.ctrl k h (.join id hops parent pport ownSerial hd step)) s = .next (readsRelease
      (joined id.toNat hops.toNat parent.toNat pport.toNat hd step.toNat
        (linkFree (64 + k.val) (4 + (ctrlPayload (.join id hops parent pport ownSerial hd step)).length) s))) := by
  have own : ctrlBody k.val h (.join id hops parent pport ownSerial hd step) s =
      ctrlTaken k.val (.join id hops parent pport ownSerial hd step)
        (linkFree (64 + k.val) (4 + (ctrlPayload (.join id hops parent pport ownSerial hd step)).length) s) :=
    (if_pos rfl).trans (fromUsable_of_usable _ hu ho)
  rw [execCtrl_of_ready hr, own]
  exact next_congr (congrArg readsRelease (if_pos rfl))

/-- What the device is after a join, where no read of the host waits. -/
theorem joinView_join {n step : Nat} (hh : s.host.heldReads = []) (id hops parent pport : Nat) :
    joinView (readsRelease (joined id hops parent pport hd step (linkFree (64 + k.val) n s))) =
      ((id, false, true, hd), s.clk.ns, s.cfg, s.hbm, s.cmds, []) := by
  have freed := joinView_linkFree k n s
  obtain ⟨-, ns, cfg, hbm, cmds, reads⟩ : _ ∧ _ ∧ _ ∧ _ ∧ _ ∧ _ := by simpa only [joinView, Prod.mk.injEq] using freed
  have place := joinView_joined (s := linkFree (64 + k.val) n s) id hops parent pport hd step
  rw [ns, cfg, hbm, cmds, reads, hh] at place
  have none : (joined id hops parent pport hd step (linkFree (64 + k.val) n s)).host.heldReads = [] := by
    simp only [joinView, Prod.mk.injEq] at place
    obtain ⟨-, -, -, -, -, held⟩ := place
    exact held
  rw [joinView_readsRelease_of_none none, place]

end

/-- Settles O51: each row is the branch that its premises name, and a join is followed through what it leaves. -/
theorem chainSearchAndFailures : Obligations.ChainSearchAndFailures := by
  refine ⟨fun s sq tag io c => ⟨fun h hn => ?_, fun h hn => ?_, fun h hm ns hs => ?_⟩, fun s k hr hc hl => ?_, ?_,
    fun s k hr => ⟨fun h => whenReady_next hr (feltDown_of_active h), fun h => whenReady_next hr (feltDown_of_down h)⟩,
    fun s sq tag c hr h => whenReady_next hr (routeTimeout_of_over h),
    fun s d reset hr hh hp hu hd => whenReady_next hr (deviceJoined_of_back hh hp hu hd)⟩
  · rw [execChainEnum_of_starts h, startEnum_of_idle hn]
  · rw [execChainEnum_of_starts h, startEnum_of_searching hn]
  · rw [execChainEnum_of_carriesOn h, contEnum_of_own hm hs]
  · refine ⟨fun m ho hm hs => ?_, fun m ho hm hs hh hn hd hf => ?_⟩
    · obtain ⟨l, port⟩ := feltPort_linkFree (s := s) (k := k) (n := 4 + (enumBytes m).length)
      rw [execEnum_of_probe hr hc hl ho hm, probeTaken_of_own hs, markLoop, port]
      rfl
    · obtain ⟨l, port⟩ := feltPort_linkFree (s := s) (k := k) (n := 4 + (enumBytes m).length)
      rw [execEnum_of_probe hr hc hl ho hm, probeTaken_of_foreign hs]
      · rw [ownHead_linkFree]
        exact otherHead_of_ne hh hn hd
      · rw [port]
        exact hf
  · intro s k h id hops parent pport hd step hr hu ho hh
    have view := joinView_join (k := k) (hd := hd) (step := step.toNat)
      (n := 4 + (ctrlPayload (.join id hops parent pport ownSerial hd step)).length)
      hh id.toNat hops.toNat parent.toNat pport.toNat
    refine ⟨_, execCtrl_of_join hr hu ho, ?_⟩
    simp only [joinView, Prod.mk.injEq] at view
    obtain ⟨⟨dev, head, mapped, serial⟩, ns, cfg, hbm, cmds, -⟩ := view
    exact ⟨dev, head, mapped, serial, ns, cfg, hbm, cmds⟩

end Sys2Proof.Machine

/-! PROOFS. Self-test: BIST_RUN, the end of a block and the spare's period (R427, R428, R430, R432). -/

namespace Sys2Proof.Machine

section
variable {s : State}

/-! ### BIST_RUN -/

section
variable {sq : Fin 1024} {tag : W32} {c : Cmd}

theorem execBistRun_of_starts (h : Starts s sq tag 0xD0 c) : exec (.bistRun sq tag) s = .next (startBist c s) :=
  opcodeRow_of_starts _ _ h

theorem startBist_of_busy (h : s.bist.run.isSome = true ∨ bistIdle s (addrBlk (pkTarget c.packet)) (pkInst c.packet) = false) :
    startBist c s = finish c stBusy 0 0 0 s :=
  if_pos (h.imp_right fun hi => by rw [hi]; rfl)

theorem startBist_of_idle (hr : s.bist.run = none) (hi : bistIdle s (addrBlk (pkTarget c.packet)) (pkInst c.packet) = true) :
    startBist c s = bistBegin (some c.cid) (addrBlk (pkTarget c.packet)) (pkInst c.packet) (pm32 c.packet 0x18)
      (beginWork c (bistPlan (addrBlk (pkTarget c.packet)) (pm32 c.packet 0x18)).length s).2 := by
  simp [startBist, hr, hi]

end

/-! ### The end of a block -/

section
variable {sig : List Byte} {rows : List W32} {tests : List Bool}

theorem bistBlock_of_none (h : s.bist.run = none) : bistBlock sig rows tests s = s := by
  simp [bistBlock, h]

/-- A block with more to come, in a test that no command waits for: the run goes on, and counts the signature. -/
theorem bistBlock_of_next {r : BistRun} {part i : Nat} (h : s.bist.run = some r)
    (hp : (bistPlan r.blk r.mask)[r.done]? = some (part, i)) (hn : part ≠ 1) (hc : r.cid = none)
    (hl : r.done + 1 < (bistPlan r.blk r.mask).length) : bistBlock sig rows tests s =
      { s with bist := { s.bist with run := some { r with
          done := r.done + 1, failed := r.failed + (if sig = Config.bistSignature r.blk part i then 0 else 1),
          sigs := r.sigs ++ sig } } } := by
  have failure : b2n (!decide (sig = Config.bistSignature r.blk part i)) =
      if sig = Config.bistSignature r.blk part i then 0 else 1 := by
    split <;> simp [b2n, *]
  simp [bistBlock, h, hp, hn, hc, hl.ne, failure]

end

/-! ### The spare -/

/-- What the beginning of a test leaves, and the test that runs. -/
theorem bistBegin_runs (cid : Option Nat) (blk inst mask : Nat) (s : State) :
    let u := bistBegin cid blk inst mask s
    (∃ r, u.bist.run = some r ∧ r.blk = blk ∧ r.inst = inst ∧ r.mask = mask ∧ r.done = 0 ∧ r.cid = cid)
      ∧ u.bist.spareRetryNs = s.bist.spareRetryNs ∧ u.clk = s.clk ∧ u.cfg = s.cfg ∧ u.hbm = s.hbm ∧ u.cmds = s.cmds := by
  unfold bistBegin
  split <;> exact ⟨⟨_, rfl, rfl, rfl, rfl, rfl, rfl⟩, rfl, rfl, rfl, rfl, rfl⟩

theorem sparePeriod_of_never (h : spareDue s = none) : sparePeriod s = s := by
  simp [sparePeriod, h]

section
variable {t : Nat} (h : spareDue s = some t)
include h

theorem sparePeriod_of_early (ht : s.clk.ns < t) : sparePeriod s = s := by
  simp [sparePeriod, h, ht]

theorem sparePeriod_of_running (ht : t ≤ s.clk.ns) (hr : s.bist.run.isSome = true) : sparePeriod s =
    raise 328 0x02 0 { s with bist := { s.bist with spareRetryNs := some (t + 3600000000000) } } := by
  have hour : sec 3600 = 3600000000000 := rfl
  simp only [sparePeriod, h, Nat.not_lt.mpr ht, if_false, hr, true_or, if_true, hour]

/-- The test begins, and the next is due a whole number of periods after the last. -/
theorem sparePeriod_of_idle (ht : t ≤ s.clk.ns) (hr : s.bist.run = none) (hi : bistIdle s 3 (spareNow s) = true) :
    ∃ ns, sparePeriod s = bistBegin none 3 (spareNow s) (cf s 0x12 0 2)
      { s with bist := { s.bist with spareRetryNs := none, spareNs := ns } } := by
  simp only [sparePeriod, h, Nat.not_lt.mpr ht, if_false, hr, hi, Option.isSome_none, Bool.false_eq_true, Bool.not_true,
    or_self]
  exact ⟨_, rfl⟩

end

end

/-- Settles O57: each clause is the branch of its row that the premises name. -/
theorem selfTestRuns : Obligations.SelfTestRuns := by
  refine ⟨fun s sq tag c h => ⟨fun hb => ?_, fun hr hi => ?_⟩,
    fun s sig rows tests hr => ⟨fun h => ?_, fun r part i h hp hn hc hl => ?_⟩,
    fun s hl => ⟨fun h => whenLive_next hl (sparePeriod_of_never h),
      fun t h => ⟨fun ht => ?_, fun ht hr => ?_, fun ht hr hi => ?_⟩⟩⟩
  · rw [execBistRun_of_starts h, startBist_of_busy hb]
  · rw [execBistRun_of_starts h, startBist_of_idle hr hi]
  · exact whenReady_next hr (bistBlock_of_none h)
  · exact whenReady_next hr (bistBlock_of_next h hp hn hc hl)
  · exact whenLive_next hl (sparePeriod_of_early h ht)
  · exact whenLive_next hl (sparePeriod_of_running h ht hr)
  · obtain ⟨ns, row⟩ := sparePeriod_of_idle h ht hr hi
    exact ⟨_, whenLive_next hl row, bistBegin_runs none 3 _ _ _⟩

end Sys2Proof.Machine

/-! PROOFS. The idle step (log entry 1): when nothing waits, crystal time and TB_NOW alone go on. -/

namespace Sys2Proof.Machine

section
variable {s : State}

/-! ### Each part of an idle ns, where nothing waits for it -/

theorem firstKept_eq_none {sq : Nat} (h : ∀ c ∈ s.cmds.flight, c.origin = .here → pairTarget s c.sq = s.chain.devId) :
    firstKept s sq = none := by
  refine List.find?_eq_none.mpr fun c hc hk => ?_
  simp only [Bool.and_eq_true, decide_eq_true_eq] at hk
  obtain ⟨⟨⟨⟨hq, ho⟩, -⟩, -⟩, hn⟩ := hk
  exact hn (hq ▸ h c hc ho)

theorem awayPump_eq_self (h : ∀ c ∈ s.cmds.flight, c.origin = .here → pairTarget s c.sq = s.chain.devId) (sq n : Nat) :
    awayPump sq n s = s := by
  cases n with
  | zero => rfl
  | succ n => simp only [awayPump, firstKept_eq_none h]

theorem readsRelease_eq_self (h : s.host.heldReads = []) : readsRelease s = s := by
  have kept : { s with host := { s.host with heldReads := [] } } = s := by rw [← h]
  unfold readsRelease
  rw [h]
  split
  · exact kept
  · rfl

/-- A fold of steps that all leave the state leaves it. -/
theorem foldl_eq_self {α β : Type} {f : β → α → β} {b : β} {l : List α} (h : ∀ x ∈ l, f b x = b) : l.foldl f b = b := by
  induction l with
  | nil => rfl
  | cons x l ih =>
    rw [List.foldl_cons, h x (List.mem_cons_self ..)]
    exact ih fun y hy => h y (List.mem_cons_of_mem _ hy)

theorem headGoesOn_eq_self (hr : s.host.heldReads = [])
    (h : ∀ c ∈ s.cmds.flight, c.origin = .here → pairTarget s c.sq = s.chain.devId) : headGoesOn s = s := by
  have pumps (qs : List Nat) : qs.foldl (fun s q => awayPump q s.cmds.flight.length s) s = s :=
    foldl_eq_self fun q _ => awayPump_eq_self h q _
  exact (congrArg readsRelease (pumps _)).trans (readsRelease_eq_self hr)

theorem lateStampsDue_eq_self (h : s.ing.lateStamps = []) : lateStampsDue s = s := by
  simp [lateStampsDue, h]

theorem linesDue_eq_self (h : s.ing.awaiting = []) : linesDue s = s := by
  simp [linesDue, h]

theorem lsyncStep_eq_self {p : Nat} (h : (dry s p).frame = none) : lsyncStep p s = s := by
  simp only [lsyncStep, h]

theorem stampsWait_eq_false (h : ∀ p, p < 4 → (dry s p).marks = [] ∧ ∀ r ∈ (dry s p).fifo, r.stamped = true) :
    stampsWait s = false := by
  refine List.any_eq_false.mpr fun p hp => ?_
  obtain ⟨marks, fifo⟩ := h p (List.mem_range.mp hp)
  simpa [marks] using fifo

theorem dryerTick_eq_self
    (h : ∀ p, p < 4 → (dry s p).frame = none ∧ (dry s p).marks = [] ∧ ∀ r ∈ (dry s p).fifo, r.stamped = true) :
    dryerTick s = s := by
  have frames : (List.range 4).foldl (fun s p => lsyncStep p s) s = s :=
    foldl_eq_self fun p hp => lsyncStep_eq_self (h p (List.mem_range.mp hp)).1
  simp only [dryerTick, frames, stampsWait_eq_false fun p hp => (h p hp).2, Bool.false_eq_true, if_false]

theorem viewStep_eq_self (h : s.web.hist.viewJobs = []) : viewStep s = s := by
  simp only [viewStep, h]

theorem gpioFilters_eq_self (h : s.afe.gpioNew = []) : gpioFilters s = s := by
  simp only [gpioFilters, h, List.foldl_nil]

theorem comparatorsLook_eq_self (h : ∀ n, n < 16 → (chan s n).jobs = [] ∧ (chan s n).drive = none) : comparatorsLook s = s := by
  have looks : ∀ n ∈ List.range 16, closeLook n (if (chan s n).jobs.isEmpty then s else jobsSeen n s) = s := by
    intro n hn
    obtain ⟨jobs, drive⟩ := h n (List.mem_range.mp hn)
    simp [jobs, closeLook, drive]
  unfold comparatorsLook
  split
  · exact foldl_eq_self looks
  · rfl

/-! ### The whole ns -/

/-- Nothing of the device waits for time to pass. -/
structure Resting (s : State) : Prop where
  view : s.web.hist.viewJobs = []
  stamps : s.ing.lateStamps = []
  lines : s.ing.awaiting = []
  dryers : ∀ p, p < 4 → (dry s p).frame = none ∧ (dry s p).marks = [] ∧ ∀ r ∈ (dry s p).fifo, r.stamped = true
  gpio : s.afe.gpioNew = []
  channels : ∀ n, n < 16 → (chan s n).jobs = [] ∧ (chan s n).drive = none
  reads : s.host.heldReads = []
  pairs : ∀ c ∈ s.cmds.flight, c.origin = .here → pairTarget s c.sq = s.chain.devId

theorem Resting.with_clk (h : Resting s) (k : Clk) : Resting { s with clk := k } :=
  ⟨h.view, h.stamps, h.lines, h.dryers, h.gpio, h.channels, h.reads, h.pairs⟩

/-- Of a device at rest an ns leaves all but the count of its seconds. -/
theorem parts_of_resting (h : Resting s) : operatingSecond (comparatorsLook (gpioFilters (viewStep (dryerTick (linesDue
    (lateStampsDue (headGoesOn s))))))) = operatingSecond s := by
  rw [headGoesOn_eq_self h.reads h.pairs, lateStampsDue_eq_self h.stamps, linesDue_eq_self h.lines, dryerTick_eq_self h.dryers,
    viewStep_eq_self h.view, gpioFilters_eq_self h.gpio, comparatorsLook_eq_self h.channels]

theorem tick_of_not_ready (h : ¬ Ready s) : tick s = { s with clk := { s.clk with ns := s.clk.ns + 1 } } := if_neg h

/-- TB_NOW moves at its rate, corrected by the slew; nothing but the clock changes. -/
theorem tbAdvance_eq (s : State) : ∃ k : Clk, tbAdvance s = { s with clk := k }
    ∧ k.tb = s.clk.tb + (((s.clk.acc + 100000000 : Nat) : Int) + s.chain.slew).toNat / 100000000 := ⟨_, rfl, rfl⟩

theorem tick_of_resting (hr : Ready s) (h : Resting s) : ∃ k : Clk, tick s = operatingSecond { s with clk := k }
    ∧ k.tb = s.clk.tb + (((s.clk.acc + 100000000 : Nat) : Int) + s.chain.slew).toNat / 100000000 := by
  obtain ⟨k, hk, htb⟩ := tbAdvance_eq { s with clk := { s.clk with ns := s.clk.ns + 1 } }
  refine ⟨k, ?_, htb⟩
  rw [tick, hk, parts_of_resting (h.with_clk k)]
  exact if_pos hr

/-- The count of a second leaves all but the counters of NVM. -/
theorem operatingSecond_eq (s : State) :
    ∃ counters, operatingSecond s = { s with nvm := { s.nvm with counters := counters } } := by
  unfold operatingSecond
  split
  · exact ⟨_, rfl⟩
  · exact ⟨_, rfl⟩

end

/-- Settles O2: every part of an idle ns leaves a device at rest, but for its clock and the count of seconds. -/
theorem idleStepTicks : Obligations.IdleStepTicks := by
  intro s hp
  have row : step s = .next (tick s) := by rw [step, hp]
  obtain ⟨ns, queue⟩ := Prod.mk.inj (timeAndQueue_tick s)
  refine ⟨tick s, row, ns, queue.trans hp, tick_of_not_ready, fun hr view stamps lines dryers gpio channels reads pairs => ?_⟩
  obtain ⟨k, tick, tb⟩ := tick_of_resting hr ⟨view, stamps, lines, dryers, gpio, channels, reads, pairs⟩
  obtain ⟨counters, second⟩ := operatingSecond_eq { s with clk := k }
  rw [tick, second]
  exact ⟨rfl, rfl, rfl, rfl, rfl, rfl, rfl, rfl, rfl, rfl, tb⟩

end Sys2Proof.Machine

/-! PROOFS. What a step can answer: the next state, and the fault of the HBM window past the end of HBM (R77, R78). -/

namespace Sys2Proof.Machine

/-- Every command but the window's access answers a next state: its arm is a guard on a function from states to states. -/
theorem exec_completes (i : Instr) (s : State) (h : ∀ off acc, i ≠ .bar2Access off acc) : ∃ t, exec i s = .next t := by
  cases i with
  | bar2Access off acc => exact absurd rfl (h off acc)
  | _ => exact ⟨_, rfl⟩

/-- A window access that reaches the device past the end of HBM faults (log entry 114). -/
theorem exec_bar2Access_past_end {s : State} {off : BitVec 36} {acc : Bar2} (hs : HostOn s)
    (h : hbmSize < s.host.bar2Base * 2 ^ 30 + off.toNat + bar2Size acc) : exec (.bar2Access off acc) s = .fault .hbmAddress :=
  if_pos ⟨hs.1, hs.2, h⟩

/-- Any other window access is a guarded row. -/
theorem exec_bar2Access_in_range {s : State} {off : BitVec 36} {acc : Bar2}
    (h : ¬ (HostOn s ∧ hbmSize < s.host.bar2Base * 2 ^ 30 + off.toNat + bar2Size acc)) :
    exec (.bar2Access off acc) s = whenHost (fun u =>
      if u.host.bar2Dev = u.chain.devId then hbmWindow off.toNat (s.host.bar2Base * 2 ^ 30 + off.toNat) acc u
      else bar2Remote u.host.bar2Dev off.toNat (s.host.bar2Base * 2 ^ 30 + off.toNat) acc u) s :=
  if_neg fun g => h ⟨⟨g.1, g.2.1⟩, g.2.2⟩

/-- A step faults for the access past the end of HBM, and completes otherwise. -/
theorem step_fault_or_next (s : State) :
    (step s = .fault .hbmAddress ∧ HostOn s ∧ ∃ off acc cs, s.pending = .bar2Access off acc :: cs
      ∧ hbmSize < s.host.bar2Base * 2 ^ 30 + off.toNat + bar2Size acc)
    ∨ (∃ t, step s = .next t) ∧ ∀ off acc cs, s.pending = .bar2Access off acc :: cs → HostOn s →
      ¬ hbmSize < s.host.bar2Base * 2 ^ 30 + off.toNat + bar2Size acc := by
  cases hp : s.pending with
  | nil => exact .inr ⟨⟨tick s, by rw [step, hp]⟩, nofun⟩
  | cons c cs =>
    have front : step s = exec c { s with pending := cs } := by rw [step, hp]
    rw [front]
    by_cases hc : ∃ off acc, c = .bar2Access off acc
    · obtain ⟨off, acc, rfl⟩ := hc
      by_cases h : HostOn s ∧ hbmSize < s.host.bar2Base * 2 ^ 30 + off.toNat + bar2Size acc
      · exact .inl ⟨exec_bar2Access_past_end h.1 h.2, h.1, off, acc, cs, rfl, h.2⟩
      · refine .inr ⟨⟨_, exec_bar2Access_in_range h⟩, ?_⟩
        rintro _ _ _ ⟨⟩ hs far
        exact h ⟨hs, far⟩
    · refine .inr ⟨exec_completes c _ fun off acc e => hc ⟨off, acc, e⟩, ?_⟩
      rintro off acc _ ⟨⟩
      exact absurd ⟨off, acc, rfl⟩ hc

/-- Settles O7: the front command is the window's access past the end of HBM, or the step completes. -/
theorem onlyTheWindowFaults : Obligations.OnlyTheWindowFaults := by
  refine ⟨fun s => ?_, fun s => ⟨fun h => ?_, fun ⟨hs, off, acc, cs, hp, far⟩ => ?_⟩⟩
  · obtain ⟨h, -⟩ | ⟨h, -⟩ := step_fault_or_next s
    · exact .inr h
    · exact .inl h
  · obtain ⟨-, here⟩ | ⟨⟨t, next⟩, -⟩ := step_fault_or_next s
    · exact here
    · cases h.symm.trans next
  · obtain ⟨h, -⟩ | ⟨-, near⟩ := step_fault_or_next s
    · exact h
    · exact absurd far (near off acc cs hp hs)

end Sys2Proof.Machine

/-! PROOFS. Queue pairs that drain: settling removes one pair after another until each that drains holds a command (R82, R83). -/

namespace Sys2Proof.Machine

/-! ### The numbers of the pairs -/

/-- The numbers that the table of pairs lists. -/
def pairNumbers (s : State) : Finset Nat := (s.host.pairs.map Prod.fst).toFinset

theorem mem_pairNumbers {s : State} {q : Nat} : q ∈ pairNumbers s ↔ q ∈ s.host.pairs.map Prod.fst := List.mem_toFinset

theorem mem_of_tblFind {α : Type} {t : Tbl α} {i : Nat} {v : α} (h : tblFind t i = some v) : (i, v) ∈ t := by
  induction t with
  | nil => cases h
  | cons x t ih =>
    obtain ⟨k, w⟩ := x
    rw [tblFind] at h
    split at h
    case isTrue hk =>
      cases h
      rw [hk]
      exact List.mem_cons_self
    case isFalse => exact List.mem_cons_of_mem _ (ih h)

/-- A setting adds its own entry and no other. -/
theorem mem_tblSet {α : Type} {t : Tbl α} {i : Nat} {v : α} {x : Nat × α} (h : x ∈ tblSet t i v) : x = (i, v) ∨ x ∈ t := by
  induction t with
  | nil => exact .inl (List.mem_singleton.mp h)
  | cons y t ih =>
    obtain ⟨k, w⟩ := y
    simp only [tblSet] at h
    split at h
    · rcases List.mem_cons.mp h with e | m
      · exact .inl e
      · exact .inr (List.mem_cons_of_mem _ m)
    · split at h
      · exact List.mem_cons.mp h
      · rcases List.mem_cons.mp h with e | m
        · exact .inr (List.mem_cons.mpr (.inl e))
        · exact (ih m).imp_right (List.mem_cons_of_mem _)

/-- An erasure leaves the entries of the other numbers. -/
theorem mem_tblErase {α : Type} {t : Tbl α} {i : Nat} {x : Nat × α} : x ∈ tblErase t i ↔ x ∈ t ∧ x.1 ≠ i := by
  induction t with
  | nil => simp [tblErase]
  | cons y t ih =>
    obtain ⟨k, w⟩ := y
    by_cases hk : i = k
    · subst hk
      rw [tblErase, if_pos rfl, ih, List.mem_cons]
      refine ⟨fun h => ⟨.inr h.1, h.2⟩, ?_⟩
      rintro ⟨rfl | h, hn⟩
      · exact absurd rfl hn
      · exact ⟨h, hn⟩
    · rw [tblErase, if_neg hk, List.mem_cons, ih, List.mem_cons]
      refine ⟨?_, ?_⟩
      · rintro (rfl | h)
        · exact ⟨.inl rfl, Ne.symm hk⟩
        · exact ⟨.inr h.1, h.2⟩
      · rintro ⟨rfl | h, hn⟩
        · exact .inl rfl
        · exact .inr ⟨h, hn⟩

/-! ### What a completion leaves of the pairs -/

/-- The pairs, and DRAINING of pair 0. -/
def pairState (s : State) : Tbl Pair × Bool := (s.host.pairs, s.host.q0Draining)

theorem pairState_of_host {s t : State} (h : t.host = s.host) : pairState t = pairState s := by rw [pairState, h, pairState]

@[simp] theorem pairState_evtRingWrite (e n c d : Nat) (s : State) : pairState (evtRingWrite e n c d s) = pairState s := by
  simp only [evtRingWrite]
  repeat' split
  all_goals simp [pairState]

@[simp] theorem pairState_setPend (n : Nat) (s : State) : pairState (setPend n s) = pairState s := rfl

@[simp] theorem pairState_msixSend (v : Nat) (s : State) : pairState (msixSend v s) = pairState s := by
  simp only [msixSend]
  repeat' split
  · rfl
  · rfl
  · exact pairState_of_host (feltTo_host _ _ _ _)

@[simp] theorem pairState_raiseCore (met : Bool) (n c d : Nat) (s : State) :
    pairState (raiseCore met n c d s) = pairState s := by
  have ring : pairState (if bitOf (routeOf s n) 16 then evtRingWrite (bits (routeOf s n) 10 6) n c d s else s) = pairState s := by
    split <;> simp
  rw [raiseCore, ← ring]
  generalize (if bitOf (routeOf s n) 16 then evtRingWrite (bits (routeOf s n) 10 6) n c d s else s) = s1
  split
  · exact pairState_msixSend _ _
  · rfl

@[simp] theorem pairState_logRaise (n c d v : Nat) (s : State) : pairState (logRaise n c d v s) = pairState s :=
  pairState_of_host (logRaise_host n c d v s)

@[simp] theorem pairState_raise (n c d : Nat) (s : State) : pairState (raise n c d s) = pairState s := by
  have core := pairState_raiseCore false n c d s
  simp only [raise, raiseMet]
  repeat' split
  · exact core
  · rw [pairState_logRaise, pairState_raiseCore]
    exact (pairState_logRaise _ _ _ _ _).trans core
  · exact (pairState_logRaise _ _ _ _ _).trans core

theorem pairState_grpNotify (g : Nat) (s : State) : pairState (grpNotify g s) = pairState s := pairState_raise _ _ _ _

@[simp] theorem pairState_grpEval (g : Nat) (s : State) : pairState (grpEval g s) = pairState s := by
  unfold grpEval
  repeat' split
  · rfl
  · rfl
  · exact pairState_grpNotify g s
  · exact pairState_grpNotify g s
  · rfl

@[simp] theorem pairState_grpAdd (g : Option Nat) (n : Nat) (s : State) : pairState (grpAdd g n s) = pairState s := by
  unfold grpAdd
  repeat' split
  · rfl
  · rfl
  · exact pairState_grpEval _ _

@[simp] theorem pairState_grpSettle (g : Option Nat) (s : State) : pairState (grpSettle g s) = pairState s := by
  unfold grpSettle
  repeat' split
  all_goals rfl

/-- `t` has the pairs of `s`, but that one of them may have written a completion more. -/
def PairsServed (s t : State) : Prop :=
  t.host.q0Draining = s.host.q0Draining ∧ (t.host.pairs = s.host.pairs
    ∨ ∃ q p, tblFind s.host.pairs q = some p ∧ t.host.pairs = tblSet s.host.pairs q { p with cqTail := p.cqTail + 1 })

theorem PairsServed.of_same {s t : State} (h : pairState t = pairState s) : PairsServed s t :=
  ⟨congrArg Prod.snd h, .inl (congrArg Prod.fst h)⟩

theorem writeCqe_pairsServed (q : Nat) (tag : W32) (st pc rs ps : Nat) (i : Bool) (s : State) :
    PairsServed s (writeCqe q tag st pc rs ps i s) := by
  unfold writeCqe
  split
  case h_1 => exact .of_same rfl
  case h_2 p hp =>
    obtain ⟨pairs, draining⟩ := Prod.mk.inj (pairState_grpAdd p.group 1 _)
    refine ⟨draining.trans ?_, .inr ⟨q, p, hp, pairs.trans ?_⟩⟩ <;> simp

theorem cplWrite_pairsServed (w : Waiting) (s : State) : PairsServed s (cplWrite w s) := by
  unfold cplWrite
  split
  · exact writeCqe_pairsServed _ _ _ _ _ _ _ s
  · exact .of_same (pairState_of_host (feltTo_host _ _ _ _))
  · exact .of_same (pairState_of_host (feltTo_host _ _ _ _))

@[simp] theorem slotDone_host (c : Cmd) (st pc ps : Nat) (s : State) : (slotDone c st pc ps s).host = s.host := by
  unfold slotDone
  split <;> rfl

theorem finishOnly_pairsServed (c : Cmd) (st pc rs ps : Nat) (s : State) : PairsServed s (finishOnly c st pc rs ps s) := by
  simp only [finishOnly]
  generalize hs : slotDone c st pc ps _ = s2
  have host : s2.host = s.host := by rw [← hs, slotDone_host]
  split
  · have h := cplWrite_pairsServed ⟨c.origin, c.sq, c.tag, st, pc, rs, ps⟩ s2
    rwa [PairsServed, host] at h
  · exact .of_same (pairState_of_host host)

section
variable {s t : State}

/-- Serving a pair draws no further one. -/
theorem PairsServed.numbers (h : PairsServed s t) : pairNumbers t ⊆ pairNumbers s := by
  obtain ⟨-, h | ⟨q, p, hp, h⟩⟩ := h
  · rw [pairNumbers, h, pairNumbers]
  · intro k hk
    rw [mem_pairNumbers, h] at hk
    obtain ⟨x, hx, rfl⟩ := List.mem_map.mp hk
    refine mem_pairNumbers.mpr (List.mem_map.mpr ?_)
    obtain rfl | old := mem_tblSet hx
    · exact ⟨_, mem_of_tblFind hp, rfl⟩
    · exact ⟨x, old, rfl⟩

/-- Serving a pair lets none drain that did not. -/
theorem PairsServed.none_draining (h : PairsServed s t) (hs : ∀ x ∈ s.host.pairs, x.2.draining = false) :
    ∀ x ∈ t.host.pairs, x.2.draining = false := by
  obtain ⟨-, h | ⟨q, p, hp, h⟩⟩ := h
  · rwa [h]
  · intro x hx
    rw [h] at hx
    obtain rfl | old := mem_tblSet hx
    · exact hs (q, p) (mem_of_tblFind hp)
    · exact hs x old

end

/-! ### Settling -/

theorem pairState_removePair (q : Nat) (s : State) : pairState (removePair q s) =
    (tblErase s.host.pairs q, if q = 0 then false else s.host.q0Draining) := by
  rw [removePair, pairState_grpSettle]
  split <;> rfl

theorem removePair_numbers (q : Nat) (s : State) : pairNumbers (removePair q s) = (pairNumbers s).erase q := by
  have pairs : (removePair q s).host.pairs = tblErase s.host.pairs q := congrArg Prod.fst (pairState_removePair q s)
  ext k
  simp only [Finset.mem_erase, mem_pairNumbers, pairs, List.mem_map, mem_tblErase]
  constructor
  · rintro ⟨x, ⟨hx, hn⟩, rfl⟩
    exact ⟨hn, x, hx, rfl⟩
  · rintro ⟨hn, x, hx, rfl⟩
    exact ⟨x, ⟨hx, hn⟩, rfl⟩

/-- A drained pair goes, and the completion of its QUEUE_DELETE brings no pair back: one number fewer. -/
theorem card_pairNumbers_lt {s t : State} {q : Nat} {p : Pair} (h : drainedPair s = some (q, p))
    (ht : PairsServed (removePair q s) t) : (pairNumbers t).card < (pairNumbers s).card := by
  have mem : q ∈ pairNumbers s := mem_pairNumbers.mpr (List.mem_map.mpr ⟨(q, p), List.mem_of_find?_eq_some h, rfl⟩)
  have sub : pairNumbers t ⊆ (pairNumbers s).erase q := removePair_numbers q s ▸ ht.numbers
  exact (Finset.card_le_card sub).trans_lt (Finset.card_erase_lt_of_mem mem)

theorem drainedPair_settlePairs (n : Nat) (s : State) (h : (pairNumbers s).card < n) : drainedPair (settlePairs n s) = none := by
  induction n generalizing s with
  | zero => exact absurd h (Nat.not_lt_zero _)
  | succ n ih =>
    rw [settlePairs]
    split
    case h_1 done => exact done
    case h_2 q p drained =>
      simp only []
      split
      case h_1 c _ => exact ih _ (by have := card_pairNumbers_lt drained (finishOnly_pairsServed c stOk 100 0 0 _); omega)
      case h_2 => exact ih _ (by have := card_pairNumbers_lt drained (.of_same rfl); omega)

/-- Settles O11: each step of the settling takes one of the pairs' numbers away. -/
theorem settledPairsHoldCommands : Obligations.SettledPairsHoldCommands := by
  intro s
  have numbers : (pairNumbers s).card ≤ s.host.pairs.length :=
    (List.toFinset_card_le _).trans_eq (List.length_map _)
  exact drainedPair_settlePairs _ s (by omega)

end Sys2Proof.Machine

/-! PROOFS. The five doorbells by the rules of R88, and the doorbell page of this device (R99). -/

namespace Sys2Proof.Machine

/-! ### The bodies of the doorbells, by the ring that they find -/

theorem producerOk_iff {old fetch v : W32} {k : Nat} : producerOk old fetch v k = true ↔
    (old - fetch).toNat ≤ (v - fetch).toNat ∧ (v - fetch).toNat ≤ 2 ^ k := by simp [producerOk]

theorem consumerOk_iff {head tail v : W32} : consumerOk head tail v = true ↔ (v - head).toNat ≤ (tail - head).toNat :=
  decide_eq_true_iff

section Doorbells
variable {s : State} {v : W32}

theorem sqTailBody_of_pair {q : Nat} {p : Pair} (h : pairForDb s q = some p) : sqTailBody q v s =
    if (p.sqTail - p.fetch).toNat ≤ (v - p.fetch).toNat ∧ (v - p.fetch).toNat ≤ 2 ^ p.sqLog2 then
      { s with host := { s.host with pairs := tblSet s.host.pairs q { p with sqTail := v } } }
    else raise 339 0x01 q s := by
  simp only [sqTailBody, h, producerOk_iff]
  rfl

theorem cqHeadBody_of_pair {q : Nat} {p : Pair} (h : pairForDb s q = some p) : cqHeadBody q v s =
    if (v - p.cqHead).toNat ≤ (p.cqTail - p.cqHead).toNat then
      { s with host := { s.host with pairs := tblSet s.host.pairs q { p with cqHead := v } } }
    else raise 339 0x01 (q + 2 ^ 18) s := by
  simp only [cqHeadBody, h, consumerOk_iff]
  rfl

theorem srHeadBody_of_ring {r : Nat} {x : Ring} (h : tblFind s.host.srs r = some x) : srHeadBody r v s =
    if (v - x.head).toNat ≤ (x.tail - x.head).toNat then { s with host := { s.host with srs := tblSet s.host.srs r { x with head := v } } }
    else raise 339 0x01 (r + 3 * 2 ^ 18) s := by
  simp only [srHeadBody, h, consumerOk_iff]
  rfl

theorem evtHeadBody_of_ring {e : Nat} {x : EvtRing} (h : tblFind s.host.evts e = some x) : evtHeadBody e v s =
    if (v - x.head).toNat ≤ (x.tail - x.head).toNat then { s with host := { s.host with evts := tblSet s.host.evts e { x with head := v } } }
    else raise 339 0x01 (e + 4 * 2 ^ 18) s := by
  simp only [evtHeadBody, h, consumerOk_iff]
  rfl

/-- The queue that a DB_DQ_HEAD names stands above the 14 bits of the head. -/
theorem dqOf_doorbell (v : W32) : bits v.toNat 14 18 = v.toNat / 2 ^ 14 := by
  have := v.isLt
  exact Nat.mod_eq_of_lt (by omega)

/-- The head that has the 14 bits of the doorbell and lies less than 2^14 entries on is the one that they rebuild. -/
theorem dqHead_rebuilt {v w h : W32} (low : w.toNat % 2 ^ 14 = v.toNat % 2 ^ 14) (near : (w - h).toNat < 2 ^ 14) :
    BitVec.ofNat 32 ((bits v.toNat 0 14 + 2 ^ 14 - h.toNat % 2 ^ 14) % 2 ^ 14) = w - h := by
  apply BitVec.eq_of_toNat_eq
  have := w.isLt
  have := h.isLt
  rw [BitVec.toNat_sub] at near
  simp only [BitVec.toNat_ofNat, BitVec.toNat_sub, bits]
  omega

theorem dqHeadBody_of_ring {w : W32} {x : Ring} (h : tblFind s.host.dqs (v.toNat / 2 ^ 14) = some x)
    (low : w.toNat % 2 ^ 14 = v.toNat % 2 ^ 14) (near : (w - x.head).toNat < 2 ^ 14) : dqHeadBody v.toNat s =
    if (w - x.head).toNat ≤ (x.tail - x.head).toNat then
      { s with host := { s.host with dqs := tblSet s.host.dqs (v.toNat / 2 ^ 14) { x with head := w } } }
    else raise 339 0x01 (v.toNat / 2 ^ 14 + 2 * 2 ^ 18) s := by
  have head : x.head + (w - x.head) = w := by rw [BitVec.add_comm, BitVec.sub_add_cancel]
  simp only [dqHeadBody, dqOf_doorbell, h, dqHead_rebuilt low near, head, decide_eq_true_eq]
  rfl

end Doorbells

/-- Settles O13: each doorbell by the ring that it finds and the rule of R88. -/
theorem doorbellsMoveRings : Obligations.DoorbellsMoveRings := by
  intro s v hs
  refine ⟨fun q p hp => ⟨fun above within => ?_, fun outside => ?_, fun ok => ?_, fun past => ?_⟩,
    fun q none_ => ⟨?_, ?_⟩, fun r x hx => ⟨fun ok => ?_, fun past => ?_⟩, fun r none_ => ?_,
    fun e x hx => ⟨fun ok => ?_, fun past => ?_⟩, fun e none_ => ?_,
    fun x w hx low near => ⟨fun ok => ?_, fun past => ?_⟩, fun none_ => ?_, fun dev off own => ?_⟩
  all_goals refine (whenHost_of_on _ hs).trans (congrArg Host.Outcome.next ?_)
  · rw [sqTailBody_of_pair hp, if_pos ⟨above, within⟩]
  · rw [sqTailBody_of_pair hp, if_neg outside]
  · rw [cqHeadBody_of_pair hp, if_pos ok]
  · rw [cqHeadBody_of_pair hp, if_neg (Nat.not_le.mpr past)]
  · simp only [sqTailBody, none_]
    rfl
  · simp only [cqHeadBody, none_]
    rfl
  · rw [srHeadBody_of_ring hx, if_pos ok]
  · rw [srHeadBody_of_ring hx, if_neg (Nat.not_le.mpr past)]
  · simp only [srHeadBody, none_]
    rfl
  · rw [evtHeadBody_of_ring hx, if_pos ok]
  · rw [evtHeadBody_of_ring hx, if_neg (Nat.not_le.mpr past)]
  · simp only [evtHeadBody, none_]
    rfl
  · rw [dqHeadBody_of_ring hx low near, if_pos ok]
  · rw [dqHeadBody_of_ring hx low near, if_neg (Nat.not_le.mpr past)]
  · simp only [dqHeadBody, dqOf_doorbell, none_]
    rfl
  · exact if_pos own

end Sys2Proof.Machine

/-! PROOFS. The window of HBM: where GLB_BAR2_BASE places it, and what an access through it does (R77 to R79). -/

namespace Sys2Proof.Machine

section Window
variable {s : State} {off : BitVec 36}

/-- An access of this device's own HBM that stays within its 128 GiB. -/
theorem exec_bar2Access_here {acc : Bar2} (hs : HostOn s) (here : s.host.bar2Dev = s.chain.devId)
    (fits : s.host.bar2Base * 2 ^ 30 + off.toNat + bar2Size acc ≤ hbmSize) :
    exec (.bar2Access off acc) s = .next (hbmWindow off.toNat (s.host.bar2Base * 2 ^ 30 + off.toNat) acc s) := by
  rw [exec_bar2Access_in_range fun h => absurd h.2 (Nat.not_lt.mpr fits), whenHost_of_on _ hs, if_pos here]

theorem hbmWindow_read {a n : Nat} (o : Nat) (h : 0x10000000 ≤ a) :
    hbmWindow o a (.read n) s = { s with sent := .readData n (leNat (memReadN hbmUnlisted s.hbm a n)) :: s.sent } :=
  if_neg (Nat.not_lt.mpr h)

theorem hbmWindow_write {a : Nat} (o : Nat) (bs : List Byte) (h : 0x10000000 ≤ a) :
    hbmWindow o a (.write bs) s = { s with hbm := memWriteN hbmUnlisted s.hbm a bs } := if_neg (Nat.not_lt.mpr h)

theorem hbmWindow_private_read {a n : Nat} (o : Nat) (h : a < 0x10000000) : hbmWindow o a (.read n) s =
    raise 342 0x01 (bits o 4 32) { s with sent := .readData n (2 ^ (8 * n) - 1) :: s.sent } := if_pos h

theorem hbmWindow_private_write {a : Nat} (o : Nat) (bs : List Byte) (h : a < 0x10000000) :
    hbmWindow o a (.write bs) s = raise 342 0x01 (bits o 4 32) s := if_pos h

end Window

/-- Settles O14: the base by its limits, an access by its place. -/
theorem hbmWindowHolds : Obligations.HbmWindow := by
  refine ⟨fun s v hs => ⟨fun base dev => ?_, fun bad => ?_⟩, fun s off hs here => ⟨fun n lo hi => ?_, fun bs form lo hi => ?_,
    fun n lo size => ?_, fun bs lo size => ?_⟩⟩
  · exact (whenHost_of_on _ hs).trans (congrArg _ (if_pos ⟨base, dev⟩))
  · refine (whenHost_of_on _ hs).trans (congrArg _ (if_neg ?_))
    rintro ⟨base, dev⟩
    rcases bad with far | absent
    · omega
    · cases absent.symm.trans dev
  · rw [exec_bar2Access_here hs here hi, hbmWindow_read _ lo]
  · refine ⟨_, (exec_bar2Access_here hs here hi).trans (congrArg _ (hbmWindow_write _ bs lo)), rfl, ?_, fun b out => ?_⟩
    · exact memReadN_memWriteN _ bs form.1
    · exact memRead_memWriteN_other _ b bs form.1 out
  · rw [exec_bar2Access_here hs here (by simp only [bar2Size, hbmSize]; omega), hbmWindow_private_read _ lo]
  · rw [exec_bar2Access_here hs here (by simp only [bar2Size, hbmSize]; omega), hbmWindow_private_write _ bs lo]

end Sys2Proof.Machine

/-! PROOFS. Queue groups (R95), pending bits (R94) and tail mirrors (R87). -/

namespace Sys2Proof.Machine

/-! ### Queue groups (R95) -/

section Groups
variable {s : State} {g : Nat} {r : GrpRun}

theorem grpEval_of_none (h : tblFind s.host.grpRun g = none) : grpEval g s = s := by
  simp only [grpEval, h]

/-- A notification tells the running count and ends it. -/
theorem grpNotify_of_run (h : tblFind s.host.grpRun g = some r) : grpNotify g s =
    raise (352 + g) 0x01 (min r.count (2 ^ 32 - 1)) { s with host := { s.host with grpRun := tblErase s.host.grpRun g } } := by
  simp only [grpNotify, tblGet, h, satU, Option.getD_some]

theorem grpEval_of_count (h : tblFind s.host.grpRun g = some r) (some_ : r.count ≠ 0) (full : grpCount s g ≤ r.count) :
    grpEval g s = grpNotify g s := by
  simp only [grpEval, h, if_neg some_, if_pos full]

theorem grpEval_of_time (h : tblFind s.host.grpRun g = some r) (some_ : r.count ≠ 0)
    (timed : grpTime s g ≠ 0 ∧ r.since + us (grpTime s g) ≤ s.clk.ns) : grpEval g s = grpNotify g s := by
  simp only [grpEval, h, if_neg some_, if_pos timed, ite_self]

/-- A write of EVT_GRP applies to the running count at once. -/
theorem evtGrpBody_of_count {v : Nat} (h : tblFind s.host.grpRun g = some r) (some_ : r.count ≠ 0)
    (full : max 1 (bits v 0 16) ≤ r.count) : evtGrpBody g v s = raise (352 + g) 0x01 (min r.count (2 ^ 32 - 1))
      { s with host := { s.host with grp := tblSet s.host.grp g v, grpRun := tblErase s.host.grpRun g } } := by
  have limit : grpCount { s with host := { s.host with grp := tblSet s.host.grp g v } } g = max 1 (bits v 0 16) := by
    rw [grpCount, grpReg, tblGet_tblSet_self]
  rw [evtGrpBody, grpEval_of_count (by exact h) some_ (limit.trans_le full)]
  exact grpNotify_of_run h

end Groups

/-! ### Pending bits (R94) -/

/-- A bit of a word of 32 bits laid at word `w`. -/
theorem getLsbD_word_at (v : W32) {w n : Nat} (hn : n < 512) :
    (v.setWidth 512 <<< (32 * w)).getLsbD n = (decide (n / 32 = w) && v.getLsbD (n % 32)) := by
  simp only [BitVec.getLsbD_shiftLeft, BitVec.getLsbD_setWidth, hn, decide_true, Bool.true_and]
  by_cases h : n / 32 = w
  · have below : ¬ n < 32 * w := by omega
    have place : n - 32 * w = n % 32 := by omega
    have inside : n % 32 < 512 := by omega
    simp [h, below, place, inside]
  · rw [decide_eq_false h, Bool.false_and]
    by_cases below : n < 32 * w
    · simp [below]
    · rw [BitVec.getLsbD_of_ge v _ (by omega), Bool.and_false, Bool.and_false]

theorem pendClear_getLsbD (w : Nat) (v : W32) (s : State) {n : Nat} (hn : n < 512) : (pendClear w v s).host.pend.getLsbD n =
    (s.host.pend.getLsbD n && !(decide (n / 32 = w) && v.getLsbD (n % 32))) := by
  simp only [pendClear, BitVec.getLsbD_and, BitVec.getLsbD_not, getLsbD_word_at v hn, hn, decide_true, Bool.true_and]

/-! ### Tail mirrors (R87) -/

section Mirrors
variable {s : State} {n : Nat} {r : Ring}

/-- A mirror is written at once where entries or a drop have not been shown. -/
theorem mirror_due (hm : mayRequest s = true) (due : r.uncovered ≠ 0 ∨ r.mirrorStale = true) :
    ¬ ((r.uncovered = 0 ∧ r.mirrorStale = false) ∨ mayRequest s = false) := by
  rintro (⟨none_, fresh⟩ | off)
  · rcases due with h | h
    · exact h none_
    · cases h.symm.trans fresh
  · cases hm.symm.trans off

theorem mirrorDq_of_due (hr : tblFind s.host.dqs n = some r) (hm : mayRequest s = true) (hh : s.chain.head = true)
    (due : r.uncovered ≠ 0 ∨ r.mirrorStale = true) : mirrorDq n s = grpAdd r.group r.uncovered { s with
      sent := .hostWrite r.mirror (leBytes 4 r.tail.toNat ++ leBytes 4 r.dropped) :: s.sent
      host := { s.host with dqs := tblSet s.host.dqs n { r with uncovered := 0, mirrorStale := false } } } := by
  simp only [mirrorDq, hr, if_neg (mirror_due hm due), hostWrite_head _ _ hh, mirrorBytes]

theorem mirrorSr_of_due (hr : tblFind s.host.srs n = some r) (hm : mayRequest s = true) (hh : s.chain.head = true)
    (due : r.uncovered ≠ 0 ∨ r.mirrorStale = true) : mirrorSr n s = grpAdd r.group r.uncovered { s with
      sent := .hostWrite r.mirror (leBytes 4 r.tail.toNat ++ leBytes 4 r.dropped) :: s.sent
      host := { s.host with srs := tblSet s.host.srs n { r with uncovered := 0, mirrorStale := false } } } := by
  simp only [mirrorSr, hr, if_neg (mirror_due hm due), hostWrite_head _ _ hh, mirrorBytes]

end Mirrors

/-- Settles O15: a group by its count or its time, a pending bit by its place, a mirror by its ring. -/
theorem groupsPendingMirrors : Obligations.GroupsPendingMirrors := by
  refine ⟨fun s g v hs none_ => ?_, fun s g v r hs run some_ full => ?_, fun s g r hr run some_ timed over_ => ?_,
    fun s w v hs => ⟨_, whenHost_of_on _ hs, rfl, fun n hn => pendClear_getLsbD w.val v s hn⟩,
    fun s n r hr ring hm hh due => ?_, fun s n r hr ring hm hh due => ?_⟩
  · exact (whenHost_of_on _ hs).trans (congrArg _ (grpEval_of_none none_))
  · exact (whenHost_of_on _ hs).trans (congrArg _ (evtGrpBody_of_count run some_ full))
  · refine (whenReady_of_ready _ hr).trans (congrArg _ ((grpEval_of_time run some_ ⟨timed, ?_⟩).trans (grpNotify_of_run run)))
    rwa [us, Nat.mul_comm]
  · exact (whenReady_of_ready _ hr).trans (congrArg _ (mirrorDq_of_due ring hm hh due))
  · exact (whenReady_of_ready _ hr).trans (congrArg _ (mirrorSr_of_due ring hm hh due))

end Sys2Proof.Machine

/-! PROOFS. Commands fetched from their queue (R88, R91, R105), and their interim completions (R117). -/

namespace Sys2Proof.Machine

section Fetch
variable {s : State} {q : Nat} {p : Pair}

/-- A packet read from a pair moves its fetch index on and is taken. -/
theorem fetchBody_packet {bs : List Byte} (hp : tblFind s.host.pairs q = some p) (may : mayFetch s q p = true)
    (len : bs.length = 64) : fetchBody q (.packet bs) s = takePacket q p.target bs
      { s with host := { s.host with pairs := tblSet s.host.pairs q { p with fetch := p.fetch + 1 } } } := by
  simp only [fetchBody, hp, may, Bool.not_true, Bool.false_eq_true, if_false, padTo_of_length len]

theorem fetchBody_failed (hp : tblFind s.host.pairs q = some p) (may : mayFetch s q p = true) :
    fetchBody q .failed s = raise 339 0x02 q { s with host := { s.host with
      pairs := tblSet s.host.pairs q { p with stopped := true }, q0Fault := s.host.q0Fault || decide (q = 0) } } := by
  simp only [fetchBody, hp, may, Bool.not_true, Bool.false_eq_true, if_false]

/-- A packet for this device by the checks of R105. -/
theorem takePacket_here {target : Nat} (bs : List Byte) (own : target = s.chain.devId) :
    let c : Cmd := { cid := s.cmds.nextId, sq := q, tag := pkTag bs, packet := bs }
    takePacket q target bs s =
      if opcodeAccepted s.boot.source (pkOp bs) = false then finishCheck c stBadOpcode (addCmd c s)
      else if packetOk bs = true then addCmd c s else finishCheck c stBadParam (addCmd c s) := by
  simp only [takePacket, decide_eq_true own, if_true, Bool.not_eq_true']

end Fetch

section Interim
variable {s : State} {q : Nat} {tag : W32} {c : Cmd}

theorem interimBody_of_here (h : interimOf s q tag = some c) (here : c.origin = .here) : interimBody q tag s =
    if interimRoom s q = true then writeCqe q tag stInProgress (percentOf c) 0 c.position true
      (putCmd { c with moved := false, interimNs := some s.clk.ns } s)
    else putCmd { c with moved := false } s := by
  simp only [interimBody, h, here]

end Interim

/-- Settles O12: a fetch by what it reads and the checks of the packet, an interim completion by the room for it. -/
theorem fetchAndInterim : Obligations.FetchAndInterim := by
  refine ⟨fun s q p bs hr hp may len own => ?_, fun s q p hr hp may => ?_,
    fun s q tag c hr due here => ⟨fun room => ?_, fun full => ?_⟩⟩
  · have taken := (whenReady_of_ready (fetchBody q.val (.packet bs)) hr).trans (congrArg _ ((fetchBody_packet hp may len).trans
      (takePacket_here bs own)))
    refine ⟨fun known sound => taken.trans (congrArg _ ?_), fun unknown => taken.trans (congrArg _ ?_),
      fun known bad => taken.trans (congrArg _ ?_)⟩
    · rw [if_neg (by simp [known]), if_pos sound]
      rfl
    · rw [if_pos unknown]
      rfl
    · rw [if_neg (by simp [known]), if_neg (by simp [bad])]
      rfl
  · exact (whenReady_of_ready _ hr).trans (congrArg _ (fetchBody_failed hp may))
  · exact (whenReady_of_ready _ hr).trans (congrArg _ ((interimBody_of_here due here).trans (if_pos room)))
  · exact (whenReady_of_ready _ hr).trans (congrArg _ ((interimBody_of_here due here).trans (if_neg (by simp [full]))))

end Sys2Proof.Machine

/-! PROOFS. Rings made and dropped: QUEUE_CREATE and QUEUE_DELETE (R80 to R84), and command pair 0 through GLB_Q0_CTRL (R82). -/

namespace Sys2Proof.Machine

/-! ### GLB_Q0_CTRL as PAIR0_CREATE and PAIR0_DELETE write it -/

theorem setBitN_ten (v : Nat) (b : Bool) : setBitN v 10 b = v / 2048 * 2048 + 1024 * b.toNat + v % 1024 := by
  have bit : v.testBit 10 = decide (v / 1024 % 2 = 1) := Nat.testBit_eq_decide_div_mod_eq
  unfold setBitN
  cases b <;> by_cases h : v / 1024 % 2 = 1 <;> simp [bit, h] <;> omega

/-- ENABLE, bit 10, is as written; the sizes and the group are as they were. -/
theorem q0Ctrl_fields (v : Nat) (b : Bool) : bitOf (setBitN v 10 b) 10 = b ∧ bits (setBitN v 10 b) 0 5 = bits v 0 5
    ∧ bits (setBitN v 10 b) 5 5 = bits v 5 5 ∧ bits (setBitN v 10 b) 16 8 = bits v 16 8 := by
  have hb : b.toNat ≤ 1 := b.toNat_le
  refine ⟨?_, ?_, ?_, ?_⟩
  · rw [bitOf, Nat.testBit_eq_decide_div_mod_eq, setBitN_ten]
    cases b <;> simp <;> omega
  all_goals
    rw [setBitN_ten]
    simp only [bits]
    omega

/-! ### Settling after pair 0 is deleted -/

section Settle
variable {s : State}

theorem drainedPair_of_none_draining (h : ∀ x ∈ s.host.pairs, x.2.draining = false) : drainedPair s = none :=
  List.find?_eq_none.mpr fun x hx => by simp [h x hx]

theorem settlePairs_of_none {n : Nat} (h : drainedPair s = none) : settlePairs n s = s := by
  cases n with
  | zero => rfl
  | succ n => simp only [settlePairs, h]

/-- A drained pair goes first, with the completion of the QUEUE_DELETE that waited for it. -/
theorem settlePairs_of_some {n q : Nat} {p : Pair} (h : drainedPair s = some (q, p)) :
    ∃ t, settlePairs (n + 1) s = settlePairs n t ∧ PairsServed (removePair q s) t ∧ BookOnly s t := by
  simp only [settlePairs, h]
  split
  · exact ⟨_, rfl, finishOnly_pairsServed _ _ _ _ _ _, (removePair_book q s).trans (finishOnly_book _ _ _ _ _ _)⟩
  · exact ⟨_, rfl, .of_same rfl, removePair_book q s⟩

theorem tblFind_eq_none_of_not_mem {q : Nat} (h : q ∉ pairNumbers s) : tblFind s.host.pairs q = none := by
  cases hf : tblFind s.host.pairs q with
  | none => rfl
  | some p => exact absurd (mem_pairNumbers.mpr (List.mem_map.mpr ⟨(q, p), mem_of_tblFind hf, rfl⟩)) h

/-- The state in which pair 0 begins to drain. -/
def pair0Draining (p : Pair) (s : State) : State := { s with host := { s.host with
  q0Enable := false, q0Draining := true, pairs := tblSet s.host.pairs 0 { p with draining := true } } }

variable {p : Pair} (quiet : ∀ x ∈ s.host.pairs, x.2.draining = false)
include quiet

/-- Where no other pair drains, pair 0 alone does. -/
theorem zero_of_draining {x : Nat × Pair} (hx : x ∈ (pair0Draining p s).host.pairs) (hd : x.2.draining = true) :
    x.1 = 0 := by
  obtain rfl | old := mem_tblSet hx
  · rfl
  · cases (quiet x old).symm.trans hd

theorem drainedPair_pair0_held (h : outstanding s 0 ≠ 0) : drainedPair (pair0Draining p s) = none := by
  refine List.find?_eq_none.mpr fun x hx => ?_
  cases hd : x.2.draining with
  | false => simp
  | true =>
    have zero : x.1 = 0 := zero_of_draining quiet hx hd
    have same : outstanding (pair0Draining p s) 0 = outstanding s 0 := rfl
    simp [zero, same, h]

theorem drainedPair_pair0_empty (h : outstanding s 0 = 0) : ∃ x, drainedPair (pair0Draining p s) = some (0, x) := by
  have mem : (0, { p with draining := true }) ∈ (pair0Draining p s).host.pairs := mem_of_tblFind (tblFind_tblSet_self _ _ _)
  cases found : drainedPair (pair0Draining p s) with
  | none =>
    have now : outstanding (pair0Draining p s) 0 = 0 := h
    exact absurd (decide_eq_true now) (List.find?_eq_none.mp found _ mem)
  | some x =>
    have drains : x.2.draining = true := (Bool.and_eq_true _ _ ▸ List.find?_some found : _ ∧ _).1
    have zero : x.1 = 0 := zero_of_draining quiet (List.mem_of_find?_eq_some found) drains
    exact ⟨x.2, by rw [← zero]⟩

/-- Pair 0 without a command goes at once. -/
theorem settlePairs_pair0_empty {n : Nat} (h : outstanding s 0 = 0) : let t := settlePairs (n + 1) (pair0Draining p s)
    t.host.q0Enable = false ∧ t.host.q0Draining = false ∧ tblFind t.host.pairs 0 = none := by
  obtain ⟨x, drained⟩ := drainedPair_pair0_empty (p := p) quiet h
  obtain ⟨t, settled, served, book⟩ := settlePairs_of_some (n := n) drained
  have removed := pairState_removePair 0 (pair0Draining p s)
  have left : (removePair 0 (pair0Draining p s)).host.pairs = tblErase (pair0Draining p s).host.pairs 0 :=
    congrArg Prod.fst removed
  have rest : ∀ y ∈ (removePair 0 (pair0Draining p s)).host.pairs, y.2.draining = false := by
    intro y hy
    rw [left] at hy
    obtain ⟨old, other⟩ := mem_tblErase.mp hy
    exact Bool.eq_false_iff.mpr fun hd => other (zero_of_draining quiet old hd)
  rw [settled, settlePairs_of_none (drainedPair_of_none_draining (served.none_draining rest))]
  refine ⟨by rw [book]; rfl, served.1.trans (congrArg Prod.snd removed), tblFind_eq_none_of_not_mem fun mem => ?_⟩
  have kept := served.numbers mem
  rw [removePair_numbers] at kept
  exact Finset.notMem_erase _ _ kept

end Settle

section Rows
variable {s : State} {sq : Fin 1024} {tag : W32} {c : Cmd}

/-- The state in which the pair that a QUEUE_DELETE names begins to drain. -/
theorem queueDeleteStart_of_pair {p : Pair} (kind : u8At c.packet 0x18 = 0)
    (hp : tblFind s.host.pairs (u32At c.packet 0x1C) = some p) (idle : p.draining = false)
    (other : u32At c.packet 0x1C ≠ c.sq ∨ c.origin = .head) : queueDeleteStart c s =
      settlePairs ((tblSet s.host.pairs (u32At c.packet 0x1C) { p with draining := true }).length + 1) { s with
        cmds := { s.cmds with flight := cmdReplace { c with started := true, startNs := s.clk.ns } s.cmds.flight }
        host := { s.host with pairs := tblSet s.host.pairs (u32At c.packet 0x1C) { p with draining := true } } } := by
  have notOwn : ¬ (decide (u32At c.packet 0x1C = c.sq) && decide (c.origin = .here)) = true := by
    rcases other with h | h <;> simp [h]
  simp only [queueDeleteStart, pm8, pm32, if_pos kind, hp, idle, Bool.false_eq_true, if_false]
  exact if_neg notOwn

theorem queueDeleteStart_of_ring (kind : u8At c.packet 0x18 ≠ 0) : queueDeleteStart c s =
    if ringExists s (u8At c.packet 0x18) (u32At c.packet 0x1C) = true then
      finish c stOk 100 0 0 (dropRing (u8At c.packet 0x18) (u32At c.packet 0x1C) s)
    else finish c stBadParam 0 0 0 s := by
  unfold queueDeleteStart
  exact if_neg kind

theorem queueCreateStart_eq : queueCreateStart c s =
    if ringExists s (u8At c.packet 0x18) (u32At c.packet 0x1C) = true then finish c stBusy 0 0 0 s
    else if u8At c.packet 0x18 = 0 ∧ s.chain.head = false then finish c stBadParam 0 0 0 s
    else finish c stOk 100 0 0 (makeRing c.packet s) := rfl

end Rows

section Pair0
variable {s : State}

theorem q0CtrlWrite_create {v : Nat} (off : s.host.q0Enable = false) (on : bitOf v 10 = true) (ok : q0Refused s v = false) :
    q0CtrlWrite v s = pair0Make (q0Fields v (q0ClearFault v s)) := by
  simp only [q0CtrlWrite, off, on, ok, Bool.false_eq_true, if_false, if_true]

theorem q0CtrlWrite_delete {v : Nat} {p : Pair} (on : s.host.q0Enable = true) (off : bitOf v 10 = false)
    (hp : tblFind s.host.pairs 0 = some p) : q0CtrlWrite v s =
      settlePairs ((tblSet s.host.pairs 0 { p with draining := true }).length + 1) (pair0Draining p (q0ClearFault v s)) := by
  have found : tblFind (q0ClearFault v s).host.pairs 0 = some p := hp
  simp only [q0CtrlWrite, on, off, Bool.false_eq_true, if_false, if_true, pair0Drop, found]
  rfl

end Pair0

/-- Settles O10: a ring by whether it exists and its kind; pair 0 by its registers and by the commands that it holds. -/
theorem queueCreateDelete : Obligations.QueueCreateDelete := by
  refine ⟨fun s sq tag c hc => ?_, fun s sq tag c hc => ?_, fun s v hs head off idle sqBase cqBase lo1 hi1 lo2 hi2 group => ?_,
    fun s v p hs on hp quiet => ?_⟩
  · have run : exec (.queueCreate sq tag) s = .next (queueCreateStart c s) := opcodeRow_of_starts _ _ hc
    rw [run, queueCreateStart_eq]
    refine ⟨fun new place => ?_, fun new pair chained => ?_, fun old => ?_⟩
    · rw [if_neg (by simp [new]), if_neg fun h => ?_]
      rcases place with ring | head
      · exact ring h.1
      · cases head.symm.trans h.2
    · rw [if_neg (by simp [new]), if_pos ⟨pair, chained⟩]
    · rw [if_pos old]
  · have run : exec (.queueDelete sq tag) s = .next (queueDeleteStart c s) := opcodeRow_of_starts _ _ hc
    rw [run]
    refine ⟨fun ring old => ?_, fun ring new => ?_, fun p pair hp idle other => ?_⟩
    · rw [queueDeleteStart_of_ring ring, if_pos old]
    · rw [queueDeleteStart_of_ring ring, if_neg (by simp [new])]
    · rw [queueDeleteStart_of_pair pair hp idle other]
  · obtain ⟨enable, sqSize, cqSize, grp⟩ := q0Ctrl_fields v.toNat true
    have ok : q0Refused s (setBitN v.toNat 10 true) = false := by
      simp only [q0Refused, head, sqSize, cqSize, grp, idle, sqBase, cqBase, Bool.or_eq_false_iff, decide_eq_false_iff_not]
      refine ⟨⟨⟨⟨⟨rfl, by simp⟩, by omega⟩, by omega⟩, by omega⟩, trivial⟩
    refine ⟨_, (whenHost_of_on _ hs).trans (congrArg _ (q0CtrlWrite_create off enable ok)), rfl, ?_, rfl, rfl, rfl, rfl⟩
    simp only [pair0Make, q0Fields, q0ClearFault, tblFind_tblSet_self, sqSize, cqSize, grp]
  · obtain ⟨disable, -⟩ := q0Ctrl_fields v.toNat false
    refine ⟨_, (whenHost_of_on _ hs).trans (congrArg _ (q0CtrlWrite_delete on disable hp)), ?_⟩
    have still : ∀ x ∈ (q0ClearFault (setBitN v.toNat 10 false) s).host.pairs, x.2.draining = false := quiet
    have same : outstanding (q0ClearFault (setBitN v.toNat 10 false) s) 0 = outstanding s 0 := rfl
    by_cases held : outstanding s 0 = 0
    · obtain ⟨enable, draining, gone⟩ := settlePairs_pair0_empty (p := p) still (same.trans held)
      exact ⟨enable, draining.trans (by simp [held]), gone.trans (if_pos held).symm⟩
    · rw [settlePairs_of_none (drainedPair_pair0_held still (same ▸ held))]
      exact ⟨rfl, (decide_eq_true held).symm, (tblFind_tblSet_self _ _ _).trans (if_neg held).symm⟩

end Sys2Proof.Machine


/-! PROOFS. What a raise at the head does to the rings, to PEND and to the vectors, and the final completion of ECHO. -/

namespace Sys2Proof.Machine

section Raising
variable {s : State}

theorem evtRingWrite_none {e n cause detail : Nat} (h : tblFind s.host.evts e = none) : evtRingWrite e n cause detail s = s := by
  simp only [evtRingWrite, h]

/-- A ring with room takes the entry at its tail (R93). -/
theorem evtRingWrite_room {e n cause detail : Nat} {g : EvtRing} (head : s.chain.head = true) (may : mayRequest s = true)
    (hg : tblFind s.host.evts e = some g) (room : (g.tail - g.head).toNat < 2 ^ g.log2) : evtRingWrite e n cause detail s =
      { s with
        host := { s.host with evts := tblSet s.host.evts e { g with tail := g.tail + 1, lost := false } }
        sent := .hostWrite (entryAddr g.base g.tail g.log2 16) (evtEntry s n cause detail g.lost (phaseBit g.tail g.log2)) :: s.sent } := by
  simp only [evtRingWrite, hg, room, may, head, true_or, decide_true, Bool.and_self, if_true, hostWrite_head _ _ head]

/-- A full ring counts the entry as lost (R93). -/
theorem evtRingWrite_full {e n cause detail : Nat} {g : EvtRing} (hg : tblFind s.host.evts e = some g)
    (full : 2 ^ g.log2 ≤ (g.tail - g.head).toNat) : evtRingWrite e n cause detail s =
      { s with host := { s.host with
          evts := tblSet s.host.evts e { g with lost := true }
          ringLost := tblUpd 0 s.host.ringLost e fun v => satAdd 16 v 1 } } := by
  simp only [evtRingWrite, hg, decide_eq_false (Nat.not_lt.mpr full), Bool.false_and, Bool.false_eq_true, if_false]

/-- The ring part of a raise. -/
def ringPart (n cause detail : Nat) (s : State) : State :=
  if bitOf (routeOf s n) 16 then evtRingWrite (bits (routeOf s n) 10 6) n cause detail s else s

/-- The ring part changes event rings and the log of what is sent. -/
theorem ringPart_frame {n cause detail : Nat} (head : s.chain.head = true) (may : mayRequest s = true) :
    ∃ rings lost log, ringPart n cause detail s = { s with host := { s.host with evts := rings, ringLost := lost }, sent := log } := by
  unfold ringPart
  split
  · cases hg : tblFind s.host.evts (bits (routeOf s n) 10 6) with
    | none => exact ⟨_, _, _, evtRingWrite_none hg⟩
    | some g =>
      rcases Nat.lt_or_ge (g.tail - g.head).toNat (2 ^ g.log2) with room | full
      · exact ⟨_, _, _, evtRingWrite_room head may hg room⟩
      · exact ⟨_, _, _, evtRingWrite_full hg full⟩
  · exact ⟨_, _, _, rfl⟩

/-- The message of a vector at a head whose requests may go out: held while it is masked. -/
theorem msixSend_head {v : Nat} (head : s.chain.head = true) (may : mayRequest s = true) (hv : v < 512) : msixSend v s =
    let e := tblGet {} s.host.msix v
    { s with
      host := { s.host with pba := if e.masked then s.host.pba ||| BitVec.ofNat 512 (2 ^ v) else s.host.pba }
      sent := (if e.masked then [] else [.msix v e.addr e.data]) ++ s.sent } := by
  simp only [msixSend, head, may, Nat.mod_eq_of_lt hv, if_true, Bool.not_true, Bool.or_false]
  split <;> rfl

/-- Does a raise of source `n` send its message (R93, R94)? -/
def sends (met : Bool) (n : Nat) (s : State) : Bool := bitOf (routeOf s n) 9 && (!pendBit s n || met)

/-- After its ring part a raise sets PEND and sends its message or holds it. -/
theorem raiseCore_head {met : Bool} {n cause detail : Nat} (head : s.chain.head = true) (may : mayRequest s = true) :
    let v := bits (routeOf s n) 0 9
    let e := tblGet {} s.host.msix v
    let u := ringPart n cause detail s
    raiseCore met n cause detail s = { u with
      host := { u.host with
        pend := s.host.pend ||| BitVec.ofNat 512 (2 ^ n)
        pba := if sends met n s && e.masked then s.host.pba ||| BitVec.ofNat 512 (2 ^ v) else s.host.pba }
      sent := (if sends met n s && !e.masked then [.msix v e.addr e.data] else []) ++ u.sent } := by
  intro v e u
  obtain ⟨rings, lost, log, ring⟩ := ringPart_frame (n := n) (cause := cause) (detail := detail) head may
  have same : pendBit u n = pendBit s n := by simp only [u, ring, pendBit]
  have eq : raiseCore met n cause detail s = if sends met n s then msixSend v (setPend n u) else setPend n u := by
    rw [sends, ← same]
    rfl
  rw [eq]
  by_cases msg : sends met n s = true
  · have head' : (setPend n u).chain.head = true := by simp only [setPend, u, ring, head]
    have may' : mayRequest (setPend n u) = true := by
      simp only [u, ring]
      exact may
    have vlt : v < 512 := Nat.mod_lt _ (by decide)
    rw [if_pos msg, msixSend_head head' may' vlt]
    simp only [u, ring, setPend, msg, Bool.true_and, e]
    cases (tblGet {} s.host.msix v).masked <;> rfl
  · rw [if_neg msg]
    simp only [u, ring, setPend, Bool.eq_false_iff.mpr msg, Bool.false_and, Bool.false_eq_true, if_false, List.nil_append]

end Raising

theorem getLsbD_twoPow_512 {m n : Nat} (hn : n < 512) : (BitVec.ofNat 512 (2 ^ n)).getLsbD m = decide (m = n) := by
  rw [BitVec.getLsbD_ofNat, Nat.testBit_two_pow]
  by_cases h : n = m
  · simp [h, h ▸ hn]
  · simp [h, Ne.symm h]

/-- Settles O59, by the ring part of the raise and the message after it. -/
theorem raiseRunsItsCode : Obligations.RaiseRunsItsCode := by
  intro s met n cause detail hn head may r t msg v out
  have run := raiseCore_head (met := met) (n := n) (cause := cause) (detail := detail) head may
  obtain ⟨rings, lost, log, ring⟩ := ringPart_frame (n := n) (cause := cause) (detail := detail) head may
  refine ⟨fun g on hg => ⟨fun room => ?_, fun full => ?_⟩, fun none => ?_, fun m => ?_, fun m => ?_, ?_⟩
  · have part : ringPart n cause detail s = _ := (if_pos on).trans (evtRingWrite_room head may hg room)
    rw [part] at run
    exact ⟨congrArg (·.sent) run, congrArg (·.host.evts) run, congrArg (·.host.ringLost) run⟩
  · have part : ringPart n cause detail s = _ := (if_pos on).trans (evtRingWrite_full hg full)
    rw [part] at run
    refine ⟨congrArg (·.sent) run, congrArg (·.host.evts) run, (congrArg (tblGet 0 ·.host.ringLost _) run).trans ?_⟩
    exact (tblGet_tblUpd_self 0 s.host.ringLost _ (satAdd 16 · 1)).trans (Nat.min_comm _ _)
  · have part : ringPart n cause detail s = s := by
      unfold ringPart
      split
      next on => exact evtRingWrite_none (none.resolve_left (by simp [r, on]))
      next => rfl
    rw [part] at run
    exact ⟨congrArg (·.sent) run, congrArg (·.host.evts) run, congrArg (·.host.ringLost) run⟩
  · simp only [t, pendBit, run, BitVec.getLsbD_or, getLsbD_twoPow_512 hn]
  · have vlt : bits (routeOf s n) 0 9 < 512 := Nat.mod_lt _ (by decide)
    simp only [t, run]
    change BitVec.getLsbD (if (msg && v.masked) = true then _ else _) m = _
    cases msg && v.masked
    · simp
    · rw [if_pos rfl, BitVec.getLsbD_or, getLsbD_twoPow_512 vlt, Bool.true_and]
  · simp only [t, run, ring, and_self]

/-! ### The final completion of ECHO -/

section Completing
variable {s : State}

/-- The command of an opcode row has the row's SQ, tag and opcode. -/
theorem cmdIs_of_rowCmd {sq op : Nat} {tag : W32} {c : Cmd} (h : rowCmd s sq tag op = some c) : cmdIs sq tag op c = true := by
  have mem : c ∈ s.cmds.flight.filter (cmdIs sq tag op) := by
    unfold rowCmd at h
    cases starting : (s.cmds.flight.filter (cmdIs sq tag op)).find? fun c => !c.started && mayStart s c with
    | none => exact List.mem_of_find?_eq_some (by simpa only [starting, Option.orElse_none] using h)
    | some d =>
      obtain rfl : d = c := by simpa only [starting, Option.orElse_some, Option.some.injEq] using h
      exact List.mem_of_find?_eq_some starting
  exact (List.mem_filter.mp mem).2

theorem sq_tag_of_starts {sq : Fin 1024} {tag : W32} {op : Nat} {c : Cmd} (h : Starts s sq tag op c) :
    c.sq = sq.val ∧ c.tag = tag := by
  obtain ⟨⟨-, row, -⟩, -⟩ := h
  have is := cmdIs_of_rowCmd row
  simp only [cmdIs, Bool.and_eq_true, decide_eq_true_eq] at is
  obtain ⟨⟨⟨hsq, htag⟩, -⟩, -⟩ := is
  exact ⟨hsq, htag⟩

/-- A completion at a head, in the CQ of a pair without a group: one entry at the tail. -/
theorem writeCqe_head {sq status percent result position : Nat} {tag : W32} {interim : Bool} {p : Pair}
    (head : s.chain.head = true) (hp : tblFind s.host.pairs sq = some p) (single : p.group = none) :
    writeCqe sq tag status percent result position interim s = { s with
      host := { s.host with pairs := tblSet s.host.pairs sq { p with cqTail := p.cqTail + 1 } }
      sent := .hostWrite (entryAddr p.cqBase p.cqTail p.cqLog2 32)
        (completionBytes tag status percent (phaseBit p.cqTail p.cqLog2 + 2 * b2n interim) result position p.fetch.toNat) :: s.sent } := by
  simp only [writeCqe, hp, hostWrite_head _ _ head, single, grpAdd]

/-- The completed pairs of SQ and tag with one more. -/
def completedWith (known : List (Nat × W32)) (x : Nat × W32) : List (Nat × W32) := if known.contains x then known else x :: known

theorem mem_completedWith (known : List (Nat × W32)) (x : Nat × W32) : (completedWith known x).contains x = true := by
  unfold completedWith
  split
  · assumption
  · simp

/-- A final completion of a command of this device that holds no slot, while completions may be written. -/
theorem finishOnly_here {c : Cmd} {status percent result position : Nat} (here : c.origin = .here) (slot : c.slot = none)
    (paused : s.cmds.paused = []) (may : mayRequest s = true) : finishOnly c status percent result position s =
      writeCqe c.sq c.tag status percent result position false { s with cmds := { s.cmds with
        flight := cmdRemove c s.cmds.flight, finished := completedWith s.cmds.finished (c.sq, c.tag) } } := by
  have now : mayComplete .here s = true := by simp [mayComplete, paused, may]
  simp only [finishOnly, slotDone, slot, here, cplWrite]
  exact if_pos now

end Completing

/-- Settles O60: the completion is one entry at the tail of the CQ, and no pair drains after it. -/
theorem finalCompletionWritten : Obligations.FinalCompletionWritten := by
  intro s sq tag c p hc here slot head may hp single quiet
  obtain ⟨⟨-, -, paused, -⟩, -, -⟩ := id hc
  obtain ⟨hsq, htag⟩ := sq_tag_of_starts hc
  have run : exec (.echo sq tag) s = .next (finish c stOk 100 (pm64 c.packet 0x18) 0 s) := opcodeRow_of_starts _ _ hc
  have pair : tblFind s.host.pairs c.sq = some p := hsq ▸ hp
  have one := (finishOnly_here (status := stOk) (percent := 100) (result := pm64 c.packet 0x18) (position := 0)
    here slot paused may).trans (writeCqe_head head pair single)
  have still : ∀ x ∈ (finishOnly c stOk 100 (pm64 c.packet 0x18) 0 s).host.pairs, x.2.draining = false := by
    intro x hx
    rw [one] at hx
    have idle : ∀ y ∈ s.host.pairs, y.2.draining = false := fun y hy => by simpa using List.all_eq_true.mp quiet y hy
    obtain rfl | old := mem_tblSet hx
    · exact idle (c.sq, p) (mem_of_tblFind pair)
    · exact idle _ old
  refine ⟨_, run.trans (congrArg _ (settlePairs_of_none (drainedPair_of_none_draining still))), ?_⟩
  rw [one, hsq, htag]
  exact ⟨rfl, rfl, rfl, mem_completedWith _ _, rfl, rfl, rfl, rfl, rfl, rfl⟩

end Sys2Proof.Machine


/-! PROOFS. Tender restarts (R19, R20): what a restart stops and holds, and what its end lets go on. -/

namespace Sys2Proof.Machine

section Stop
variable {s : State}

theorem standing_clk_stopStage {c : Cmd} (s : State) : (standing (stopStage c s)).1 = (standing s).1 := by
  rw [stopStage]
  split <;> simp

/-- The stop of a command takes no time, whichever command it is. -/
theorem clk_stopEffect (c : Cmd) (s : State) : (stopEffect c s).clk = s.clk := by
  change (standing (stopEffect c s)).1 = (standing s).1
  simp only [stopEffect]
  repeat' split
  all_goals simp [standing_clk_stopStage]

theorem clk_stopBist (s : State) : (stopBist s).clk = s.clk := clk_of_standing (standing_stopBist s)

/-- The commands that a restart of tender `t` stops: the running ones that are its own. -/
def tenderCommands (t : Nat) (s : State) : List Cmd :=
  s.cmds.flight.filter fun c => c.started && c.sentTo.isNone && decide (opTender (pkOp c.packet) = t) && decide (some c.cid ≠ none)
    && !decide (pkOp c.packet = 0x00C2 ∧ c.aux = 2)

/-- A stopped command leaves the flight and is held for its completion. -/
def holdStopped (s : State) (c : Cmd) : State :=
  let s0 := stopEffect c s
  { s0 with cmds := { s0.cmds with
    flight := cmdRemove c s0.cmds.flight
    abortedHeld := s0.cmds.abortedHeld ++ [{ c with position := stopPosition s c }] } }

/-- Tender `t` pauses. -/
def pauseTender (t : Nat) (s : State) : State :=
  { s with cmds := { s.cmds with paused := if s.cmds.paused.contains t then s.cmds.paused else s.cmds.paused ++ [t] } }

/-- The commands of tender `t` stopped, and with T0 the self-test. -/
def stopTender (t : Nat) (s : State) : State :=
  if t = 0 then stopBist ((tenderCommands t s).foldl holdStopped s) else (tenderCommands t s).foldl holdStopped s

theorem tenderStop_eq (t cause : Nat) (s : State) : tenderStop t cause none s =
    raise (335 + t) cause (tenderCommands t s).length (countLife 23 (pauseTender t (stopTender t s))) := rfl

theorem mem_paused_pauseTender (t : Nat) (s : State) : (pauseTender t s).cmds.paused.contains t = true := by
  simp only [pauseTender]
  split
  · assumption
  · simp

theorem clk_tenderStop (t cause : Nat) (s : State) : (tenderStop t cause none s).clk = s.clk := by
  have held : ((tenderCommands t s).foldl holdStopped s).clk = s.clk :=
    foldl_keeps (g := State.clk) (f := holdStopped) (fun u c => clk_stopEffect c u) _ s
  rw [tenderStop_eq]
  refine (clk_of_standing (standing_raise _)).trans ?_
  change (stopTender t s).clk = s.clk
  unfold stopTender
  split
  · exact (clk_stopBist _).trans held
  · exact held

theorem paused_tenderStop (t cause : Nat) (s : State) : (tenderStop t cause none s).cmds.paused.contains t = true := by
  rw [tenderStop_eq, raise_cmds]
  exact mem_paused_pauseTender t _

/-- An NVM_READ leaves nothing in force. -/
theorem stopEffect_nvmRead {c : Cmd} (h : pkOp c.packet = 0x00B0) : stopEffect c s = s := by
  simp only [stopEffect, h]

theorem stopBist_of_none (h : s.bist.run = none) : stopBist s = s := by simp only [stopBist, h]

theorem pauseTender_of_new {t : Nat} (h : s.cmds.paused.contains t = false) :
    pauseTender t s = { s with cmds := { s.cmds with paused := s.cmds.paused ++ [t] } } := by
  simp only [pauseTender, h, Bool.false_eq_true, if_false]

/-- With nothing in flight and no self-test a restart stops nothing. -/
theorem tenderStop_idle {t cause : Nat} (flight : s.cmds.flight = []) (bist : s.bist.run = none)
    (new : s.cmds.paused.contains t = false) : tenderStop t cause none s =
      raise (335 + t) cause 0 (countLife 23 { s with cmds := { s.cmds with paused := s.cmds.paused ++ [t] } }) := by
  have commands : tenderCommands t s = [] := by rw [tenderCommands, flight]; rfl
  have still : stopTender t s = s := by rw [stopTender, commands, List.foldl_nil, stopBist_of_none bist, ite_self]
  rw [tenderStop_eq, commands, still, pauseTender_of_new new]
  rfl

/-- A running NVM_READ, alone in flight, is held by the restart of T3. -/
theorem tenderStop_nvmRead {cause : Nat} {c : Cmd} (flight : s.cmds.flight = [c]) (started : c.started = true)
    (here : c.sentTo = none) (op : pkOp c.packet = 0x00B0) (new : s.cmds.paused.contains 3 = false) :
    tenderStop 3 cause none s = raise (335 + 3) cause 1 (countLife 23 { s with cmds := { s.cmds with
      flight := [], abortedHeld := s.cmds.abortedHeld ++ [{ c with position := stopPosition s c }]
      paused := s.cmds.paused ++ [3] } }) := by
  have commands : tenderCommands 3 s = [c] := by
    rw [tenderCommands, flight]
    simp [started, here, op, opTender]
  have gone : cmdRemove c s.cmds.flight = [] := by simp [flight, cmdRemove, sameCmd]
  have held : stopTender 3 s = { s with cmds := { s.cmds with
      flight := [], abortedHeld := s.cmds.abortedHeld ++ [{ c with position := stopPosition s c }] } } := by
    rw [stopTender, commands, if_neg (by decide), List.foldl_cons, List.foldl_nil]
    simp only [holdStopped, stopEffect_nvmRead op, gone]
  have kept : (stopTender 3 s).cmds.paused.contains 3 = false := by rwa [held]
  rw [tenderStop_eq, commands, pauseTender_of_new kept, held]
  rfl

/-- An opcode row has no effect while a tender restarts (R19). -/
theorem opcodeRow_of_paused {sq : Fin 1024} {tag : W32} {op : Nat} {start cont : Cmd → State → State} (hs : Ready s)
    (paused : s.cmds.paused ≠ []) : opcodeRow sq tag op start cont s = .next s := by
  refine (whenReady_of_ready _ hs).trans (congrArg _ ?_)
  unfold runCmd
  split
  · rfl
  · exact if_pos (by simpa using paused)

end Stop

section End
variable {s : State} {t : Nat}

theorem tenderEnd_of_idle (h : s.cmds.paused.contains t = false) : tenderEnd t s = s := by
  simp only [tenderEnd, h, Bool.not_false, if_true]

theorem tenderEnd_of_restarting (h : s.cmds.paused.contains t = true) : tenderEnd t s =
    let s1 := { s with cmds := { s.cmds with paused := s.cmds.paused.erase t } }
    let s2 := if (s.cmds.paused.erase t).isEmpty then activateEnds (nvmPump (waitingWrite (heldComplete s1))) else nvmPump s1
    if t = 2 then calResumes s2 else s2 := by
  simp only [tenderEnd, h, Bool.not_true, Bool.false_eq_true, if_false]

end End

/-- Settles O58: the watchdog by what it stops, and the end by whether other tenders still restart. -/
theorem tenderRestartsAbort : Obligations.TenderRestartsAbort := by
  intro s t hs
  have stops : exec (.tenderWatchdog t) s = .next (tenderStop t.val 0x02 none s) := whenReady_of_ready _ hs
  have ends : exec (.tenderRestartEnd t) s = .next (tenderEnd t.val s) := whenReady_of_ready _ hs
  refine ⟨⟨_, stops, paused_tenderStop _ _ s, pendBit_raise_self (by omega) _ _ _, clk_tenderStop _ _ s⟩,
    fun flight bist new => ?_, fun c flight started here op three new => ?_, fun paused sq tag => ?_, ?_, fun off => ?_⟩
  · rw [stops, tenderStop_idle flight bist new]
  · rw [three] at new
    rw [stops, three, tenderStop_nvmRead flight started here op new]
  · exact ⟨opcodeRow_of_paused hs paused, opcodeRow_of_paused hs paused, opcodeRow_of_paused hs paused,
      opcodeRow_of_paused hs paused⟩
  · intro resumes s1 on
    rw [ends, tenderEnd_of_restarting on]
    refine ⟨fun others => ?_, fun last => ?_⟩
    · have more : (s.cmds.paused.erase t.val).isEmpty = false := by simpa using others
      simp only [more, Bool.false_eq_true, if_false]
      rfl
    · have empty : (s.cmds.paused.erase t.val).isEmpty = true := by simp [last]
      simp only [empty, if_true]
      rfl
  · rw [ends, tenderEnd_of_idle off]

end Sys2Proof.Machine


/-! PROOFS. Where the registers of type RC and the writable ones lie: at an offset that holds a register (Table 0.4). -/

namespace Sys2Proof.Machine

/-! ### A register of type RC or a writable one is there -/

section Present
variable {s : State}

@[simp] theorem r32_isSome (v : Nat) : (r32 v).isSome = true := rfl

theorem regEvt_isSome {o : Nat} (ha : o % 4 = 0) (h : o < 0x840 ∨ 0x900 ≤ o ∧ o < 0xB80 ∨ 0xC00 ≤ o ∧ o < 0xD00) :
    (regEvt s o).isSome = true := by
  simp only [regEvt, ha, ne_eq, not_true, if_false]
  split
  · rfl
  · split
    · rfl
    · split
      · rfl
      · rw [if_pos (by omega)]
        rfl

theorem regLane_isSome {n k : Nat} (h : k = 0x10 ∨ k = 0x14 ∨ k = 0x18) : (regLane s n k).isSome = true := by
  rcases h with rfl | rfl | rfl <;> rfl

theorem regPort_isSome {p k : Nat}
    (h : k = 0x20 ∨ k = 0x24 ∨ k = 0x28 ∨ k = 0x2C ∨ k = 0x30 ∨ k = 0x34 ∨ k = 0x38 ∨ k = 0x3C) :
    (regPort s p k).isSome = true := by
  rcases h with rfl | rfl | rfl | rfl | rfl | rfl | rfl | rfl <;> rfl

theorem regDry_isSome {p k : Nat} (h : k = 0x30 ∨ k = 0x34 ∨ k = 0x38 ∨ k = 0x3C ∨ k = 0x40 ∨ k = 0x44) :
    (regDry s p k).isSome = true := by
  rcases h with rfl | rfl | rfl | rfl | rfl | rfl <;> rfl

theorem regWires_wire_isSome {o : Nat} (ho : o < 0x900) (h : o % 0x100 = 0x18 ∨ o % 0x100 = 0x1C) :
    (regWires s o).isSome = true := by
  rcases h with h | h <;> simp [regWires, regWire, ho, h]

theorem regWires_couch_isSome {o : Nat} (h : o = 0xA20 ∨ o = 0xA24 ∨ o = 0xA28 ∨ o = 0xA2C ∨ o = 0xA30
    ∨ o = 0xA34 ∨ o = 0xA38 ∨ o = 0xA3C) : (regWires s o).isSome = true := by
  rcases h with rfl | rfl | rfl | rfl | rfl | rfl | rfl | rfl <;> rfl

theorem regWires_merge_isSome {o : Nat} (h : o = 0xB98 ∨ o = 0xB9C ∨ o = 0xBA0 ∨ o = 0xBA4 ∨ o = 0xBA8
    ∨ o = 0xBAC ∨ o = 0xBB0) : (regWires s o).isSome = true := by
  rcases h with rfl | rfl | rfl | rfl | rfl | rfl | rfl <;> rfl

theorem regWires_slice_isSome {o : Nat} (h : 0xB00 ≤ o ∧ o < 0xB80 ∧ o % 0x10 = 4) : (regWires s o).isSome = true := by
  have hw : ¬ o < 0x900 := by omega
  have hc : ¬ (0xA00 ≤ o ∧ o < 0xB00) := by omega
  have hk : 0xB00 ≤ o ∧ o < 0xC00 := by omega
  have hl : o - 0xB00 < 0x80 := by omega
  have hm : (o - 0xB00) % 0x10 = 4 := by omega
  simp only [regWires, regKnot, if_neg hw, if_neg hc, if_pos hk, if_pos hl, hm, r32_isSome]

theorem regWires_reel_isSome {o : Nat} (h : 0x1000 ≤ o ∧ o < 0x1400 ∧ o % 0x10 = 4) : (regWires s o).isSome = true := by
  have hw : ¬ o < 0x900 := by omega
  have hc : ¬ (0xA00 ≤ o ∧ o < 0xB00) := by omega
  have hk : ¬ (0xB00 ≤ o ∧ o < 0xC00) := by omega
  have hs : ¬ (0xC00 ≤ o ∧ o < 0xE00) := by omega
  have hr : 0x1000 ≤ o ∧ o < 0x2000 := by omega
  have hl : o - 0x1000 < 0x400 := by omega
  have hm : (o - 0x1000) % 0x10 = 4 := by omega
  simp only [regWires, regReel, if_neg hw, if_neg hc, if_neg hk, if_neg hs, if_pos hr, if_pos hl, hm, r32_isSome]

theorem regMrk_isSome {o : Nat} (ho : 0x100 ≤ o ∧ o < 0x300) (h : o % 0x20 = 0x18 ∨ o % 0x20 = 0x1C) :
    (regMrk s o).isSome = true := by
  have hn : ¬ o < 0x100 := by omega
  have hm : (o - 0x100) % 0x20 = o % 0x20 := by omega
  rcases h with h | h <;> simp [regMrk, ho, hn, hm, h]

theorem regHks_unit_isSome {o : Nat} (ho : o < 0x1000) (h : o % 0x400 = 4 ∨ o % 0x400 = 0x10) : (regHks s o).isSome = true := by
  rcases h with h | h <;> simp [regHks, regHk, ho, h]

theorem regHks_spm_isSome {o : Nat} (ho : 0x1000 ≤ o ∧ o < 0x1080) (h : o % 0x20 = 0x10) : (regHks s o).isSome = true := by
  have hn : ¬ o < 0x1000 := by omega
  simp [regHks, regSpm, ho, hn, h]

theorem regHks_encoder_isSome {o : Nat} (ho : 0x1200 ≤ o ∧ o < 0x1280) (h : o % 0x20 = 0x10) : (regHks s o).isSome = true := by
  have hu : ¬ o < 0x1000 := by omega
  have hp : ¬ o < 0x1080 := by omega
  have hi : ¬ o = 0x1100 := by omega
  have hg : ¬ o = 0x1108 := by omega
  simp [regHks, regEnc, ho, hu, hp, hi, hg, h]

theorem regVal_isSome_of_rc {off : Nat} (ha : off % 4 = 0) (h : rcAt off = true) : (regVal s off).isSome = true := by
  unfold rcAt at h
  split at h
  case h_1 hb =>
    simp only [regVal, hb, of_decide_eq_true h]
    rfl
  case h_2 hb =>
    have h := of_decide_eq_true h
    simp only [regVal, hb]
    exact regEvt_isSome (by omega) (by omega)
  case h_3 hb =>
    have h := of_decide_eq_true h
    simp only [regVal, hb, if_pos h.1]
    exact regLane_isSome (by omega)
  case h_4 hb =>
    have h := of_decide_eq_true h
    simp only [regVal, hb, if_pos h.1]
    exact regPort_isSome (by omega)
  case h_5 hb =>
    simp only [Bool.or_eq_true, decide_eq_true_eq] at h
    simp only [regVal, hb]
    obtain (((⟨ho, hw⟩ | hc) | hs) | hm) | hr := h
    · exact regWires_wire_isSome ho hw
    · exact regWires_couch_isSome (by omega)
    · exact regWires_slice_isSome hs
    · exact regWires_merge_isSome (by omega)
    · exact regWires_reel_isSome hr
  case h_6 hb =>
    have h := of_decide_eq_true h
    simp only [regVal, hb, if_pos h.1]
    exact regDry_isSome (by omega)
  case h_7 hb =>
    have h := of_decide_eq_true h
    simp only [regVal, hb]
    exact regMrk_isSome ⟨h.1, h.2.1⟩ (by omega)
  case h_8 hb =>
    simp only [Bool.or_eq_true, decide_eq_true_eq] at h
    simp only [regVal, hb]
    obtain ⟨ho, hl⟩ | ⟨hlo, hhi, he⟩ := h
    · exact regHks_unit_isSome ho (.inr hl)
    · exact regHks_encoder_isSome ⟨hlo, hhi⟩ he
  case h_9 => cases h

/-- Outside the doorbells what the host may write is a register. -/
theorem regVal_isSome_of_writable32 {off : Nat} (ha : off % 4 = 0) (bell : off / 0x10000 ≠ 1) (h : writable32 off = true) :
    (regVal s off).isSome = true := by
  unfold writable32 at h
  split at h
  case h_1 hb =>
    simp only [List.contains_eq_mem, List.mem_cons, List.not_mem_nil, or_false, decide_eq_true_eq] at h
    rcases h with h | h | h | h <;> simp only [regVal, hb, h] <;> rfl
  case h_2 hb => exact absurd hb bell
  case h_3 hb =>
    simp only [Bool.or_eq_true, decide_eq_true_eq] at h
    simp only [regVal, hb]
    exact regEvt_isSome (by omega) (by omega)
  case h_4 hb =>
    simp only [regVal, hb, of_decide_eq_true h]
    rfl
  case h_5 hb =>
    simp only [Bool.or_eq_true, decide_eq_true_eq] at h
    simp only [regVal, hb]
    obtain ⟨ho, hl⟩ | ⟨hlo, hhi, he⟩ := h
    · exact regHks_unit_isSome ho (.inl hl)
    · exact regHks_spm_isSome ⟨hlo, hhi⟩ he
  case h_6 => cases h

/-- The 64-bit registers that the host writes are there, with 64 bits. -/
theorem is64_of_writable64 {off : Nat} (h : writable64.contains off = true) : is64 s off = true := by
  simp only [writable64, List.contains_eq_mem, List.mem_cons, List.not_mem_nil, or_false, decide_eq_true_eq] at h
  rcases h with rfl | rfl | rfl | rfl | rfl | rfl | rfl | rfl | rfl | rfl | rfl | rfl | rfl <;> rfl

end Present

/-! ### Reads and writes of reserved offsets -/

section Reserved
variable {s : State} {off : Nat}

theorem is64_of_none (h : regVal s off = none) : is64 s off = false := by simp only [is64, h]

theorem writable64_of_not_64 (h : is64 s off = false) : writable64.contains off = false :=
  Bool.eq_false_iff.mpr fun w => by simp [is64_of_writable64 (s := s) w] at h

theorem rcClear_of_none (ha : off % 4 = 0) (h : regVal s off = none) : rcClear off s = s :=
  rcClear_of_not_rc s (Bool.eq_false_iff.mpr fun rc => by simpa [h] using regVal_isSome_of_rc (s := s) ha rc)

/-- A reserved offset that is no doorbell either is not writable. -/
theorem writable32_of_none (ha : off % 4 = 0) (h : regVal s off = none)
    (bell : off / 0x10000 ≠ 1 ∨ 0x12500 ≤ off ∧ off ≠ 0x12800) : writable32 off = false := by
  by_cases block : off / 0x10000 = 1
  · simp only [writable32, block]
    exact decide_eq_false (by omega)
  · exact Bool.eq_false_iff.mpr fun w => by simpa [h] using regVal_isSome_of_writable32 (s := s) ha block w

theorem read32_of_none {span : Nat} (ha : off % 4 = 0) (h : regVal s off = none) (low : is64 s (off - off % 8) = false) :
    read32 off span s = (0, s) := by
  have high : (decide (off % 8 = 4) && is64 s (off - 4)) = false := by
    by_cases half : off % 8 = 4
    · rw [half] at low
      rw [low, Bool.and_false]
    · rw [decide_eq_false half, Bool.false_and]
  simp [read32, is64_of_none h, high, regShown, h, rcClear_of_none ha h]

theorem regRead_8_of_halves {span : Nat} (ha : off % 8 = 0) (h : is64 s off = false) : regRead 8 off span s =
    ((read32 off span s).1 + 2 ^ 32 * (read32 (off + 4) span (read32 off span s).2).1,
      (read32 (off + 4) span (read32 off span s).2).2) := by
  simp only [regRead, ha, h, and_self, if_true, Bool.false_eq_true, if_false]

theorem regRead_4 {span : Nat} (ha : off % 4 = 0) : regRead 4 off span s = read32 off span s := by
  simp [regRead, ha]

theorem regRead_8_of_none {span : Nat} (ha : off % 8 = 0) (lo : regVal s off = none) (hi : regVal s (off + 4) = none) :
    regRead 8 off span s = (0, s) := by
  have low : read32 off span s = (0, s) := read32_of_none (by omega) lo (by simpa [ha] using is64_of_none lo)
  have same : off + 4 - (off + 4) % 8 = off := by omega
  have high : read32 (off + 4) span s = (0, s) := read32_of_none (by omega) hi (same.symm ▸ is64_of_none lo)
  rw [regRead_8_of_halves ha (is64_of_none lo), low]
  change (0 + 2 ^ 32 * (read32 (off + 4) span s).1, (read32 (off + 4) span s).2) = (0, s)
  rw [high]
  rfl

theorem regWrite_8_of_halves {v : Nat} (ha : off % 8 = 0) (h : is64 s off = false) (hw : writable64.contains off = false) :
    regWrite 8 off v s = write32 (off + 4) (v / 2 ^ 32) (write32 off (v % 2 ^ 32) s) := by
  simp only [regWrite, ha, h, hw, and_self, if_true, Bool.false_eq_true, if_false]

end Reserved

/-! ### BAR0 accesses that meet no register block -/

section Outside
variable {s : State} {off : BitVec 24} {size : Nat} (hs : HostOn s)
include hs

theorem exec_bar0_read (ho : s.host.bar2Out = []) :
    exec (.registerReadClear .bar0 off size) s = .next (bar0Serve s.host.fwdSel off.toNat (.read size) s) :=
  (whenHost_of_on _ hs).trans (congrArg _ (bar0Access_of_clear (acc := .read size) off.toNat fun _ => ho))

theorem exec_bar0_write (v : W64) :
    exec (.registerWrite .bar0 off size v) s = .next (bar0Serve s.host.fwdSel off.toNat (.write size v) s) :=
  whenHost_of_on _ hs

end Outside

section Aligned
variable {s : State} {off : BitVec 24} (hs : HostOn s) (hlo : off.toNat < 0x100000)
include hs hlo

theorem exec_read4 (ho : s.host.bar2Out = []) (ha : off.toNat % 4 = 0) : exec (.registerReadClear .bar0 off 4) s =
    .next { (read32 off.toNat 1000 s).2 with
      sent := .readData 4 (read32 off.toNat 1000 s).1 :: (read32 off.toNat 1000 s).2.sent } := by
  rw [exec_registerReadClear hs ho hlo (by simpa [alignedAccess] using ha), regRead_4 ha]
  rfl

theorem exec_read8_halves (ho : s.host.bar2Out = []) (ha : off.toNat % 8 = 0) (h : is64 s off.toNat = false) :
    let lo := read32 off.toNat 1000 s
    let hi := read32 (off.toNat + 4) 1000 lo.2
    exec (.registerReadClear .bar0 off 8) s =
      .next { hi.2 with sent := .readData 8 (lo.1 + 2 ^ 32 * hi.1) :: hi.2.sent } := by
  intro lo hi
  rw [exec_registerReadClear hs ho hlo (by simpa [alignedAccess] using ha), regRead_8_of_halves ha h]
  rfl

theorem exec_write4 (v : W64) (ha : off.toNat % 4 = 0) :
    exec (.registerWrite .bar0 off 4 v) s = .next (write32 off.toNat (v.toNat % 2 ^ 32) s) := by
  rw [exec_registerWrite v hs hlo (by simpa [alignedAccess] using ha), regWrite_4 _ s ha, Nat.mod_mod]

theorem exec_write8_halves (v : W64) (ha : off.toNat % 8 = 0) (h : is64 s off.toNat = false)
    (hw : writable64.contains off.toNat = false) : exec (.registerWrite .bar0 off 8 v) s =
      .next (write32 (off.toNat + 4) (v.toNat / 2 ^ 32) (write32 off.toNat (v.toNat % 2 ^ 32) s)) := by
  have whole : v.toNat % 2 ^ (8 * 8) = v.toNat := Nat.mod_eq_of_lt v.isLt
  rw [exec_registerWrite v hs hlo (by simpa [alignedAccess] using ha), whole, regWrite_8_of_halves ha h hw]

end Aligned

theorem bar0Serve_of_misaligned {off sel : Nat} {acc : RegAccess} (s : State) (h : alignedAccess off acc = false) :
    bar0Serve sel off acc s = noAnswer acc s := by
  simp only [bar0Serve, h, Bool.not_false, if_true]

/-- Past the window a read answers 0, and a write acts in the doorbell pages alone. -/
theorem bar0Serve_past_window {off sel : Nat} {acc : RegAccess} (s : State) (ha : alignedAccess off acc = true)
    (h : 0x200000 ≤ off) : bar0Serve sel off acc s = match acc with
      | .read size => emit (.readData size 0) s
      | .write size v => if 0x400000 ≤ off ∧ off < 0x800000 then pageWrite size (off - 0x400000) v.toNat s else s := by
  simp only [bar0Serve, ha, Bool.not_true, Bool.false_eq_true, if_false, if_neg (show ¬ off < 0x100000 by omega),
    if_neg (show ¬ off < 0x200000 by omega)]
  cases acc <;> rfl

/-- Settles O18, by the size and alignment of the request and by what lies at its offset. -/
theorem misalignedAccessNotAnswered : Obligations.MisalignedAccessNotAnswered := by
  intro s off size v hs ho
  refine ⟨fun odd => ⟨?_, ?_⟩, fun ha hlo => ⟨fun w hv => ⟨read_of_64 hs ho hlo ha hv, ?_⟩, fun no64 noW => ?_⟩,
    fun ha hlo lo hi => ⟨?_, fun bell => ?_⟩, fun ha hlo none low => ⟨?_, fun bell => ?_⟩, fun far aligned => ⟨?_, fun page => ?_⟩⟩
  · rw [exec_bar0_read hs ho, bar0Serve_of_misaligned (acc := .read size) s (decide_eq_false odd)]
    rfl
  · rw [exec_bar0_write hs, bar0Serve_of_misaligned (acc := .write size v) s (decide_eq_false odd)]
    rfl
  · cases hw : writable64.contains off.toNat with
    | true => exact exec_registerWrite_whole v hs hlo ha hw
    | false => exact (write_of_not_writable v hs hlo).2.1 ha (is64_of_regVal hv) hw
  · have up : (off + 4).toNat = off.toNat + 4 := toNat_add_four hlo
    have next : (off + 4).toNat < 0x100000 := by omega
    have align : (off + 4).toNat % 4 = 0 := by omega
    refine ⟨exec_read8_halves hs hlo ho ha no64, exec_read4 hs hlo ho (by omega), ?_, exec_write8_halves hs hlo v ha no64 noW,
      exec_write4 hs hlo v (by omega), ?_⟩
    · rw [exec_read4 hs next ho align, up]
    · rw [exec_write4 hs next v align, up]
  · rw [exec_registerReadClear hs ho hlo (by simpa [alignedAccess] using ha), regRead_8_of_none ha lo hi]
    rfl
  · refine (write_of_not_writable v hs hlo).2.2 ha (writable64_of_not_64 (is64_of_none lo)) ?_ ?_
    · exact writable32_of_none (by omega) lo bell
    · exact writable32_of_none (by omega) hi (by omega)
  · rw [exec_registerReadClear hs ho hlo (by simpa [alignedAccess] using ha), regRead_4 ha, read32_of_none ha none low]
    rfl
  · exact (write_of_not_writable v hs hlo).1 ha (writable32_of_none ha none bell) (writable64_of_not_64 low)
  · rw [exec_bar0_read hs ho, bar0Serve_past_window (acc := .read size) s (decide_eq_true aligned) far]
    rfl
  · rw [exec_bar0_write hs, bar0Serve_past_window (acc := .write size v) s (decide_eq_true aligned) far]
    exact congrArg _ (if_neg (by omega))

end Sys2Proof.Machine


/-! PROOFS. The calibration engine (R357 to R367) and memory errors (R9, R366, R440). -/

namespace Sys2Proof.Machine

section Calibrating
variable {s : State}

theorem exec_refCheck (n : Option (Fin 440000)) (hs : Ready s) (may : calMay s = true) (due : refDue s = true) :
    exec (.refCheck n) s = .next (refChecked (n.map Fin.val) s) := by
  have row : exec (.refCheck n) s = whenReady (fun s => if calMay s && refDue s then refChecked (n.map Fin.val) s else s) s := rfl
  rw [row, whenReady_of_ready _ hs, may, due, Bool.and_self, if_pos rfl]

/-- A ratio beyond 1,000 ppb and within 100,000 ppb is drift (R358). -/
theorem refChecked_drift {n : Nat} (lo : 1000 < (refRatio (n + 1)).natAbs) (hi : (refRatio (n + 1)).natAbs ≤ 100000) :
    refChecked (some n) s = calOutcome (elKey 5 0) true (raise 327 0x04 (ofS 32 (refRatio (n + 1)))
      (updCal (fun c => { c with refState := 2, refRatio := refRatio (n + 1), refNs := some s.clk.ns }) s)) := by
  simp only [refChecked, Option.isNone_some, Bool.false_eq_true, false_or, if_neg (Nat.not_lt.mpr hi), if_pos lo, if_true]

/-- Without a zero crossing the reference is missing (R358). -/
theorem refChecked_missing : refChecked none s = calOutcome (elKey 5 0) true (raise 327 0x05 (ofS 32 (-2147483648))
    (updCal (fun c => { c with refState := 3, refRatio := -2147483648, refNs := some s.clk.ns }) s)) := rfl

theorem calStart_of_may (c i : Nat) (may : calMay s = true) : calStart c i s = match c with
    | 1 => adcTry i s
    | 2 => if elWanted s 2 i then selfcalRequest i s else s
    | _ => valveTry i s := by
  exact if_neg (by simp [may])

/-- At a row start the overdue channels of a timing port calibrate (R363). -/
theorem forcedBody_of_row {p : Nat} (may : calMay s = true) (running : (dry s p).running = true) (timing : (dry s p).st = 3)
    (row : rowStarts s p = true) : let is := ((List.range 16).map fun c => 16 * p + c).filter (forceDue s p)
    is ≠ [] → forcedBody p s = is.foldl (fun s i => raise 327 0x03 i (adcCalStart i true s)) (updDry p (fun d => { d with
      forced := d.forced ++ is.map fun i => (s.clk.tb, s.clk.tb + 240000 + unsettledNs s p, i % 16) }) s) := by
  intro is some
  have go : ¬ (!calMay s ∨ !(dry s p).running ∨ (dry s p).st ≠ 3 ∨ is.isEmpty ∨ !rowStarts s p) := by
    simp [may, running, timing, row, some]
  exact if_neg go

theorem exec_hbmEccUncorr (a : BitVec 37) (hs : Ready s) : exec (.hbmEccUncorr a) s =
    .next (raise (320 + a.toNat / 4096 % 4) 0x01 (a.toNat / 32) (rawFails a.toNat (chestFails a.toNat s))) := by
  have row : exec (.hbmEccUncorr a) s = whenReady (fun s =>
    raise (320 + a.toNat / 4096 % 4) 0x01 (a.toNat / 32) (rawFails a.toNat (chestFails a.toNat s))) s := rfl
  rw [row, whenReady_of_ready _ hs]

/-- A correctable error below the sixteenth of its row is counted, and no more (R366). -/
theorem sramEccBody_counts {row : Nat} {w : Option StoreWord} {tests : List Bool} (few : tblGet 0 s.afe.cal.sramErrs row + 1 < 16) :
    sramEccBody row false w tests s = updCal (fun c => { c with
      sramErrs := tblSet c.sramErrs row (tblGet 0 s.afe.cal.sramErrs row + 1) }) s := by
  have no : decide (16 ≤ tblGet 0 s.afe.cal.sramErrs row + 1) = false := decide_eq_false (by omega)
  simp only [sramEccBody, no, Bool.or_false, Bool.false_eq_true, false_and, if_false]

/-- A CALIBRATE that names no element completes at once (R361). -/
theorem calibrateStart_none {tests : List Bool} {c : Cmd}
    (h : calibrateNames s (u8At c.packet 0x18) (u64At c.packet 0x20) = []) : calibrateStart tests c s =
      finish (beginWork c 0 s).1 stOk 100 0 0 { (beginWork c 0 s).2 with
        nvm := { (beginWork c 0 s).2.nvm with calCmdDone := true } } := by
  simp only [calibrateStart, pm8, pm64, h, List.isEmpty_nil, if_true]
  rfl

/-- A CALIBRATE of another class than the store waits with the elements that it names (R361). -/
theorem calibrateStart_names {tests : List Bool} {c : Cmd} {l : List Nat} (cls : u8At c.packet 0x18 ≠ 4)
    (h : calibrateNames s (u8At c.packet 0x18) (u64At c.packet 0x20) = l) (some : l ≠ []) : calibrateStart tests c s =
      updCal (fun k => { k with cmds := k.cmds ++ [{ cid := c.cid, ns := s.clk.ns, left := l }] }) (beginWork c l.length s).2 := by
  have more : l.isEmpty = false := by simpa using some
  simp only [calibrateStart, pm8, pm64, h, more, Bool.false_eq_true, if_false, if_neg cls]

end Calibrating

/-- Settles O42, by the engine's rows, the two memories and CALIBRATE. -/
theorem calibrationRuns : Obligations.CalibrationRuns := by
  refine ⟨fun s hs => ⟨fun n may due lo hi => ?_, fun may due => ?_, fun i may => ?_, fun u may wanted => ?_, fun n may => ?_,
    fun p may running timing => ?_, fun i ofs gain parts => ?_, fun i ofs gain parts => ?_, fun row w tests few => ?_,
    fun a => ?_⟩, fun s sq tag c tests hc cls => ?_⟩
  · exact (exec_refCheck (some n) hs may due).trans (congrArg _ (refChecked_drift lo hi))
  · exact (exec_refCheck none hs may due).trans (congrArg _ refChecked_missing)
  · exact (whenReady_of_ready _ hs).trans (congrArg _ (calStart_of_may 1 i may))
  · exact (whenReady_of_ready _ hs).trans (congrArg _ ((calStart_of_may 2 u may).trans (if_pos wanted)))
  · exact (whenReady_of_ready _ hs).trans (congrArg _ (calStart_of_may 3 n may))
  · intro is some row
    exact (whenReady_of_ready _ hs).trans (congrArg _ (forcedBody_of_row may running timing row some))
  · exact whenReady_of_ready _ hs
  · exact whenReady_of_ready _ hs
  · exact (whenReady_of_ready _ hs).trans (congrArg _ (sramEccBody_counts few))
  · exact exec_hbmEccUncorr a hs
  · have run : exec (.calibrate sq tag tests) s = .next (calibrateStart tests c s) := opcodeRow_of_starts _ _ hc
    refine ⟨fun none => ?_, fun l names some => ?_⟩
    · rw [run, calibrateStart_none none]
    · rw [run, calibrateStart_names cls names some]

end Sys2Proof.Machine


/-! PROOFS. Routed packets: served at their destination, relayed elsewhere (R96 to R100, R412). -/

namespace Sys2Proof.Machine

section Freed
variable {s : State} {k : Fin 4} {n : Nat}

/-- Freed credits touch the felt ports alone. -/
theorem linkFree_traffic : TrafficOnly s (linkFree (64 + k.val) n s) := by
  obtain ⟨l, -, h⟩ := linkFree_felt (s := s) (k := k) n
  rw [h]
  exact setFeltPort_traffic _ _ _

theorem cmds_linkFree : (linkFree (64 + k.val) n s).cmds = s.cmds := by rw [linkFree_traffic (s := s) (k := k) (n := n)]

theorem head_linkFree : (linkFree (64 + k.val) n s).chain.head = s.chain.head := by
  rw [linkFree_traffic (s := s) (k := k) (n := n)]

theorem devId_linkFree : (linkFree (64 + k.val) n s).chain.devId = s.chain.devId := by
  rw [linkFree_traffic (s := s) (k := k) (n := n)]

theorem mayRequest_linkFree : mayRequest (linkFree (64 + k.val) n s) = mayRequest s := by
  rw [linkFree_traffic (s := s) (k := k) (n := n)]
  rfl

theorem emit_linkFree (e : Emit) : emit e (linkFree (64 + k.val) n s) =
    { linkFree (64 + k.val) n s with sent := e :: s.sent } := by
  have same : (linkFree (64 + k.val) n s).sent = s.sent := by
    obtain ⟨l, -, h⟩ := linkFree_felt (s := s) (k := k) n
    rw [h, setFeltPort_sent]
  rw [emit, same]

variable {h : RouteHdr} {ptype : Nat} {payload : List Byte} {act : State → State}

/-- A packet for this device acts once its credits are free. -/
theorem routed_here (usable : feltUsable s k.val = true) (here : h.dst.toNat = s.chain.devId)
    (fits : linkOver s (64 + k.val) (4 + n) = false) (len : payload.length = n) :
    routed k.val h ptype payload act s = act (linkFree (64 + k.val) (4 + n) s) := by
  subst len
  exact (fromUsable_of_usable _ usable fits).trans (if_pos (.inl (here.trans devId_linkFree.symm)))

/-- A packet for another device goes on with its TTL less one (R412). -/
theorem routed_elsewhere (usable : feltUsable s k.val = true) (other : h.dst.toNat ≠ s.chain.devId) (single : h.dst ≠ 0xFF)
    (lives : 1 < h.ttl.toNat) (fits : linkOver s (64 + k.val) (4 + n) = false) (len : payload.length = n) :
    routed k.val h ptype payload act s = feltRoute ⟨h.dst.toNat, h.src.toNat, h.ttl.toNat - 1, ptype, payload⟩
      (updFelt k.val (fun p => { p with ttlNoted := false }) (linkFree (64 + k.val) (4 + n) s)) := by
  subst len
  have pass : ¬ (h.dst.toNat = (linkFree (64 + k.val) (4 + payload.length) s).chain.devId ∨ h.dst = 0xFF) := by
    rw [devId_linkFree]
    exact not_or.mpr ⟨other, single⟩
  have taken := fromUsable_of_usable (fun s => if h.dst.toNat = s.chain.devId ∨ h.dst = 0xFF then act s else relay k h ptype payload s)
    usable fits
  refine taken.trans ((if_neg pass).trans ?_)
  exact if_neg (Nat.not_le.mpr lives)

end Freed

section Taken
variable {s : State}

theorem cmdTaken_sound {src sq : Nat} {p : List Byte} (opcode : opcodeAccepted s.boot.source (pkOp p) = true)
    (sound : packetOk p = true) (single : pkOp p ≠ 0x00F0) : cmdTaken src sq p s =
      addCmd { cid := s.cmds.nextId, sq := sq, tag := pkTag p, packet := p
               origin := if s.chain.head then .device src else .head } s := by
  have kept : ¬ (!packetOk p ∨ pkOp p = 0x00F0) := by simp [sound, single]
  simp only [cmdTaken, opcode, Bool.not_true, Bool.false_eq_true, if_false, if_neg kept]

theorem cplTaken_final {src cq : Nat} {b : List Byte} {c : Cmd} (final : bitOf (u8At b 7) 1 = false)
    (found : s.cmds.flight.find? (fun c => decide (c.sq = cq ∧ c.tag = BitVec.ofNat 32 (u32At b 0) ∧ c.sentTo = some src)) = some c) :
    cplTaken src cq b s = finish c (u16At b 4) (u8At b 6) (u64At b 8) (u64At b 16) s := by
  simp only [cplTaken, found, final, Bool.false_eq_true, if_false]

end Taken

/-- Settles O48: each packet acts on the state that has freed its credits. -/
theorem routedPacketsServed : Obligations.RoutedPacketsServed := by
  intro s k h hs usable got fits
  refine ⟨fun here => ⟨fun sq p len opcode sound single fit => ?_, fun cq b c len final fit found => ?_, fun off n => ?_,
    fun off n v fit => ?_, fun n v some fit => ?_, fun v fit => ?_, fun off v fit => ?_, fun v fit => ?_, fun a bs may fit => ?_,
    fun a bs may fit => ?_, fun a n bs may fit => ?_⟩, fun other single lives fit off v => ?_⟩
  · have whole : (leBytes 2 sq.val ++ padTo 64 p).length = 66 := by simp [length_leBytes]
    refine whenReady_next hs ((routed_here usable here fit whole).trans ?_)
    rw [padTo_of_length len, cmdTaken_sound (by rwa [linkFree_traffic]) sound single, cmds_linkFree, head_linkFree]
  · have whole : (leBytes 2 cq.val ++ padTo 32 b).length = 34 := by simp [length_leBytes]
    refine whenReady_next hs ((routed_here usable here fit whole).trans ?_)
    rw [padTo_of_length len]
    exact cplTaken_final final (by rwa [cmds_linkFree])
  · intro g fit
    exact whenReady_next hs (routed_here usable here fit rfl)
  · exact whenReady_next hs (routed_here usable here fit rfl)
  · refine whenReady_next hs ((routed_here usable here fit rfl).trans ?_)
    exact (if_neg some).trans (emit_linkFree _)
  · exact whenReady_next hs (routed_here usable here fit rfl)
  · refine whenReady_next hs ((routed_here usable here fit (by simp [length_leBytes])).trans ?_)
    rw [head_linkFree]
  · exact whenReady_next hs (routed_here usable here fit (length_leBytes 2 v.val))
  · refine whenReady_next hs ((routed_here usable here fit (by simp [length_leBytes])).trans ?_)
    exact (if_pos (mayRequest_linkFree.trans may)).trans (emit_linkFree _)
  · refine whenReady_next hs ((routed_here usable here fit (by simp [length_leBytes])).trans ?_)
    have held : ¬ mayRequest (got (8 + bs.length)) = true := by simp [got, mayRequest_linkFree, may]
    refine (if_neg held).trans ?_
    simp only [updChain, got, devId_linkFree]
  · refine whenReady_next hs ((routed_here usable here fit (by simp [hrdPayload, length_leBytes])).trans ?_)
    exact if_pos (mayRequest_linkFree.trans may)
  · exact whenReady_next hs (routed_elsewhere usable other single lives fit (by simp [length_leBytes]))

end Sys2Proof.Machine


/-! PROOFS. The knotter's rows, the merger and its fragments (R250, R257, R258), tiles (R285) and records (R90, R92, R264). -/

namespace Sys2Proof.Machine

section Knotter
variable {s : State}

/-- A slice takes its due configuration and then its row, once the row's thermal part has come. -/
theorem knotterRowBody_of_row {k : Nat} {r : GridRow} (row : sliceRow s k = some r) :
    let s1 := if r.reproc = none then sliceTake k (some r.minTb) s else s
    thermReady s1 k r = true → knotterRowBody k s =
      knotIdle (sliceRun k r (passTokens (10 + k) (slLast s1 k + 1 - slFirst s1 k) s1)) := by
  intro s1 ready
  have taken : (if r.reproc.isNone then sliceTake k (some r.minTb) s else s) = s1 := by simp only [s1, Option.isNone_iff_eq_none]
  simp only [knotterRowBody, row, taken, if_pos ready]

/-- A group of live rows comes under the fields of its closing row. -/
theorem mergerUnder_of_live {g : List Comp} {c : Int × Nat × Nat} (live : ∀ m ∈ g, m.reproc = none)
    (closed : groupClosed g = some c) : mergerUnder g s = mergerTake (some c.2.2) s := by
  have notRep : isRep g = false := List.any_eq_false.mpr fun m hm => by simp [live m hm]
  simp only [mergerUnder, notRep, closed]

section Merger
variable {g : List Comp} (next : nextGroup s = some g) (free : mergerHeld s g = false)
include next free

theorem mergerBody_of_inner (inner : groupSides s g = []) : mergerBody s = knotIdle (formGroup g (mergerUnder g s)) := by
  simp only [mergerBody, next, free, inner, List.isEmpty_nil, Bool.false_eq_true, if_false, if_true]

theorem mergerBody_of_edge (edge : groupSides s g ≠ []) : mergerBody s =
    if edgeWhole s (edgeComp s g) then knotIdle (formEdge (edgeComp s g) false (mergerUnder (edgeComp s g).groups.flatten
      (knotUpd (fun k => { k with fragOk := true }) (edgeSends (edgeComp s g) s))))
    else edgeMarks (edgeComp s g) (edgeSends (edgeComp s g) s) := by
  have touches : (groupSides s g).isEmpty = false := by simpa using edge
  simp only [mergerBody, next, free, touches, Bool.false_eq_true, if_false]

end Merger

/-- A fragment on a felt side of the couch is held, and what it brought is answered and cut. -/
theorem fragBody_of_side {k d : Nat} {cells : List FragCell} {part split : Bool} (two : d < 2) (side : gFelt s d = k)
    (lower : d = 1 → gFelt s 0 ≠ k) : fragBody k cells part split s =
      let f : FragIn := { side := d, cells := fragCells cells, partial_ := part, split := split, ns := s.clk.ns
                          reproc := cells.any fun c => c.reproc }
      edgeCut (fragAnswer f (knotUpd (fun y => { y with
        frags := (y.frags.filter fun f => decide (s.clk.ns ≤ f.ns + 2 * (cf s 0x07 8 0x0C * 1000))) ++ [f] }) s)) := by
  have found : (if gFelt s 0 = k then some 0 else if gFelt s 1 = k then some 1 else none) = some d := by
    obtain rfl | rfl : d = 0 ∨ d = 1 := by omega
    · exact if_pos side
    · rw [if_neg (lower rfl), if_pos side]
  have young (f : FragIn) : (!decide (f.ns + 2 * us (mgf s 0x0C) < s.clk.ns)) =
      decide (s.clk.ns ≤ f.ns + 2 * (cf s 0x07 8 0x0C * 1000)) := by
    rw [← decide_not]
    exact decide_eq_decide.mpr Nat.not_lt
  simp only [fragBody, found, young]

theorem exec_frag_of_usable {k : Fin 4} {cells : List FragCell} {part split : Bool} (live : Live s) (usable : feltUsable s k.val = true) :
    let n := 4 + (fragPayload part split (cells.any fun c => c.reproc) (fragCells cells)).length
    linkOver s (64 + k.val) n = false →
      exec (.frag k cells part split) s = .next (fragBody k.val cells part split (linkFree (64 + k.val) n s)) := by
  intro n fits
  have runs : ¬ (linkFree (64 + k.val) n s).boot.tripped = true := by
    rw [linkFree_felt_boot]
    simp [live.2]
  exact whenReady_next live.1 ((fromUsable_of_usable _ usable fits).trans (if_neg runs))

/-- While no fragment is awaited the time-out forms the PARTIAL record without an event (R257). -/
theorem mergeTimeoutBody_of_timed {g : List Comp} (timed : timedGroup s = some g) (quiet : s.web.knot.fragOk = false) :
    mergeTimeoutBody s = knotIdle (formEdge (timedComp s g) true (mergerUnder (timedComp s g).groups.flatten
      (knotUpd (fun k => { k with fragOk := false }) s))) := by
  simp only [mergeTimeoutBody, timed, quiet, Bool.false_eq_true, if_false]

/-- The oldest tile is written to its slot of the ring (R285). -/
theorem tileWriteBody_of_oldest {j : TileJob} {l : List TileJob} (tiles : s.web.hist.tiles = j :: l) : ∃ t, tileWriteBody s = t
    ∧ t.web.hist.tiles = l ∧ t.hbm = memWriteN hbmUnlisted s.hbm (tileAddr s (j.block % max 1 (tileN s))) j.bytes
    ∧ t.host = s.host ∧ t.sent = s.sent := by
  simp only [tileWriteBody, tiles]
  exact ⟨_, rfl, rfl, rfl, rfl, rfl⟩

section Delivery
variable {r : Rec} (free : hostBlocked s = false) (next : nextRec [] s.web.knot.recs = some r)
include free next

theorem recordBody_of_room {q : Ring} (hq : tblFind s.host.dqs r.queue = some q) (may : mayRequest s = true)
    (room : (q.tail - q.head).toNat ≠ 2 ^ q.log2) : recordBody s =
      putDq r.queue { q with tail := q.tail + 1, uncovered := q.uncovered + 1, dropNoted := false }
        (hostWrite (entryAddr q.base q.tail q.log2 64) r.bytes (knotUpd (fun k => { k with recs := k.recs.erase r }) s)) := by
  have goes : ¬ (mayRequest s = false ∨ (q.tail - q.head).toNat = 2 ^ q.log2) :=
    not_or.mpr ⟨by simp [may], room⟩
  simp only [recordBody, free, next, hq, Bool.false_eq_true, if_false, if_neg goes]

theorem recordBody_of_no_queue (hq : tblFind s.host.dqs r.queue = none) : recordBody s = knotUpd (fun k => { k with
    recs := k.recs.erase r, noQueue := min (k.noQueue + 1) (2 ^ 32 - 1) }) s := by
  simp only [recordBody, free, next, hq, Bool.false_eq_true, if_false]
  rfl

end Delivery

end Knotter

/-- Settles O34, row by row: a row's branch is the one its premises name. -/
theorem knotterAndRecords : Obligations.KnotterAndRecords := by
  refine ⟨fun s live => ⟨fun k r row => ?_, fun g c next free rows closed => ⟨fun inner => ?_, fun edge part => ?_, fun edge whole => ?_⟩,
    fun k cells part split d two side lower usable => ?_, fun g timed quiet => ?_⟩,
    fun s hs => ⟨fun j l tiles => ?_, fun r q live free next hq may head room => ?_, fun r live free next hq => ?_⟩⟩
  · intro s1 ready
    exact whenLive_next live (knotterRowBody_of_row row ready)
  · refine whenLive_next live ((mergerBody_of_inner next free inner).trans ?_)
    rw [mergerUnder_of_live rows closed]
  · exact whenLive_next live ((mergerBody_of_edge next free edge).trans (if_neg (by simp [part])))
  · exact whenLive_next live ((mergerBody_of_edge next free edge).trans (if_pos whole))
  · intro n f fits
    have clk : (linkFree (64 + k.val) n s).clk = s.clk := by rw [linkFree_traffic (s := s) (k := k) (n := n)]
    have field (b i o : Nat) : cf (linkFree (64 + k.val) n s) b i o = cf s b i o := by
      rw [linkFree_traffic (s := s) (k := k) (n := n)]
      rfl
    refine (exec_frag_of_usable live usable fits).trans (next_congr ?_)
    rw [fragBody_of_side two ((field ..).trans side) fun one same => lower one ((field ..).symm.trans same), clk, field]
  · exact whenLive_next live (mergeTimeoutBody_of_timed timed quiet)
  · obtain ⟨t, written, after⟩ := tileWriteBody_of_oldest tiles
    exact ⟨t, whenReady_next hs written, after⟩
  · refine ⟨_, whenLive_next live (recordBody_of_room free next hq may room), ?_⟩
    have head' : (knotUpd (fun k => { k with recs := k.recs.erase r }) s).chain.head = true := head
    rw [hostWrite_head _ _ head']
    exact ⟨rfl, tblFind_tblSet_self _ _ _, rfl, rfl⟩
  · exact whenLive_next live (recordBody_of_no_queue free next hq)

end Sys2Proof.Machine


/-! PROOFS. Failures of the crystal and of the AFE link (R8, R28), and rate windows (R23, R175). What the stop of the dryer ports and
the end of calibrations leave as they are: time, the AFE link, ARM, the sequence number, and every pending bit that stands. One rule
for each function from states to states, in the order of the model's definitions: `outage_f` where `f` touches none of them,
`stays_f` where it may set further pending bits. -/

namespace Sys2Proof.Machine

/-- PEND, and beside it time, the state of the AFE link, ARM and the sequence number. -/
abbrev OutageView : Type := BitVec 512 × Clk × Bool × Bool × Nat × W32

/-- What the failure of the AFE link is seen by. -/
def outage (s : State) : OutageView := (s.host.pend, s.clk, s.afe.linkOk, s.afe.linkLost, s.afe.arm, s.cfg.seq)

/-- The pending bits of `x` still stand in `y`, and the rest of `y` is as it was. -/
def Stays (x y : OutageView) : Prop := (∀ n, x.1.getLsbD n = true → y.1.getLsbD n = true) ∧ y.2 = x.2

theorem Stays.refl (x : OutageView) : Stays x x := ⟨fun _ h => h, rfl⟩

section Rules
variable {x : OutageView} {s : State}

/-! ### Record updates, branches and folds -/

@[simp] theorem outage_mk {clk : Clk} {boot : Boot} {pcie : Pcie} {host : HostIf} {cfg : Cfg} {cmds : Cmds} {nvm : Nvm}
    {sec : Sec} {chain : Chain} {bist : Bist} {ing : Ingest} {web : Web} {afe : Afe} {hbm : Mem} {sent : List Emit} {free : Nat}
    {pending : List Instr} :
    outage ⟨clk, boot, pcie, host, cfg, cmds, nvm, sec, chain, bist, ing, web, afe, hbm, sent, free, pending⟩ =
      (host.pend, clk, afe.linkOk, afe.linkLost, afe.arm, cfg.seq) := by rfl

@[simp] theorem outage_eta (s : State) :
    (s.host.pend, s.clk, s.afe.linkOk, s.afe.linkLost, s.afe.arm, s.cfg.seq) = outage s := by rfl

@[simp] theorem outage_ite (p : Prop) [Decidable p] (s t : State) :
    outage (if p then s else t) = if p then outage s else outage t := apply_ite ..

@[simp] theorem stays_ite (p : Prop) [Decidable p] (y z : OutageView) :
    Stays x (if p then y else z) ↔ (p → Stays x y) ∧ (¬p → Stays x z) := by split <;> simp_all

theorem stays_foldl {α : Type} {f : State → α → State} (hf : ∀ u a, Stays x (outage u) → Stays x (outage (f u a)))
    (l : List α) {s : State} (h : Stays x (outage s)) : Stays x (outage (l.foldl f s)) := by
  induction l generalizing s with
  | nil => exact h
  | cons a l ih => exact ih (hf s a h)

theorem TrafficOnly.outage {s t : State} (h : TrafficOnly s t) : outage t = outage s := by
  rw [TrafficOnly] at h
  rw [h]
  rfl

/-- Bookkeeping that clears no pending bit. -/
theorem BookOnly.stays {t : State} (h : BookOnly s t) (bits : ∀ n, s.host.pend.getLsbD n = true → t.host.pend.getLsbD n = true)
    (hs : Stays x (outage s)) : Stays x (outage t) := by
  have rest : (outage t).2 = (outage s).2 := by
    rw [BookOnly] at h
    rw [h]
    rfl
  exact ⟨fun n hn => bits n (hs.1 n hn), rest.trans hs.2⟩

/-! ### Configuration, traffic and events -/

@[simp] theorem outage_takeSel {sel : Nat → Bool} {part : Nat × Nat} {ok : Accepted → Bool} (s : State) :
    outage (takeSel sel part ok s) = outage s := by rfl

@[simp] theorem outage_hbmWrite {a : Nat} {bs : List Byte} (s : State) : outage (hbmWrite a bs s) = outage s := by rfl

@[simp] theorem outage_feltTo {d t : Nat} {bs : List Byte} (s : State) : outage (feltTo d t bs s) = outage s :=
  (feltTo_traffic _ _ _ _).outage

@[simp] theorem outage_hostWrite {a : Nat} {bs : List Byte} (s : State) : outage (hostWrite a bs s) = outage s :=
  (hostWrite_traffic _ _ _).outage

@[simp] theorem stays_raise {n c d : Nat} (h : Stays x (outage s)) : Stays x (outage (raise n c d s)) :=
  (raise_book n c d s).stays (fun _ => pend_raise n c d) h

@[simp] theorem stays_grpNotify {g : Nat} (h : Stays x (outage s)) : Stays x (outage (grpNotify g s)) := by
  simp [grpNotify, h]

@[simp] theorem stays_grpEval {g : Nat} (h : Stays x (outage s)) : Stays x (outage (grpEval g s)) := by
  simp only [grpEval]
  split <;> simp [h]

@[simp] theorem stays_grpAdd {g : Option Nat} {n : Nat} (h : Stays x (outage s)) : Stays x (outage (grpAdd g n s)) := by
  simp only [grpAdd]
  split <;> simp [h]

@[simp] theorem outage_grpSettle {g : Option Nat} (s : State) : outage (grpSettle g s) = outage s := by
  simp only [grpSettle]
  split <;> simp

/-! ### The registers of the analog front end -/

@[simp] theorem outage_updChan {n : Nat} {f : Chan → Chan} (s : State) : outage (updChan n f s) = outage s := by rfl

@[simp] theorem outage_updDry {p : Nat} {f : Dry → Dry} (s : State) : outage (updDry p f s) = outage s := by rfl

@[simp] theorem outage_updHk {u : Nat} {f : Hk → Hk} (s : State) : outage (updHk u f s) = outage s := by rfl

@[simp] theorem outage_updSp {n : Nat} {f : Sp → Sp} (s : State) : outage (updSp n f s) = outage s := by rfl

@[simp] theorem outage_spStart {n : Nat} {f : SpFrame} (s : State) : outage (spStart n f s) = outage s := by rfl

@[simp] theorem outage_spNext {n : Nat} {fs : List SpFrame} (s : State) : outage (spNext n fs s) = outage s := by
  induction fs generalizing s with
  | nil => rfl
  | cons f fs ih => simp [spNext, ih]

@[simp] theorem outage_spPump {n : Nat} (s : State) : outage (spPump n s) = outage s := by simp [spPump]

@[simp] theorem outage_spQueue {n : Nat} {f : SpFrame} (s : State) : outage (spQueue n f s) = outage s := by simp [spQueue]

@[simp] theorem stays_shutFault {p cause : Nat} (h : Stays x (outage s)) : Stays x (outage (shutFault p cause s)) := by
  simp [shutFault, h]

@[simp] theorem stays_shutCut {n : Nat} (h : Stays x (outage s)) : Stays x (outage (shutCut n s)) := by
  refine stays_foldl (fun u p hu => ?_) _ h
  split <;> simp [hu]

/-! ### Completions -/

@[simp] theorem outage_slotDone {c : Cmd} {status percent position : Nat} (s : State) :
    outage (slotDone c status percent position s) = outage s := by
  simp only [slotDone]
  split <;> rfl

@[simp] theorem stays_writeCqe {sq status percent result position : Nat} {tag : W32} {interim : Bool} (h : Stays x (outage s)) :
    Stays x (outage (writeCqe sq tag status percent result position interim s)) := by
  simp only [writeCqe]
  split
  · exact h
  · refine stays_grpAdd ?_
    change Stays x (outage (hostWrite _ _ s))
    simp [h]

@[simp] theorem stays_cplWrite {w : Waiting} (h : Stays x (outage s)) : Stays x (outage (cplWrite w s)) := by
  simp only [cplWrite]
  split <;> simp [h]

@[simp] theorem stays_finishOnly {c : Cmd} {status percent result position : Nat} (h : Stays x (outage s)) :
    Stays x (outage (finishOnly c status percent result position s)) := by
  simp only [finishOnly]
  generalize done : slotDone c status percent position _ = u
  have hu : Stays x (outage u) := by
    rw [← done, outage_slotDone]
    exact h
  split
  · exact stays_cplWrite hu
  · exact hu

@[simp] theorem outage_removePair {sq : Nat} (s : State) : outage (removePair sq s) = outage s := by simp [removePair]

@[simp] theorem stays_settlePairs {n : Nat} (h : Stays x (outage s)) : Stays x (outage (settlePairs n s)) := by
  induction n generalizing s with
  | zero => exact h
  | succ n ih =>
    simp only [settlePairs]
    repeat' split
    all_goals simp [ih, h]

@[simp] theorem stays_finish {c : Cmd} {status percent result position : Nat} (h : Stays x (outage s)) :
    Stays x (outage (finish c status percent result position s)) := by simp [finish, h]

@[simp] theorem stays_finishOk {c : Cmd} {result position : Nat} (h : Stays x (outage s)) :
    Stays x (outage (finishOk c result position s)) := stays_finish h

@[simp] theorem stays_finishErr {c : Cmd} {status result : Nat} (h : Stays x (outage s)) :
    Stays x (outage (finishErr c status result s)) := stays_finish h

@[simp] theorem stays_finishCids {cids : List Nat} {status result position : Nat} (h : Stays x (outage s)) :
    Stays x (outage (finishCids cids status result position s)) := by
  refine stays_foldl (fun u k hu => ?_) _ h
  split <;> simp [hu]

/-! ### Records of blind intervals -/

@[simp] theorem outage_knotUpd {f : Knot → Knot} (s : State) : outage (knotUpd f s) = outage s := by rfl

@[simp] theorem outage_putDq {n : Nat} {r : Ring} (s : State) : outage (putDq n r s) = outage s := by rfl

@[simp] theorem stays_formRec {r : RecFields} {tile : Option Nat} (h : Stays x (outage s)) : Stays x (outage (formRec r tile s)) := by
  simp only [formRec, ringDrop]
  split <;> simp [h]

@[simp] theorem stays_blindBands {iv : BlindIv} {start len right left : Int} {n : Nat} (h : Stays x (outage s)) :
    Stays x (outage (blindBands iv start len right n left s)) := by
  induction n generalizing left s with
  | zero => exact h
  | succ n ih => simp [blindBands, ih, h]

@[simp] theorem stays_blindPiece {iv : BlindIv} {start stop : Int} (h : Stays x (outage s)) :
    Stays x (outage (blindPiece iv start stop s)) := by
  simp only [blindPiece]
  split
  · exact h
  · split <;> simp [h]

@[simp] theorem stays_blindPieces {limit : Int} {k : Nat} {iv : BlindIv} (h : Stays x (outage s)) :
    Stays x (outage (blindPieces limit k iv s).2) := by
  induction k generalizing iv s with
  | zero => exact h
  | succ k ih =>
    simp only [blindPieces]
    split <;> simp [ih, h]

@[simp] theorem outage_blindOpen {kind source cause tag : Nat} {start : Int} (s : State) :
    outage (blindOpen kind source cause tag start s) = outage s := by rfl

@[simp] theorem stays_blindClose {source cause tag : Nat} {stop : Int} (h : Stays x (outage s)) :
    Stays x (outage (blindClose source cause tag stop s)) := by
  simp only [blindClose]
  split <;> simp [h]

/-! ### Fields that come into force -/

@[simp] theorem outage_couchDryerTake {p : Nat} {ok : Accepted → Bool} (s : State) :
    outage (couchDryerTake p ok s) = outage s := by rfl

@[simp] theorem stays_couchDryerIdle (h : Stays x (outage s)) : Stays x (outage (couchDryerIdle s)) :=
  stays_foldl (fun u p hu => by simp [hu]) _ h

@[simp] theorem outage_layAll {vals : Tbl Nat} (s : State) : outage (layAll vals s) = outage s := by rfl

@[simp] theorem outage_dropParts {seq : W32} {gone add : List (Nat × Nat)} (s : State) :
    outage (dropParts seq gone add s) = outage s := by rfl

@[simp] theorem outage_supersede {part : Nat × Nat} {vals : Tbl Nat} (s : State) :
    outage (supersede part vals s) = outage s := by rfl

/-! ### Marker jobs -/

@[simp] theorem stays_dropJob {j : MJob} (h : Stays x (outage s)) : Stays x (outage (dropJob j s)) := by
  simp only [dropJob]
  split <;> simp [h]

@[simp] theorem outage_endDrive {n : Nat} (s : State) : outage (endDrive n s) = outage s := by simp [endDrive]

@[simp] theorem outage_shutRelease {n : Nat} (s : State) : outage (shutRelease n s) = outage s := by
  simp only [shutRelease]
  split <;> simp

/-! ### Dryer ports stop -/

@[simp] theorem outage_biasRebase {p : Nat} (s : State) : outage (biasRebase p s) = outage s := by rfl

@[simp] theorem outage_biasMove {p : Nat} {target : List Nat} (s : State) : outage (biasMove p target s) = outage s := by rfl

@[simp] theorem outage_roicSend {p kind seq w addr value : Nat} (s : State) :
    outage (roicSend p kind seq w addr value s) = outage s := by simp [roicSend]

@[simp] theorem outage_setDTab {p bank i st : Nat} (s : State) : outage (setDTab p bank i st s) = outage s := by rfl

@[simp] theorem outage_restartAll {p : Nat} (s : State) : outage (restartAll p s) = outage s := by rfl

@[simp] theorem outage_dryLay {p : Nat} {vals : Tbl Nat} (s : State) : outage (dryLay p vals s) = outage s := by simp [dryLay]

@[simp] theorem outage_drySend {p : Nat} {w : FpaWrite} (s : State) : outage (drySend p w s) = outage s := by simp [drySend]

@[simp] theorem outage_dryGroup {p : Nat} {at_ : Option Nat} {g : Accepted} (s : State) :
    outage (dryGroup p at_ g s) = outage s := by
  simp only [dryGroup]
  repeat' split
  all_goals simp

@[simp] theorem outage_dryCalWait {p : Nat} {g : Accepted} (s : State) : outage (dryCalWait p g s) = outage s := by
  simp [dryCalWait]

@[simp] theorem outage_forcedAgain {p : Nat} (s : State) : outage (forcedAgain p s) = outage s := by rfl

@[simp] theorem outage_foldl {α : Type} {f : State → α → State} (h : ∀ u a, outage (f u a) = outage u) (l : List α) (s : State) :
    outage (l.foldl f s) = outage s := foldl_keeps h l s

@[simp] theorem outage_dryCalOver {p : Nat} (s : State) : outage (dryCalOver p s) = outage s := by simp [dryCalOver]

@[simp] theorem outage_dryBoundary {p : Nat} {at_ : Option Nat} (s : State) : outage (dryBoundary p at_ s) = outage s := by
  simp [dryBoundary]

@[simp] theorem outage_dryWritesSweep {p : Nat} (s : State) : outage (dryWritesSweep p s) = outage s := by rfl

@[simp] theorem stays_dryMark {p : Nat} {md : Int} {m : DryMark} (h : Stays x (outage s)) : Stays x (outage (dryMark p md m s)) := by
  simp only [dryMark]
  split <;> simp [h]

@[simp] theorem stays_frameClose {p : Nat} {short : Bool} (h : Stays x (outage s)) : Stays x (outage (frameClose p short s)) := by
  simp only [frameClose]
  split <;> simp [h]

@[simp] theorem stays_intervalAbandon {p : Nat} {cids : List Nat} (h : Stays x (outage s)) :
    Stays x (outage (intervalAbandon p cids s)) := by
  have marked := stays_foldl (x := x) (f := fun s (m : DryStamp) => dryMark p (dryStampAt s m.enc m.tb m.mdOfs).1 m.mark s)
    (fun u m hu => stays_dryMark hu)
  simp [intervalAbandon, marked, h]

@[simp] theorem stays_closureAbandon {p : Nat} (h : Stays x (outage s)) : Stays x (outage (closureAbandon p s)) := by
  simp [closureAbandon, h]

@[simp] theorem outage_dryLand {p : Nat} (s : State) : outage (dryLand p s) = outage s := by simp [dryLand]

@[simp] theorem stays_dryHalt {p : Nat} (h : Stays x (outage s)) : Stays x (outage (dryHalt p s)) := by simp [dryHalt, h]

@[simp] theorem stays_dryStopNow {p : Nat} (h : Stays x (outage s)) : Stays x (outage (dryStopNow p s)) := by
  simp [dryStopNow, h]

@[simp] theorem stays_dryStopAll (h : Stays x (outage s)) : Stays x (outage (dryStopAll s)) :=
  stays_foldl (fun u p hu => by simp [hu]) _ h

/-! ### Calibrations end -/

@[simp] theorem outage_updEl {c i : Nat} {f : CalEl → CalEl} (s : State) : outage (updEl c i f s) = outage s := by rfl

@[simp] theorem outage_hkResume {u : Nat} (s : State) : outage (hkResume u s) = outage s := by rfl

@[simp] theorem outage_adcRestart {i : Nat} (s : State) : outage (adcRestart i s) = outage s := by rfl

@[simp] theorem outage_elBack {c i : Nat} (s : State) : outage (elBack c i s) = outage s := by simp [elBack]

@[simp] theorem outage_elDue {c i : Nat} (s : State) : outage (elDue c i s) = outage s := by rfl

@[simp] theorem outage_calAbandon (s : State) : outage (calAbandon s) = outage s := by simp [calAbandon]

end Rules

end Sys2Proof.Machine


/-! PROOFS. The failure of the AFE link disarms every channel and raises each one's source (R8); the end of a rate window (R23, R175). -/

namespace Sys2Proof.Machine

/-! ### Every drive and job goes -/

/-- A bit that is cleared is 0, and every other bit is as it was. -/
theorem bitOf_setBitN_false (v i m : Nat) : bitOf (setBitN v i false) m = (bitOf v m && decide (m ≠ i)) := by
  unfold setBitN bitOf
  by_cases bit : v.testBit i = false
  · rw [if_pos bit]
    by_cases same : m = i
    · simp [same, bit]
    · simp [same]
  · have low : v % 2 ^ i < 2 ^ i := Nat.mod_lt _ (by positivity)
    have odd : v / 2 ^ i % 2 = 1 := by simpa [Nat.testBit_eq_decide_div_mod_eq] using bit
    have whole : v = 2 ^ i * (2 * (v / 2 ^ i / 2) + 1) + v % 2 ^ i := by
      rw [show 2 * (v / 2 ^ i / 2) + 1 = v / 2 ^ i by omega, Nat.div_add_mod]
    generalize v / 2 ^ i / 2 = q at whole
    generalize v % 2 ^ i = r at whole low
    subst whole
    have less : 2 ^ i * (2 * q + 1) + r - 2 ^ i = 2 ^ i * (2 * q) + r := by
      rw [Nat.mul_add, Nat.mul_one]
      omega
    rw [if_neg bit, if_neg (by decide), less, Nat.testBit_two_pow_mul_add _ low, Nat.testBit_two_pow_mul_add _ low]
    rcases lt_trichotomy m i with h | rfl | h
    · simp [h, h.ne]
    · simp
    · obtain ⟨k, rfl⟩ := Nat.exists_eq_add_of_lt h
      simp [show ¬ i + k + 1 < i by omega, show i + k + 1 - i = k + 1 by omega, Nat.testBit_succ, show i + k + 1 ≠ i by omega,
        show (2 * q + 1) / 2 = q by omega]

/-- Channel `n` goes off: its drive and its jobs go, and it is disarmed. -/
def discardOne (s : State) (n : Nat) : State :=
  shutCut n ((allJobs (chan s n)).foldl (fun s j => dropJob j s)
    (setArm n false (endDrive n (updChan n (fun c => { c with incoming := [], jobs := [], wait := none }) s))))

theorem discardAll_eq (s : State) : discardAll true s = (List.range 16).foldl discardOne s := rfl

/-- A view with ARM bit `n` at 0. -/
def disarmed (n : Nat) (x : OutageView) : OutageView :=
  (x.1, x.2.1, x.2.2.1, x.2.2.2.1, setBitN x.2.2.2.2.1 n false, x.2.2.2.2.2)

theorem outage_setArm (n : Nat) (s : State) : outage (setArm n false s) = disarmed n (outage s) := rfl

theorem stays_discardOne (s : State) (n : Nat) : Stays (disarmed n (outage s)) (outage (discardOne s n)) := by
  refine stays_shutCut (stays_foldl (fun u j hu => stays_dropJob hu) _ ?_)
  rw [outage_setArm, outage_endDrive, outage_updChan]
  exact Stays.refl _

/-- What the channels of a list that go off leave: time, the link and the sequence number, and ARM but for their bits. -/
theorem discardOne_foldl (l : List Nat) (s : State) : let t := l.foldl discardOne s
    t.clk = s.clk ∧ t.afe.linkOk = s.afe.linkOk ∧ t.afe.linkLost = s.afe.linkLost ∧ t.cfg.seq = s.cfg.seq
      ∧ ∀ m, bitOf t.afe.arm m = (bitOf s.afe.arm m && decide (m ∉ l)) := by
  induction l generalizing s with
  | nil => exact ⟨rfl, rfl, rfl, rfl, fun m => by simp⟩
  | cons n l ih =>
    obtain ⟨clk, ok, lost, seq, arm⟩ := ih (discardOne s n)
    have one := (stays_discardOne s n).2
    simp only [outage, disarmed, Prod.mk.injEq] at one
    obtain ⟨clk1, ok1, lost1, arm1, seq1⟩ := one
    refine ⟨clk.trans clk1, ok.trans ok1, lost.trans lost1, seq.trans seq1, fun m => (arm m).trans ?_⟩
    rw [arm1, bitOf_setBitN_false, Bool.and_assoc, ← Bool.decide_and]
    simp [not_or]

/-! ### Each channel's source is raised -/

/-- Each of a list of sources that is raised is pending at the end. -/
theorem pendBit_foldl_raise {base cause : Nat} (l : List Nat) (s : State) (small : ∀ n ∈ l, base + n < 512) :
    ∀ n ∈ l, pendBit (l.foldl (fun s n => raise (base + n) cause 0 s) s) (base + n) = true := by
  induction l generalizing s with
  | nil => simp
  | cons a l ih =>
    intro n hn
    rcases List.mem_cons.mp hn with rfl | hn
    · have kept := stays_foldl (x := outage (raise (base + n) cause 0 s)) (f := fun s n => raise (base + n) cause 0 s)
        (fun u a hu => stays_raise hu) l (Stays.refl _)
      exact kept.1 _ (pendBit_raise_self (small n (by simp)) _ _ _)
    · exact ih _ (fun n hn => small n (by simp [hn])) n hn

/-- The events of the lost link, and what stops with it. -/
theorem afeLink_of_discarded {s u : State} (ok : s.afe.linkOk = true)
    (off : discardAll true { s with afe := { s.afe with linkOk := false, linkLost := true } } = u) :
    (∀ n, n < 16 → pendBit (afeLink s) (198 + n) = true) ∧ (outage (afeLink s)).2 = (outage u).2 := by
  have run : afeLink s = calAbandon (dryStopAll ((List.range 4).foldl
      (fun s p => if (dry s p).running then raise (121 + p) 0xF0 0 s else s)
      ((List.range 16).foldl (fun s n => raise (198 + n) 0xF0 0 s) u))) := by
    simp only [afeLink, ok, off, Bool.not_true, Bool.false_eq_true, if_false]
  have raised := pendBit_foldl_raise (base := 198) (cause := 0xF0) (List.range 16) u fun n hn => by
    have := List.mem_range.mp hn
    omega
  have chans : Stays (outage u) (outage ((List.range 16).foldl (fun s n => raise (198 + n) 0xF0 0 s) u)) :=
    stays_foldl (fun v n hv => stays_raise hv) _ (Stays.refl _)
  generalize (List.range 16).foldl (fun s n => raise (198 + n) 0xF0 0 s) u = s2 at run raised chans
  have ended : Stays (outage s2) (outage (afeLink s)) := by
    rw [run, outage_calAbandon]
    exact stays_dryStopAll (stays_foldl (fun v p hv => by simp [hv]) _ (Stays.refl _))
  exact ⟨fun n hn => ended.1 _ (raised n (List.mem_range.mpr hn)), ended.2.trans chans.2⟩

/-- The AFE link fails (R8). -/
theorem afeLink_of_ok {s : State} (ok : s.afe.linkOk = true) : let t := afeLink s
    t.afe.linkOk = false ∧ t.afe.linkLost = true ∧ (∀ n, n < 16 → bitOf t.afe.arm n = false)
      ∧ (∀ n, n < 16 → pendBit t (198 + n) = true) ∧ t.clk = s.clk ∧ t.cfg.seq = s.cfg.seq := by
  have off := discardOne_foldl (List.range 16) { s with afe := { s.afe with linkOk := false, linkLost := true } }
  rw [← discardAll_eq] at off
  obtain ⟨pend, rest⟩ := afeLink_of_discarded ok rfl
  generalize discardAll true { s with afe := { s.afe with linkOk := false, linkLost := true } } = u at off rest
  obtain ⟨clk, down, lost, seq, arm⟩ := off
  generalize afeLink s = t at pend rest
  simp only [outage, Prod.mk.injEq] at rest
  obtain ⟨clk', down', lost', arm', seq'⟩ := rest
  refine ⟨down'.trans down, lost'.trans lost, fun n hn => ?_, pend, clk'.trans clk, seq'.trans seq⟩
  rw [arm', arm n]
  simp [hn]

theorem foldl_of_fixed {α : Type} {f : State → α → State} {s : State} (l : List α) (h : ∀ a ∈ l, f s a = s) : l.foldl f s = s := by
  induction l with
  | nil => rfl
  | cons a l ih => rw [List.foldl_cons, h a (by simp), ih fun b hb => h b (by simp [hb])]

theorem restartAll_foldl_of_stopped {s : State} (stopped : ∀ p, p < 4 → (dry s p).running = false) :
    (List.range 4).foldl (fun s p => if (dry s p).running then restartAll p s else s) s = s :=
  foldl_of_fixed _ fun p hp => if_neg (Bool.eq_false_iff.mp (stopped p (List.mem_range.mp hp)))

/-- The link is back, with nothing that waited and no running port (R8). -/
theorem afeLinkRestored_of_quiet {s : State} (down : s.afe.linkOk = false) (wait : s.afe.armWait = 0)
    (stopped : ∀ p, p < 4 → (dry s p).running = false) : afeLinkRestored s =
      (List.range 4).foldl (fun s u => selfcalWaited u s) { s with afe := { s.afe with linkOk := true, linkLost := false } } := by
  rw [afeLinkRestored, if_neg (by simp [down])]
  simp only [wait]
  rw [foldl_of_fixed (List.range 16) fun n _ => if_neg (by simp [bitOf])]
  exact congrArg ((List.range 4).foldl fun s u => selfcalWaited u s) (restartAll_foldl_of_stopped stopped)

/-! ### Rate windows -/

/-- What a judgement of OVERLOAD leaves: time, configuration, HBM, commands, the window, and CAP and LOAD of each wire. -/
def rated (s : State) : (Clk × Cfg × Mem × Cmds × Nat × Tbl Nat) × (Nat → Nat × Nat) :=
  ((s.clk, s.cfg, s.hbm, s.cmds, s.ing.rateNs, s.ing.tokens), fun w => ((wire s w).cap, (wire s w).load))

theorem wire_updWire_other {v w : Nat} (f : Wire → Wire) (s : State) (h : v ≠ w) : wire (updWire w f s) v = wire s v :=
  tblGet_tblUpd_other _ _ _ h

theorem rated_updWire {w : Nat} {f : Wire → Wire} (s : State) (hf : ∀ x : Wire, (f x).cap = x.cap ∧ (f x).load = x.load) :
    rated (updWire w f s) = rated s := by
  refine Prod.ext rfl (funext fun v => ?_)
  change ((wire (updWire w f s) v).cap, (wire (updWire w f s) v).load) = ((wire s v).cap, (wire s v).load)
  by_cases h : v = w
  · subst h
    rw [wire_updWire_self, (hf _).1, (hf _).2]
  · rw [wire_updWire_other f s h]

theorem rated_raise (n c d : Nat) (s : State) : rated (raise n c d s) = rated s := by
  have book := raise_book n c d s
  simp only [rated, wire, book.clk, book.cfg, book.hbm, book.ing, raise_cmds]

theorem rated_overloadJudge (w : Nat) (s : State) : rated (overloadJudge w s) = rated s := by
  simp only [overloadJudge]
  split
  · split
    · exact rated_updWire s fun _ => ⟨rfl, rfl⟩
    · exact (rated_raise _ _ _ _).trans (rated_updWire s fun _ => ⟨rfl, rfl⟩)
  · split
    · split
      · exact (rated_raise _ _ _ _).trans (rated_updWire s fun _ => ⟨rfl, rfl⟩)
      · exact rated_updWire s fun _ => ⟨rfl, rfl⟩
    · rfl

/-- A wire takes the counts of a window. -/
def takeCounts (cap load : Nat → Nat) (s : State) (w : Nat) : State := updWire w (fun x => { x with cap := cap w, load := load w }) s

theorem wire_takeCounts (cap load : Nat → Nat) {l : List Nat} {w : Nat} (s : State) (h : w ∈ l) :
    (wire (l.foldl (takeCounts cap load) s) w).cap = cap w ∧ (wire (l.foldl (takeCounts cap load) s) w).load = load w := by
  induction l using List.reverseRecOn with
  | nil => simp at h
  | append_singleton l a ih =>
    rw [List.foldl_append, List.foldl_cons, List.foldl_nil]
    by_cases same : w = a
    · subst same
      rw [takeCounts, wire_updWire_self]
      exact ⟨rfl, rfl⟩
    · rw [takeCounts, wire_updWire_other _ _ same]
      exact ih (by simpa [same] using h)

/-- What the takes leave. -/
theorem takeCounts_foldl (cap load : Nat → Nat) (l : List Nat) (s : State) : (rated (l.foldl (takeCounts cap load) s)).1 = (rated s).1 :=
  foldl_keeps (g := fun s => (rated s).1) (f := takeCounts cap load) (fun _ _ => rfl) l s

/-- A unit's rate register takes the counts of a window. -/
def takeRate (cap load : Nat → Nat) (s : State) (i : Nat) : State :=
  { s with ing := { s.ing with rates := tblSet s.ing.rates (9 + i) (cap (9 + i), load (9 + i)) } }

theorem rated_takeRate (cap load : Nat → Nat) (l : List Nat) (s : State) : rated (l.foldl (takeRate cap load) s) = rated s :=
  foldl_keeps (g := rated) (f := takeRate cap load) (fun _ _ => rfl) l s

/-- The end of a window is due. -/
theorem rateWindow_of_due {s : State} (caps : List Nat) (due : s.ing.rateNs + 1000000 ≤ s.clk.ns) : let t := rateWindow caps s
    t.ing.rateNs = s.ing.rateNs + 1000000 ∧ t.ing.tokens = []
      ∧ (∀ w, w < 9 → (wire t w).cap = caps.getD w 0 ∧ (wire t w).load = tblGet 0 s.ing.tokens w / 1000)
      ∧ t.clk = s.clk ∧ t.cfg = s.cfg ∧ t.hbm = s.hbm ∧ t.cmds = s.cmds := by
  let s0 : State := { s with ing := { s.ing with rateNs := s.ing.rateNs + 1000000, tokens := [] } }
  let cap (k : Nat) : Nat := caps.getD k 0
  let load (k : Nat) : Nat := tblGet 0 s.ing.tokens k / 1000
  let s1 := (List.range 9).foldl (takeCounts cap load) s0
  have run : rateWindow caps s = (List.range 9).foldl (fun s w => overloadJudge w s) ((List.range 14).foldl (takeRate cap load) s1) :=
    if_neg (Nat.not_lt.mpr due)
  have same : rated (rateWindow caps s) = rated s1 := by
    rw [run]
    exact (foldl_keeps (g := rated) (fun u w => rated_overloadJudge w u) _ _).trans (rated_takeRate cap load _ s1)
  have rest : (rated (rateWindow caps s)).1 = (rated s0).1 := (congrArg Prod.fst same).trans (takeCounts_foldl cap load _ s0)
  simp only [rated, Prod.mk.injEq] at rest
  obtain ⟨clk, cfg, hbm, cmds, rate, tokens⟩ := rest
  refine ⟨rate, tokens, fun w hw => ?_, clk, cfg, hbm, cmds⟩
  obtain ⟨hcap, hload⟩ := wire_takeCounts cap load s0 (List.mem_range.mpr hw)
  have gauge := congrFun (congrArg Prod.snd same) w
  simp only [rated, Prod.mk.injEq] at gauge
  exact ⟨gauge.1.trans hcap, gauge.2.trans hload⟩

/-- Settles O56: the crystal's rows by their definitions, the link's by what the stops leave, the window by its two folds. -/
theorem crystalAndAfeFailures : Obligations.CrystalAndAfeFailures := by
  intro s hs
  refine ⟨fun sound => ?_, fun failed => ?_, fun failed => ?_, fun ok => ?_, fun down wait stopped => ?_,
    fun caps => ⟨fun early => ?_, fun due => ?_⟩⟩
  · exact whenReady_next hs (if_neg (by simp [sound]))
  · exact whenReady_next hs (if_pos failed)
  · exact whenReady_next hs (if_neg (by simp [failed]))
  · exact ⟨_, whenReady_next hs rfl, afeLink_of_ok ok⟩
  · exact whenReady_next hs (afeLinkRestored_of_quiet down wait stopped)
  · exact whenReady_next hs (if_pos early)
  · exact ⟨_, whenReady_next hs rfl, rateWindow_of_due caps due⟩

end Sys2Proof.Machine
